-- ==== Sys2Proof/Word.lean ====
section
/-! DEFINITION. Word.lean: the word types of the HF-7240 (R3) and their plainest arithmetic. -/

namespace Sys2Proof

/-- A 32-bit register or register-file word (R3). -/
abbrev Word := BitVec 32
/-- One byte; multi-byte values are little-endian (R3). -/
abbrev Byte := BitVec 8
/-- A 64-bit count or time. -/
abbrev DWord := BitVec 64

/-- A bit field `[hi:lo]`, inclusive at both ends (R3). -/
structure Fld where
  hi : Nat
  lo : Nat
  deriving DecidableEq, Repr

/-- The width of a field in bits. -/
def Fld.width (f : Fld) : Nat := f.hi + 1 - f.lo

/-- Bits `[hi:lo]` of a natural number. -/
def natBits (n hi lo : Nat) : Nat := (n >>> lo) % 2 ^ (hi + 1 - lo)

/-- The unsigned value of field `f` of `w` (R3). -/
def Word.fld (w : Word) (f : Fld) : Nat := natBits w.toNat f.hi f.lo

/-- Bit `i` of `w`. -/
def Word.bit (w : Word) (i : Nat) : Bool := w.toNat.testBit i

/-- The mask of a field. -/
def Fld.mask (f : Fld) : Nat := (2 ^ f.width - 1) <<< f.lo

/-- `w` with field `f` replaced by `v` (truncated to the field). -/
def Word.setFld (w : Word) (f : Fld) (v : Nat) : Word :=
  BitVec.ofNat 32 ((w.toNat &&& (0xFFFFFFFF ^^^ f.mask)) ||| ((v % 2 ^ f.width) <<< f.lo))

/-- The signed reading of the low `w` bits of `n`. -/
def sext (w n : Nat) : Int :=
  let m := n % 2 ^ w
  if m < 2 ^ (w - 1) then (m : Int) else (m : Int) - (2 ^ w : Nat)

/-- The word of an integer, modulo 2^32. -/
def Word.ofInt (i : Int) : Word := BitVec.ofInt 32 i

/-- `b` as 0 or 1. -/
def b2n (b : Bool) : Nat := if b then 1 else 0

/-- Addition that stops at `2^w - 1` (the counters that saturate). -/
def satAdd (w a b : Nat) : Nat := min (a + b) (2 ^ w - 1)

/-- The nearer limit of `[lo, hi]`. -/
def clampNat (lo hi n : Nat) : Nat := max lo (min hi n)

/-- `n` rounded up to a multiple of `m`. -/
def ceilTo (m n : Nat) : Nat := (n + m - 1) / m * m

/-- Bytes of a natural number, least significant first, `k` of them (R3). -/
def leBytes : Nat → Nat → List Byte
  | 0, _ => []
  | k + 1, n => BitVec.ofNat 8 n :: leBytes k (n / 256)

/-- The number a little-endian list of bytes spells (R3). -/
def ofLe : List Byte → Nat
  | [] => 0
  | b :: r => b.toNat + 256 * ofLe r

/-- The number a big-endian list of bytes spells (network order, R3). -/
def ofBe (l : List Byte) : Nat := ofLe l.reverse

/-- Bytes of a number in network order. -/
def beBytes (k n : Nat) : List Byte := (leBytes k n).reverse

/-- The low 32 bits of a 64-bit value. -/
def lo32 (n : Nat) : Word := BitVec.ofNat 32 n
/-- Bits [63:32] of a 64-bit value. -/
def hi32 (n : Nat) : Word := BitVec.ofNat 32 (n / 2 ^ 32)

end Sys2Proof
end

