-- ==== Sys2Proof/Machine/Map.lean ====
section
/-! DEFINITION. Machine/Map.lean: the finite map every table, register file and memory of the state is held in: a list of
key and value pairs with strictly rising keys and no entry equal to what an unlisted key reads as. -/

namespace Sys2Proof

/-- A sparse table: keys strictly rising, no entry equal to the default of its key (`mapWf`). -/
abbrev Map (α : Type) := List (Nat × α)

/-- The value at key `k`, `d` where no entry has the key. -/
def mapGet {α : Type} (d : α) : Map α → Nat → α
  | [], _ => d
  | (k', v) :: r, k => if k' = k then v else mapGet d r k

/-- Insert or replace, keeping the keys rising. -/
def mapInsert {α : Type} (k : Nat) (v : α) : Map α → Map α
  | [] => [(k, v)]
  | (k', v') :: r =>
    if k' < k then (k', v') :: mapInsert k v r
    else if k' = k then (k, v) :: r
    else (k, v) :: (k', v') :: r

/-- Remove every entry of key `k`. -/
def mapErase {α : Type} (k : Nat) : Map α → Map α
  | [] => []
  | (k', v') :: r => if k' = k then mapErase k r else (k', v') :: mapErase k r

/-- Write `v` at `k`: writing the default removes the entry. -/
def mapSet {α : Type} [DecidableEq α] (d : α) (m : Map α) (k : Nat) (v : α) : Map α :=
  if v = d then mapErase k m else mapInsert k v m

/-- Remove every entry whose key satisfies `p` (a reset of a range). -/
def mapDrop {α : Type} (p : Nat → Bool) (m : Map α) : Map α := m.filter (fun e => !p e.1)

/-- Every key is greater than `k`. -/
def keysAbove {α : Type} (k : Nat) : Map α → Bool
  | [] => true
  | (k', _) :: r => decide (k < k') && keysAbove k r

/-- The canonical form: keys strictly rising and no entry equal to the default of its key. -/
def mapWf {α : Type} [DecidableEq α] (d : Nat → α) : Map α → Bool
  | [] => true
  | (k, v) :: r => keysAbove k r && decide (v ≠ d k) && mapWf d r

end Sys2Proof
end

