-- ==== Sys2Proof/Machine/RegTable.lean ====
section
/-! DEFINITION. Machine/RegTable.lean: the register descriptions of the spec (R4 to R9), one `Reg` for every register heading:
 offset, repetition (R9), reset value (R7), the bits of each access code (R4) and the portable bits (R8); and one `Fld` for
every named field. Text derived from the register tables of the spec's own chapters. -/

namespace Sys2Proof

/-- One register description (R4, R9): instance (i, j) lies at `off + s1*i + s2*j` of its block. -/
structure Reg where
  off : Nat
  n1 : Nat := 1
  s1 : Nat := 0
  n2 : Nat := 1
  s2 : Nat := 0
  reset : Nat := 0
  rw : Nat := 0
  w1c : Nat := 0
  w1s : Nat := 0
  wo : Nat := 0
  rc : Nat := 0
  writeOnly : Bool := false
  port : Nat := 0
  deriving DecidableEq, Repr

/-! ### Registers of the unit header, R16 -/

/-- UNIT_ID (spec/01_organisation.md). -/
def R.UNIT_ID : Reg := { off := 0x0 }
/-- UNIT_REV (spec/01_organisation.md). -/
def R.UNIT_REV : Reg := { off := 0x4, reset := 0x10200 }
/-- CHILD_COUNT (spec/01_organisation.md). -/
def R.CHILD_COUNT : Reg := { off := 0x8 }
/-- CHILD_TABLE (spec/01_organisation.md). -/
def R.CHILD_TABLE : Reg := { off := 0xC }
/-- PWR_REQ (spec/01_organisation.md). -/
def R.PWR_REQ : Reg := { off := 0x10, reset := 0x1, rw := 0x3, port := 0x3 }
/-- PWR_STATE (spec/01_organisation.md). -/
def R.PWR_STATE : Reg := { off := 0x14 }
/-- FAULT_SUM (spec/01_organisation.md). -/
def R.FAULT_SUM : Reg := { off := 0x18, w1c := 0xFF }
/-- FAULT_MASK (spec/01_organisation.md). -/
def R.FAULT_MASK : Reg := { off := 0x1C, rw := 0xFF, port := 0xFF }
/-- EPOCH (spec/01_organisation.md). -/
def R.EPOCH : Reg := { off := 0x20 }
/-- CFG_EPOCH (spec/01_organisation.md). -/
def R.CFG_EPOCH : Reg := { off := 0x24 }
/-- LAST_WRITER (spec/01_organisation.md). -/
def R.LAST_WRITER : Reg := { off := 0x30, reset := 0xFFF }
/-- HEALTH_TICK (spec/01_organisation.md). -/
def R.HEALTH_TICK : Reg := { off := 0x34 }
/-- RESET_CTL (spec/01_organisation.md). -/
def R.RESET_CTL : Reg := { off := 0x38, rw := 0x2, wo := 0x1 }
/-- CFG_DIGEST_LO (spec/01_organisation.md). -/
def R.CFG_DIGEST_LO : Reg := { off := 0x28 }
/-- CFG_DIGEST_HI (spec/01_organisation.md). -/
def R.CFG_DIGEST_HI : Reg := { off := 0x2C }
/-- ENERGY_LO (spec/01_organisation.md). -/
def R.ENERGY_LO : Reg := { off := 0x3C }
/-- ENERGY_HI (spec/01_organisation.md). -/
def R.ENERGY_HI : Reg := { off := 0x40 }

/-! ### Registers of the device UMB -/

/-- MODE_REQ (spec/02_operating_modes.md). -/
def R.MODE_REQ : Reg := { off := 0x100, reset := 0x601, rw := 0xE07, wo := 0x1000, port := 0xE07 }
/-- MODE_STATUS (spec/02_operating_modes.md). -/
def R.MODE_STATUS : Reg := { off := 0x104, reset := 0x101 }
/-- MODE_LEAD (spec/02_operating_modes.md). -/
def R.MODE_LEAD : Reg := { off := 0x118, reset := 0x40, rw := 0x7FF, port := 0x7FF }
/-- MODE_SWAP_TIME_LO (spec/02_operating_modes.md). -/
def R.MODE_SWAP_TIME_LO : Reg := { off := 0x108 }
/-- MODE_SWAP_TIME_HI (spec/02_operating_modes.md). -/
def R.MODE_SWAP_TIME_HI : Reg := { off := 0x10C }
/-- PLAN_DIR_LO (spec/02_operating_modes.md). -/
def R.PLAN_DIR_LO : Reg := { off := 0x110, rw := 0xFFFFF000, port := 0xFFFFF000 }
/-- PLAN_DIR_HI (spec/02_operating_modes.md). -/
def R.PLAN_DIR_HI : Reg := { off := 0x114, rw := 0xFF, port := 0xFF }
/-- FAULT_EVT (spec/16_faults_spares.md). -/
def R.FAULT_EVT_D : Reg := { off := 0x200, rw := 0xC0000FFF, port := 0xC0000FFF }
/-- SAFE_CAUSE (spec/16_faults_spares.md). -/
def R.SAFE_CAUSE : Reg := { off := 0x204 }
/-- MCLOG_POP (spec/16_faults_spares.md). -/
def R.MCLOG_POP : Reg := { off := 0x208, rc := 0x8000003F }
/-- MCLOG_OVF (spec/16_faults_spares.md). -/
def R.MCLOG_OVF : Reg := { off := 0x20C, rc := 0xFFFFFFFF }
/-- MCLOG_W_k (spec/16_faults_spares.md). -/
def R.MCLOG_W : Reg := { off := 0x220, n1 := 8, s1 := 0x4 }

/-! ### Registers of a quadrant UMB -/

/-- FAULT_EVT (spec/16_faults_spares.md). -/
def R.FAULT_EVT_Q : Reg := { off := 0x100, rw := 0x80000FFF, port := 0x80000FFF }
/-- READMIT (spec/16_faults_spares.md). -/
def R.READMIT : Reg := { off := 0x104, wo := 0xC000007F, writeOnly := true }
/-- SUB_LOG (spec/16_faults_spares.md). -/
def R.SUB_LOG : Reg := { off := 0x108, w1c := 0x80000000 }
/-- TUS_HEALTH_t (spec/16_faults_spares.md). -/
def R.TUS_HEALTH : Reg := { off := 0x120, n1 := 7, s1 := 0x4, reset := 0x1000000 }

/-! ### Registers of a Sward router block -/

/-- SW_CTL (spec/03_sward.md). -/
def R.SW_CTL : Reg := { off := 0x100, reset := 0x4, rw := 0xF, port := 0xF }
/-- SW_STATUS (spec/03_sward.md). -/
def R.SW_STATUS : Reg := { off := 0x104, reset := 0xEE }
/-- PLAN_ERR (spec/03_sward.md). -/
def R.PLAN_ERR : Reg := { off := 0x108 }
/-- LINK_DIS_LO (spec/03_sward.md). -/
def R.LINK_DIS_LO : Reg := { off := 0x10C, w1s := 0xFFFFFFFF }
/-- LINK_DIS_HI (spec/03_sward.md). -/
def R.LINK_DIS_HI : Reg := { off := 0x110, w1s := 0xFFFFFFFF }
/-- TXN_TIMEOUT (spec/03_sward.md). -/
def R.TXN_TIMEOUT : Reg := { off := 0x114, reset := 0x64, rw := 0x3FFF, port := 0x3FFF }
/-- ATAB_WRITE (spec/03_sward.md). -/
def R.ATAB_WRITE : Reg := { off := 0x120, wo := 0xFFFFF1FF, writeOnly := true }
/-- ATAB_RD_SEL (spec/03_sward.md). -/
def R.ATAB_RD_SEL : Reg := { off := 0x124, rw := 0xFFFFF000 }
/-- ATAB_RD_DATA (spec/03_sward.md). -/
def R.ATAB_RD_DATA : Reg := { off := 0x128 }
/-- VIOL_POP (spec/03_sward.md). -/
def R.VIOL_POP : Reg := { off := 0x130, rc := 0xFFFFFFFF }
/-- VIOL_W1 (spec/03_sward.md). -/
def R.VIOL_W1 : Reg := { off := 0x134 }
/-- VIOL_W2 (spec/03_sward.md). -/
def R.VIOL_W2 : Reg := { off := 0x138 }
/-- VIOL_OVF (spec/03_sward.md). -/
def R.VIOL_OVF : Reg := { off := 0x13C, rc := 0xFFFFFFFF }
/-- SEM_REL (spec/03_sward.md). -/
def R.SEM_REL : Reg := { off := 0x1C0, wo := 0x1F, writeOnly := true }
/-- SEM_n (spec/03_sward.md). -/
def R.SEM : Reg := { off := 0x140, n1 := 32, s1 := 0x4, reset := 0x1, rc := 0x1 }
/-- PMON_CTL_m (spec/03_sward.md). -/
def R.PMON_CTL : Reg := { off := 0x200, n1 := 8, s1 := 0x10, reset := 0x200000, rw := 0xFF3FFD, wo := 0x2, port := 0xFF3FFD }
/-- PMON_CNT_LO_m (spec/03_sward.md). -/
def R.PMON_CNT_LO : Reg := { off := 0x204, n1 := 8, s1 := 0x10 }
/-- PMON_CNT_HI_m (spec/03_sward.md). -/
def R.PMON_CNT_HI : Reg := { off := 0x208, n1 := 8, s1 := 0x10 }

/-! ### Registers of a home slice -/

/-- MC_CTL (spec/04_stacked_memory.md). -/
def R.MC_CTL : Reg := { off := 0x100, reset := 0xA, rw := 0xFF, port := 0xFF }
/-- MC_STATUS (spec/04_stacked_memory.md). -/
def R.MC_STATUS : Reg := { off := 0x104 }
/-- SCRUB_CTL (spec/04_stacked_memory.md). -/
def R.SCRUB_CTL : Reg := { off := 0x108, reset := 0xD6, rw := 0xFFFFFF, port := 0xFFFFFF }
/-- SCRUB_POS (spec/04_stacked_memory.md). -/
def R.SCRUB_POS : Reg := { off := 0x10C }
/-- ECC_CORR_CNT (spec/04_stacked_memory.md). -/
def R.ECC_CORR_CNT : Reg := { off := 0x110, rc := 0xFFFFFFFF }
/-- ECC_UE_CNT (spec/04_stacked_memory.md). -/
def R.ECC_UE_CNT : Reg := { off := 0x114, rc := 0xFFFFFFFF }
/-- ECC_LOG_0 (spec/04_stacked_memory.md). -/
def R.ECC_LOG_0 : Reg := { off := 0x118 }
/-- ECC_LOG_1 (spec/04_stacked_memory.md). -/
def R.ECC_LOG_1 : Reg := { off := 0x11C, w1c := 0x100 }
/-- DIR_CTL (spec/15_coherence.md). -/
def R.DIR_CTL : Reg := { off := 0x2000, reset := 0x20, rw := 0xFF, port := 0xFF }
/-- DIR_STATUS (spec/15_coherence.md). -/
def R.DIR_STATUS : Reg := { off := 0x2004 }
/-- DIR_ERR (spec/15_coherence.md). -/
def R.DIR_ERR : Reg := { off := 0x2008, w1c := 0x80000000 }
/-- DIR_CNT_LO_k (spec/15_coherence.md). -/
def R.DIR_CNT_LO : Reg := { off := 0x2100, n1 := 8, s1 := 0x8 }
/-- DIR_CNT_HI_k (spec/15_coherence.md). -/
def R.DIR_CNT_HI : Reg := { off := 0x2104, n1 := 8, s1 := 0x8 }

/-! ### Registers of home slice 0 of Q0 only -/

/-- REGION_ERR (spec/04_stacked_memory.md). -/
def R.REGION_ERR : Reg := { off := 0x120, w1c := 0x100 }
/-- CMP_SEL_m (spec/04_stacked_memory.md). -/
def R.CMP_SEL : Reg := { off := 0x200, n1 := 8, s1 := 0x20, rw := 0x1FF }
/-- CMP_WR_LO_m (spec/04_stacked_memory.md). -/
def R.CMP_WR_LO : Reg := { off := 0x204, n1 := 8, s1 := 0x20 }
/-- CMP_WR_HI_m (spec/04_stacked_memory.md). -/
def R.CMP_WR_HI : Reg := { off := 0x208, n1 := 8, s1 := 0x20 }
/-- CMP_PACK_LO_m (spec/04_stacked_memory.md). -/
def R.CMP_PACK_LO : Reg := { off := 0x20C, n1 := 8, s1 := 0x20 }
/-- CMP_PACK_HI_m (spec/04_stacked_memory.md). -/
def R.CMP_PACK_HI : Reg := { off := 0x210, n1 := 8, s1 := 0x20 }
/-- CMP_RD_LO_m (spec/04_stacked_memory.md). -/
def R.CMP_RD_LO : Reg := { off := 0x214, n1 := 8, s1 := 0x20 }
/-- CMP_RD_HI_m (spec/04_stacked_memory.md). -/
def R.CMP_RD_HI : Reg := { off := 0x218, n1 := 8, s1 := 0x20 }
/-- REG_BASE_n (spec/04_stacked_memory.md). -/
def R.REG_BASE : Reg := { off := 0x400, n1 := 256, s1 := 0x10, rw := 0xFFFFF, port := 0xFFFFF }
/-- REG_SIZE_n (spec/04_stacked_memory.md). -/
def R.REG_SIZE : Reg := { off := 0x404, n1 := 256, s1 := 0x10, rw := 0xFFFFF, port := 0xFFFFF }
/-- REG_ATTR_n (spec/04_stacked_memory.md). -/
def R.REG_ATTR : Reg := { off := 0x408, n1 := 256, s1 := 0x10, rw := 0x7E0F, w1s := 0x80000000, port := 0x80007E0F }
/-- STASH_BASE_n (spec/15_coherence.md). -/
def R.STASH_BASE : Reg := { off := 0x2200, n1 := 16, s1 := 0x8, rw := 0xFFFFF, port := 0xFFFFF }
/-- STASH_CFG_n (spec/15_coherence.md). -/
def R.STASH_CFG : Reg := { off := 0x2204, n1 := 16, s1 := 0x8, rw := 0x81FFFFFF, port := 0x81FFFFFF }

/-! ### Registers of a Sedge engine -/

/-- ENG_CTL (spec/05_sedge_engines.md). -/
def R.ENG_CTL : Reg := { off := 0x100, wo := 0x7, writeOnly := true }
/-- ENG_STATUS (spec/05_sedge_engines.md). -/
def R.ENG_STATUS : Reg := { off := 0x104 }
/-- CS_IMAGE (spec/05_sedge_engines.md). -/
def R.CS_IMAGE : Reg := { off := 0x108, rw := 0xFFFFFFFF, port := 0xFFFFFFFF }
/-- MC_LOG (spec/05_sedge_engines.md). -/
def R.MC_LOG : Reg := { off := 0x10C, w1c := 0x80000000 }
/-- CS_ERR_INJ (spec/05_sedge_engines.md). -/
def R.CS_ERR_INJ : Reg := { off := 0x110, wo := 0x1FFFF, writeOnly := true }
/-- EXC_CNT (spec/05_sedge_engines.md). -/
def R.EXC_CNT : Reg := { off := 0x114, rc := 0xFFFFFFFF }
/-- EXC_NEST_CNT (spec/05_sedge_engines.md). -/
def R.EXC_NEST_CNT : Reg := { off := 0x118, rc := 0xFFFFFFFF }
/-- ISSUE_CNT_LO (spec/05_sedge_engines.md). -/
def R.ISSUE_CNT_LO : Reg := { off := 0x120 }
/-- ISSUE_CNT_HI (spec/05_sedge_engines.md). -/
def R.ISSUE_CNT_HI : Reg := { off := 0x124 }
/-- IDLE_CNT_LO (spec/05_sedge_engines.md). -/
def R.IDLE_CNT_LO : Reg := { off := 0x128 }
/-- IDLE_CNT_HI (spec/05_sedge_engines.md). -/
def R.IDLE_CNT_HI : Reg := { off := 0x12C }
/-- ENTRY_n (spec/05_sedge_engines.md). -/
def R.ENTRY : Reg := { off := 0x140, n1 := 16, s1 := 0x4, rw := 0x3FFF, port := 0x3FFF }
/-- WTO_n (spec/05_sedge_engines.md). -/
def R.WTO : Reg := { off := 0x180, n1 := 16, s1 := 0x4, reset := 0x7D, rw := 0xFFFF, port := 0xFFFF }
/-- SEG_BASE_n (spec/05_sedge_engines.md). -/
def R.SEG_BASE : Reg := { off := 0x200, n1 := 16, s1 := 0x8, rw := 0xFFFFFFFF, port := 0xFFFFFFFF }
/-- SEG_LIMIT_n (spec/05_sedge_engines.md). -/
def R.SEG_LIMIT : Reg := { off := 0x204, n1 := 16, s1 := 0x8, rw := 0xFFFFFF, port := 0xFFFFFF }
/-- THREAD_n (spec/05_sedge_engines.md). -/
def R.THREAD : Reg := { off := 0x300, n1 := 16, s1 := 0x4, reset := 0x8000000 }
/-- TRC_CTL (spec/18_debug_trace.md). -/
def R.TRC_CTL_E : Reg := { off := 0x400, rw := 0xE00007FF }
/-- CMP_CFG_n (spec/18_debug_trace.md). -/
def R.CMP_CFG_E : Reg := { off := 0x440, n1 := 8, s1 := 0x10, rw := 0xF0001F00 }
/-- CMP_A_n (spec/18_debug_trace.md). -/
def R.CMP_A_E : Reg := { off := 0x444, n1 := 8, s1 := 0x10, rw := 0xFFFFFFFF }
/-- CMP_B_n (spec/18_debug_trace.md). -/
def R.CMP_B_E : Reg := { off := 0x448, n1 := 4, s1 := 0x10, rw := 0xFFFFFFFF }

/-! ### Registers of the Ethernet complex -/

/-- ETH_CFG (spec/06_packet_path.md). -/
def R.ETH_CFG : Reg := { off := 0x100, rw := 0x30FF0703, port := 0x30FF0703 }
/-- ETH_STATUS (spec/06_packet_path.md). -/
def R.ETH_STATUS : Reg := { off := 0x104, rc := 0xFFFC0000 }
/-- MAX_FRAME (spec/06_packet_path.md). -/
def R.MAX_FRAME : Reg := { off := 0x108, reset := 0x2400, rw := 0x3FFF, port := 0x3FFF }
/-- RXBUF_BASE (spec/06_packet_path.md). -/
def R.RXBUF_BASE : Reg := { off := 0x10C, reset := 0xBFC00, rw := 0xFFFFFF, port := 0xFFFFFF }
/-- RXBUF_SIZE (spec/06_packet_path.md). -/
def R.RXBUF_SIZE : Reg := { off := 0x110, reset := 0x400, rw := 0xFFFFFF, port := 0xFFFFFF }
/-- MISS_CFG (spec/06_packet_path.md). -/
def R.MISS_CFG : Reg := { off := 0x114, reset := 0x10, rw := 0x7FFFF3F, port := 0x7FFFF3F }
/-- PARSE_CFG (spec/06_packet_path.md). -/
def R.PARSE_CFG : Reg := { off := 0x118, reset := 0x12B5, rw := 0xFFFF, port := 0xFFFF }
/-- PINT_CFG (spec/06_packet_path.md). -/
def R.PINT_CFG : Reg := { off := 0x11C, reset := 0x88B5, rw := 0xFFFFFFFF, port := 0xFFFFFFFF }
/-- FC_INV (spec/06_packet_path.md). -/
def R.FC_INV : Reg := { off := 0x120, wo := 0xFFFFFFFF, writeOnly := true }
/-- STL_MASK_LO (spec/06_packet_path.md). -/
def R.STL_MASK_LO : Reg := { off := 0x128, reset := 0xFFFFFFFF, rw := 0xFFFFFFFF, port := 0xFFFFFFFF }
/-- STL_MASK_HI (spec/06_packet_path.md). -/
def R.STL_MASK_HI : Reg := { off := 0x12C, reset := 0xFFFFFFFF, rw := 0xFFFFFFFF, port := 0xFFFFFFFF }
/-- TBL_BASE_n (spec/06_packet_path.md). -/
def R.TBL_BASE : Reg := { off := 0x140, n1 := 16, s1 := 0x8, rw := 0xFFFFFFFF, port := 0xFFFFFFFF }
/-- TBL_CFG_n (spec/06_packet_path.md). -/
def R.TBL_CFG : Reg := { off := 0x144, n1 := 16, s1 := 0x8, rw := 0x10F1F, port := 0x10F1F }
/-- CNTB_BASE_n (spec/06_packet_path.md). -/
def R.CNTB_BASE : Reg := { off := 0x1C0, n1 := 16, s1 := 0x8, rw := 0xFFFFFFFF, port := 0xFFFFFFFF }
/-- CNTB_SIZE_n (spec/06_packet_path.md). -/
def R.CNTB_SIZE : Reg := { off := 0x1C4, n1 := 16, s1 := 0x8, rw := 0xFFFFFF, port := 0xFFFFFF }
/-- PFC_TH_n (spec/06_packet_path.md). -/
def R.PFC_TH : Reg := { off := 0x240, n1 := 64, s1 := 0x4, rw := 0xFFFFFFFF, port := 0xFFFFFFFF }
/-- EXQ_BASE_n (spec/06_packet_path.md). -/
def R.EXQ_BASE : Reg := { off := 0x340, n1 := 16, s1 := 0x10, rw := 0xFFFFFFFF, port := 0xFFFFFFFF }
/-- EXQ_CFG_n (spec/06_packet_path.md). -/
def R.EXQ_CFG : Reg := { off := 0x344, n1 := 16, s1 := 0x10, rw := 0xFFFFF, port := 0xFFFFF }
/-- EXQ_PROD_n (spec/06_packet_path.md). -/
def R.EXQ_PROD : Reg := { off := 0x348, n1 := 16, s1 := 0x10 }
/-- EXQ_CONS_n (spec/06_packet_path.md). -/
def R.EXQ_CONS : Reg := { off := 0x34C, n1 := 16, s1 := 0x10, rw := 0xFFFF }
/-- INJ_BASE_n (spec/06_packet_path.md). -/
def R.INJ_BASE : Reg := { off := 0x440, n1 := 16, s1 := 0x10, rw := 0xFFFFFFFF, port := 0xFFFFFFFF }
/-- INJ_CFG_n (spec/06_packet_path.md). -/
def R.INJ_CFG : Reg := { off := 0x444, n1 := 16, s1 := 0x10, rw := 0xFF, port := 0xFF }
/-- INJ_PROD_n (spec/06_packet_path.md). -/
def R.INJ_PROD : Reg := { off := 0x448, n1 := 16, s1 := 0x10, rw := 0xFFFF }
/-- INJ_CONS_n (spec/06_packet_path.md). -/
def R.INJ_CONS : Reg := { off := 0x44C, n1 := 16, s1 := 0x10 }
/-- DROP_CNT_n (spec/06_packet_path.md). -/
def R.DROP_CNT : Reg := { off := 0x540, n1 := 16, s1 := 0x4, rc := 0xFFFFFFFF }
/-- KEY_SLOT (spec/06_packet_path.md). -/
def R.KEY_SLOT : Reg := { off := 0x580, rw := 0x7FFF }
/-- KEY_ATTR (spec/06_packet_path.md). -/
def R.KEY_ATTR : Reg := { off := 0x584, rw := 0x1FFF }
/-- KEY_SALT (spec/06_packet_path.md). -/
def R.KEY_SALT : Reg := { off := 0x588, wo := 0xFFFFFFFF, writeOnly := true }
/-- KEY_COMMIT (spec/06_packet_path.md). -/
def R.KEY_COMMIT : Reg := { off := 0x58C, wo := 0xFFFFFFFF, writeOnly := true }
/-- KEY_WORD_i (spec/06_packet_path.md). -/
def R.KEY_WORD : Reg := { off := 0x590, n1 := 8, s1 := 0x4, wo := 0xFFFFFFFF, writeOnly := true }
/-- PTP_CFG_p (spec/10_telemetry_coding.md). -/
def R.PTP_CFG : Reg := { off := 0x600, n1 := 8, s1 := 0x20, rw := 0xE0000FFF, port := 0xE0000FFF }
/-- TS_CORR_p (spec/10_telemetry_coding.md). -/
def R.TS_CORR : Reg := { off := 0x604, n1 := 8, s1 := 0x20, rw := 0xFFFFFFFF }
/-- TXTS_POP_p (spec/10_telemetry_coding.md). -/
def R.TXTS_POP : Reg := { off := 0x608, n1 := 8, s1 := 0x20, rc := 0x8FFFFFFF }
/-- TXTS_TIME_LO_p (spec/10_telemetry_coding.md). -/
def R.TXTS_TIME_LO : Reg := { off := 0x60C, n1 := 8, s1 := 0x20 }
/-- TXTS_TIME_HI_p (spec/10_telemetry_coding.md). -/
def R.TXTS_TIME_HI : Reg := { off := 0x610, n1 := 8, s1 := 0x20 }
/-- TXTS_OVF_p (spec/10_telemetry_coding.md). -/
def R.TXTS_OVF : Reg := { off := 0x614, n1 := 8, s1 := 0x20, rc := 0xFFFFFFFF }
/-- PORTCNT_LO (spec/06_packet_path.md). -/
def R.PORTCNT_LO : Reg := { off := 0x800, n1 := 8, s1 := 0x80, n2 := 16, s2 := 0x8 }
/-- PORTCNT_HI (spec/06_packet_path.md). -/
def R.PORTCNT_HI : Reg := { off := 0x804, n1 := 8, s1 := 0x80, n2 := 16, s2 := 0x8 }
/-- RX_TC_LO (spec/06_packet_path.md). -/
def R.RX_TC_LO : Reg := { off := 0xC00, n1 := 8, s1 := 0x80, n2 := 8, s2 := 0x10 }
/-- RX_TC_HI (spec/06_packet_path.md). -/
def R.RX_TC_HI : Reg := { off := 0xC04, n1 := 8, s1 := 0x80, n2 := 8, s2 := 0x10 }
/-- TX_TC_LO (spec/06_packet_path.md). -/
def R.TX_TC_LO : Reg := { off := 0xC08, n1 := 8, s1 := 0x80, n2 := 8, s2 := 0x10 }
/-- TX_TC_HI (spec/06_packet_path.md). -/
def R.TX_TC_HI : Reg := { off := 0xC0C, n1 := 8, s1 := 0x80, n2 := 8, s2 := 0x10 }
/-- SHAPE_n (spec/06_packet_path.md). -/
def R.SHAPE : Reg := { off := 0x1000, n1 := 2048, s1 := 0x4, reset := 0x1, rw := 0xFFFFFF, port := 0xFFFFFF }

/-! ### Registers of the PCIe complex -/

/-- OB_CTL (spec/01_organisation.md). -/
def R.OB_CTL : Reg := { off := 0x100, rw := 0x3 }
/-- OB_BASE_LO (spec/01_organisation.md). -/
def R.OB_BASE_LO : Reg := { off := 0x104, rw := 0xFFFF0000 }
/-- OB_BASE_HI (spec/01_organisation.md). -/
def R.OB_BASE_HI : Reg := { off := 0x108, rw := 0xFFFFFFFF }
/-- TI_OVF (spec/07_tenant_interfaces.md). -/
def R.TI_OVF : Reg := { off := 0x120, rw := 0xFFFFFF1F, port := 0xFFFFFF1F }
/-- CTXO_SEL (spec/07_tenant_interfaces.md). -/
def R.CTXO_SEL : Reg := { off := 0x124, rw := 0x3FFF }
/-- CTXO_DATA (spec/07_tenant_interfaces.md). -/
def R.CTXO_DATA : Reg := { off := 0x128, rw := 0x87FF0FFF, port := 0x87FF0FFF }
/-- ADM_KEY_RANGE (spec/07_tenant_interfaces.md). -/
def R.ADM_KEY_RANGE : Reg := { off := 0x12C, rw := 0xFFFF7FFF, port := 0xFFFF7FFF }

/-! ### Registers of the measurement front-end -/

/-- SSET_LATE (spec/08_measurement.md). -/
def R.SSET_LATE : Reg := { off := 0x100, rc := 0xFFFFFFFF }
/-- SSET_BE (spec/08_measurement.md). -/
def R.SSET_BE : Reg := { off := 0x104, rc := 0xFFFFFFFF }
/-- DELIV_ERR (spec/08_measurement.md). -/
def R.DELIV_ERR : Reg := { off := 0x108, w1c := 0x80000000 }
/-- SSET_TRIG (spec/08_measurement.md). -/
def R.SSET_TRIG : Reg := { off := 0x10C, wo := 0x3F, writeOnly := true }
/-- DELIV_CNT (spec/08_measurement.md). -/
def R.DELIV_CNT : Reg := { off := 0x110, rc := 0xFFFFFFFF }
/-- SSET_CFG_n (spec/08_measurement.md). -/
def R.SSET_CFG : Reg := { off := 0x200, n1 := 64, s1 := 0x20, rw := 0xE01F07FF, port := 0xE01F07FF }
/-- SSET_OFF_n (spec/08_measurement.md). -/
def R.SSET_OFF : Reg := { off := 0x204, n1 := 64, s1 := 0x20, rw := 0x7FFF, port := 0x7FFF }
/-- SSET_CH_n_k (spec/08_measurement.md). -/
def R.SSET_CH : Reg := { off := 0x208, n1 := 64, s1 := 0x20, n2 := 4, s2 := 0x4, reset := 0xFFFFFFFF, rw := 0xFFFFFFFF, port := 0xFFFFFFFF }

/-! ### Registers of a channel group -/

/-- GRP_CTL (spec/08_measurement.md). -/
def R.GRP_CTL : Reg := { off := 0x100, reset := 0x1900, rw := 0xFF07, port := 0xFF07 }
/-- GRP_STATUS (spec/08_measurement.md). -/
def R.GRP_STATUS : Reg := { off := 0x104, w1c := 0x4 }
/-- CH_CFG_c (spec/08_measurement.md). -/
def R.CH_CFG : Reg := { off := 0x200, n1 := 16, s1 := 0x20, reset := 0x20400000, rw := 0xF7FF3F00, port := 0xF7FF3F00 }
/-- CH_OFFSET_c (spec/08_measurement.md). -/
def R.CH_OFFSET : Reg := { off := 0x204, n1 := 16, s1 := 0x20, rw := 0xFFFFFF, port := 0xFFFFFF }
/-- CH_GAIN_c (spec/08_measurement.md). -/
def R.CH_GAIN : Reg := { off := 0x208, n1 := 16, s1 := 0x20, reset := 0x8000, rw := 0xFFFF, port := 0xFFFF }
/-- CH_LAST_c (spec/08_measurement.md). -/
def R.CH_LAST : Reg := { off := 0x20C, n1 := 16, s1 := 0x20, reset := 0x4000000 }
/-- CH_TS_LO_c (spec/08_measurement.md). -/
def R.CH_TS_LO : Reg := { off := 0x210, n1 := 16, s1 := 0x20 }
/-- CH_TS_HI_c (spec/08_measurement.md). -/
def R.CH_TS_HI : Reg := { off := 0x214, n1 := 16, s1 := 0x20 }
/-- CH_SEQ_c (spec/08_measurement.md). -/
def R.CH_SEQ : Reg := { off := 0x218, n1 := 16, s1 := 0x20 }
/-- CH_SATCNT_c (spec/08_measurement.md). -/
def R.CH_SATCNT : Reg := { off := 0x21C, n1 := 16, s1 := 0x20, rc := 0xFFFFFFFF }

/-! ### Registers of the trip unit -/

/-- TRIP_EVT (spec/08_measurement.md). -/
def R.TRIP_EVT : Reg := { off := 0x100, rw := 0x80000FFF, port := 0x80000FFF }
/-- TRIP_SUM (spec/08_measurement.md). -/
def R.TRIP_SUM : Reg := { off := 0x104 }
/-- TRIP_CFG_k (spec/08_measurement.md). -/
def R.TRIP_CFG : Reg := { off := 0x200, n1 := 32, s1 := 0x10, reset := 0x40001001, rw := 0xC07F7F0F, port := 0xC07F7F0F }
/-- TRIP_THR_k (spec/08_measurement.md). -/
def R.TRIP_THR : Reg := { off := 0x204, n1 := 32, s1 := 0x10, reset := 0x7FFF8000, rw := 0xFFFFFFFF, port := 0xFFFFFFFF }
/-- TRIP_STATUS_k (spec/08_measurement.md). -/
def R.TRIP_STATUS : Reg := { off := 0x208, n1 := 32, s1 := 0x10, w1c := 0x80000000 }
/-- TRIP_CNT_k (spec/08_measurement.md). -/
def R.TRIP_CNT : Reg := { off := 0x20C, n1 := 32, s1 := 0x10, rc := 0xFFFFFFFF }

/-! ### Registers of the event input unit -/

/-- EVI_FREQ_WIN (spec/08_measurement.md). -/
def R.EVI_FREQ_WIN : Reg := { off := 0x100, reset := 0x3E8, rw := 0x3FF, port := 0x3FF }
/-- EVI_CFG_n (spec/08_measurement.md). -/
def R.EVI_CFG : Reg := { off := 0x200, n1 := 48, s1 := 0x40, rw := 0xF0FFFFFF, port := 0xF0FFFFFF }
/-- EVI_IRQ_n (spec/08_measurement.md). -/
def R.EVI_IRQ : Reg := { off := 0x204, n1 := 48, s1 := 0x40, rw := 0xC0000FFF, port := 0xC0000FFF }
/-- EVI_STUCK_n (spec/08_measurement.md). -/
def R.EVI_STUCK : Reg := { off := 0x208, n1 := 48, s1 := 0x40, rw := 0xFFFF, port := 0xFFFF }
/-- EVI_COUNT_n (spec/08_measurement.md). -/
def R.EVI_COUNT : Reg := { off := 0x20C, n1 := 48, s1 := 0x40 }
/-- EVI_PERIOD_n (spec/08_measurement.md). -/
def R.EVI_PERIOD : Reg := { off := 0x210, n1 := 48, s1 := 0x40 }
/-- EVI_TS_LO_n (spec/08_measurement.md). -/
def R.EVI_TS_LO : Reg := { off := 0x214, n1 := 48, s1 := 0x40 }
/-- EVI_TS_HI_n (spec/08_measurement.md). -/
def R.EVI_TS_HI : Reg := { off := 0x218, n1 := 48, s1 := 0x40 }
/-- EVI_FREQ_n (spec/08_measurement.md). -/
def R.EVI_FREQ : Reg := { off := 0x21C, n1 := 48, s1 := 0x40 }
/-- EVI_STATUS_n (spec/08_measurement.md). -/
def R.EVI_STATUS : Reg := { off := 0x220, n1 := 48, s1 := 0x40, w1c := 0x30000000 }
/-- EVI_MERGED_n (spec/08_measurement.md). -/
def R.EVI_MERGED : Reg := { off := 0x224, n1 := 48, s1 := 0x40, rc := 0xFFFFFFFF }

/-! ### Registers of the actuator block -/

/-- TRIP_MAP_k (spec/08_measurement.md). -/
def R.TRIP_MAP : Reg := { off := 0x100, n1 := 32, s1 := 0x4, rw := 0xFFFF, port := 0xFFFF }
/-- LOOP_ARM (spec/09_control_actuation.md). -/
def R.LOOP_ARM : Reg := { off := 0x180, wo := 0x3F, writeOnly := true }
/-- LOOP_OVR_SUM_LO (spec/09_control_actuation.md). -/
def R.LOOP_OVR_SUM_LO : Reg := { off := 0x184 }
/-- LOOP_OVR_SUM_HI (spec/09_control_actuation.md). -/
def R.LOOP_OVR_SUM_HI : Reg := { off := 0x188 }
/-- ARM_DISC (spec/09_control_actuation.md). -/
def R.ARM_DISC : Reg := { off := 0x18C, rc := 0xFFFFFFFF }
/-- ACONN_q (spec/09_control_actuation.md). -/
def R.ACONN : Reg := { off := 0x190, n1 := 4, s1 := 0x4, rw := 0x7FF, port := 0x7FF }
/-- ACT_EVT (spec/09_control_actuation.md). -/
def R.ACT_EVT : Reg := { off := 0x1A0, rw := 0x80000FFF, port := 0x80000FFF }
/-- BRK_SET (spec/09_control_actuation.md). -/
def R.BRK_SET : Reg := { off := 0x1A4, wo := 0xFFFF, writeOnly := true }
/-- BRK_REL (spec/09_control_actuation.md). -/
def R.BRK_REL : Reg := { off := 0x1A8, wo := 0xFFFF, writeOnly := true }
/-- BRK_OUT (spec/09_control_actuation.md). -/
def R.BRK_OUT : Reg := { off := 0x1AC }
/-- FC_DENIED (spec/09_control_actuation.md). -/
def R.FC_DENIED : Reg := { off := 0x1B0, rc := 0xFFFFFFFF }
/-- LOOP_CFG_n (spec/09_control_actuation.md). -/
def R.LOOP_CFG : Reg := { off := 0x200, n1 := 64, s1 := 0x20, rw := 0x80F7003F, port := 0x80F7003F }
/-- LOOP_PER_n (spec/09_control_actuation.md). -/
def R.LOOP_PER : Reg := { off := 0x204, n1 := 64, s1 := 0x20, rw := 0xFFFFFFFF, port := 0xFFFFFFFF }
/-- LOOP_PHASE_n (spec/09_control_actuation.md). -/
def R.LOOP_PHASE : Reg := { off := 0x208, n1 := 64, s1 := 0x20, rw := 0xFFFFFFFF, port := 0xFFFFFFFF }
/-- LOOP_DL_n (spec/09_control_actuation.md). -/
def R.LOOP_DL : Reg := { off := 0x20C, n1 := 64, s1 := 0x20, rw := 0xFFFFFFFF, port := 0xFFFFFFFF }
/-- LOOP_PWM_LO_n (spec/09_control_actuation.md). -/
def R.LOOP_PWM_LO : Reg := { off := 0x210, n1 := 64, s1 := 0x20, rw := 0xFFFFFFFF, port := 0xFFFFFFFF }
/-- LOOP_PWM_HI_n (spec/09_control_actuation.md). -/
def R.LOOP_PWM_HI : Reg := { off := 0x214, n1 := 64, s1 := 0x20, rw := 0xFFFFFFFF, port := 0xFFFFFFFF }
/-- LOOP_BRK_n (spec/09_control_actuation.md). -/
def R.LOOP_BRK : Reg := { off := 0x218, n1 := 64, s1 := 0x20, rw := 0xFFFFFFFF, port := 0xFFFF }
/-- LOOP_STAT_n (spec/09_control_actuation.md). -/
def R.LOOP_STAT : Reg := { off := 0x21C, n1 := 64, s1 := 0x20, w1c := 0x40000000 }
/-- PWM_CFG_m (spec/09_control_actuation.md). -/
def R.PWM_CFG : Reg := { off := 0xA00, n1 := 64, s1 := 0x10, rw := 0xF8000000, port := 0xF8000000 }
/-- PWM_PER_m (spec/09_control_actuation.md). -/
def R.PWM_PER : Reg := { off := 0xA04, n1 := 64, s1 := 0x10, reset := 0xFA0, rw := 0x3FFFFF, port := 0x3FFFFF }
/-- PWM_DUTY_m (spec/09_control_actuation.md). -/
def R.PWM_DUTY : Reg := { off := 0xA08, n1 := 64, s1 := 0x10, rw := 0x3FFFFF }
/-- PWM_ACT_m (spec/09_control_actuation.md). -/
def R.PWM_ACT : Reg := { off := 0xA0C, n1 := 64, s1 := 0x10 }
/-- BRK_CFG_b (spec/09_control_actuation.md). -/
def R.BRK_CFG : Reg := { off := 0xE00, n1 := 16, s1 := 0x8, rw := 0xE0003FFF, port := 0xE0003FFF }
/-- BRK_STAT_b (spec/09_control_actuation.md). -/
def R.BRK_STAT : Reg := { off := 0xE04, n1 := 16, s1 := 0x8 }
/-- FC_GCONN_G (spec/09_control_actuation.md). -/
def R.FC_GCONN : Reg := { off := 0xF00, n1 := 16, s1 := 0x4, rw := 0x7FF, port := 0x7FF }
/-- FC_RING_CFG_q (spec/09_control_actuation.md). -/
def R.FC_RING_CFG : Reg := { off := 0xF40, n1 := 4, s1 := 0x8, rw := 0xFFFF7FFF, port := 0xFFFF7FFF }
/-- FC_RING_WAKE_q (spec/09_control_actuation.md). -/
def R.FC_RING_WAKE : Reg := { off := 0xF44, n1 := 4, s1 := 0x8, rw := 0x80F70000, port := 0x80F70000 }
/-- FCB_MAP_r (spec/09_control_actuation.md). -/
def R.FCB_MAP : Reg := { off := 0x1000, n1 := 256, s1 := 0x4, rw := 0x800FFFFF, port := 0x800FFFFF }
/-- PINT_CTL (spec/09_control_actuation.md). -/
def R.PINT_CTL : Reg := { off := 0x1400, reset := 0x7000000, rw := 0xFFF0FFFF, port := 0xFFF0FFFF }
/-- PINT_GAP (spec/09_control_actuation.md). -/
def R.PINT_GAP : Reg := { off := 0x1404, reset := 0xA, rw := 0xFFFF, port := 0xFFFF }
/-- PINT_RACK (spec/09_control_actuation.md). -/
def R.PINT_RACK : Reg := { off := 0x1408, rw := 0xFFFFFFFF }
/-- PINT_TRAY (spec/09_control_actuation.md). -/
def R.PINT_TRAY : Reg := { off := 0x140C, rw := 0xFFFF }
/-- PINT_SMAC_LO (spec/09_control_actuation.md). -/
def R.PINT_SMAC_LO : Reg := { off := 0x1410, rw := 0xFFFFFFFF }
/-- PINT_SMAC_HI (spec/09_control_actuation.md). -/
def R.PINT_SMAC_HI : Reg := { off := 0x1414, rw := 0xFFFF }
/-- PINT_DMAC_LO (spec/09_control_actuation.md). -/
def R.PINT_DMAC_LO : Reg := { off := 0x1418, rw := 0xFFFFFFFF, port := 0xFFFFFFFF }
/-- PINT_DMAC_HI (spec/09_control_actuation.md). -/
def R.PINT_DMAC_HI : Reg := { off := 0x141C, rw := 0xFFFF, port := 0xFFFF }
/-- PINT_SIP (spec/09_control_actuation.md). -/
def R.PINT_SIP : Reg := { off := 0x1420, rw := 0xFFFFFFFF }
/-- PINT_DIP (spec/09_control_actuation.md). -/
def R.PINT_DIP : Reg := { off := 0x1424, rw := 0xFFFFFFFF, port := 0xFFFFFFFF }
/-- PINT_POWER (spec/09_control_actuation.md). -/
def R.PINT_POWER : Reg := { off := 0x1428, rw := 0xFFFFFF }
/-- PINT_CAP (spec/09_control_actuation.md). -/
def R.PINT_CAP : Reg := { off := 0x142C, rw := 0xC0FFFFFF }
/-- PINT_SENT (spec/09_control_actuation.md). -/
def R.PINT_SENT : Reg := { off := 0x1430, rc := 0xFFFFFFFF }
/-- PINT_LOST (spec/09_control_actuation.md). -/
def R.PINT_LOST : Reg := { off := 0x1434, rc := 0xFFFFFFFF }

/-! ### Registers of the telemetry coder -/

/-- TEL_CTL (spec/10_telemetry_coding.md). -/
def R.TEL_CTL : Reg := { off := 0x100, reset := 0x88B6, rw := 0xFFFFFFFF, port := 0xFFFFFFFF }
/-- TEL_BLK_DROP (spec/10_telemetry_coding.md). -/
def R.TEL_BLK_DROP : Reg := { off := 0x104, rc := 0xFFFFFFFF }
/-- TEL_LOST (spec/10_telemetry_coding.md). -/
def R.TEL_LOST : Reg := { off := 0x108, rc := 0xFFFFFFFF }
/-- TEL_SRC_REJ (spec/10_telemetry_coding.md). -/
def R.TEL_SRC_REJ : Reg := { off := 0x10C, rc := 0xFFFFFFFF }
/-- TOUT_CFG_t (spec/10_telemetry_coding.md). -/
def R.TOUT_CFG : Reg := { off := 0x200, n1 := 8, s1 := 0x10, rw := 0xFFFFFFFF, port := 0xFFFFFFFF }
/-- TOUT_A_t (spec/10_telemetry_coding.md). -/
def R.TOUT_A : Reg := { off := 0x204, n1 := 8, s1 := 0x10, rw := 0xFFFFFFFF, port := 0xFFFFFFFF }
/-- TOUT_B_t (spec/10_telemetry_coding.md). -/
def R.TOUT_B : Reg := { off := 0x208, n1 := 8, s1 := 0x10, rw := 0xFFFFFFFF, port := 0xFFFFFFFF }
/-- TOUT_C_t (spec/10_telemetry_coding.md). -/
def R.TOUT_C : Reg := { off := 0x20C, n1 := 8, s1 := 0x10, rw := 0xFFFFFFFF, port := 0xFFFFFFFF }
/-- TOUT_IDX_t (spec/10_telemetry_coding.md). -/
def R.TOUT_IDX : Reg := { off := 0x280, n1 := 8, s1 := 0x4 }
/-- STR_CFG_s (spec/10_telemetry_coding.md). -/
def R.STR_CFG : Reg := { off := 0x1000, n1 := 256, s1 := 0x10, rw := 0xFFF0FFFF, port := 0xFFF0FFFF }
/-- STR_SRC_s (spec/10_telemetry_coding.md). -/
def R.STR_SRC : Reg := { off := 0x1004, n1 := 256, s1 := 0x10, rw := 0xC0FFFFFF, port := 0xC0FFFFFF }
/-- STR_ARG_s (spec/10_telemetry_coding.md). -/
def R.STR_ARG : Reg := { off := 0x1008, n1 := 256, s1 := 0x10, rw := 0xFFFFFFFF, port := 0xFFFFFFFF }
/-- STR_STAT_s (spec/10_telemetry_coding.md). -/
def R.STR_STAT : Reg := { off := 0x100C, n1 := 256, s1 := 0x10 }
/-- STR_DROP_s (spec/10_telemetry_coding.md). -/
def R.STR_DROP : Reg := { off := 0x2000, n1 := 256, s1 := 0x4, rc := 0xFFFFFFFF }

/-! ### Registers of Peat -/

/-- PEAT_CTL (spec/19_clocks_power_reset.md). -/
def R.PEAT_CTL : Reg := { off := 0x100, reset := 0x1, rw := 0x1, port := 0x1 }
/-- CLK_STATUS (spec/19_clocks_power_reset.md). -/
def R.CLK_STATUS : Reg := { off := 0x104, w1c := 0x8 }
/-- PLL_STATUS (spec/19_clocks_power_reset.md). -/
def R.PLL_STATUS : Reg := { off := 0x108, w1c := 0x7F0000 }
/-- RST_CFG (spec/19_clocks_power_reset.md). -/
def R.RST_CFG : Reg := { off := 0x10C, rw := 0x3, port := 0x3 }
/-- RST_CAUSE (spec/19_clocks_power_reset.md). -/
def R.RST_CAUSE : Reg := { off := 0x110 }
/-- IO_STATUS (spec/19_clocks_power_reset.md). -/
def R.IO_STATUS : Reg := { off := 0x114 }
/-- WAKE_EN (spec/19_clocks_power_reset.md). -/
def R.WAKE_EN : Reg := { off := 0x120, reset := 0xC, rw := 0x1F, port := 0x1F }
/-- WAKE_STATUS (spec/19_clocks_power_reset.md). -/
def R.WAKE_STATUS : Reg := { off := 0x124, w1c := 0x11F }
/-- WAKE_ALARM_LO (spec/19_clocks_power_reset.md). -/
def R.WAKE_ALARM_LO : Reg := { off := 0x128, rw := 0xFFFFFFFF }
/-- WAKE_ALARM_HI (spec/19_clocks_power_reset.md). -/
def R.WAKE_ALARM_HI : Reg := { off := 0x12C, rw := 0xFFFFFFFF }
/-- PTRIP_CFG_k (spec/19_clocks_power_reset.md). -/
def R.PTRIP_CFG : Reg := { off := 0x200, n1 := 8, s1 := 0x8, reset := 0x10040, rw := 0x800F01FF, port := 0x800F01FF }
/-- PTRIP_THR_k (spec/19_clocks_power_reset.md). -/
def R.PTRIP_THR : Reg := { off := 0x204, n1 := 8, s1 := 0x8, reset := 0xFFFF0000, rw := 0xFFFFFFFF, port := 0xFFFFFFFF }
/-- GT_LO (spec/10_telemetry_coding.md). -/
def R.GT_LO : Reg := { off := 0x400 }
/-- GT_HI (spec/10_telemetry_coding.md). -/
def R.GT_HI : Reg := { off := 0x404 }
/-- GT_RATE (spec/10_telemetry_coding.md). -/
def R.GT_RATE : Reg := { off := 0x408, rw := 0xFFFFFFFF }
/-- GT_STEP (spec/10_telemetry_coding.md). -/
def R.GT_STEP : Reg := { off := 0x40C, wo := 0xFFFFFFFF, writeOnly := true }
/-- GT_SET_LO (spec/10_telemetry_coding.md). -/
def R.GT_SET_LO : Reg := { off := 0x410, rw := 0xFFFFFFFF }
/-- GT_SET_HI (spec/10_telemetry_coding.md). -/
def R.GT_SET_HI : Reg := { off := 0x414, rw := 0xFFFFFFFF }
/-- GT_STATUS (spec/10_telemetry_coding.md). -/
def R.GT_STATUS : Reg := { off := 0x418 }
/-- DWD_CTL (spec/16_faults_spares.md). -/
def R.DWD_CTL : Reg := { off := 0x500, rw := 0xF0FFFFFF, port := 0xF0FFFFFF }
/-- DWD_KICK (spec/16_faults_spares.md). -/
def R.DWD_KICK : Reg := { off := 0x504, wo := 0xFF, writeOnly := true }
/-- DWD_STATUS (spec/16_faults_spares.md). -/
def R.DWD_STATUS : Reg := { off := 0x508, w1c := 0xC0000000 }

/-! ### Registers of a Ling core -/

/-- BANK_CFG_b (spec/12_ling_core.md). -/
def R.BANK_CFG : Reg := { off := 0x100, n1 := 4, s1 := 0x10, rw := 0x80000003, port := 0x80000003 }
/-- BANK_START_b (spec/12_ling_core.md). -/
def R.BANK_START : Reg := { off := 0x104, n1 := 4, s1 := 0x10, rw := 0xFFFFFFFC, port := 0xFFFFFFFC }
/-- BANK_STAT_b (spec/12_ling_core.md). -/
def R.BANK_STAT : Reg := { off := 0x108, n1 := 4, s1 := 0x10 }
/-- SCHED_CFG (spec/12_ling_core.md). -/
def R.SCHED_CFG : Reg := { off := 0x140, reset := 0x1000, rw := 0xFFFF, port := 0xFFFF }
/-- CORE_STATUS (spec/12_ling_core.md). -/
def R.CORE_STATUS : Reg := { off := 0x144 }
/-- WD_CTL (spec/16_faults_spares.md). -/
def R.WD_CTL : Reg := { off := 0x160, reset := 0x40000000, rw := 0xF0FFFFFF, port := 0xF0FFFFFF }
/-- WD_KICK (spec/16_faults_spares.md). -/
def R.WD_KICK : Reg := { off := 0x164, wo := 0xFF, writeOnly := true }
/-- CKPT_CTL (spec/16_faults_spares.md). -/
def R.CKPT_CTL : Reg := { off := 0x168, rw := 0xF, wo := 0xF0, port := 0xF }
/-- VEC_S (spec/12_ling_core.md). -/
def R.VEC_S : Reg := { off := 0x180, rw := 0xFFFFF000, port := 0xFFFFF000 }
/-- VEC_H (spec/12_ling_core.md). -/
def R.VEC_H : Reg := { off := 0x184, rw := 0xFFFFF000, port := 0xFFFFF000 }
/-- VEC_M (spec/12_ling_core.md). -/
def R.VEC_M : Reg := { off := 0x188, rw := 0xFFFFF000, port := 0xFFFFF000 }
/-- VEC_MC (spec/12_ling_core.md). -/
def R.VEC_MC : Reg := { off := 0x18C, rw := 0xFFFFF000, port := 0xFFFFF000 }
/-- PERF_LO_k (spec/12_ling_core.md). -/
def R.PERF_LO : Reg := { off := 0x200, n1 := 6, s1 := 0x8 }
/-- PERF_HI_k (spec/12_ling_core.md). -/
def R.PERF_HI : Reg := { off := 0x204, n1 := 6, s1 := 0x8 }
/-- S_TTB_b (spec/13_translation.md). -/
def R.S_TTB : Reg := { off := 0x400, n1 := 4, s1 := 0x40, rw := 0xFFFFFF81 }
/-- S_CTL_b (spec/13_translation.md). -/
def R.S_CTL : Reg := { off := 0x404, n1 := 4, s1 := 0x40, rw := 0xFF000FFF }
/-- H_TTB_b (spec/13_translation.md). -/
def R.H_TTB : Reg := { off := 0x408, n1 := 4, s1 := 0x40, rw := 0xFFFFFF81 }
/-- H_CTL_b (spec/13_translation.md). -/
def R.H_CTL : Reg := { off := 0x40C, n1 := 4, s1 := 0x40, rw := 0xFF000FFF }
/-- M_TTB_b (spec/13_translation.md). -/
def R.M_TTB : Reg := { off := 0x410, n1 := 4, s1 := 0x40, rw := 0xFFFFFF81 }
/-- M_CTL_b (spec/13_translation.md). -/
def R.M_CTL : Reg := { off := 0x414, n1 := 4, s1 := 0x40, rw := 0xFF000FFF }
/-- S2_TTB_b (spec/13_translation.md). -/
def R.S2_TTB : Reg := { off := 0x418, n1 := 4, s1 := 0x40, rw := 0xFFFFFFE1 }
/-- S2_CTL_b (spec/13_translation.md). -/
def R.S2_CTL : Reg := { off := 0x41C, n1 := 4, s1 := 0x40, rw := 0xFF }
/-- S2_FIPA_b (spec/13_translation.md). -/
def R.S2_FIPA : Reg := { off := 0x420, n1 := 4, s1 := 0x40 }
/-- DBG_CTL (spec/18_debug_trace.md). -/
def R.DBG_CTL : Reg := { off := 0x600, rw := 0x80F30000, wo := 0xF000000 }
/-- DBG_STAT (spec/18_debug_trace.md). -/
def R.DBG_STAT : Reg := { off := 0x604 }
/-- DBG_WADDR (spec/18_debug_trace.md). -/
def R.DBG_WADDR : Reg := { off := 0x608 }
/-- TRC_CTL (spec/18_debug_trace.md). -/
def R.TRC_CTL_C : Reg := { off := 0x60C, rw := 0xFFF007FF }
/-- CMP_CFG_n (spec/18_debug_trace.md). -/
def R.CMP_CFG_C : Reg := { off := 0x640, n1 := 8, s1 := 0x10, rw := 0xFFF01F00 }
/-- CMP_A_n (spec/18_debug_trace.md). -/
def R.CMP_A_C : Reg := { off := 0x644, n1 := 8, s1 := 0x10, rw := 0xFFFFFFFF }
/-- CMP_B_n (spec/18_debug_trace.md). -/
def R.CMP_B_C : Reg := { off := 0x648, n1 := 4, s1 := 0x10, rw := 0xFFFFFFFF }

/-! ### Registers of an event router -/

/-- ER_RAISE (spec/12_ling_core.md). -/
def R.ER_RAISE : Reg := { off := 0x100, wo := 0x3FF, writeOnly := true }
/-- ER_MERGED (spec/12_ling_core.md). -/
def R.ER_MERGED : Reg := { off := 0x104, rc := 0xFFFFFFFF }
/-- ER_CLAIM_b (spec/12_ling_core.md). -/
def R.ER_CLAIM : Reg := { off := 0x110, n1 := 4, s1 := 0x4, rc := 0x800003FF }
/-- BSET_LO_k (spec/12_ling_core.md). -/
def R.BSET_LO : Reg := { off := 0x200, n1 := 16, s1 := 0x8, rw := 0xFFFFFFFF, port := 0xFFFFFFFF }
/-- BSET_HI_k (spec/12_ling_core.md). -/
def R.BSET_HI : Reg := { off := 0x204, n1 := 16, s1 := 0x8, rw := 0x7FFFFFFF, port := 0x7FFFFFFF }
/-- ER_ROUTE_n (spec/12_ling_core.md). -/
def R.ER_ROUTE : Reg := { off := 0x1000, n1 := 1024, s1 := 0x4, rw := 0xFC000FFF, port := 0xFC000FFF }
/-- ER_PEND_i (spec/12_ling_core.md). -/
def R.ER_PEND : Reg := { off := 0x2000, n1 := 32, s1 := 0x4 }

/-! ### Registers of a Tussock -/

/-- L2_WAYS (spec/14_caches.md). -/
def R.L2_WAYS : Reg := { off := 0x100, rw := 0xF0F, port := 0xF0F }
/-- L2_CTL (spec/14_caches.md). -/
def R.L2_CTL : Reg := { off := 0x104, reset := 0x31, rw := 0x171, port := 0x171 }
/-- L2_STATUS (spec/14_caches.md). -/
def R.L2_STATUS : Reg := { off := 0x108, w1c := 0x1 }
/-- LOCK_LOG_LO (spec/14_caches.md). -/
def R.LOCK_LOG_LO : Reg := { off := 0x10C }
/-- LOCK_LOG_HI (spec/14_caches.md). -/
def R.LOCK_LOG_HI : Reg := { off := 0x110 }
/-- L2_CNT_LO_k (spec/14_caches.md). -/
def R.L2_CNT_LO : Reg := { off := 0x200, n1 := 8, s1 := 0x8 }
/-- L2_CNT_HI_k (spec/14_caches.md). -/
def R.L2_CNT_HI : Reg := { off := 0x204, n1 := 8, s1 := 0x8 }
/-- COH_CTL (spec/15_coherence.md). -/
def R.COH_CTL : Reg := { off := 0x300, reset := 0x20, rw := 0x1FF, port := 0x1FF }
/-- TWD_CTL (spec/16_faults_spares.md). -/
def R.TWD_CTL : Reg := { off := 0x380, rw := 0xB0FFFFFF, port := 0xB0FFFFFF }
/-- TWD_KICK (spec/16_faults_spares.md). -/
def R.TWD_KICK : Reg := { off := 0x384, wo := 0xFF, writeOnly := true }
/-- CKPT_CFG (spec/16_faults_spares.md). -/
def R.CKPT_CFG : Reg := { off := 0x390, rw := 0x80007FFF, port := 0x80007FFF }

/-! ### Registers of a control Tussock only -/

/-- FR_CFG (spec/18_debug_trace.md). -/
def R.FR_CFG : Reg := { off := 0x3C0, rw := 0xC0007FFF }
/-- FR_POST (spec/18_debug_trace.md). -/
def R.FR_POST : Reg := { off := 0x3C4, reset := 0x800, rw := 0xFFF }
/-- FR_STATUS (spec/18_debug_trace.md). -/
def R.FR_STATUS : Reg := { off := 0x3C8 }
/-- FR_TRIGPTR (spec/18_debug_trace.md). -/
def R.FR_TRIGPTR : Reg := { off := 0x3CC }
/-- FR_TRIG (spec/18_debug_trace.md). -/
def R.FR_TRIG : Reg := { off := 0x3D0, wo := 0x1, writeOnly := true }

/-! ### Registers of Hedgerow -/

/-- HR_CTL (spec/18_debug_trace.md). -/
def R.HR_CTL : Reg := { off := 0x100, rw := 0xF0000000 }
/-- HR_STATUS (spec/18_debug_trace.md). -/
def R.HR_STATUS : Reg := { off := 0x104, w1c := 0x60000000 }
/-- HR_SYNC (spec/18_debug_trace.md). -/
def R.HR_SYNC : Reg := { off := 0x108, reset := 0x1000, rw := 0x1FFFF }
/-- RING_BASE_LO (spec/18_debug_trace.md). -/
def R.RING_BASE_LO : Reg := { off := 0x110, rw := 0xFFFF0000 }
/-- RING_BASE_HI (spec/18_debug_trace.md). -/
def R.RING_BASE_HI : Reg := { off := 0x114, rw := 0xFF }
/-- RING_SIZE (spec/18_debug_trace.md). -/
def R.RING_SIZE : Reg := { off := 0x118, rw := 0x7FFF }
/-- RING_WPTR (spec/18_debug_trace.md). -/
def R.RING_WPTR : Reg := { off := 0x11C }
/-- HR_LOST (spec/18_debug_trace.md). -/
def R.HR_LOST : Reg := { off := 0x120, rc := 0xFFFFFFFF }
/-- GFR_STATUS (spec/18_debug_trace.md). -/
def R.GFR_STATUS : Reg := { off := 0x124 }
/-- HR_SRC_EN_i (spec/18_debug_trace.md). -/
def R.HR_SRC_EN : Reg := { off := 0x140, n1 := 16, s1 := 0x4, rw := 0xFFFFFFFF }

/-! ### Registers of the Gorse service window -/

/-- BOOT_STATUS (spec/17_gorse_boot.md). -/
def R.BOOT_STATUS : Reg := { off := 0x100, reset := 0xCFF00 }
/-- BOOT_SEQ (spec/17_gorse_boot.md). -/
def R.BOOT_SEQ : Reg := { off := 0x104 }
/-- BOOT_INFO (spec/17_gorse_boot.md). -/
def R.BOOT_INFO : Reg := { off := 0x108 }
/-- FUSE_STAT (spec/17_gorse_boot.md). -/
def R.FUSE_STAT : Reg := { off := 0x10C }
/-- KEY_CTL (spec/17_gorse_boot.md). -/
def R.KEY_CTL : Reg := { off := 0x110, w1s := 0x1 }
/-- KEY_REQ (spec/17_gorse_boot.md). -/
def R.KEY_REQ : Reg := { off := 0x114, wo := 0x1F, writeOnly := true }
/-- KEY_STATUS (spec/17_gorse_boot.md). -/
def R.KEY_STATUS : Reg := { off := 0x118 }
/-- KEY_OUT_w (spec/17_gorse_boot.md). -/
def R.KEY_OUT : Reg := { off := 0x120, n1 := 12, s1 := 0x4, rc := 0xFFFFFFFF }
/-- ATTEST_ADDR_LO (spec/17_gorse_boot.md). -/
def R.ATTEST_ADDR_LO : Reg := { off := 0x160, rw := 0xFFFFFFFF }
/-- ATTEST_ADDR_HI (spec/17_gorse_boot.md). -/
def R.ATTEST_ADDR_HI : Reg := { off := 0x164, rw := 0xFF }
/-- ATTEST_REQ (spec/17_gorse_boot.md). -/
def R.ATTEST_REQ : Reg := { off := 0x168, wo := 0x80000000, writeOnly := true }
/-- ATTEST_STATUS (spec/17_gorse_boot.md). -/
def R.ATTEST_STATUS : Reg := { off := 0x16C }
/-- CS_RELOAD (spec/17_gorse_boot.md). -/
def R.CS_RELOAD : Reg := { off := 0x170, wo := 0x8000003F, writeOnly := true }
/-- CS_RELOAD_STATUS (spec/17_gorse_boot.md). -/
def R.CS_RELOAD_STATUS : Reg := { off := 0x174 }
/-- KEYDIG_k_w (spec/17_gorse_boot.md). -/
def R.KEYDIG : Reg := { off := 0x200, n1 := 4, s1 := 0x40, n2 := 12, s2 := 0x4 }

/-! ### Registers of the debug access port -/

/-- DAP_CTL (spec/18_debug_trace.md). -/
def R.DAP_CTL : Reg := { off := 0x100, rw := 0xE0000000 }
/-- AUTH_REQ (spec/18_debug_trace.md). -/
def R.AUTH_REQ : Reg := { off := 0x104, wo := 0x87, writeOnly := true }
/-- AUTH_STATUS (spec/18_debug_trace.md). -/
def R.AUTH_STATUS : Reg := { off := 0x108 }
/-- AUTH_CHAL_w (spec/18_debug_trace.md). -/
def R.AUTH_CHAL : Reg := { off := 0x120, n1 := 8, s1 := 0x4 }
/-- AUTH_KEY_w (spec/18_debug_trace.md). -/
def R.AUTH_KEY : Reg := { off := 0x140, n1 := 24, s1 := 0x4, wo := 0xFFFFFFFF, writeOnly := true }
/-- AUTH_SIG_w (spec/18_debug_trace.md). -/
def R.AUTH_SIG : Reg := { off := 0x1A0, n1 := 24, s1 := 0x4, wo := 0xFFFFFFFF, writeOnly := true }
/-- DRE_ADDR_LO (spec/18_debug_trace.md). -/
def R.DRE_ADDR_LO : Reg := { off := 0x200, n1 := 2, s1 := 0x40, rw := 0xFFFFFFFF }
/-- DRE_ADDR_HI (spec/18_debug_trace.md). -/
def R.DRE_ADDR_HI : Reg := { off := 0x204, n1 := 2, s1 := 0x40, rw := 0x800000FF }
/-- DRE_CMD (spec/18_debug_trace.md). -/
def R.DRE_CMD : Reg := { off := 0x208, n1 := 2, s1 := 0x40, wo := 0x3, writeOnly := true }
/-- DRE_STATUS (spec/18_debug_trace.md). -/
def R.DRE_STATUS : Reg := { off := 0x20C, n1 := 2, s1 := 0x40 }
/-- DRE_DATA_k (spec/18_debug_trace.md). -/
def R.DRE_DATA : Reg := { off := 0x210, n1 := 2, s1 := 0x40, n2 := 4, s2 := 0x4, rw := 0xFFFFFFFF }

/-! ### Registers of the BAR0 space of a PCIe function -/

/-- ADM_CTL (spec/07_tenant_interfaces.md). -/
def R.ADM_CTL : Reg := { off := 0x0, rw := 0xFFF01FF }
/-- ADM_STATUS (spec/07_tenant_interfaces.md). -/
def R.ADM_STATUS : Reg := { off := 0x4 }
/-- ADM_SQ_BASE_LO (spec/07_tenant_interfaces.md). -/
def R.ADM_SQ_BASE_LO : Reg := { off := 0x8, rw := 0xFFFFF000 }
/-- ADM_SQ_BASE_HI (spec/07_tenant_interfaces.md). -/
def R.ADM_SQ_BASE_HI : Reg := { off := 0xC, rw := 0xFFFFFFFF }
/-- ADM_CQ_BASE_LO (spec/07_tenant_interfaces.md). -/
def R.ADM_CQ_BASE_LO : Reg := { off := 0x10, rw := 0xFFFFF000 }
/-- ADM_CQ_BASE_HI (spec/07_tenant_interfaces.md). -/
def R.ADM_CQ_BASE_HI : Reg := { off := 0x14, rw := 0xFFFFFFFF }
/-- ADM_SQ_TAIL (spec/07_tenant_interfaces.md). -/
def R.ADM_SQ_TAIL : Reg := { off := 0x18, rw := 0xFFFF }
/-- ADM_CQ_HEAD (spec/07_tenant_interfaces.md). -/
def R.ADM_CQ_HEAD : Reg := { off := 0x1C, rw := 0xFFFF }
/-- ADM_EVT_LOST (spec/07_tenant_interfaces.md). -/
def R.ADM_EVT_LOST : Reg := { off := 0x20, rc := 0xFFFFFFFF }
/-- DB_DISCARD (spec/07_tenant_interfaces.md). -/
def R.DB_DISCARD : Reg := { off := 0x24, rc := 0xFFFFFFFF }
/-- BOOT_MBOX_LO (spec/17_gorse_boot.md). -/
def R.BOOT_MBOX_LO : Reg := { off := 0x200000, rw := 0xFFFFF000 }
/-- BOOT_MBOX_HI (spec/17_gorse_boot.md). -/
def R.BOOT_MBOX_HI : Reg := { off := 0x200004, rw := 0xFFFFFFFF }
/-- BOOT_MBOX_CTL (spec/17_gorse_boot.md). -/
def R.BOOT_MBOX_CTL : Reg := { off := 0x200008, wo := 0x1, writeOnly := true }
/-- BOOT_MBOX_STATUS (spec/17_gorse_boot.md). -/
def R.BOOT_MBOX_STATUS : Reg := { off := 0x20000C }

/-! ### Fields -/

def F.UNIT_ID_CLASS : Fld := ⟨31, 24⟩
def F.UNIT_ID_INSTANCE : Fld := ⟨23, 12⟩
def F.UNIT_ID_MASTER_ID : Fld := ⟨11, 0⟩
def F.UNIT_REV_HDR_VER : Fld := ⟨19, 16⟩
def F.UNIT_REV_DESIGN : Fld := ⟨15, 8⟩
def F.UNIT_REV_STEP : Fld := ⟨7, 0⟩
def F.CHILD_COUNT_COUNT : Fld := ⟨15, 0⟩
def F.CHILD_TABLE_OFFSET : Fld := ⟨31, 0⟩
def F.PWR_REQ_TARGET : Fld := ⟨1, 0⟩
def F.PWR_STATE_QUARANTINE : Fld := ⟨4, 4⟩
def F.PWR_STATE_EMULATED : Fld := ⟨3, 3⟩
def F.PWR_STATE_STATE : Fld := ⟨2, 0⟩
def F.FAULT_SUM_VERIFY_FAIL : Fld := ⟨8, 8⟩
def F.FAULT_SUM_QUARANTINE : Fld := ⟨7, 7⟩
def F.FAULT_SUM_WATCHDOG : Fld := ⟨6, 6⟩
def F.FAULT_SUM_HEARTBEAT : Fld := ⟨5, 5⟩
def F.FAULT_SUM_ACCESS_VIOL : Fld := ⟨4, 4⟩
def F.FAULT_SUM_EPOCH_STALE : Fld := ⟨3, 3⟩
def F.FAULT_SUM_DEV_FATAL : Fld := ⟨2, 2⟩
def F.FAULT_SUM_UNIT_FATAL : Fld := ⟨1, 1⟩
def F.FAULT_SUM_CORR : Fld := ⟨0, 0⟩
def F.FAULT_MASK_MASK : Fld := ⟨7, 0⟩
def F.EPOCH_EPOCH : Fld := ⟨3, 0⟩
def F.LAST_WRITER_EPOCH : Fld := ⟨19, 16⟩
def F.LAST_WRITER_DEBUG : Fld := ⟨14, 14⟩
def F.LAST_WRITER_PRIV : Fld := ⟨13, 12⟩
def F.LAST_WRITER_MASTER : Fld := ⟨11, 0⟩
def F.HEALTH_TICK_TICK : Fld := ⟨31, 0⟩
def F.RESET_CTL_IN_RESET : Fld := ⟨2, 2⟩
def F.RESET_CTL_HOLD : Fld := ⟨1, 1⟩
def F.RESET_CTL_RESET : Fld := ⟨0, 0⟩
def F.MODE_REQ_PLAN_CONFIRM : Fld := ⟨12, 12⟩
def F.MODE_REQ_STACKS : Fld := ⟨11, 11⟩
def F.MODE_REQ_LOOP_EN : Fld := ⟨10, 10⟩
def F.MODE_REQ_DP_EN : Fld := ⟨9, 9⟩
def F.MODE_REQ_TARGET : Fld := ⟨2, 0⟩
def F.MODE_STATUS_WAKE_CAUSE : Fld := ⟨27, 24⟩
def F.MODE_STATUS_REQ_ERR : Fld := ⟨23, 20⟩
def F.MODE_STATUS_SAFE : Fld := ⟨19, 19⟩
def F.MODE_STATUS_RCV_PEND : Fld := ⟨18, 18⟩
def F.MODE_STATUS_RCV_CAUSE : Fld := ⟨17, 16⟩
def F.MODE_STATUS_EMUL_DORMANT : Fld := ⟨15, 15⟩
def F.MODE_STATUS_PENDING : Fld := ⟨14, 14⟩
def F.MODE_STATUS_PLAN : Fld := ⟨13, 11⟩
def F.MODE_STATUS_PREV : Fld := ⟨10, 8⟩
def F.MODE_STATUS_TRANS : Fld := ⟨7, 7⟩
def F.MODE_STATUS_MODE : Fld := ⟨2, 0⟩
def F.MODE_LEAD_LEAD : Fld := ⟨10, 0⟩
def F.PLAN_DIR_LO_DIR : Fld := ⟨31, 12⟩
def F.PLAN_DIR_HI_DIR : Fld := ⟨7, 0⟩
def F.FAULT_EVT_D_EN : Fld := ⟨31, 31⟩
def F.FAULT_EVT_D_SAFE_ALARM : Fld := ⟨30, 30⟩
def F.FAULT_EVT_D_EVT_Q : Fld := ⟨11, 10⟩
def F.FAULT_EVT_D_EVT_SRC : Fld := ⟨9, 0⟩
def F.SAFE_CAUSE_VALID : Fld := ⟨31, 31⟩
def F.SAFE_CAUSE_CLASS : Fld := ⟨23, 16⟩
def F.SAFE_CAUSE_CAUSE : Fld := ⟨7, 0⟩
def F.MCLOG_POP_VALID : Fld := ⟨31, 31⟩
def F.MCLOG_POP_LEFT : Fld := ⟨5, 0⟩
def F.FAULT_EVT_Q_EN : Fld := ⟨31, 31⟩
def F.FAULT_EVT_Q_EVT_Q : Fld := ⟨11, 10⟩
def F.FAULT_EVT_Q_EVT_SRC : Fld := ⟨9, 0⟩
def F.READMIT_CMD : Fld := ⟨31, 30⟩
def F.READMIT_T : Fld := ⟨6, 4⟩
def F.READMIT_C : Fld := ⟨3, 0⟩
def F.SUB_LOG_VALID : Fld := ⟨31, 31⟩
def F.SUB_LOG_T : Fld := ⟨30, 28⟩
def F.SUB_LOG_OLD : Fld := ⟨27, 24⟩
def F.SUB_LOG_NEW : Fld := ⟨23, 20⟩
def F.SUB_LOG_EPOCH : Fld := ⟨19, 16⟩
def F.SUB_LOG_IDENTITY : Fld := ⟨11, 0⟩
def F.TUS_HEALTH_STATE : Fld := ⟨26, 0⟩
def F.SW_CTL_LINK_UE_MAX : Fld := ⟨3, 0⟩
def F.SW_STATUS_SLOT : Fld := ⟨13, 8⟩
def F.SW_STATUS_ACTIVE_PLAN : Fld := ⟨7, 5⟩
def F.SW_STATUS_LOADING : Fld := ⟨4, 4⟩
def F.SW_STATUS_SHADOW_PLAN : Fld := ⟨3, 1⟩
def F.SW_STATUS_SHADOW_VALID : Fld := ⟨0, 0⟩
def F.PLAN_ERR_SLOT : Fld := ⟨26, 21⟩
def F.PLAN_ERR_PORT : Fld := ⟨20, 18⟩
def F.PLAN_ERR_ROUTER : Fld := ⟨17, 12⟩
def F.PLAN_ERR_PLAN : Fld := ⟨6, 4⟩
def F.PLAN_ERR_CODE : Fld := ⟨3, 0⟩
def F.LINK_DIS_LO_DIS : Fld := ⟨31, 0⟩
def F.LINK_DIS_HI_DIS : Fld := ⟨31, 0⟩
def F.TXN_TIMEOUT_US : Fld := ⟨13, 0⟩
def F.ATAB_WRITE_ATID : Fld := ⟨31, 24⟩
def F.ATAB_WRITE_MASTER : Fld := ⟨23, 12⟩
def F.ATAB_WRITE_R : Fld := ⟨8, 8⟩
def F.ATAB_WRITE_W : Fld := ⟨7, 7⟩
def F.ATAB_WRITE_X : Fld := ⟨6, 6⟩
def F.ATAB_WRITE_MINPRIV : Fld := ⟨5, 4⟩
def F.ATAB_WRITE_EPOCH : Fld := ⟨3, 0⟩
def F.ATAB_RD_SEL_ATID : Fld := ⟨31, 24⟩
def F.ATAB_RD_SEL_MASTER : Fld := ⟨23, 12⟩
def F.ATAB_RD_DATA_ENTRY : Fld := ⟨8, 0⟩
def F.VIOL_POP_VALID : Fld := ⟨31, 31⟩
def F.VIOL_POP_KIND : Fld := ⟨30, 28⟩
def F.VIOL_POP_EPOCH : Fld := ⟨27, 24⟩
def F.VIOL_POP_PRIV : Fld := ⟨23, 22⟩
def F.VIOL_POP_OP : Fld := ⟨21, 20⟩
def F.VIOL_POP_ATID : Fld := ⟨19, 12⟩
def F.VIOL_POP_MASTER : Fld := ⟨11, 0⟩
def F.VIOL_W1_ADDR : Fld := ⟨31, 0⟩
def F.VIOL_W2_ADDR : Fld := ⟨31, 0⟩
def F.SEM_REL_N : Fld := ⟨4, 0⟩
def F.SEM_TOKEN : Fld := ⟨0, 0⟩
def F.PMON_CTL_INTERVAL : Fld := ⟨23, 16⟩
def F.PMON_CTL_PORT : Fld := ⟨13, 11⟩
def F.PMON_CTL_ROUTER : Fld := ⟨10, 7⟩
def F.PMON_CTL_EVENT : Fld := ⟨6, 3⟩
def F.PMON_CTL_TRACE_EN : Fld := ⟨2, 2⟩
def F.PMON_CTL_CLR : Fld := ⟨1, 1⟩
def F.PMON_CTL_EN : Fld := ⟨0, 0⟩
def F.MC_CTL_SR_IDLE : Fld := ⟨7, 0⟩
def F.MC_STATUS_REFX2 : Fld := ⟨2, 2⟩
def F.MC_STATUS_SR : Fld := ⟨1, 1⟩
def F.MC_STATUS_INIT_DONE : Fld := ⟨0, 0⟩
def F.SCRUB_CTL_INTERVAL : Fld := ⟨23, 0⟩
def F.SCRUB_POS_LINE : Fld := ⟨24, 0⟩
def F.ECC_LOG_0_ADDR : Fld := ⟨31, 0⟩
def F.ECC_LOG_1_SCRUB : Fld := ⟨10, 10⟩
def F.ECC_LOG_1_UE : Fld := ⟨9, 9⟩
def F.ECC_LOG_1_VALID : Fld := ⟨8, 8⟩
def F.ECC_LOG_1_ADDR_HI : Fld := ⟨7, 0⟩
def F.REGION_ERR_VALID : Fld := ⟨8, 8⟩
def F.REGION_ERR_ENTRY : Fld := ⟨7, 0⟩
def F.CMP_SEL_EN : Fld := ⟨8, 8⟩
def F.CMP_SEL_REGION : Fld := ⟨7, 0⟩
def F.REG_BASE_BASE : Fld := ⟨19, 0⟩
def F.REG_SIZE_SIZE : Fld := ⟨19, 0⟩
def F.REG_ATTR_LOCKED : Fld := ⟨31, 31⟩
def F.REG_ATTR_WCLASS : Fld := ⟨14, 12⟩
def F.REG_ATTR_SW_ONLY : Fld := ⟨11, 11⟩
def F.REG_ATTR_COMPRESS : Fld := ⟨10, 10⟩
def F.REG_ATTR_QLOCAL : Fld := ⟨9, 9⟩
def F.REG_ATTR_SET : Fld := ⟨3, 0⟩
def F.DIR_CTL_BACKOFF : Fld := ⟨7, 0⟩
def F.DIR_STATUS_RETRYQ : Fld := ⟨30, 24⟩
def F.DIR_STATUS_USED : Fld := ⟨16, 0⟩
def F.DIR_ERR_VALID : Fld := ⟨31, 31⟩
def F.DIR_ERR_CODE : Fld := ⟨26, 24⟩
def F.DIR_ERR_AGENT : Fld := ⟨20, 16⟩
def F.STASH_BASE_BASE : Fld := ⟨19, 0⟩
def F.STASH_CFG_EN : Fld := ⟨31, 31⟩
def F.STASH_CFG_TGT : Fld := ⟨24, 20⟩
def F.STASH_CFG_SIZE : Fld := ⟨19, 0⟩
def F.ENG_CTL_CMD : Fld := ⟨2, 0⟩
def F.ENG_STATUS_OPS : Fld := ⟨24, 16⟩
def F.ENG_STATUS_ADOPTEE : Fld := ⟨9, 8⟩
def F.ENG_STATUS_ADOPTING : Fld := ⟨7, 7⟩
def F.ENG_STATUS_ADOPTER : Fld := ⟨6, 5⟩
def F.ENG_STATUS_ADOPTED : Fld := ⟨4, 4⟩
def F.ENG_STATUS_CS_VALID : Fld := ⟨3, 3⟩
def F.ENG_STATUS_STATE : Fld := ⟨2, 0⟩
def F.CS_IMAGE_TAG : Fld := ⟨31, 0⟩
def F.MC_LOG_VALID : Fld := ⟨31, 31⟩
def F.MC_LOG_THREAD : Fld := ⟨25, 22⟩
def F.MC_LOG_SYNDROME : Fld := ⟨21, 14⟩
def F.MC_LOG_PC : Fld := ⟨13, 0⟩
def F.CS_ERR_INJ_PIECE : Fld := ⟨16, 14⟩
def F.CS_ERR_INJ_ADDR : Fld := ⟨13, 0⟩
def F.ENTRY_ADDR : Fld := ⟨13, 0⟩
def F.WTO_TIME : Fld := ⟨15, 0⟩
def F.SEG_BASE_BASE : Fld := ⟨31, 0⟩
def F.SEG_LIMIT_SIZE : Fld := ⟨23, 0⟩
def F.THREAD_STATE : Fld := ⟨31, 28⟩
def F.THREAD_CTX : Fld := ⟨27, 19⟩
def F.THREAD_OPS : Fld := ⟨18, 14⟩
def F.THREAD_PC : Fld := ⟨13, 0⟩
def F.TRC_CTL_E_EN : Fld := ⟨31, 31⟩
def F.TRC_CTL_E_MODE : Fld := ⟨30, 29⟩
def F.TRC_CTL_E_ACTIVE : Fld := ⟨15, 15⟩
def F.TRC_CTL_E_CONN : Fld := ⟨10, 0⟩
def F.CMP_CFG_E_EN : Fld := ⟨31, 31⟩
def F.CMP_CFG_E_KIND : Fld := ⟨30, 28⟩
def F.CMP_CFG_E_ACT : Fld := ⟨12, 8⟩
def F.ETH_CFG_ERR_ACTION : Fld := ⟨29, 28⟩
def F.ETH_CFG_CUT_EN : Fld := ⟨23, 16⟩
def F.ETH_CFG_DEFAULT_TC : Fld := ⟨10, 8⟩
def F.ETH_CFG_PORT_MODE : Fld := ⟨1, 0⟩
def F.ETH_STATUS_CNT_OOR : Fld := ⟨31, 24⟩
def F.ETH_STATUS_INJ_BAD : Fld := ⟨23, 18⟩
def F.ETH_STATUS_QUIESCED : Fld := ⟨16, 16⟩
def F.ETH_STATUS_LANE_FAIL : Fld := ⟨15, 8⟩
def F.ETH_STATUS_LINK_UP : Fld := ⟨7, 0⟩
def F.MAX_FRAME_LEN : Fld := ⟨13, 0⟩
def F.RXBUF_BASE_VALUE : Fld := ⟨23, 0⟩
def F.RXBUF_SIZE_VALUE : Fld := ⟨23, 0⟩
def F.MISS_CFG_MISS_TI : Fld := ⟨26, 16⟩
def F.MISS_CFG_LOST_EXQ : Fld := ⟨15, 12⟩
def F.MISS_CFG_MISS_EXQ : Fld := ⟨11, 8⟩
def F.MISS_CFG_MISS_ACTION : Fld := ⟨5, 4⟩
def F.MISS_CFG_MISS_SEL : Fld := ⟨3, 0⟩
def F.PARSE_CFG_VXLAN_PORT : Fld := ⟨15, 0⟩
def F.PINT_CFG_PINT_UDP : Fld := ⟨31, 16⟩
def F.PINT_CFG_PINT_ETYPE : Fld := ⟨15, 0⟩
def F.FC_INV_LINE : Fld := ⟨31, 0⟩
def F.STL_MASK_LO_MASK : Fld := ⟨31, 0⟩
def F.STL_MASK_HI_MASK : Fld := ⟨31, 0⟩
def F.TBL_BASE_BASE : Fld := ⟨31, 0⟩
def F.TBL_CFG_EN : Fld := ⟨16, 16⟩
def F.TBL_CFG_KEYW : Fld := ⟨11, 8⟩
def F.TBL_CFG_LOG2_BUCKETS : Fld := ⟨4, 0⟩
def F.CNTB_BASE_BASE : Fld := ⟨31, 0⟩
def F.CNTB_SIZE_SIZE : Fld := ⟨23, 0⟩
def F.PFC_TH_XON : Fld := ⟨31, 16⟩
def F.PFC_TH_XOFF : Fld := ⟨15, 0⟩
def F.EXQ_BASE_BASE : Fld := ⟨31, 0⟩
def F.EXQ_CFG_EVT_Q : Fld := ⟨19, 18⟩
def F.EXQ_CFG_EVT_SRC : Fld := ⟨17, 8⟩
def F.EXQ_CFG_EN : Fld := ⟨7, 7⟩
def F.EXQ_CFG_SLOT_SIZE : Fld := ⟨6, 4⟩
def F.EXQ_CFG_LOG2_SLOTS : Fld := ⟨3, 0⟩
def F.EXQ_PROD_INDEX : Fld := ⟨15, 0⟩
def F.EXQ_CONS_INDEX : Fld := ⟨15, 0⟩
def F.INJ_BASE_BASE : Fld := ⟨31, 0⟩
def F.INJ_CFG_EN : Fld := ⟨7, 7⟩
def F.INJ_CFG_SLOT_SIZE : Fld := ⟨6, 4⟩
def F.INJ_CFG_LOG2_SLOTS : Fld := ⟨3, 0⟩
def F.INJ_PROD_INDEX : Fld := ⟨15, 0⟩
def F.INJ_CONS_INDEX : Fld := ⟨15, 0⟩
def F.KEY_SLOT_SLOT : Fld := ⟨14, 0⟩
def F.KEY_ATTR_VALID : Fld := ⟨12, 12⟩
def F.KEY_ATTR_SHARED : Fld := ⟨11, 11⟩
def F.KEY_ATTR_TI : Fld := ⟨10, 0⟩
def F.PTP_CFG_TS_EN : Fld := ⟨31, 31⟩
def F.PTP_CFG_ONE_STEP : Fld := ⟨30, 30⟩
def F.PTP_CFG_EVT_EN : Fld := ⟨29, 29⟩
def F.PTP_CFG_EVT_Q : Fld := ⟨11, 10⟩
def F.PTP_CFG_EVT_SRC : Fld := ⟨9, 0⟩
def F.TS_CORR_RX_CORR : Fld := ⟨31, 16⟩
def F.TS_CORR_TX_CORR : Fld := ⟨15, 0⟩
def F.TXTS_POP_VALID : Fld := ⟨31, 31⟩
def F.TXTS_POP_TYPE : Fld := ⟨27, 24⟩
def F.TXTS_POP_DOMAIN : Fld := ⟨23, 16⟩
def F.TXTS_POP_SEQID : Fld := ⟨15, 0⟩
def F.SHAPE_MAXRATE : Fld := ⟨23, 8⟩
def F.SHAPE_WEIGHT : Fld := ⟨7, 0⟩
def F.OB_CTL_LINK : Fld := ⟨1, 1⟩
def F.OB_CTL_OB_EN : Fld := ⟨0, 0⟩
def F.OB_BASE_LO_BASE_LO : Fld := ⟨31, 16⟩
def F.OB_BASE_HI_BASE_HI : Fld := ⟨31, 0⟩
def F.TI_OVF_OVF_BASE : Fld := ⟨31, 8⟩
def F.TI_OVF_OVF_SHIFT : Fld := ⟨4, 0⟩
def F.CTXO_SEL_G : Fld := ⟨13, 0⟩
def F.CTXO_DATA_VALID : Fld := ⟨31, 31⟩
def F.CTXO_DATA_TI : Fld := ⟨26, 16⟩
def F.CTXO_DATA_SLOT : Fld := ⟨11, 0⟩
def F.ADM_KEY_RANGE_COUNT : Fld := ⟨31, 16⟩
def F.ADM_KEY_RANGE_FIRST : Fld := ⟨14, 0⟩
def F.DELIV_ERR_VALID : Fld := ⟨31, 31⟩
def F.DELIV_ERR_SET : Fld := ⟨13, 8⟩
def F.DELIV_ERR_CODE : Fld := ⟨2, 0⟩
def F.SSET_TRIG_SET : Fld := ⟨5, 0⟩
def F.SSET_CFG_EN : Fld := ⟨31, 31⟩
def F.SSET_CFG_Q : Fld := ⟨30, 29⟩
def F.SSET_CFG_COUNT : Fld := ⟨20, 16⟩
def F.SSET_CFG_CONN : Fld := ⟨10, 0⟩
def F.SSET_OFF_OFF : Fld := ⟨14, 0⟩
def F.SSET_CH_ENTRY : Fld := ⟨31, 0⟩
def F.GRP_CTL_MCLK_DIV : Fld := ⟨15, 8⟩
def F.GRP_CTL_EDGE : Fld := ⟨2, 2⟩
def F.GRP_CTL_DRIVE : Fld := ⟨1, 1⟩
def F.GRP_CTL_EN : Fld := ⟨0, 0⟩
def F.GRP_STATUS_CLK_FAULT_SEEN : Fld := ⟨2, 2⟩
def F.GRP_STATUS_CLK_FAULT : Fld := ⟨1, 1⟩
def F.GRP_STATUS_CLK_OK : Fld := ⟨0, 0⟩
def F.CH_CFG_EN : Fld := ⟨31, 31⟩
def F.CH_CFG_TEL_EN : Fld := ⟨30, 30⟩
def F.CH_CFG_ORDER : Fld := ⟨29, 28⟩
def F.CH_CFG_DEC : Fld := ⟨26, 16⟩
def F.CH_CFG_SHIFT : Fld := ⟨13, 8⟩
def F.CH_OFFSET_OFFSET : Fld := ⟨23, 0⟩
def F.CH_GAIN_GAIN : Fld := ⟨15, 0⟩
def F.CH_LAST_FIRST : Fld := ⟨28, 28⟩
def F.CH_LAST_WORD : Fld := ⟨27, 0⟩
def F.TRIP_EVT_EN : Fld := ⟨31, 31⟩
def F.TRIP_EVT_EVT_Q : Fld := ⟨11, 10⟩
def F.TRIP_EVT_EVT_SRC : Fld := ⟨9, 0⟩
def F.TRIP_SUM_TRIPPED : Fld := ⟨31, 0⟩
def F.TRIP_CFG_EN : Fld := ⟨31, 31⟩
def F.TRIP_CFG_CLKF_TRIP : Fld := ⟨30, 30⟩
def F.TRIP_CFG_SRC : Fld := ⟨22, 16⟩
def F.TRIP_CFG_DEC : Fld := ⟨14, 8⟩
def F.TRIP_CFG_DEB : Fld := ⟨3, 0⟩
def F.TRIP_THR_THR_HI : Fld := ⟨31, 16⟩
def F.TRIP_THR_THR_LO : Fld := ⟨15, 0⟩
def F.TRIP_STATUS_TRIPPED : Fld := ⟨31, 31⟩
def F.TRIP_STATUS_CAUSE_LO : Fld := ⟨30, 30⟩
def F.TRIP_STATUS_CAUSE_CLK : Fld := ⟨29, 29⟩
def F.TRIP_STATUS_DEB_CNT : Fld := ⟨19, 16⟩
def F.TRIP_STATUS_VALUE : Fld := ⟨15, 0⟩
def F.EVI_FREQ_WIN_MS : Fld := ⟨9, 0⟩
def F.EVI_CFG_EN : Fld := ⟨31, 31⟩
def F.EVI_CFG_INV : Fld := ⟨30, 30⟩
def F.EVI_CFG_EDGE : Fld := ⟨29, 28⟩
def F.EVI_CFG_GLITCH : Fld := ⟨23, 16⟩
def F.EVI_CFG_IRQ_GAP : Fld := ⟨15, 0⟩
def F.EVI_IRQ_IRQ_EDGE : Fld := ⟨31, 31⟩
def F.EVI_IRQ_IRQ_STUCK : Fld := ⟨30, 30⟩
def F.EVI_IRQ_EVT_Q : Fld := ⟨11, 10⟩
def F.EVI_IRQ_EVT_SRC : Fld := ⟨9, 0⟩
def F.EVI_STUCK_STUCK_TIME : Fld := ⟨15, 0⟩
def F.EVI_STATUS_LEVEL : Fld := ⟨31, 31⟩
def F.EVI_STATUS_STUCK : Fld := ⟨30, 30⟩
def F.EVI_STATUS_STUCK_SEEN : Fld := ⟨29, 29⟩
def F.EVI_STATUS_FAST : Fld := ⟨28, 28⟩
def F.EVI_STATUS_GLITCH_CNT : Fld := ⟨15, 0⟩
def F.TRIP_MAP_BRAKES : Fld := ⟨15, 0⟩
def F.LOOP_ARM_LOOP : Fld := ⟨5, 0⟩
def F.ACONN_CONN : Fld := ⟨10, 0⟩
def F.ACT_EVT_EN : Fld := ⟨31, 31⟩
def F.ACT_EVT_EVT_Q : Fld := ⟨11, 10⟩
def F.ACT_EVT_EVT_SRC : Fld := ⟨9, 0⟩
def F.BRK_SET_BITS : Fld := ⟨15, 0⟩
def F.BRK_REL_BITS : Fld := ⟨15, 0⟩
def F.BRK_OUT_BITS : Fld := ⟨15, 0⟩
def F.LOOP_CFG_EN : Fld := ⟨31, 31⟩
def F.LOOP_CFG_PRIO : Fld := ⟨23, 22⟩
def F.LOOP_CFG_BANK : Fld := ⟨21, 20⟩
def F.LOOP_CFG_CORE : Fld := ⟨18, 16⟩
def F.LOOP_CFG_SSET : Fld := ⟨5, 0⟩
def F.LOOP_PWM_LO_SET : Fld := ⟨31, 0⟩
def F.LOOP_PWM_HI_SET : Fld := ⟨31, 0⟩
def F.LOOP_BRK_BSH : Fld := ⟨31, 16⟩
def F.LOOP_BRK_BSET : Fld := ⟨15, 0⟩
def F.LOOP_STAT_ARMED : Fld := ⟨31, 31⟩
def F.LOOP_STAT_LOOP_OVERRUN : Fld := ⟨30, 30⟩
def F.LOOP_STAT_OVR_CNT : Fld := ⟨15, 0⟩
def F.PWM_CFG_EN : Fld := ⟨31, 31⟩
def F.PWM_CFG_POL : Fld := ⟨30, 30⟩
def F.PWM_CFG_UPD : Fld := ⟨29, 29⟩
def F.PWM_CFG_SAFE : Fld := ⟨28, 27⟩
def F.PWM_CFG_OWNED : Fld := ⟨7, 7⟩
def F.PWM_CFG_OWNER : Fld := ⟨5, 0⟩
def F.PWM_PER_VALUE : Fld := ⟨21, 0⟩
def F.PWM_DUTY_VALUE : Fld := ⟨21, 0⟩
def F.PWM_ACT_PEND : Fld := ⟨31, 31⟩
def F.PWM_ACT_DUTY : Fld := ⟨21, 0⟩
def F.BRK_CFG_EN : Fld := ⟨31, 31⟩
def F.BRK_CFG_SAFE : Fld := ⟨30, 29⟩
def F.BRK_CFG_AUTO_REL : Fld := ⟨13, 0⟩
def F.BRK_STAT_OUT : Fld := ⟨31, 31⟩
def F.BRK_STAT_LATCH : Fld := ⟨30, 27⟩
def F.BRK_STAT_ASSERT_CNT : Fld := ⟨15, 0⟩
def F.FC_GCONN_CONN : Fld := ⟨10, 0⟩
def F.FC_RING_CFG_EN : Fld := ⟨31, 31⟩
def F.FC_RING_CFG_LOG2 : Fld := ⟨30, 27⟩
def F.FC_RING_CFG_CONN : Fld := ⟨26, 16⟩
def F.FC_RING_CFG_OFF : Fld := ⟨14, 0⟩
def F.FC_RING_WAKE_EN : Fld := ⟨31, 31⟩
def F.FC_RING_WAKE_PRIO : Fld := ⟨23, 22⟩
def F.FC_RING_WAKE_BANK : Fld := ⟨21, 20⟩
def F.FC_RING_WAKE_CORE : Fld := ⟨18, 16⟩
def F.FCB_MAP_EN : Fld := ⟨31, 31⟩
def F.FCB_MAP_MIN_MAG : Fld := ⟨19, 16⟩
def F.FCB_MAP_BRAKES : Fld := ⟨15, 0⟩
def F.PINT_CTL_EN : Fld := ⟨31, 31⟩
def F.PINT_CTL_UDP : Fld := ⟨30, 30⟩
def F.PINT_CTL_PORT : Fld := ⟨29, 27⟩
def F.PINT_CTL_TC : Fld := ⟨26, 24⟩
def F.PINT_CTL_MIN_MAG : Fld := ⟨23, 20⟩
def F.PINT_CTL_PERIOD : Fld := ⟨15, 0⟩
def F.PINT_GAP_GAP : Fld := ⟨15, 0⟩
def F.PINT_TRAY_VALUE : Fld := ⟨15, 0⟩
def F.PINT_SMAC_HI_VALUE : Fld := ⟨15, 0⟩
def F.PINT_DMAC_HI_VALUE : Fld := ⟨15, 0⟩
def F.PINT_POWER_WATTS : Fld := ⟨23, 0⟩
def F.PINT_CAP_CAP_STATE : Fld := ⟨31, 30⟩
def F.PINT_CAP_WATTS : Fld := ⟨23, 0⟩
def F.TEL_CTL_TEL_UDP : Fld := ⟨31, 16⟩
def F.TEL_CTL_TEL_ETYPE : Fld := ⟨15, 0⟩
def F.TOUT_CFG_EN : Fld := ⟨31, 31⟩
def F.TOUT_CFG_KIND : Fld := ⟨30, 29⟩
def F.TOUT_CFG_PORT : Fld := ⟨28, 26⟩
def F.TOUT_CFG_TC : Fld := ⟨25, 23⟩
def F.TOUT_CFG_TI : Fld := ⟨22, 12⟩
def F.TOUT_CFG_LOG2 : Fld := ⟨11, 8⟩
def F.TOUT_CFG_HOLD : Fld := ⟨7, 0⟩
def F.TOUT_IDX_INDEX : Fld := ⟨15, 0⟩
def F.STR_CFG_EN : Fld := ⟨31, 31⟩
def F.STR_CFG_MODE : Fld := ⟨30, 29⟩
def F.STR_CFG_E : Fld := ⟨28, 25⟩
def F.STR_CFG_ORDER : Fld := ⟨24, 23⟩
def F.STR_CFG_WL : Fld := ⟨22, 20⟩
def F.STR_CFG_FLUSH : Fld := ⟨15, 8⟩
def F.STR_CFG_OUTS : Fld := ⟨7, 0⟩
def F.STR_SRC_KIND : Fld := ⟨31, 30⟩
def F.STR_SRC_DIV : Fld := ⟨23, 16⟩
def F.STR_SRC_PERIOD : Fld := ⟨15, 0⟩
def F.STR_ARG_ARG : Fld := ⟨31, 0⟩
def F.STR_STAT_BSEQ : Fld := ⟨31, 16⟩
def F.STR_STAT_OPEN : Fld := ⟨7, 7⟩
def F.STR_STAT_FILL : Fld := ⟨6, 0⟩
def F.PEAT_CTL_PWREN_OFF : Fld := ⟨0, 0⟩
def F.CLK_STATUS_PEAT_CLKF : Fld := ⟨3, 3⟩
def F.CLK_STATUS_REFCLK_OK : Fld := ⟨2, 2⟩
def F.CLK_STATUS_DISCIPLINED : Fld := ⟨1, 1⟩
def F.CLK_STATUS_EXT : Fld := ⟨0, 0⟩
def F.PLL_STATUS_LOST : Fld := ⟨22, 16⟩
def F.PLL_STATUS_RUN : Fld := ⟨14, 8⟩
def F.PLL_STATUS_LOCK : Fld := ⟨6, 0⟩
def F.RST_CFG_PERST_WARM : Fld := ⟨1, 0⟩
def F.RST_CAUSE_CAUSE : Fld := ⟨2, 0⟩
def F.IO_STATUS_IOV_ERR : Fld := ⟨1, 1⟩
def F.IO_STATUS_IOV_3V3 : Fld := ⟨0, 0⟩
def F.WAKE_EN_SRC : Fld := ⟨4, 0⟩
def F.WAKE_STATUS_PG_LATE : Fld := ⟨8, 8⟩
def F.WAKE_STATUS_SRC : Fld := ⟨4, 0⟩
def F.WAKE_ALARM_LO_TIME : Fld := ⟨31, 0⟩
def F.WAKE_ALARM_HI_TIME : Fld := ⟨31, 0⟩
def F.PTRIP_CFG_EN : Fld := ⟨31, 31⟩
def F.PTRIP_CFG_PDEB : Fld := ⟨19, 16⟩
def F.PTRIP_CFG_PWIN : Fld := ⟨8, 0⟩
def F.PTRIP_THR_PHI : Fld := ⟨31, 16⟩
def F.PTRIP_THR_PLO : Fld := ⟨15, 0⟩
def F.GT_STATUS_STEP_PEND : Fld := ⟨31, 31⟩
def F.GT_STATUS_STEP_CNT : Fld := ⟨15, 0⟩
def F.DWD_CTL_EN : Fld := ⟨31, 31⟩
def F.DWD_CTL_DORMANT_RUN : Fld := ⟨30, 30⟩
def F.DWD_CTL_ACTION : Fld := ⟨29, 28⟩
def F.DWD_CTL_RELOAD : Fld := ⟨23, 0⟩
def F.DWD_KICK_KEY : Fld := ⟨7, 0⟩
def F.DWD_STATUS_ALARM : Fld := ⟨31, 31⟩
def F.DWD_STATUS_RESET_SEEN : Fld := ⟨30, 30⟩
def F.DWD_STATUS_REMAIN : Fld := ⟨23, 0⟩
def F.BANK_CFG_EN : Fld := ⟨31, 31⟩
def F.BANK_CFG_BPRI : Fld := ⟨1, 0⟩
def F.BANK_START_START : Fld := ⟨31, 2⟩
def F.BANK_STAT_STATE : Fld := ⟨31, 30⟩
def F.BANK_STAT_FLAG : Fld := ⟨29, 29⟩
def F.BANK_STAT_EPRI : Fld := ⟨28, 27⟩
def F.BANK_STAT_TRAP : Fld := ⟨26, 26⟩
def F.BANK_STAT_MACOWN : Fld := ⟨25, 25⟩
def F.BANK_STAT_RESV : Fld := ⟨24, 24⟩
def F.BANK_STAT_EDEPTH : Fld := ⟨23, 20⟩
def F.SCHED_CFG_QUANT : Fld := ⟨15, 0⟩
def F.CORE_STATUS_STOPPED : Fld := ⟨1, 1⟩
def F.CORE_STATUS_MC_ACTIVE : Fld := ⟨0, 0⟩
def F.WD_CTL_EN : Fld := ⟨31, 31⟩
def F.WD_CTL_WD_DBGPAUSE : Fld := ⟨30, 30⟩
def F.WD_CTL_ACTION : Fld := ⟨29, 28⟩
def F.WD_CTL_RELOAD : Fld := ⟨23, 0⟩
def F.WD_KICK_KEY : Fld := ⟨7, 0⟩
def F.CKPT_CTL_CKPT_ERR : Fld := ⟨8, 8⟩
def F.CKPT_CTL_NOW : Fld := ⟨7, 4⟩
def F.CKPT_CTL_AUTO : Fld := ⟨3, 0⟩
def F.VEC_S_BASE : Fld := ⟨31, 12⟩
def F.VEC_H_BASE : Fld := ⟨31, 12⟩
def F.VEC_M_BASE : Fld := ⟨31, 12⟩
def F.VEC_MC_BASE : Fld := ⟨31, 12⟩
def F.S_TTB_BASE : Fld := ⟨31, 7⟩
def F.S_TTB_EN : Fld := ⟨0, 0⟩
def F.S_CTL_SEG : Fld := ⟨31, 24⟩
def F.S_CTL_ASID : Fld := ⟨11, 0⟩
def F.H_TTB_BASE : Fld := ⟨31, 7⟩
def F.H_TTB_EN : Fld := ⟨0, 0⟩
def F.H_CTL_SEG : Fld := ⟨31, 24⟩
def F.H_CTL_ASID : Fld := ⟨11, 0⟩
def F.M_TTB_BASE : Fld := ⟨31, 7⟩
def F.M_TTB_EN : Fld := ⟨0, 0⟩
def F.M_CTL_SEG : Fld := ⟨31, 24⟩
def F.M_CTL_ASID : Fld := ⟨11, 0⟩
def F.S2_TTB_BASE : Fld := ⟨31, 5⟩
def F.S2_TTB_EN : Fld := ⟨0, 0⟩
def F.S2_CTL_VMID : Fld := ⟨7, 0⟩
def F.S2_FIPA_IPA : Fld := ⟨27, 0⟩
def F.DBG_CTL_DBG_EN : Fld := ⟨31, 31⟩
def F.DBG_CTL_HALT : Fld := ⟨27, 24⟩
def F.DBG_CTL_STEP : Fld := ⟨23, 20⟩
def F.DBG_CTL_MON_PRI : Fld := ⟨17, 16⟩
def F.DBG_STAT_MON : Fld := ⟨31, 28⟩
def F.DBG_STAT_HALT_PEND : Fld := ⟨27, 24⟩
def F.TRC_CTL_C_EN : Fld := ⟨31, 31⟩
def F.TRC_CTL_C_MODE : Fld := ⟨30, 29⟩
def F.TRC_CTL_C_FR : Fld := ⟨28, 28⟩
def F.TRC_CTL_C_BANKS : Fld := ⟨27, 24⟩
def F.TRC_CTL_C_PLMASK : Fld := ⟨23, 20⟩
def F.TRC_CTL_C_ACTIVE : Fld := ⟨15, 15⟩
def F.TRC_CTL_C_CONN : Fld := ⟨10, 0⟩
def F.CMP_CFG_C_EN : Fld := ⟨31, 31⟩
def F.CMP_CFG_C_KIND : Fld := ⟨30, 28⟩
def F.CMP_CFG_C_BANKS : Fld := ⟨27, 24⟩
def F.CMP_CFG_C_PLMASK : Fld := ⟨23, 20⟩
def F.CMP_CFG_C_ACT : Fld := ⟨12, 8⟩
def F.ER_RAISE_SRC : Fld := ⟨9, 0⟩
def F.ER_CLAIM_VALID : Fld := ⟨31, 31⟩
def F.ER_CLAIM_SRC : Fld := ⟨9, 0⟩
def F.BSET_LO_MASK : Fld := ⟨31, 0⟩
def F.BSET_HI_MASK : Fld := ⟨30, 0⟩
def F.ER_ROUTE_EN : Fld := ⟨31, 31⟩
def F.ER_ROUTE_KIND : Fld := ⟨30, 30⟩
def F.ER_ROUTE_PRIO : Fld := ⟨29, 28⟩
def F.ER_ROUTE_BANK : Fld := ⟨27, 26⟩
def F.ER_ROUTE_TARGET : Fld := ⟨11, 0⟩
def F.ER_PEND_PEND : Fld := ⟨31, 0⟩
def F.L2_WAYS_LOCKW : Fld := ⟨11, 8⟩
def F.L2_WAYS_SCRATCH : Fld := ⟨3, 0⟩
def F.L2_CTL_STASH_ANY : Fld := ⟨8, 8⟩
def F.L2_CTL_PF_DEPTH : Fld := ⟨6, 4⟩
def F.L2_CTL_PF_EN : Fld := ⟨0, 0⟩
def F.L2_STATUS_CONV_BUSY : Fld := ⟨31, 31⟩
def F.L2_STATUS_EVB : Fld := ⟨20, 16⟩
def F.L2_STATUS_LOCKLOST : Fld := ⟨0, 0⟩
def F.COH_CTL_HOLD_CYCLES : Fld := ⟨8, 0⟩
def F.TWD_CTL_EN : Fld := ⟨31, 31⟩
def F.TWD_CTL_ACTION : Fld := ⟨29, 28⟩
def F.TWD_CTL_RELOAD : Fld := ⟨23, 0⟩
def F.TWD_KICK_KEY : Fld := ⟨7, 0⟩
def F.CKPT_CFG_EN : Fld := ⟨31, 31⟩
def F.CKPT_CFG_OFF : Fld := ⟨14, 0⟩
def F.FR_CFG_EN : Fld := ⟨31, 31⟩
def F.FR_CFG_TRIG_MC : Fld := ⟨30, 30⟩
def F.FR_CFG_OFF : Fld := ⟨14, 0⟩
def F.FR_POST_POST : Fld := ⟨11, 0⟩
def F.FR_STATUS_TRIGGERED : Fld := ⟨31, 31⟩
def F.FR_STATUS_STOPPED : Fld := ⟨30, 30⟩
def F.FR_STATUS_WRAPPED : Fld := ⟨29, 29⟩
def F.FR_STATUS_ERR : Fld := ⟨28, 28⟩
def F.FR_STATUS_PTR : Fld := ⟨17, 0⟩
def F.FR_TRIGPTR_PTR : Fld := ⟨17, 0⟩
def F.FR_TRIG_TRIG : Fld := ⟨0, 0⟩
def F.HR_CTL_EN : Fld := ⟨31, 31⟩
def F.HR_CTL_SINK : Fld := ⟨30, 29⟩
def F.HR_CTL_STOP_FULL : Fld := ⟨28, 28⟩
def F.HR_STATUS_FLUSHED : Fld := ⟨31, 31⟩
def F.HR_STATUS_FULL : Fld := ⟨30, 30⟩
def F.HR_STATUS_WRAPPED : Fld := ⟨29, 29⟩
def F.HR_SYNC_BYTES : Fld := ⟨16, 0⟩
def F.RING_BASE_LO_ADDR : Fld := ⟨31, 16⟩
def F.RING_BASE_HI_ADDR : Fld := ⟨7, 0⟩
def F.RING_SIZE_SIZE : Fld := ⟨14, 0⟩
def F.GFR_STATUS_TRIGGERED : Fld := ⟨31, 31⟩
def F.GFR_STATUS_STOPPED : Fld := ⟨30, 30⟩
def F.GFR_STATUS_PTR : Fld := ⟨14, 0⟩
def F.BOOT_STATUS_DONE : Fld := ⟨31, 31⟩
def F.BOOT_STATUS_VERIFY_FAIL : Fld := ⟨30, 30⟩
def F.BOOT_STATUS_KEY_LOCK : Fld := ⟨29, 29⟩
def F.BOOT_STATUS_BDT_OK : Fld := ⟨28, 28⟩
def F.BOOT_STATUS_BDT_PRESENT : Fld := ⟨27, 27⟩
def F.BOOT_STATUS_NO_SECRET : Fld := ⟨26, 26⟩
def F.BOOT_STATUS_REVOKED_NOW : Fld := ⟨25, 25⟩
def F.BOOT_STATUS_PHASE : Fld := ⟨23, 20⟩
def F.BOOT_STATUS_SLOT : Fld := ⟨19, 18⟩
def F.BOOT_STATUS_STRAP_BOOT : Fld := ⟨17, 16⟩
def F.BOOT_STATUS_FAIL_IMAGE : Fld := ⟨15, 8⟩
def F.BOOT_STATUS_FAIL_CODE : Fld := ⟨7, 0⟩
def F.BOOT_INFO_STRAPS : Fld := ⟨7, 0⟩
def F.FUSE_STAT_SECRET : Fld := ⟨8, 8⟩
def F.FUSE_STAT_REVOKED : Fld := ⟨7, 4⟩
def F.FUSE_STAT_PROGRAMMED : Fld := ⟨3, 0⟩
def F.KEY_CTL_KEY_LOCK : Fld := ⟨0, 0⟩
def F.KEY_REQ_INDEX : Fld := ⟨4, 0⟩
def F.KEY_STATUS_BUSY : Fld := ⟨31, 31⟩
def F.KEY_STATUS_READY : Fld := ⟨30, 30⟩
def F.KEY_STATUS_CODE : Fld := ⟨10, 8⟩
def F.KEY_STATUS_INDEX : Fld := ⟨4, 0⟩
def F.KEY_OUT_KEY : Fld := ⟨31, 0⟩
def F.ATTEST_ADDR_LO_ADDR : Fld := ⟨31, 0⟩
def F.ATTEST_ADDR_HI_ADDR : Fld := ⟨7, 0⟩
def F.ATTEST_REQ_GO : Fld := ⟨31, 31⟩
def F.ATTEST_STATUS_BUSY : Fld := ⟨31, 31⟩
def F.ATTEST_STATUS_DONE : Fld := ⟨30, 30⟩
def F.ATTEST_STATUS_ERR : Fld := ⟨29, 29⟩
def F.CS_RELOAD_GO : Fld := ⟨31, 31⟩
def F.CS_RELOAD_E : Fld := ⟨5, 0⟩
def F.CS_RELOAD_STATUS_BUSY : Fld := ⟨31, 31⟩
def F.CS_RELOAD_STATUS_DONE : Fld := ⟨30, 30⟩
def F.CS_RELOAD_STATUS_FAIL : Fld := ⟨29, 29⟩
def F.DAP_CTL_DBG_ATTACHED : Fld := ⟨31, 31⟩
def F.DAP_CTL_DBG_SIDEEFFECT : Fld := ⟨30, 30⟩
def F.DAP_CTL_FREEZE : Fld := ⟨29, 29⟩
def F.AUTH_REQ_HOST : Fld := ⟨7, 7⟩
def F.AUTH_REQ_CLASS : Fld := ⟨2, 0⟩
def F.AUTH_STATUS_BUSY : Fld := ⟨31, 31⟩
def F.AUTH_STATUS_FAIL : Fld := ⟨30, 30⟩
def F.AUTH_STATUS_LOCKOUT : Fld := ⟨29, 29⟩
def F.AUTH_STATUS_FAILS : Fld := ⟨27, 24⟩
def F.AUTH_STATUS_MAX_CLASS : Fld := ⟨18, 16⟩
def F.AUTH_STATUS_HOST : Fld := ⟨7, 7⟩
def F.AUTH_STATUS_CLASS : Fld := ⟨2, 0⟩
def F.DRE_ADDR_HI_INC : Fld := ⟨31, 31⟩
def F.DRE_ADDR_HI_ADDR : Fld := ⟨7, 0⟩
def F.DRE_CMD_SIZE16 : Fld := ⟨1, 1⟩
def F.DRE_CMD_WRITE : Fld := ⟨0, 0⟩
def F.DRE_STATUS_BUSY : Fld := ⟨31, 31⟩
def F.DRE_STATUS_ERR : Fld := ⟨30, 30⟩
def F.DRE_STATUS_POISON : Fld := ⟨29, 29⟩
def F.DRE_STATUS_RESP : Fld := ⟨2, 0⟩
def F.ADM_CTL_ADM_VEC : Fld := ⟨27, 16⟩
def F.ADM_CTL_ADM_INTR : Fld := ⟨8, 8⟩
def F.ADM_CTL_ADM_CQ_LOG2 : Fld := ⟨7, 4⟩
def F.ADM_CTL_ADM_SQ_LOG2 : Fld := ⟨3, 0⟩
def F.ADM_STATUS_EN : Fld := ⟨31, 31⟩
def F.ADM_STATUS_INPROG : Fld := ⟨22, 16⟩
def F.ADM_STATUS_TAG_ORPHAN : Fld := ⟨15, 0⟩
def F.ADM_SQ_BASE_LO_BASE_LO : Fld := ⟨31, 12⟩
def F.ADM_CQ_BASE_LO_BASE_LO : Fld := ⟨31, 12⟩
def F.ADM_SQ_TAIL_INDEX : Fld := ⟨15, 0⟩
def F.ADM_CQ_HEAD_INDEX : Fld := ⟨15, 0⟩
def F.BOOT_MBOX_LO_BASE : Fld := ⟨31, 12⟩
def F.BOOT_MBOX_CTL_GO : Fld := ⟨0, 0⟩

/-- The registers of the unit header, R16. -/
def regsHdr : List Reg :=
  [R.UNIT_ID, R.UNIT_REV, R.CHILD_COUNT, R.CHILD_TABLE, R.PWR_REQ, R.PWR_STATE, R.FAULT_SUM, R.FAULT_MASK,
   R.EPOCH, R.CFG_EPOCH, R.LAST_WRITER, R.HEALTH_TICK, R.RESET_CTL, R.CFG_DIGEST_LO, R.CFG_DIGEST_HI, R.ENERGY_LO,
   R.ENERGY_HI]

/-- The registers of the device UMB. -/
def regsDevice : List Reg :=
  [R.MODE_REQ, R.MODE_STATUS, R.MODE_LEAD, R.MODE_SWAP_TIME_LO, R.MODE_SWAP_TIME_HI, R.PLAN_DIR_LO, R.PLAN_DIR_HI,
   R.FAULT_EVT_D, R.SAFE_CAUSE, R.MCLOG_POP, R.MCLOG_OVF, R.MCLOG_W]

/-- The registers of a quadrant UMB. -/
def regsQuad : List Reg :=
  [R.FAULT_EVT_Q, R.READMIT, R.SUB_LOG, R.TUS_HEALTH]

/-- The registers of a Sward router block. -/
def regsSw : List Reg :=
  [R.SW_CTL, R.SW_STATUS, R.PLAN_ERR, R.LINK_DIS_LO, R.LINK_DIS_HI, R.TXN_TIMEOUT, R.ATAB_WRITE, R.ATAB_RD_SEL,
   R.ATAB_RD_DATA, R.VIOL_POP, R.VIOL_W1, R.VIOL_W2, R.VIOL_OVF, R.SEM_REL, R.SEM, R.PMON_CTL, R.PMON_CNT_LO,
   R.PMON_CNT_HI]

/-- The registers of a home slice. -/
def regsSlice : List Reg :=
  [R.MC_CTL, R.MC_STATUS, R.SCRUB_CTL, R.SCRUB_POS, R.ECC_CORR_CNT, R.ECC_UE_CNT, R.ECC_LOG_0, R.ECC_LOG_1,
   R.DIR_CTL, R.DIR_STATUS, R.DIR_ERR, R.DIR_CNT_LO, R.DIR_CNT_HI]

/-- The registers of home slice 0 of Q0 only. -/
def regsSlice0 : List Reg :=
  [R.REGION_ERR, R.CMP_SEL, R.CMP_WR_LO, R.CMP_WR_HI, R.CMP_PACK_LO, R.CMP_PACK_HI, R.CMP_RD_LO, R.CMP_RD_HI,
   R.REG_BASE, R.REG_SIZE, R.REG_ATTR, R.STASH_BASE, R.STASH_CFG]

/-- The registers of a Sedge engine. -/
def regsEngine : List Reg :=
  [R.ENG_CTL, R.ENG_STATUS, R.CS_IMAGE, R.MC_LOG, R.CS_ERR_INJ, R.EXC_CNT, R.EXC_NEST_CNT, R.ISSUE_CNT_LO,
   R.ISSUE_CNT_HI, R.IDLE_CNT_LO, R.IDLE_CNT_HI, R.ENTRY, R.WTO, R.SEG_BASE, R.SEG_LIMIT, R.THREAD, R.TRC_CTL_E,
   R.CMP_CFG_E, R.CMP_A_E, R.CMP_B_E]

/-- The registers of the Ethernet complex. -/
def regsEth : List Reg :=
  [R.ETH_CFG, R.ETH_STATUS, R.MAX_FRAME, R.RXBUF_BASE, R.RXBUF_SIZE, R.MISS_CFG, R.PARSE_CFG, R.PINT_CFG,
   R.FC_INV, R.STL_MASK_LO, R.STL_MASK_HI, R.TBL_BASE, R.TBL_CFG, R.CNTB_BASE, R.CNTB_SIZE, R.PFC_TH, R.EXQ_BASE,
   R.EXQ_CFG, R.EXQ_PROD, R.EXQ_CONS, R.INJ_BASE, R.INJ_CFG, R.INJ_PROD, R.INJ_CONS, R.DROP_CNT, R.KEY_SLOT,
   R.KEY_ATTR, R.KEY_SALT, R.KEY_COMMIT, R.KEY_WORD, R.PTP_CFG, R.TS_CORR, R.TXTS_POP, R.TXTS_TIME_LO,
   R.TXTS_TIME_HI, R.TXTS_OVF, R.PORTCNT_LO, R.PORTCNT_HI, R.RX_TC_LO, R.RX_TC_HI, R.TX_TC_LO, R.TX_TC_HI,
   R.SHAPE]

/-- The registers of the PCIe complex. -/
def regsPcie : List Reg :=
  [R.OB_CTL, R.OB_BASE_LO, R.OB_BASE_HI, R.TI_OVF, R.CTXO_SEL, R.CTXO_DATA, R.ADM_KEY_RANGE]

/-- The registers of the measurement front-end. -/
def regsMfe : List Reg :=
  [R.SSET_LATE, R.SSET_BE, R.DELIV_ERR, R.SSET_TRIG, R.DELIV_CNT, R.SSET_CFG, R.SSET_OFF, R.SSET_CH]

/-- The registers of a channel group. -/
def regsGrp : List Reg :=
  [R.GRP_CTL, R.GRP_STATUS, R.CH_CFG, R.CH_OFFSET, R.CH_GAIN, R.CH_LAST, R.CH_TS_LO, R.CH_TS_HI, R.CH_SEQ,
   R.CH_SATCNT]

/-- The registers of the trip unit. -/
def regsTrip : List Reg :=
  [R.TRIP_EVT, R.TRIP_SUM, R.TRIP_CFG, R.TRIP_THR, R.TRIP_STATUS, R.TRIP_CNT]

/-- The registers of the event input unit. -/
def regsEvi : List Reg :=
  [R.EVI_FREQ_WIN, R.EVI_CFG, R.EVI_IRQ, R.EVI_STUCK, R.EVI_COUNT, R.EVI_PERIOD, R.EVI_TS_LO, R.EVI_TS_HI,
   R.EVI_FREQ, R.EVI_STATUS, R.EVI_MERGED]

/-- The registers of the actuator block. -/
def regsAct : List Reg :=
  [R.TRIP_MAP, R.LOOP_ARM, R.LOOP_OVR_SUM_LO, R.LOOP_OVR_SUM_HI, R.ARM_DISC, R.ACONN, R.ACT_EVT, R.BRK_SET,
   R.BRK_REL, R.BRK_OUT, R.FC_DENIED, R.LOOP_CFG, R.LOOP_PER, R.LOOP_PHASE, R.LOOP_DL, R.LOOP_PWM_LO,
   R.LOOP_PWM_HI, R.LOOP_BRK, R.LOOP_STAT, R.PWM_CFG, R.PWM_PER, R.PWM_DUTY, R.PWM_ACT, R.BRK_CFG, R.BRK_STAT,
   R.FC_GCONN, R.FC_RING_CFG, R.FC_RING_WAKE, R.FCB_MAP, R.PINT_CTL, R.PINT_GAP, R.PINT_RACK, R.PINT_TRAY,
   R.PINT_SMAC_LO, R.PINT_SMAC_HI, R.PINT_DMAC_LO, R.PINT_DMAC_HI, R.PINT_SIP, R.PINT_DIP, R.PINT_POWER,
   R.PINT_CAP, R.PINT_SENT, R.PINT_LOST]

/-- The registers of the telemetry coder. -/
def regsTel : List Reg :=
  [R.TEL_CTL, R.TEL_BLK_DROP, R.TEL_LOST, R.TEL_SRC_REJ, R.TOUT_CFG, R.TOUT_A, R.TOUT_B, R.TOUT_C, R.TOUT_IDX,
   R.STR_CFG, R.STR_SRC, R.STR_ARG, R.STR_STAT, R.STR_DROP]

/-- The registers of Peat. -/
def regsPeat : List Reg :=
  [R.PEAT_CTL, R.CLK_STATUS, R.PLL_STATUS, R.RST_CFG, R.RST_CAUSE, R.IO_STATUS, R.WAKE_EN, R.WAKE_STATUS,
   R.WAKE_ALARM_LO, R.WAKE_ALARM_HI, R.PTRIP_CFG, R.PTRIP_THR, R.GT_LO, R.GT_HI, R.GT_RATE, R.GT_STEP,
   R.GT_SET_LO, R.GT_SET_HI, R.GT_STATUS, R.DWD_CTL, R.DWD_KICK, R.DWD_STATUS]

/-- The registers of a Ling core. -/
def regsCore : List Reg :=
  [R.BANK_CFG, R.BANK_START, R.BANK_STAT, R.SCHED_CFG, R.CORE_STATUS, R.WD_CTL, R.WD_KICK, R.CKPT_CTL, R.VEC_S,
   R.VEC_H, R.VEC_M, R.VEC_MC, R.PERF_LO, R.PERF_HI, R.S_TTB, R.S_CTL, R.H_TTB, R.H_CTL, R.M_TTB, R.M_CTL,
   R.S2_TTB, R.S2_CTL, R.S2_FIPA, R.DBG_CTL, R.DBG_STAT, R.DBG_WADDR, R.TRC_CTL_C, R.CMP_CFG_C, R.CMP_A_C,
   R.CMP_B_C]

/-- The registers of an event router. -/
def regsEr : List Reg :=
  [R.ER_RAISE, R.ER_MERGED, R.ER_CLAIM, R.BSET_LO, R.BSET_HI, R.ER_ROUTE, R.ER_PEND]

/-- The registers of a Tussock. -/
def regsTussock : List Reg :=
  [R.L2_WAYS, R.L2_CTL, R.L2_STATUS, R.LOCK_LOG_LO, R.LOCK_LOG_HI, R.L2_CNT_LO, R.L2_CNT_HI, R.COH_CTL, R.TWD_CTL,
   R.TWD_KICK, R.CKPT_CFG]

/-- The registers of a control Tussock only. -/
def regsCtussock : List Reg :=
  [R.FR_CFG, R.FR_POST, R.FR_STATUS, R.FR_TRIGPTR, R.FR_TRIG]

/-- The registers of Hedgerow. -/
def regsHedgerow : List Reg :=
  [R.HR_CTL, R.HR_STATUS, R.HR_SYNC, R.RING_BASE_LO, R.RING_BASE_HI, R.RING_SIZE, R.RING_WPTR, R.HR_LOST,
   R.GFR_STATUS, R.HR_SRC_EN]

/-- The registers of the Gorse service window. -/
def regsGorse : List Reg :=
  [R.BOOT_STATUS, R.BOOT_SEQ, R.BOOT_INFO, R.FUSE_STAT, R.KEY_CTL, R.KEY_REQ, R.KEY_STATUS, R.KEY_OUT,
   R.ATTEST_ADDR_LO, R.ATTEST_ADDR_HI, R.ATTEST_REQ, R.ATTEST_STATUS, R.CS_RELOAD, R.CS_RELOAD_STATUS, R.KEYDIG]

/-- The registers of the debug access port. -/
def regsDap : List Reg :=
  [R.DAP_CTL, R.AUTH_REQ, R.AUTH_STATUS, R.AUTH_CHAL, R.AUTH_KEY, R.AUTH_SIG, R.DRE_ADDR_LO, R.DRE_ADDR_HI,
   R.DRE_CMD, R.DRE_STATUS, R.DRE_DATA]

/-- The registers of the BAR0 space of a PCIe function. -/
def regsBar0 : List Reg :=
  [R.ADM_CTL, R.ADM_STATUS, R.ADM_SQ_BASE_LO, R.ADM_SQ_BASE_HI, R.ADM_CQ_BASE_LO, R.ADM_CQ_BASE_HI, R.ADM_SQ_TAIL,
   R.ADM_CQ_HEAD, R.ADM_EVT_LOST, R.DB_DISCARD, R.BOOT_MBOX_LO, R.BOOT_MBOX_HI, R.BOOT_MBOX_CTL,
   R.BOOT_MBOX_STATUS]

end Sys2Proof
end

