-- ==== Sys2Proof/Machine/Units.lean ====
section
/-! DEFINITION. Machine/Units.lean: the unit tree (R10 to R14), the address map of register space (R21, R22), class codes and
instance numbers (R14), and the attachments of Sward (R41, R42). -/

namespace Sys2Proof

/-- A unit of the tree (R12). The numbers are the global numbers of R10 and R11. `bar0 l` is not in the tree: it names the
BAR0 register space of PCIe link `l` (R27), whose registers no Sward address reaches. -/
inductive UnitId where
  | device | gorse | peat | eth | pcie | mfe | act | mio | hedgerow | dap
  | quad (q : Nat) | tussock (t : Nat) | group (g : Nat) | slice (c : Nat)
  | er (q : Nat) | fc (q : Nat) | sw (q : Nat) | core (p : Nat) | engine (e : Nat)
  | chGroup (g : Nat) | tripUnit | eviUnit | telCoder
  | bar0 (l : Nat)
  deriving DecidableEq, Repr

/-- The block base of a unit (R22, R164). The BAR0 spaces lie above the 40-bit physical space. -/
def UnitId.base : UnitId → Nat
  | .device => 0x0E00000000
  | .gorse => 0x0E00100000
  | .peat => 0x0F00800000
  | .eth => 0x0E00200000
  | .pcie => 0x0E00300000
  | .mfe => 0x0E00400000
  | .act => 0x0E00500000
  | .mio => 0x0E00600000
  | .hedgerow => 0x0E00700000
  | .dap => 0x0E00800000
  | .quad q => 0x0E01000000 + q * 0x800000
  | .er q => 0x0E01000000 + q * 0x800000 + 0x10000
  | .fc q => 0x0E01000000 + q * 0x800000 + 0x20000
  | .sw q => 0x0E01000000 + q * 0x800000 + 0x30000
  | .slice c => 0x0E01000000 + (c / 8) * 0x800000 + 0x40000 + (c % 8) * 0x10000
  | .group g => 0x0E01000000 + (g / 4) * 0x800000 + 0x100000 + (g % 4) * 0x40000
  | .engine e => 0x0E01000000 + (e / 16) * 0x800000 + 0x100000 + (e / 4 % 4) * 0x40000 + 0x20000 + (e % 4) * 0x8000
  | .tussock t => 0x0E01000000 + (t / 7) * 0x800000 + 0x400000 + (t % 7) * 0x80000
  | .core p => 0x0E01000000 + (p / 63) * 0x800000 + 0x400000 + (p / 9 % 7) * 0x80000 + 0x10000 + (p % 9) * 0x8000
  | .chGroup g => 0x0E00410000 + g * 0x10000
  | .tripUnit => 0x0E00490000
  | .eviUnit => 0x0E004A0000
  | .telCoder => 0x0E004C0000
  | .bar0 l => 0x10000000000 + l * 0x1000000

/-- The size of a unit's own block, in bytes (R22). -/
def UnitId.size : UnitId → Nat
  | .device | .gorse | .eth | .pcie | .act | .mio | .hedgerow | .dap => 0x100000
  | .mfe => 0x10000
  | .peat | .quad _ | .er _ | .fc _ | .sw _ | .slice _ | .chGroup _ | .tripUnit | .eviUnit | .telCoder => 0x10000
  | .group _ => 0x20000
  | .tussock _ => 0x10000
  | .core _ | .engine _ => 0x8000
  | .bar0 _ => 0x1000000

/-- Class codes (R14, R164); 0 for the BAR0 spaces, which are no unit. -/
def UnitId.cls : UnitId → Nat
  | .device => 0x01 | .quad _ => 0x02 | .tussock _ => 0x03 | .core _ => 0x04 | .group _ => 0x05 | .engine _ => 0x06
  | .slice _ => 0x07 | .er _ => 0x08 | .fc _ => 0x09 | .sw _ => 0x0A
  | .gorse => 0x10 | .peat => 0x11 | .eth => 0x12 | .pcie => 0x13 | .mfe => 0x14 | .act => 0x15 | .mio => 0x16
  | .hedgerow => 0x17 | .dap => 0x18
  | .chGroup _ => 0x20 | .tripUnit => 0x21 | .eviUnit => 0x22 | .telCoder => 0x23
  | .bar0 _ => 0

/-- INSTANCE of UNIT_ID (R14). -/
def UnitId.inst : UnitId → Nat
  | .quad n | .tussock n | .core n | .group n | .engine n | .slice n | .er n | .fc n | .sw n | .chGroup n => n
  | _ => 0

/-- The children of a unit, in child order (R12, R164). -/
def UnitId.children : UnitId → List UnitId
  | .device => [.gorse, .peat, .eth, .pcie, .mfe, .act, .mio, .hedgerow, .dap, .quad 0, .quad 1, .quad 2, .quad 3]
  | .quad q =>
    (List.range 7).map (fun t => .tussock (7 * q + t)) ++ (List.range 4).map (fun g => .group (4 * q + g)) ++
    (List.range 8).map (fun h => .slice (8 * q + h)) ++ [.er q, .fc q, .sw q]
  | .tussock t => (List.range 9).map (fun c => .core (9 * t + c))
  | .group g => (List.range 4).map (fun j => .engine (4 * g + j))
  | .mfe => (List.range 8).map .chGroup ++ [.tripUnit, .eviUnit, .telCoder]
  | _ => []

/-- The parent of a unit; the device has none. -/
def UnitId.parent : UnitId → Option UnitId
  | .device | .bar0 _ => none
  | .gorse | .peat | .eth | .pcie | .mfe | .act | .mio | .hedgerow | .dap | .quad _ => some .device
  | .tussock t => some (.quad (t / 7))
  | .group g => some (.quad (g / 4))
  | .slice c => some (.quad (c / 8))
  | .er q | .fc q | .sw q => some (.quad q)
  | .core p => some (.tussock (p / 9))
  | .engine e => some (.group (e / 4))
  | .chGroup _ | .tripUnit | .eviUnit | .telCoder => some .mfe

/-- The ancestors of a unit, nearest first; the tree has four levels (R12). -/
def UnitId.ancestors (u : UnitId) : List UnitId :=
  match u.parent with
  | none => []
  | some a => a :: (match a.parent with
    | none => []
    | some b => b :: (match b.parent with
      | none => []
      | some c => [c]))

/-- The unit and its ancestors. -/
def UnitId.upward (u : UnitId) : List UnitId := u :: u.ancestors

/-- The unit and its descendants, `n` levels deep. -/
def UnitId.subtreeN : Nat → UnitId → List UnitId
  | 0, u => [u]
  | n + 1, u => u :: (u.children.flatMap (UnitId.subtreeN n))

/-- The unit and all its descendants (R12: four levels). -/
def UnitId.subtree (u : UnitId) : List UnitId := u.subtreeN 3

/-- Every unit of the tree. -/
def allUnits : List UnitId := UnitId.device.subtree

/-- The quadrant a unit stands in; device-level units count as quadrant 0 for TXN_TIMEOUT (R65). -/
def UnitId.quadOf : UnitId → Option Nat
  | .quad q | .er q | .fc q | .sw q => some q
  | .tussock t => some (t / 7)
  | .group g => some (g / 4)
  | .slice c => some (c / 8)
  | .core p => some (p / 63)
  | .engine e => some (e / 16)
  | _ => none

/-- The registers a unit's own block describes, the header (R16) apart. -/
def UnitId.regs : UnitId → List Reg
  | .device => regsDevice
  | .gorse => regsGorse
  | .peat => regsPeat
  | .eth => regsEth
  | .pcie => regsPcie
  | .mfe => regsMfe
  | .act => regsAct
  | .mio => []
  | .hedgerow => regsHedgerow
  | .dap => regsDap
  | .quad _ => regsQuad
  | .tussock t => if t % 7 = 6 then regsTussock ++ regsCtussock else regsTussock
  | .group _ => []
  | .slice c => if c = 0 then regsSlice ++ regsSlice0 else regsSlice
  | .er _ => regsEr
  | .fc _ => []
  | .sw _ => regsSw
  | .core _ => regsCore
  | .engine _ => regsEngine
  | .chGroup _ => regsGrp
  | .tripUnit => regsTrip
  | .eviUnit => regsEvi
  | .telCoder => regsTel
  | .bar0 _ => regsBar0

/-- The instance (i, j) of `r` at block offset `o`, if it has one (R9). -/
def Reg.at? (r : Reg) (o : Nat) : Option (Nat × Nat) :=
  if o < r.off then none
  else
    let d := o - r.off
    let i := if r.n1 ≤ 1 then 0 else min (d / r.s1) (r.n1 - 1)
    let d' := d - i * r.s1
    let j := if r.n2 ≤ 1 then 0 else min (d' / r.s2) (r.n2 - 1)
    if d' = j * r.s2 then some (i, j) else none

/-- The register and instance at block offset `o` of `rs`. -/
def findReg (rs : List Reg) (o : Nat) : Option (Reg × Nat × Nat) :=
  match rs with
  | [] => none
  | r :: t => match r.at? o with
    | some (i, j) => some (r, i, j)
    | none => findReg t o

/-- The register at offset `o` of unit `u`: header below 0x100 (R16), own registers above. -/
def UnitId.findReg (u : UnitId) (o : Nat) : Option (Reg × Nat × Nat) :=
  if u.cls = 0 then Sys2Proof.findReg u.regs o
  else if o < 0x100 then Sys2Proof.findReg regsHdr o else Sys2Proof.findReg u.regs o

/-- The address of instance (i, j) of register `r` of unit `u`. -/
def regAddr (u : UnitId) (r : Reg) (i j : Nat) : Nat := u.base + r.off + i * r.s1 + j * r.s2

/-- Where the child table lies in every block that has one: R16 asks only for a multiple of 4 at or above 0x100
(DESIGN CHOICE, log 3). -/
def childTableOff : Nat := 0xF000

/-- The unit whose block holds register-space (or Peat) address `a`, with the offset in the block (R21, R22). -/
def unitAt (a : Nat) : Option (UnitId × Nat) :=
  let hit (u : UnitId) : Option (UnitId × Nat) :=
    if u.base ≤ a ∧ a < u.base + u.size then some (u, a - u.base) else none
  if a < 0x0E00000000 then none
  else if a < 0x0E00900000 then
    if a / 0x100000 = 0xE004 then
      let k := a / 0x10000 % 16
      if k = 0 then hit .mfe
      else if k ≤ 8 then hit (.chGroup (k - 1))
      else if k = 9 then hit .tripUnit
      else if k = 10 then hit .eviUnit
      else if k = 12 then hit .telCoder
      else none
    else match a / 0x100000 % 16 with
      | 0 => hit .device
      | 1 => hit .gorse
      | 2 => hit .eth
      | 3 => hit .pcie
      | 5 => hit .act
      | 6 => hit .mio
      | 7 => hit .hedgerow
      | 8 => hit .dap
      | _ => none
  else if 0x0E01000000 ≤ a ∧ a < 0x0E03000000 then
    let q := (a - 0x0E01000000) / 0x800000
    let o := (a - 0x0E01000000) % 0x800000
    if o < 0x10000 then hit (.quad q)
    else if o < 0x20000 then hit (.er q)
    else if o < 0x30000 then hit (.fc q)
    else if o < 0x40000 then hit (.sw q)
    else if o < 0xC0000 then hit (.slice (8 * q + (o - 0x40000) / 0x10000))
    else if o < 0x100000 then none
    else if o < 0x200000 then
      let g := (o - 0x100000) / 0x40000
      let r := (o - 0x100000) % 0x40000
      if r < 0x20000 then hit (.group (4 * q + g)) else hit (.engine (16 * q + 4 * g + (r - 0x20000) / 0x8000))
    else if o < 0x400000 then none
    else if o < 0x780000 then
      let t := (o - 0x400000) / 0x80000
      let r := (o - 0x400000) % 0x80000
      if r < 0x10000 then hit (.tussock (7 * q + t))
      else if (r - 0x10000) / 0x8000 < 9 then hit (.core (9 * (7 * q + t) + (r - 0x10000) / 0x8000))
      else none
    else none
  else if 0x0F00800000 ≤ a ∧ a < 0x0F00810000 then hit .peat
  else none

/-- A unit number in range (R10, R11). -/
def UnitId.valid : UnitId → Bool
  | .quad q | .er q | .fc q | .sw q => decide (q < 4)
  | .tussock t => decide (t < 28)
  | .group g => decide (g < 16)
  | .slice c => decide (c < 32)
  | .core p => decide (p < 252)
  | .engine e => decide (e < 64)
  | .chGroup g => decide (g < 8)
  | .bar0 _ => false
  | _ => true

/-- The ATID that guards the register block of a unit (R58, R164). -/
def UnitId.atid : UnitId → Nat
  | .device | .peat => 0x40
  | .gorse => 0x41
  | .eth => 0x42
  | .pcie => 0x43
  | .mfe | .chGroup _ | .tripUnit | .eviUnit | .telCoder => 0x44
  | .act => 0x45
  | .mio => 0x46
  | .hedgerow => 0x47
  | .dap => 0x48
  | .quad q | .er q | .fc q | .sw q => 0x50 + q
  | .slice c => 0x50 + c / 8
  | .group g => 0x54 + g / 4
  | .engine e => 0x54 + e / 16
  | .tussock t => 0x60 + t
  | .core p => 0x60 + p / 9
  | .bar0 _ => 0

/-- The router number at local position (i, k) of quadrant q (R10, R41). -/
def localRouter (q i k : Nat) : Nat := 8 * (4 * (q / 2) + k) + (4 * (q % 2) + i)

/-- The router a unit is attached to (R42). -/
def UnitId.router : UnitId → Nat
  | .device | .gorse | .peat => 8 * 3 + 2
  | .eth => 8 * 1 + 3
  | .pcie => 8 * 5 + 3
  | .mfe | .chGroup _ | .tripUnit | .eviUnit | .telCoder => 8 * 3 + 3
  | .act => 8 * 3 + 4
  | .mio => 8 * 1 + 0
  | .hedgerow => 8 * 3 + 5
  | .dap => 8 * 3 + 1
  | .quad q | .er q | .fc q | .sw q => localRouter q 3 2
  | .slice c => if c % 8 < 4 then localRouter (c / 8) (c % 8) 0 else localRouter (c / 8) (c % 8 - 4) 3
  | .group g => localRouter (g / 4) (g % 4) 0
  | .engine e => localRouter (e / 16) (e / 4 % 4) 0
  | .tussock t => if t % 7 < 4 then localRouter (t / 7) (t % 7) 1 else localRouter (t / 7) (t % 7 - 4) 2
  | .core p =>
    let t := p / 9
    if t % 7 < 4 then localRouter (t / 7) (t % 7) 1 else localRouter (t / 7) (t % 7 - 4) 2
  | .bar0 _ => 0

/-- The quadrant of a router: the quadrant that holds its mesh position (R10). -/
def routerQuad (r : Nat) : Nat := 2 * (r / 8 / 4) + r % 8 / 4
/-- The local number 4k + i of a router in its quadrant. -/
def routerLocal (r : Nat) : Nat := 4 * (r / 8 % 4) + r % 8 % 4

/-- Where ATAB_WRITE of quadrant `q` may write table `atid` (R58). -/
def atabWritable (q atid : Nat) : Bool :=
  if atid < 0x10 then true
  else if atid < 0x2C then (atid - 0x10) / 7 == q
  else if 0x30 ≤ atid && atid < 0x40 then (atid - 0x30) / 4 == q
  else if atid == 0x40 || atid == 0x41 then q == 0
  else if atid == 0x42 then routerQuad UnitId.eth.router == q
  else if atid == 0x43 then routerQuad UnitId.pcie.router == q
  else if atid == 0x44 then routerQuad UnitId.mfe.router == q
  else if atid == 0x45 then routerQuad UnitId.act.router == q
  else if atid == 0x46 then routerQuad UnitId.mio.router == q
  else if atid == 0x47 then routerQuad UnitId.hedgerow.router == q
  else if atid == 0x48 then routerQuad UnitId.dap.router == q
  else if atid == 0x49 then q == 2
  else if 0x50 ≤ atid && atid < 0x54 then atid - 0x50 == q
  else if 0x54 ≤ atid && atid < 0x58 then atid - 0x54 == q
  else if 0x60 ≤ atid && atid < 0x7C then (atid - 0x60) / 7 == q
  else false

end Sys2Proof
end

