-- ==== Sys2Proof/Machine/StateSys.lean ====
section
/-! DEFINITION. Machine/StateSys.lean: the plain data of the unit tree, the operating modes, Sward, the fault machinery, the
clocks, resets and wake logic (chapters 1, 2, 3, 16 and 19), and the request and response types of the bus. -/

namespace Sys2Proof

/-- What a Sward request presents (R15, R43): master ID, privilege, epoch and the debug attribute. -/
structure Req where
  master : BitVec 12
  priv : BitVec 2
  epoch : BitVec 4
  debug : Bool := false
  deriving DecidableEq, Repr

/-- What a request asks of its target (R60): a read of `n` bytes, a write, an instruction fetch, or an atomic operation on a word
(0 add, 1 swap, 2 compare-and-swap). -/
inductive TReq where
  | read (n : Nat)
  | write (d : List Byte) (poison : Bool)
  | fetch (n : Nat)
  | atomic (op : Nat) (x y : Word)
  deriving DecidableEq, Repr

/-- Outcome of the check code on one read (R77): clean, a corrected symbol, or uncorrectable. -/
inductive Ecc where
  | clean | corr | ue
  deriving DecidableEq, Repr

namespace Machine

/-- Power states of PWR_STATE (R16). -/
inductive PState where
  | on | idle | retain | off | transition
  deriving DecidableEq, Repr

/-- The code STATE reads (R16). -/
def PState.code : PState → Nat
  | .on => 0 | .idle => 1 | .retain => 2 | .off => 3 | .transition => 4

/-- Depth order ON, TRANSITION, IDLE, RETAIN, OFF (R18). -/
def PState.depth : PState → Nat
  | .on => 0 | .transition => 1 | .idle => 2 | .retain => 3 | .off => 4

/-- The device's own record of one unit (R16 to R18, R342, R343). `hold` is a software HOLD, `dead` a device hold,
`fsum` the unit's own sticky FAULT_SUM bits, `cfg` and `writer` count the events of the whole subtree. -/
structure UnitRt where
  pstate : PState := .on
  emulated : Bool := false
  hold : Bool := false
  dead : Bool := false
  fsum : Nat := 0
  cfg : Nat := 0
  writer : Word := 0xFFF
  tick : Nat := 0
  lastTick : Nat := 0
  missed : Nat := 0
  epoch : Nat := 0
  energy : Nat := 0
  deriving DecidableEq, Repr

/-- Operating modes (R30), encoded as TARGET. -/
inductive Mode where
  | dormant | boot | steady | surge | recovery | maintenance
  deriving DecidableEq, Repr

def Mode.code : Mode → Nat
  | .dormant => 0 | .boot => 1 | .steady => 2 | .surge => 3 | .recovery => 4 | .maintenance => 5

/-- The plan code of a mode (R30, R51): 0 B, 1 S, 2 U, 3 V, 4 M; DORMANT has none. -/
def Mode.plan : Mode → Option Nat
  | .dormant => none | .boot => some 0 | .steady => some 1 | .surge => some 2 | .recovery => some 3
  | .maintenance => some 4

/-- A transition in progress (R33 to R35, R40). `ts` is set when loading ends; `device` marks a RECOVERY entry the device
takes itself; `needClk`, `needV` and `needTus` are what completion still waits for. -/
structure Trans where
  target : Mode
  confirm : Bool := false
  device : Bool := false
  ts : Option Nat := none
  swapped : Bool := false
  needClk : Bool := false
  needV : Bool := false
  needTus : Bool := false
  deriving DecidableEq, Repr

/-- The mode machine of the device UMB (chapter 2). `pending` is a request latched behind the transition (R40). `rcvWant` is a RECOVERY trigger that waits for plan V (R40). `svcFast`: service Tussocks run from the 2.2 GHz PLL (R34). -/
structure ModeSt where
  mode : Mode := .boot
  prev : Mode := .boot
  wakeCause : Nat := 0
  reqErr : Nat := 0
  safe : Bool := false
  rcvPend : Bool := false
  rcvCause : Nat := 0
  emulDormant : Bool := false
  trans : Option Trans := none
  pending : Option Word := none
  dormEntry : Bool := false
  swapTime : Nat := 0
  vReload : Bool := false
  rcvWant : Bool := false
  svcFast : Bool := false
  dpRate : Nat := 0
  predClear : List Nat := []
  deriving DecidableEq, Repr

/-- An entry of a violation log (R61). -/
structure Viol where
  kind : Nat
  epoch : Nat
  priv : Nat
  op : Nat
  atid : Nat
  master : Nat
  addr : Nat
  deriving DecidableEq, Repr

/-- A management broadcast waiting for slot 0 of a wheel (R54): the new epoch of a master. -/
structure Bcast where
  quad : Nat
  master : Nat
  epoch : Nat
  deriving DecidableEq, Repr

/-- An on-die transaction without its response yet (R64, R65), because its target cannot answer: the request, its tag, the
quadrant whose TXN_TIMEOUT applies, when it was made, and whether it has timed out. -/
structure Txn where
  req : Req
  addr : Nat
  what : TReq
  tag : Nat
  quad : Nat
  since : Nat
  timedOut : Bool := false
  deriving DecidableEq, Repr

/-- Sward (chapter 3): slot banks keyed 384·router + 64·port + slot, access tables keyed 4096·ATID + master (R58), the
violation logs by quadrant, disabled link directions keyed 4·router + direction, the times of uncorrectable link errors, the
last sequence number each CONTROL connection delivered (R48) and sent, and the transactions without a response. -/
structure SwardSt where
  active : Map Nat := []
  shadow : Map Nat := []
  activePlan : Nat := 7
  shadowPlan : Nat := 7
  activeValid : Bool := false
  shadowValid : Bool := false
  loading : Option Nat := none
  planErr : Word := 0
  atab : Map Nat := []
  viol : Map (List Viol) := []
  linkDis : List Nat := []
  linkUe : Map (List Nat) := []
  bcasts : List Bcast := []
  seqIn : Map Nat := []
  seqOut : Map Nat := []
  txns : List Txn := []
  deriving DecidableEq, Repr

/-- Health states of a core (R344). -/
inductive Health where
  | active | spare | dead | quarantine | testing
  deriving DecidableEq, Repr

def Health.code : Health → Nat
  | .active => 0 | .spare => 1 | .dead => 2 | .quarantine => 3 | .testing => 4

/-- A substitution in progress (R347): the step it has completed, the dead core, the spare and the identity. -/
structure Subst where
  dead : Nat
  spare : Nat
  ident : Nat
  step : Nat
  deriving DecidableEq, Repr

/-- A watchdog: its deadline while it counts, or the count left in ns while it is paused (R354, R399, R400). -/
structure Wd where
  due : Option Nat := none
  left : Nat := 0
  deriving DecidableEq, Repr

/-- The SRAM arrays that hold a spare bank (R352): the L2 data of a Tussock, the directory of a slice, the context stores of a
group, the flow cache of a quadrant, and the Gorse SRAM. -/
inductive SramArr where
  | l2 (t : Nat) | dir (c : Nat) | ctx (g : Nat) | fcache (q : Nat) | gorse
  deriving DecidableEq, Repr

/-- Fault machinery (chapter 16): health and identity of each core where they differ from the PORST_N layout (R344), the
identities each core has held, epoch renewals and retirements (R349), register shadows keyed identity·0x8000 + offset (R345),
substitutions by Tussock, the machine-check log (R338), the watchdogs by unit base, the failed SRAM banks under repair and the
arrays whose spare bank is in use (R352). -/
structure FaultSt where
  health : Map Health := []
  ident : Map Nat := []
  heldIds : Map (List Nat) := []
  renewals : Map Nat := []
  retired : List Nat := []
  shadow : Map Word := []
  subst : Map (Option Subst) := []
  mclog : List (List Word) := []
  mcSeq : Nat := 0
  wd : Map Wd := []
  sramStall : List (SramArr × Nat) := []
  sramUsed : List SramArr := []
  ckptReq : Map Nat := []
  deriving DecidableEq, Repr

/-- A Peat trip channel in DORMANT (R427). -/
structure PTrip where
  run : Bool := false
  src : Nat := 0
  brakes : Nat := 0
  deb : Nat := 0
  tripped : Bool := false
  deriving DecidableEq, Repr

/-- Clocks, resets, straps and pins (chapter 19): sampled straps (R432), RUN and LOCK of PLL_STATUS, the inputs REFCLK,
MAIN_PG, PERST# (the links that assert it) and the reference clocks of the PCIe links, the output PWR_EN with the time it last
rose, the exit from DORMANT in progress with the WAKE_CAUSE it will give, the held PWM and brake balls of R427 and R428, a supply
below its minimum (R444), whether the safe state asserts DWD_ALARM_N (R341), and the alarm time in force (R426). -/
structure PeatSt where
  straps : Nat := 0
  iov3v3 : Bool := false
  iovErr : Bool := false
  peatClkF : Bool := false
  refclk : Bool := true
  disciplined : Bool := false
  pllRun : Nat := 0
  pllLock : Nat := 0
  mainPg : Bool := true
  pwrEn : Bool := true
  pwrEnAt : Nat := 0
  perst : List Nat := [0, 1]
  pcieRef : List Nat := [0, 1]
  exiting : Option Nat := none
  ptrip : Map PTrip := []
  ballHold : Map Nat := []
  brkLow : Nat := 0
  brkHold : Option Nat := none
  underV : Bool := false
  alarmSafe : Bool := false
  exitCode : Nat := 15
  alarm : Nat := 0
  deriving DecidableEq, Repr

/-- Global time service (R224 to R228): a step waiting for its wheel boundary, a set waiting for one, and STEP_CNT. -/
structure TimeSt where
  step : Option (Int × Nat) := none
  set : Option (Nat × Nat) := none
  cnt : Nat := 0
  deriving DecidableEq, Repr

/-- The response to the last request a command made (the model's own record of what the requester sees): data, or an error
code of R63. -/
inductive Resp where
  | none
  | ok (data : Word)
  | err (code : Nat)
  deriving DecidableEq, Repr

/-- The latch of a 64-bit pair or of a latched register group (R25, R185): the master that holds it and the latched words. -/
structure Latch where
  owner : Nat
  words : List Word
  deriving DecidableEq, Repr

end Machine
end Sys2Proof
end

