-- ==== Sys2Proof/Syntax.lean ====
section
/-! DEFINITION. Syntax.lean: the commands of the block (spec/opcode_table.json) and the operand forms they share. -/

namespace Sys2Proof

/-- The addressing forms of a byte, half-word or word access (R242, R243): format B, `[ra + imm]`, and MEMX, `[ra + rb]`
with PI 0 or `[ra]` with post-increment by rb with PI 1. A load writes `rd`, a store stores it. -/
inductive MemForm where
  | imm (rd ra : BitVec 5) (imm : BitVec 16)
  | memx (pi : Bool) (rd ra rb : BitVec 5)
  deriving DecidableEq, Repr

/-- The commands of the block: one constructor for every row of spec/opcode_table.json, with the operands the row's step takes.
A register access names the requester and what it writes; an event names where it happens and what the outside fixes about it. -/
inductive Instr where
  /-- REGISTER_WRITE (R4): An accepted write to a register that has no row of its own replaces or sets its fields under its access code. -/
  | registerWrite (r : Req) (a : BitVec 48) (v : Word)
  /-- LO_READ_LATCH (R25): A read of the LO register of a 64-bit pair copies HI into a latch owned by the reader. -/
  | loReadLatch (r : Req) (a : BitVec 48)
  /-- HI_READ_LATCHED (R25): A read of the HI register returns the latch to its owner, or gets FORMAT for any other master. -/
  | hiReadLatched (r : Req) (a : BitVec 48)
  /-- CFG_DIGEST_READ (R20): A read of CFG_DIGEST_LO waits until the digest covers every counted configuration event, then returns it and latches HI. -/
  | cfgDigestRead (r : Req) (u : UnitId)
  /-- UNIT_RESET (R17): A write of RESET_CTL RESET resets the unit and its descendants, keeping the fields that R17 preserves. -/
  | unitReset (r : Req) (u : UnitId) (hold : Bool)
  /-- HOLD_WRITE (R17): A write of RESET_CTL HOLD holds or releases the unit and its descendants in reset, discarded while a device hold lasts. -/
  | holdWrite (r : Req) (u : UnitId) (on : Bool)
  /-- UNIT_ENTER_IDLE (R421): A unit whose idle condition has held 64 clock cycles gates its clocks. -/
  | unitEnterIdle (u : UnitId)
  /-- UNIT_ENTER_RETAIN (R421): A unit whose idle condition has held 10 µs powers down its logic and keeps state. -/
  | unitEnterRetain (u : UnitId)
  /-- UNIT_ENTER_OFF (R421): A unit with TARGET OFF that is idle powers down and loses state. -/
  | unitEnterOff (u : UnitId)
  /-- UNIT_POWER_UP_DONE (R422): An OFF unit whose TARGET was written shallower finishes powering up and leaves a unit reset. -/
  | unitPowerUpDone (u : UnitId)
  /-- ENERGY_UPDATE (R424): Every 1 µs each unit adds its estimated energy to its ENERGY count. -/
  | energyUpdate
  /-- HEALTH_TICK (R342): At each 2,000 ns multiple, each answering unit advances HEALTH_TICK and the parent UMBs check their children. -/
  | healthTick (silent : List UnitId)
  /-- UNIT_DECLARED_DEAD (R343): At the third consecutive missed check the unit is declared dead and held, with consequences per unit class. -/
  | unitDeclaredDead (u : UnitId)
  /-- RECOVERY_ENTRY (R36): Once plan V is in the shadow banks, the device swaps to it at a wheel boundary 16 wheels later and enters RECOVERY. -/
  | recoveryEntry
  /-- OB_BASE_APPLY (R29): A write of OB_BASE_HI applies the whole 64-bit outbound window base. -/
  | obBaseApply (r : Req) (v : Word)
  /-- OUTBOUND_ACCESS (R29): A device access in the outbound window becomes a PCIe request to the host, or gets TARGET_DOWN. -/
  | outboundAccess (r : Req) (a : BitVec 40) (n : Fin 65) (w : Option (List Byte)) (poison : Bool)
  /-- BAR4_READ (R28): A host read through BAR4 enters Sward as master 0x180 or 0x181 and completes with data or Completer Abort. -/
  | bar4Read (l : Fin 2) (o : BitVec 26)
  /-- BAR4_WRITE (R28): A host write through BAR4 enters Sward as master 0x180 or 0x181 and is applied or discarded. -/
  | bar4Write (l : Fin 2) (o : BitVec 26) (v : Word)
  /-- MODE_REQ_DORMANT (R36): A MODE_REQ write with TARGET DORMANT starts DORMANT entry, or emulates it under a debugger. -/
  | modeReqDormant (r : Req) (v : Word)
  /-- MODE_REQ_STEADY (R33): A MODE_REQ write with TARGET STEADY starts a transition, RECOVERY entry or a refusal under R36 and R37. -/
  | modeReqSteady (r : Req) (v : Word)
  /-- MODE_REQ_SURGE (R33): A MODE_REQ write with TARGET SURGE starts a transition and the 2.2 GHz PLL, or is refused. -/
  | modeReqSurge (r : Req) (v : Word)
  /-- MODE_REQ_MAINTENANCE (R33): A MODE_REQ write with TARGET MAINTENANCE starts a transition to plan M. -/
  | modeReqMaintenance (r : Req) (v : Word)
  /-- MODE_REQ_UNREQUESTABLE (R36): A MODE_REQ write with TARGET 1, 4, 6 or 7 is refused with REQ_ERR 1. -/
  | modeReqUnrequestable (r : Req) (v : Word) (k : Fin 4)
  /-- MODE_REQ_PLAN_CONFIRM (R38): A MODE_REQ write with PLAN_CONFIRM and TARGET equal to the current mode reloads plan V into the shadow banks. -/
  | modeReqPlanConfirm (r : Req) (v : Word)
  /-- LOOP_EN_WRITE (R30): A change of MODE_REQ LOOP_EN starts or stops the loop table in MAINTENANCE. -/
  | loopEnWrite (r : Req) (on : Bool)
  /-- DP_EN_CLEAR (R135): Clearing MODE_REQ DP_EN in MAINTENANCE quiesces the packet path. -/
  | dpEnClear (r : Req)
  /-- DP_EN_SET (R135): Setting MODE_REQ DP_EN resumes the packet path. -/
  | dpEnSet (r : Req)
  /-- PATH_QUIESCED (R135): When no frame remains in the quiesced packet path, QUIESCED sets. -/
  | pathQuiesced
  /-- PLAN_LOAD_DONE (R33): The loader finishes writing and checking a plan in the shadow banks, and the swap time Ts is set. -/
  | planLoadDone
  /-- MODE_SWAP (R33): At Ts every router swaps to its shadow bank, MODE takes the new value and the data-plane rate changes. -/
  | modeSwap
  /-- PREDICTOR_CLEAR_DONE (R31): After 512 core cycles the tagged tables are cleared and the core leaves static-hint fetch. -/
  | predictorClearDone (p : Fin 252)
  /-- PLAN_V_RELOAD_DONE (R33): The reload of plan V into the shadow banks finishes, setting SHADOW_VALID or recording a failure. -/
  | planVReloadDone
  /-- SERVICE_CLOCK_SWITCH (R34): Service Tussocks switch glitch-free between the 1.8 and 2.2 GHz PLLs at the later of Ts and lock. -/
  | serviceClockSwitch
  /-- TUSSOCK_POWER_UP_DONE (R36): A Tussock held in BOOT finishes powering up and leaves reset with the new predictor selection. -/
  | tussockPowerUpDone (t : Fin 28)
  /-- LINK_FLIT_RECEIVE (R67): A router receives a flit on a link and checks its code, correcting, discarding or poisoning it. -/
  | linkFlitReceive (k : Fin 64) (d : Fin 4) (e : Fin 4)
  /-- LINK_DIS_WRITE (R67): A write of LINK_DIS disables the marked links, with the same effect as an automatic disable. -/
  | linkDisWrite (r : Req) (q : Fin 4) (hi : Bool) (v : Word)
  /-- TARGET_REQUEST (R60): A target checks an arriving request against its access table for epoch, privilege and permission before acting. -/
  | targetRequest (r : Req) (src : Option (Fin 252)) (a : BitVec 40) (k : TReq) (tag : Nat)
  /-- ATAB_WRITE (R62): A write of ATAB_WRITE replaces one access-table entry, updating all copies for DRAM sets. -/
  | atabWrite (r : Req) (q : Fin 4) (v : Word)
  /-- MGMT_BROADCAST (R54): A management broadcast leaves router (2, 3) in slot 0 of a wheel and updates every access table on its tree. -/
  | mgmtBroadcast
  /-- VIOL_POP (R61): A read of VIOL_POP removes and returns the oldest violation-log entry. -/
  | violPop (r : Req) (q : Fin 4)
  /-- SEM_ACQUIRE (R57): A read of SEM_n returns TOKEN and, if 1, grants the semaphore by clearing it. -/
  | semAcquire (r : Req) (q : Fin 4) (n : Fin 32)
  /-- SEM_REL (R57): A write of SEM_REL sets TOKEN of the named semaphore to 1. -/
  | semRel (r : Req) (q : Fin 4) (n : Fin 32)
  /-- TXN_TIMEOUT_EXPIRE (R65): An on-die transaction without response after TXN_TIMEOUT ends with a TIMEOUT response to its master. -/
  | txnTimeoutExpire (m : BitVec 12) (tag : Nat)
  /-- LATE_RESPONSE_DISCARD (R65): A response arriving after its transaction timed out is discarded and counted. -/
  | lateResponseDiscard (m : BitVec 12) (tag : Nat)
  /-- PMON_CLR (R68): Writing PMON_CTL CLR sets the monitor counter to zero. -/
  | pmonClr (r : Req) (q : Fin 4) (m : Fin 8) (v : Word)
  /-- PMON_TRACE_EMIT (R68): Every INTERVAL wheels a monitor with TRACE_EN emits its count as a trace packet. -/
  | pmonTraceEmit (q : Fin 4) (m : Fin 8)
  /-- REGION_ENTRY_WRITE (R72): A write of REG_BASE, REG_SIZE or REG_ATTR updates all 32 copies and checks the entry, recording failures in REGION_ERR. -/
  | regionEntryWrite (r : Req) (n : Fin 256) (k : Fin 3) (v : Word)
  /-- REGION_LOCK (R74): Writing REG_ATTR LOCKED locks the entry until PORST_N or warm reset. -/
  | regionLock (r : Req) (n : Fin 256) (v : Word)
  /-- SCRUB_READ (R79): Every INTERVAL × 16 ns the scrubber reads the next line and writes back a corrected or poisoned copy as needed. -/
  | scrubRead (c : Fin 32) (e : Ecc)
  /-- SELF_REFRESH_ENTRY (R83): A home slice under RETAIN puts its channel into self-refresh after SR_IDLE µs without requests. -/
  | selfRefreshEntry (c : Fin 32)
  /-- SELF_REFRESH_EXIT_DONE (R83): A channel woken by a request completes its self-refresh exit and serves the waiting request. -/
  | selfRefreshExitDone (c : Fin 32)
  /-- REFRESH (R83): A controller refreshes its channel per bank at the rate the stack temperature requires. -/
  | refresh (c : Fin 32) (hot : Bool)
  /-- CHANNEL_INIT_DONE (R84): A controller finishes training, and after PORST_N zero-writing, its channel and sets INIT_DONE. -/
  | channelInitDone (c : Fin 32)
  /-- OPA_NOP (R94): Operation A NOP does nothing. -/
  | opaNop (e : Fin 64) (ecc : Ecc)
  /-- OPA_MOV (R94): Operation A MOV writes the first source to the destination. -/
  | opaMov (e : Fin 64) (ecc : Ecc)
  /-- OPA_ADD (R94): Operation A ADD writes s1 + s2 modulo 2^32 and may set flags. -/
  | opaAdd (e : Fin 64) (ecc : Ecc)
  /-- OPA_SUB (R94): Operation A SUB writes s1 − s2 modulo 2^32 and may set flags. -/
  | opaSub (e : Fin 64) (ecc : Ecc)
  /-- OPA_AND (R94): Operation A AND writes the bitwise and of the sources. -/
  | opaAnd (e : Fin 64) (ecc : Ecc)
  /-- OPA_OR (R94): Operation A OR writes the bitwise or of the sources. -/
  | opaOr (e : Fin 64) (ecc : Ecc)
  /-- OPA_XOR (R94): Operation A XOR writes the bitwise xor of the sources. -/
  | opaXor (e : Fin 64) (ecc : Ecc)
  /-- OPA_ANDN (R94): Operation A ANDN writes s1 and not s2. -/
  | opaAndn (e : Fin 64) (ecc : Ecc)
  /-- OPA_SHL (R94): Operation A SHL shifts s1 left by s2[4:0]. -/
  | opaShl (e : Fin 64) (ecc : Ecc)
  /-- OPA_SHR (R94): Operation A SHR shifts s1 right logically. -/
  | opaShr (e : Fin 64) (ecc : Ecc)
  /-- OPA_SAR (R94): Operation A SAR shifts s1 right arithmetically. -/
  | opaSar (e : Fin 64) (ecc : Ecc)
  /-- OPA_ROL (R94): Operation A ROL rotates s1 left. -/
  | opaRol (e : Fin 64) (ecc : Ecc)
  /-- OPA_EXTR (R94): Operation A EXTR extracts a w-bit field at position p. -/
  | opaExtr (e : Fin 64) (ecc : Ecc)
  /-- OPA_INS (R94): Operation A INS inserts the low bits of s1 into a field of the destination. -/
  | opaIns (e : Fin 64) (ecc : Ecc)
  /-- OPA_BSWAP (R94): Operation A BSWAP reverses the bytes of s1. -/
  | opaBswap (e : Fin 64) (ecc : Ecc)
  /-- OPA_CLZ (R94): Operation A CLZ counts leading zeros of s1. -/
  | opaClz (e : Fin 64) (ecc : Ecc)
  /-- OPA_POPC (R94): Operation A POPC counts ones in s1. -/
  | opaPopc (e : Fin 64) (ecc : Ecc)
  /-- OPA_MINU (R94): Operation A MINU writes the unsigned minimum. -/
  | opaMinu (e : Fin 64) (ecc : Ecc)
  /-- OPA_MAXU (R94): Operation A MAXU writes the unsigned maximum. -/
  | opaMaxu (e : Fin 64) (ecc : Ecc)
  /-- OPA_SEL (R94): Operation A SEL writes s1 if C is 1, otherwise s2. -/
  | opaSel (e : Fin 64) (ecc : Ecc)
  /-- OPA_MUL16 (R94): Operation A MUL16 writes the unsigned product of the low half-words. -/
  | opaMul16 (e : Fin 64) (ecc : Ecc)
  /-- OPA_CRC (R94): Operation A CRC computes CRC-32C of the 4 bytes of s1 from s2. -/
  | opaCrc (e : Fin 64) (ecc : Ecc)
  /-- OPB_LD (R95): Operation B LD loads LEN + 1 words from a segment address into registers. -/
  | opbLd (e : Fin 64) (ecc : Ecc)
  /-- OPB_ST (R95): Operation B ST stores LEN + 1 words to a segment address. -/
  | opbSt (e : Fin 64) (ecc : Ecc)
  /-- OPB_ATOM (R95): Operation B ATOM performs add, swap or compare-and-swap on one word and returns the old value. -/
  | opbAtom (e : Fin 64) (ecc : Ecc)
  /-- OPB_TLOOK (R117): Operation B TLOOK looks up a key in a hash table and returns the record or MISS. -/
  | opbTlook (e : Fin 64) (ecc : Ecc)
  /-- OPB_CTXSPILL (R95): Operation B CTXSPILL writes a context to its overflow slot. -/
  | opbCtxspill (e : Fin 64) (ecc : Ecc)
  /-- OPB_CTXFILL (R95): Operation B CTXFILL reads a context from its overflow slot. -/
  | opbCtxfill (e : Fin 64) (ecc : Ecc)
  /-- OPB_PKTRD (R95): Operation B PKTRD reads packet or parse-record words. -/
  | opbPktrd (e : Fin 64) (ecc : Ecc)
  /-- OPB_PKTWR (R95): Operation B PKTWR writes packet words. -/
  | opbPktwr (e : Fin 64) (ecc : Ecc)
  /-- OPB_PKTFWD (R126): Operation B PKTFWD disposes of the packet to a wire or recirculation destination. -/
  | opbPktfwd (e : Fin 64) (ecc : Ecc)
  /-- OPB_PKTDROP (R131): Operation B PKTDROP drops the packet with a reason and counts it. -/
  | opbPktdrop (e : Fin 64) (ecc : Ecc)
  /-- OPB_PKTEXC (R129): Operation B PKTEXC sends the packet to a Ling exception queue and raises its event. -/
  | opbPktexc (e : Fin 64) (ecc : Ecc)
  /-- OPB_DMAW (R151): Operation B DMAW writes the packet into the next receive buffer of a TI queue pair and reserves a completion. -/
  | opbDmaw (e : Fin 64) (ecc : Ecc)
  /-- OPB_DMAR (R151): Operation B DMAR fetches the next send descriptor of a MICRO queue pair. -/
  | opbDmar (e : Fin 64) (ecc : Ecc)
  /-- OPB_CQPOST (R151): Operation B CQPOST posts a completion using the thread's reservation. -/
  | opbCqpost (e : Fin 64) (ecc : Ecc)
  /-- OPB_CRYPT (R128): Operation B CRYPT encrypts or decrypts and verifies a packet range with AES-256-GCM. -/
  | opbCrypt (e : Fin 64) (ecc : Ecc)
  /-- OPB_EVT (R95): Operation B EVT sends a forecast event, raises an event source or sends a telemetry sample. -/
  | opbEvt (e : Fin 64) (ecc : Ecc)
  /-- OPB_CNT (R132): Operation B CNT adds to a counter of a counter bank with an atomic add. -/
  | opbCnt (e : Fin 64) (ecc : Ecc)
  /-- OPB_ERET (R95): Operation B ERET clears EXC_ACTIVE and continues at EXC_PC or the next address. -/
  | opbEret (e : Fin 64) (ecc : Ecc)
  /-- OPB_DONE (R103): Operation B DONE ends the packet and moves the thread to ENDING. -/
  | opbDone (e : Fin 64) (ecc : Ecc)
  /-- OPB_COMPLETE (R95): An operation B completes, writing its result words and BSTAT, or raising B_ERROR. -/
  | opbComplete (t : Fin 1024) (o : Nat)
  /-- WAIT_TIMEOUT (R98): A thread waiting longer than WTO_n takes WAIT_TIMEOUT without executing the microword. -/
  | waitTimeout (t : Fin 1024)
  /-- PACKET_DISPATCH (R102): A packet is given to a FREE thread with handle, context, selector and dispatch word, setting HELD. -/
  | packetDispatch (e : Fin 64)
  /-- ENG_RUN (R105): ENG_CTL RUN moves a STOPPED engine with valid control store to RUNNING. -/
  | engRun (r : Req) (e : Fin 64)
  /-- ENG_STOP (R105): ENG_CTL STOP moves a RUNNING or TESTING engine to HALTING. -/
  | engStop (r : Req) (e : Fin 64)
  /-- ENG_TEST (R105): ENG_CTL TEST starts thread 0 from ENTRY_15 in TESTING. -/
  | engTest (r : Req) (e : Fin 64)
  /-- ENG_READMIT (R107): ENG_CTL READMIT returns an adopted engine through RETURNING after renewing its epoch. -/
  | engReadmit (r : Req) (e : Fin 64)
  /-- ENGINE_HALT_DONE (R105): A HALTING engine with all threads FREE and no operation in flight becomes STOPPED. -/
  | engineHaltDone (e : Fin 64)
  /-- ENGINE_HALT_TIMEOUT (R105): After 100 µs in HALTING, remaining threads end under R100 and the engine becomes STOPPED. -/
  | engineHaltTimeout (e : Fin 64)
  /-- ENGINE_RETURN_DONE (R105): A RETURNING engine with no adopted context held becomes RUNNING and the adopter stops adopting. -/
  | engineReturnDone (e : Fin 64)
  /-- ENGINE_RETURN_TIMEOUT (R105): After 100 µs in RETURNING, remaining adopted threads end and the engine becomes RUNNING. -/
  | engineReturnTimeout (e : Fin 64)
  /-- CS_PARITY_ERROR (R106): A control-store parity mismatch on fetch makes an engine machine check and fail. -/
  | csParityError (e : Fin 64)
  /-- CS_WINDOW_WRITE (R86): A GORSE write to the control-store window of a STOPPED or FAILED engine stores microwords and clears CS_VALID. -/
  | csWindowWrite (r : Req) (e : Fin 64) (o : BitVec 18) (d : List Byte)
  /-- CTX_WINDOW_WRITE (R87): A write to the context-store window is accepted only while the bank's owner is STOPPED and unadopted. -/
  | ctxWindowWrite (r : Req) (e : Fin 64) (o : BitVec 17) (d : List Byte) (poison : Bool)
  /-- CS_IMAGE_WRITE (R86): A GORSE write of CS_IMAGE sets the image tag and CS_VALID. -/
  | csImageWrite (r : Req) (e : Fin 64) (v : Word)
  /-- CS_ERR_INJ (R106): A write of CS_ERR_INJ inverts a stored parity bit of a microword. -/
  | csErrInj (r : Req) (e : Fin 64) (v : Word)
  /-- PORT_MODE_CHANGE (R109): A write of ETH_CFG that changes PORT_MODE takes links down, clears LANE_FAIL and restarts the links. -/
  | portModeChange (r : Req) (v : Word)
  /-- LANE_FAIL (R110): A failed lane makes its port restart at a narrower width or go down, and LANE_FAIL records it. -/
  | laneFail (n : Fin 8)
  /-- PORT_LINK_UP (R109): A port completes auto-negotiation and link training and comes up. -/
  | portLinkUp (p : Fin 8)
  /-- PORT_LINK_DOWN (R125): A port goes down and the frames in its egress queues are dropped with LINK_DOWN. -/
  | portLinkDown (p : Fin 8)
  /-- FRAME_RECEIVE (R111): A received frame is checked for length and FCS, parsed, classified and charged to its TI's buffer quota. -/
  | frameReceive (p : Fin 8) (d : List Byte)
  /-- FLOW_CACHE_MISS_FILL (R118): A flow-cache miss reads both buckets from DRAM and completes the lookup. -/
  | flowCacheMissFill (k : Nat)
  /-- CUT_THROUGH_DISPATCH (R123): With CUT_EN, a frame is dispatched once 256 bytes are buffered, with CUT set. -/
  | cutThroughDispatch (p : Fin 8) (d : List Byte)
  /-- FRAME_TAIL_ARRIVAL (R123): The tail of a cut-through frame arrives, and a bad FCS stomps or fails its pending operations. -/
  | frameTailArrival (p : Fin 8) (d : List Byte)
  /-- FC_INV (R118): A write of FC_INV drops a bucket line from all four flow caches before responding. -/
  | fcInv (r : Req) (v : Word)
  /-- PFC_REFRESH (R122): Every half pause time while occupancy stays at or above XON the port repeats the pause frame. -/
  | pfcRefresh (p c : Fin 8)
  /-- PFC_FRAME_RECEIVE (R122): A received PFC frame pauses the named classes of the port at the next frame boundary. -/
  | pfcFrameReceive (p : Fin 8) (en : BitVec 8) (quanta : List (BitVec 16))
  /-- PFC_PAUSE_EXPIRE (R122): A received pause time ends and the paused class is served again. -/
  | pfcPauseExpire (p c : Fin 8)
  /-- SEND_FETCH (R124): The send fetcher serves a backlogged shaper node by deficit round robin, reading descriptors and frames. -/
  | sendFetch
  /-- SHAPE_APPLY (R124): A change of SHAPE_n takes effect at the next global-time multiple of 1,000 ns. -/
  | shapeApply
  /-- FRAME_TRANSMIT (R125): A port starts sending the frame of its highest non-empty unpaused class and completes it. -/
  | frameTransmit (p : Fin 8)
  /-- TXTS_POP (R231): A read of TXTS_POP_p pops the head entry and latches its time for the reader. -/
  | txtsPop (r : Req) (p : Fin 8)
  /-- INJ_PROD_WRITE (R130): A write of INJ_PROD_n makes filled injection slots available to the device. -/
  | injProdWrite (r : Req) (n : Fin 16) (v : Word)
  /-- INJECTION_CONSUME (R130): The device consumes an injection slot, queues the frame to its destination and advances INJ_CONS. -/
  | injectionConsume (n : Fin 16)
  /-- KEY_COMMIT (R127): A write of KEY_COMMIT writes the staged key, salt and attributes into a key slot and clears the staging. -/
  | keyCommit (r : Req)
  /-- ADM_SQ_TAIL_WRITE (R140): A write of ADM_SQ_TAIL posts admin commands and sets EN when bases and sizes are valid. -/
  | admSqTailWrite (l : Fin 2) (v : Word)
  /-- ADM_CQ_HEAD_WRITE (R140): A write of ADM_CQ_HEAD acknowledges admin completions and frees their slots. -/
  | admCqHeadWrite (l : Fin 2) (v : Word)
  /-- ADM_CTL_WRITE (R140): A write of ADM_CTL sets ring sizes and interrupt and clears EN, letting commands in progress finish. -/
  | admCtlWrite (l : Fin 2) (v : Word)
  /-- ADMIN_COMMAND_FETCH (R141): The device fetches the next admin command once it can reserve a completion slot, holding it behind earlier commands of the same TI. -/
  | adminCommandFetch (l : Fin 2)
  /-- TI_CREATE (R144): Admin TI_CREATE creates a TI in state CREATED. -/
  | tiCreate (l : Fin 2)
  /-- TI_DESTROY (R162): Admin TI_DESTROY squashes the TI and releases its resources to NONE. -/
  | tiDestroy (l : Fin 2)
  /-- TI_RESET (R160): Admin TI_RESET stops the TI and drains or squashes its outstanding transfers. -/
  | tiReset (l : Fin 2)
  /-- BIND_PASID (R144): Admin BIND_PASID binds or unbinds a PASID, moving the TI between CREATED and ACTIVE. -/
  | bindPasid (l : Fin 2)
  /-- SET_QP_COUNT (R157): Admin SET_QP_COUNT grows or shrinks the TI's queue pairs. -/
  | setQpCount (l : Fin 2)
  /-- QP_CONFIG (R146): Admin QP_CONFIG enables a queue pair with its rings, vector, moderation and send mode. -/
  | qpConfig (l : Fin 2)
  /-- QP_DISABLE (R147): Admin QP_DISABLE drains and disables a queue pair. -/
  | qpDisable (l : Fin 2)
  /-- SET_CTX_QUOTA (R159): Admin SET_CTX_QUOTA changes the flow-context quota, draining contexts above a new lower quota. -/
  | setCtxQuota (l : Fin 2)
  /-- SET_BW (R144): Admin SET_BW sets the TI's shaper weight and cap. -/
  | setBw (l : Fin 2)
  /-- SET_BUF_QUOTA (R157): Admin SET_BUF_QUOTA sets the TI's receive-buffer quota in cells. -/
  | setBufQuota (l : Fin 2)
  /-- SET_VECTORS (R157): Admin SET_VECTORS assigns a contiguous range of MSI-X entries. -/
  | setVectors (l : Fin 2)
  /-- SET_TELEM (R144): Admin SET_TELEM sets the TI's telemetry stream permission mask. -/
  | setTelem (l : Fin 2)
  /-- SET_FCAST (R144): Admin SET_FCAST sets the TI's forecast rule permission mask. -/
  | setFcast (l : Fin 2)
  /-- KEY_WRITE (R144): Admin KEY_WRITE writes a granted key slot owned by the TI. -/
  | keyWrite (l : Fin 2)
  /-- KEY_CLEAR (R144): Admin KEY_CLEAR zeroes a granted key slot and clears VALID. -/
  | keyClear (l : Fin 2)
  /-- RESIZE_APPLY (R157): A growth or shrink takes effect at the next 1,000 ns boundary and its command completes. -/
  | resizeApply (l : Fin 2)
  /-- CONTEXT_DRAIN (R159): Once a draining context is no longer HELD, the device copies it to overflow, clears VALID and the ownership entry. -/
  | contextDrain (l : Fin 2)
  /-- DRAIN_TIMEOUT (R160): A DRAIN not finished at its timeout continues as SQUASH with RESULT bit 0 set. -/
  | drainTimeout (n : Fin 2048)
  /-- TI_RESET_THREAD_TIMEOUT (R160): A thread still holding a packet of the TI 100 µs after the reset began is ended under R100. -/
  | tiResetThreadTimeout (t : Fin 1024)
  /-- TI_RESET_COMPLETE (R161): When no tag, TLB entry or frame of the TI remains, the reset completion is written and the TI returns to CREATED or ACTIVE. -/
  | tiResetComplete (n : Fin 2048)
  /-- TI_DESTROY_COMPLETE (R162): After its squash, TI_DESTROY releases resources, clears keys, unbinds the PASID and writes its completion. -/
  | tiDestroyComplete (n : Fin 2048)
  /-- SQ_TAIL_DOORBELL (R152): A doorbell write of an SQ tail posts send work and may arm the CQ interrupt. -/
  | sqTailDoorbell (l : Fin 2) (n : Fin 2048) (q : Fin 16) (v : Word) (whole : Bool)
  /-- CQ_HEAD_DOORBELL (R152): A doorbell write of a CQ head acknowledges completions and may disarm. -/
  | cqHeadDoorbell (l : Fin 2) (n : Fin 2048) (q : Fin 16) (v : Word) (whole : Bool)
  /-- RQ_TAIL_DOORBELL (R152): A doorbell write of an RQ tail posts receive buffers. -/
  | rqTailDoorbell (l : Fin 2) (n : Fin 2048) (q : Fin 16) (v : Word) (whole : Bool)
  /-- CQ_MOD_TIMEOUT (R154): MOD_TIME µs after arming or N becoming non-zero, an armed CQ sends its vector. -/
  | cqModTimeout (n : Fin 2048) (q : Fin 16)
  /-- ATS_TRANSLATION_COMPLETION (R155): An ATS Translation Completion arrives and fills the TLB, or leads to a PRI request or a failed access. -/
  | atsTranslationCompletion (tag : Nat) (x : Option (Nat × Nat × Bool × Bool))
  /-- PRI_RESPONSE (R155): A PRI page response arrives and the translation is retried once. -/
  | priResponse (j : Nat)
  /-- ATS_INVALIDATION_REQUEST (R156): An ATS Invalidation Request removes overlapping TLB entries of its link. -/
  | atsInvalidationRequest (l : Fin 2) (itag : Fin 32) (pasid : Option (BitVec 20)) (base size : BitVec 64)
  /-- ATS_INVALIDATION_COMPLETE (R156): Once requests through removed entries are sent and reads done, the device sends the Invalidation Completion. -/
  | atsInvalidationComplete (l : Fin 2) (itag : Fin 32)
  /-- CTXO_DATA_WRITE (R158): A write of CTXO_DATA sets a context ownership entry, refused with FORMAT for a slot at or above quota. -/
  | ctxoDataWrite (r : Req) (v : Word)
  /-- GRP_CTL_WRITE (R165): A write of GRP_CTL enables, disables or restarts a group's modulator clock and measurement. -/
  | grpCtlWrite (r : Req) (g : Fin 8) (v : Word)
  /-- MCLK_FAULT (R165): A short period or 250 ns without an edge sets CLK_FAULT, clears CLK_OK and stops the group's outputs. -/
  | mclkFault (g : Fin 8)
  /-- MCLK_QUALIFIED (R165): After 64 good periods CLK_OK sets and the group's channels and trip paths restart. -/
  | mclkQualified (g : Fin 8)
  /-- CHANNEL_OUTPUT (R167): Every D bits a channel's filter emits an output, scaled, saturated and timestamped under R168. -/
  | channelOutput (n : Fin 128) (bits : List Bool)
  /-- CH_CFG_WRITE (R169): A write of CH_CFG changing ORDER, DEC or SHIFT restarts the channel. -/
  | chCfgWrite (r : Req) (n : Fin 128) (v : Word)
  /-- CH_LAST_READ (R185): A read of CH_LAST latches CH_TS and CH_SEQ for the reader. -/
  | chLastRead (r : Req) (n : Fin 128)
  /-- SSET_TRIG (R171): A write of SSET_TRIG triggers a sample set at once without a loop mark. -/
  | ssetTrig (r : Req) (n : Fin 64)
  /-- SSET_CFG_WRITE (R171): A write of SSET_CFG enables a sample set or is refused with FORMAT. -/
  | ssetCfgWrite (r : Req) (n : Fin 64) (v : Word)
  /-- SAMPLE_FLIT_WRITE (R190): A control Tussock writes a sample flit into scratch and, for a marked last flit, raises the loop wake. -/
  | sampleFlitWrite (n : Fin 64)
  /-- SAMPLE_FLIT_ERROR (R174): A delivery flit receives an error response, is lost and is counted in DELIV_CNT and DELIV_ERR. -/
  | sampleFlitError (n : Fin 64) (code : Fin 8)
  /-- TRIP_OUTPUT (R175): A trip path's sinc2 filter emits an output that is compared with the thresholds and debounced. -/
  | tripOutput (k : Fin 32) (bits : List Bool)
  /-- TRIPPED_CLEAR (R176): A W1C write of TRIPPED clears it and restarts the debounce count. -/
  | trippedClear (r : Req) (k : Fin 32)
  /-- TRIP_CFG_WRITE (R175): A write of TRIP_CFG restarts the trip path. -/
  | tripCfgWrite (r : Req) (k : Fin 32) (v : Word)
  /-- EVI_SAMPLE (R179): An event input is sampled every Ts, counting glitches and FAST pulses. -/
  | eviSample (n : Fin 48) (raw : Bool)
  /-- EVI_LEVEL_ACCEPT (R179): After GLITCH + 1 consecutive samples the filtered level changes, possibly as a counted edge with interrupt cause. -/
  | eviLevelAccept (n : Fin 48)
  /-- EVI_FREQ_WINDOW (R180): At the end of a FREQ_WIN window EVI_FREQ takes the window's edge count. -/
  | eviFreqWindow
  /-- EVI_FREQ_WIN_WRITE (R180): A write that changes FREQ_WIN discards the window in progress. -/
  | eviFreqWinWrite (r : Req) (v : Word)
  /-- EVI_STUCK (R181): An unchanged filtered level for STUCK_TIME ms sets STUCK and STUCK_SEEN. -/
  | eviStuck (n : Fin 48)
  /-- EVI_IRQ_GAP_END (R183): At the end of IRQ_GAP a pending flag raises one interrupt and clears. -/
  | eviIrqGapEnd (n : Fin 48)
  /-- EVI_ENABLE (R184): Setting EVI_CFG EN clears the input's counts and starts the level from the next sample. -/
  | eviEnable (r : Req) (n : Fin 48) (v : Word)
  /-- EVI_COUNT_READ (R185): A read of EVI_COUNT latches EVI_PERIOD and the timestamp for the reader. -/
  | eviCountRead (r : Req) (n : Fin 48)
  /-- SAMPLE_INSTANT (R188): At each sample instant of an enabled loop the actuator block triggers its sample set and opens a period. -/
  | sampleInstant (n : Fin 64)
  /-- LOOP_ENABLE (R189): A write setting LOOP_CFG EN enables the loop or is refused with FORMAT. -/
  | loopEnable (r : Req) (n : Fin 64) (v : Word)
  /-- LOOP_DISABLE (R189): Clearing LOOP_CFG EN ends the loop at once and discards an open period's shadows. -/
  | loopDisable (r : Req) (n : Fin 64)
  /-- LOOP_ARM (R191): A write of LOOP_ARM arms the current period's commit, or is discarded and counted. -/
  | loopArm (r : Req) (n : Fin 64)
  /-- LOOP_DEADLINE (R192): At ts + DL the loop commits if armed, otherwise overruns. -/
  | loopDeadline (n : Fin 64)
  /-- PWM_SHADOW_WRITE (R197): A write of PWM_DUTY or PWM_PER updates the shadow, applied at once if the output is unowned and disabled. -/
  | pwmShadowWrite (r : Req) (m : Fin 64) (per : Bool) (v : Word)
  /-- PWM_ENABLE (R196): Setting PWM_CFG EN starts the output's first period at the next 1,000 ns multiple. -/
  | pwmEnable (r : Req) (m : Fin 64) (v : Word)
  /-- PWM_PERIOD_BOUNDARY (R197): At a period boundary pending or unowned shadow values become active. -/
  | pwmPeriodBoundary (m : Fin 64)
  /-- BRK_SET (R198): A write of BRK_SET sets the SW latch of each named brake. -/
  | brkSet (r : Req) (v : BitVec 16)
  /-- BRK_REL (R199): A write of BRK_REL clears all four latches of each named brake. -/
  | brkRel (r : Req) (v : BitVec 16)
  /-- BRAKE_AUTO_RELEASE (R199): AUTO_REL µs after the latest latch setting the brake's latches clear. -/
  | brakeAutoRelease (b : Fin 16)
  /-- FORECAST_EVENT (R203): The forecast unit takes an event, checks permission, sets mapped brakes, writes rings and offers it to the sender. -/
  | forecastEvent (g : Fin 16)
  /-- PINT_PERIODIC (R206): At each PERIOD multiple the power-intent sender sends a KIND 1 frame. -/
  | pintPeriodic
  /-- PINT_GAP_EXPIRE (R206): When GAP µs have passed, a waiting KIND 2 frame with the held events is sent. -/
  | pintGapExpire
  /-- PINT_DISABLE (R206): Clearing PINT EN discards held events and a waiting KIND 2 frame, counting them lost. -/
  | pintDisable (r : Req)
  /-- TEL_PERIODIC_SAMPLE (R210): At each PERIOD multiple an EVENT or ENERGY stream takes a sample. -/
  | telPeriodicSample (n : Fin 256)
  /-- BLOCK_FLUSH_TIMEOUT (R212): Global time reaching TIME_FIRST + FLUSH + 2 µs closes the open block. -/
  | blockFlushTimeout (n : Fin 256)
  /-- STR_CFG_WRITE (R212): A write of STR_CFG, STR_SRC or STR_ARG closes the open block and may restart BSEQ. -/
  | strCfgWrite (r : Req) (n : Fin 256) (k : Fin 3) (v : Word)
  /-- RECORD_SEND (R220): A queued record leaves its target queue into a frame or a ring slot. -/
  | recordSend (t : Fin 8)
  /-- TEL_FRAME_HOLD_EXPIRE (R221): HOLD µs after its first record a telemetry frame is sent. -/
  | telFrameHoldExpire (t : Fin 8)
  /-- GT_STEP_WRITE (R227): A write of GT_STEP schedules a signed step of global time, or gets FORMAT while one is pending. -/
  | gtStepWrite (r : Req) (v : Word)
  /-- GT_STEP_APPLY (R227): At the first wheel boundary 1 µs after the write, the step is added to every copy of global time. -/
  | gtStepApply
  /-- GT_RATE_WRITE (R226): A write of GT_RATE trims the system PLL within 10 µs. -/
  | gtRateWrite (r : Req) (v : Word)
  /-- GT_SET_HI_WRITE (R228): A write of GT_SET_HI in BOOT schedules loading global time, or gets FORMAT outside BOOT. -/
  | gtSetHiWrite (r : Req) (v : Word)
  /-- GT_SET_APPLY (R228): At the next wheel boundary global time is loaded with the set value. -/
  | gtSetApply
  /-- ADD (R243): ALU ADD writes a + b modulo 2^32. -/
  | add (p : Fin 253) (b : Fin 5) (rd ra rb : BitVec 5)
  /-- SUB (R243): ALU SUB writes a − b modulo 2^32. -/
  | sub (p : Fin 253) (b : Fin 5) (rd ra rb : BitVec 5)
  /-- AND (R243): ALU AND writes a and b. -/
  | and (p : Fin 253) (b : Fin 5) (rd ra rb : BitVec 5)
  /-- OR (R243): ALU OR writes a or b, and encodes NOP. -/
  | or (p : Fin 253) (b : Fin 5) (rd ra rb : BitVec 5)
  /-- XOR (R243): ALU XOR writes a xor b. -/
  | xor (p : Fin 253) (b : Fin 5) (rd ra rb : BitVec 5)
  /-- ANDN (R243): ALU ANDN writes a and not b. -/
  | andn (p : Fin 253) (b : Fin 5) (rd ra rb : BitVec 5)
  /-- SHL (R243): ALU SHL shifts a left. -/
  | shl (p : Fin 253) (b : Fin 5) (rd ra rb : BitVec 5)
  /-- SHR (R243): ALU SHR shifts a right logically. -/
  | shr (p : Fin 253) (b : Fin 5) (rd ra rb : BitVec 5)
  /-- SAR (R243): ALU SAR shifts a right arithmetically. -/
  | sar (p : Fin 253) (b : Fin 5) (rd ra rb : BitVec 5)
  /-- ROL (R243): ALU ROL rotates a left. -/
  | rol (p : Fin 253) (b : Fin 5) (rd ra rb : BitVec 5)
  /-- SLT (R243): ALU SLT writes 1 if a < b signed. -/
  | slt (p : Fin 253) (b : Fin 5) (rd ra rb : BitVec 5)
  /-- SLTU (R243): ALU SLTU writes 1 if a < b unsigned. -/
  | sltu (p : Fin 253) (b : Fin 5) (rd ra rb : BitVec 5)
  /-- MUL (R243): ALU MUL writes the low product. -/
  | mul (p : Fin 253) (b : Fin 5) (rd ra rb : BitVec 5)
  /-- MULH (R243): ALU MULH writes the high signed product. -/
  | mulh (p : Fin 253) (b : Fin 5) (rd ra rb : BitVec 5)
  /-- MULHU (R243): ALU MULHU writes the high unsigned product. -/
  | mulhu (p : Fin 253) (b : Fin 5) (rd ra rb : BitVec 5)
  /-- DIV (R243): ALU DIV writes the signed quotient. -/
  | div (p : Fin 253) (b : Fin 5) (rd ra rb : BitVec 5)
  /-- DIVU (R243): ALU DIVU writes the unsigned quotient. -/
  | divu (p : Fin 253) (b : Fin 5) (rd ra rb : BitVec 5)
  /-- REM (R243): ALU REM writes the signed remainder. -/
  | rem (p : Fin 253) (b : Fin 5) (rd ra rb : BitVec 5)
  /-- REMU (R243): ALU REMU writes the unsigned remainder. -/
  | remu (p : Fin 253) (b : Fin 5) (rd ra rb : BitVec 5)
  /-- MIN (R243): ALU MIN writes the signed minimum. -/
  | min (p : Fin 253) (b : Fin 5) (rd ra rb : BitVec 5)
  /-- MAX (R243): ALU MAX writes the signed maximum. -/
  | max (p : Fin 253) (b : Fin 5) (rd ra rb : BitVec 5)
  /-- MINU (R243): ALU MINU writes the unsigned minimum. -/
  | minu (p : Fin 253) (b : Fin 5) (rd ra rb : BitVec 5)
  /-- MAXU (R243): ALU MAXU writes the unsigned maximum. -/
  | maxu (p : Fin 253) (b : Fin 5) (rd ra rb : BitVec 5)
  /-- CLZ (R243): ALU CLZ counts leading zeros. -/
  | clz (p : Fin 253) (b : Fin 5) (rd ra rb : BitVec 5)
  /-- POPC (R243): ALU POPC counts ones. -/
  | popc (p : Fin 253) (b : Fin 5) (rd ra rb : BitVec 5)
  /-- BSWAP (R243): ALU BSWAP reverses the bytes. -/
  | bswap (p : Fin 253) (b : Fin 5) (rd ra rb : BitVec 5)
  /-- SEXTB (R243): ALU SEXTB sign-extends a byte. -/
  | sextb (p : Fin 253) (b : Fin 5) (rd ra rb : BitVec 5)
  /-- SEXTH (R243): ALU SEXTH sign-extends a half-word. -/
  | sexth (p : Fin 253) (b : Fin 5) (rd ra rb : BitVec 5)
  /-- EXTR (R243): ALU EXTR extracts a bit field. -/
  | extr (p : Fin 253) (b : Fin 5) (rd ra rb : BitVec 5)
  /-- INS (R243): ALU INS inserts a bit field into RD. -/
  | ins (p : Fin 253) (b : Fin 5) (rd ra rb : BitVec 5)
  /-- ADDI (R242): ADDI adds a sign-extended immediate. -/
  | addi (p : Fin 253) (b : Fin 5) (rd ra : BitVec 5) (imm : BitVec 16)
  /-- ANDI (R242): ANDI ands a zero-extended immediate. -/
  | andi (p : Fin 253) (b : Fin 5) (rd ra : BitVec 5) (imm : BitVec 16)
  /-- ORI (R242): ORI ors a zero-extended immediate. -/
  | ori (p : Fin 253) (b : Fin 5) (rd ra : BitVec 5) (imm : BitVec 16)
  /-- XORI (R242): XORI xors a zero-extended immediate. -/
  | xori (p : Fin 253) (b : Fin 5) (rd ra : BitVec 5) (imm : BitVec 16)
  /-- LUI (R242): LUI writes IMM × 2^16. -/
  | lui (p : Fin 253) (b : Fin 5) (rd ra : BitVec 5) (imm : BitVec 16)
  /-- SLTI (R242): SLTI compares with a sign-extended immediate, signed. -/
  | slti (p : Fin 253) (b : Fin 5) (rd ra : BitVec 5) (imm : BitVec 16)
  /-- SLTIU (R242): SLTIU compares with a sign-extended immediate, unsigned. -/
  | sltiu (p : Fin 253) (b : Fin 5) (rd ra : BitVec 5) (imm : BitVec 16)
  /-- SHI (R242): SHI shifts or rotates by an immediate amount. -/
  | shi (p : Fin 253) (b : Fin 5) (rd ra : BitVec 5) (imm : BitVec 16)
  /-- LDB (R233): LDB loads a sign-extended byte, in format B or MEMX. -/
  | ldb (p : Fin 253) (b : Fin 5) (m : MemForm)
  /-- LDBU (R233): LDBU loads a zero-extended byte. -/
  | ldbu (p : Fin 253) (b : Fin 5) (m : MemForm)
  /-- LDH (R233): LDH loads a sign-extended half-word. -/
  | ldh (p : Fin 253) (b : Fin 5) (m : MemForm)
  /-- LDHU (R233): LDHU loads a zero-extended half-word. -/
  | ldhu (p : Fin 253) (b : Fin 5) (m : MemForm)
  /-- LDW (R233): LDW loads a word. -/
  | ldw (p : Fin 253) (b : Fin 5) (m : MemForm)
  /-- STB (R233): STB stores a byte. -/
  | stb (p : Fin 253) (b : Fin 5) (m : MemForm)
  /-- STH (R233): STH stores a half-word. -/
  | sth (p : Fin 253) (b : Fin 5) (m : MemForm)
  /-- STW (R233): STW stores a word. -/
  | stw (p : Fin 253) (b : Fin 5) (m : MemForm)
  /-- LOAD_RESPONSE (R276): Data for a load that missed the L1 arrives and is written, or raises BUS_ERROR or MACHINE_CHECK. -/
  | loadResponse (p : Fin 253) (b : Fin 5) (pa : BitVec 40) (poison : Bool)
  /-- STORE_BUS_ERROR (R276): An error response to a completed store raises BUS_ERROR at the bank's next instruction boundary. -/
  | storeBusError (p : Fin 253) (b : Fin 5) (va : Word) (code : BitVec 3)
  /-- LDM (R245): LDM loads the registers selected by a mask, resumably. -/
  | ldm (p : Fin 253) (b : Fin 5) (rd ra : BitVec 5) (mask : BitVec 16)
  /-- STM (R245): STM stores the registers selected by a mask, resumably. -/
  | stm (p : Fin 253) (b : Fin 5) (rd ra : BitVec 5) (mask : BitVec 16)
  /-- MFS (R238): MFS reads a special register. -/
  | mfs (p : Fin 253) (b : Fin 5) (rd ra : BitVec 5) (sr : BitVec 16)
  /-- MTS (R238): MTS writes a special register. -/
  | mts (p : Fin 253) (b : Fin 5) (rd ra : BitVec 5) (sr : BitVec 16)
  /-- RPT (R246): RPT repeats the next instruction IMM times. -/
  | rpt (p : Fin 253) (b : Fin 5) (rd ra : BitVec 5) (imm : BitVec 16)
  /-- RPTR (R246): RPTR repeats the next instruction rc[15:0] times. -/
  | rptr (p : Fin 253) (b : Fin 5) (rd ra rb : BitVec 5)
  /-- BEQ (R252): BEQ branches when ra = 0. -/
  | beq (p : Fin 253) (b : Fin 5) (annul predT : Bool) (ra : BitVec 5) (disp : BitVec 16)
  /-- BNE (R252): BNE branches when ra ≠ 0. -/
  | bne (p : Fin 253) (b : Fin 5) (annul predT : Bool) (ra : BitVec 5) (disp : BitVec 16)
  /-- BLT (R252): BLT branches when ra < 0. -/
  | blt (p : Fin 253) (b : Fin 5) (annul predT : Bool) (ra : BitVec 5) (disp : BitVec 16)
  /-- BGE (R252): BGE branches when ra ≥ 0. -/
  | bge (p : Fin 253) (b : Fin 5) (annul predT : Bool) (ra : BitVec 5) (disp : BitVec 16)
  /-- BLE (R252): BLE branches when ra ≤ 0. -/
  | ble (p : Fin 253) (b : Fin 5) (annul predT : Bool) (ra : BitVec 5) (disp : BitVec 16)
  /-- BGT (R252): BGT branches when ra > 0. -/
  | bgt (p : Fin 253) (b : Fin 5) (annul predT : Bool) (ra : BitVec 5) (disp : BitVec 16)
  /-- BDNZ (R252): BDNZ decrements ra and branches if it is not zero. -/
  | bdnz (p : Fin 253) (b : Fin 5) (annul predT : Bool) (ra : BitVec 5) (disp : BitVec 16)
  /-- BRA (R252): BRA branches always. -/
  | bra (p : Fin 253) (b : Fin 5) (annul predT : Bool) (ra : BitVec 5) (disp : BitVec 16)
  /-- J (R240): J jumps by a displacement after its delay slot. -/
  | j (p : Fin 253) (b : Fin 5) (disp : BitVec 26)
  /-- CALL (R240): CALL writes lk and jumps by a displacement. -/
  | call (p : Fin 253) (b : Fin 5) (disp : BitVec 26)
  /-- JR (R240): JR jumps to the address in ra. -/
  | jr (p : Fin 253) (b : Fin 5) (rd ra rb : BitVec 5)
  /-- CALLR (R240): CALLR writes lk and jumps to the address in ra. -/
  | callr (p : Fin 253) (b : Fin 5) (rd ra rb : BitVec 5)
  /-- AADD (R247): AADD atomically adds rb to memory and returns the old value. -/
  | aadd (p : Fin 253) (b : Fin 5) (rd ra rb : BitVec 5)
  /-- ASWP (R247): ASWP atomically swaps memory with rb. -/
  | aswp (p : Fin 253) (b : Fin 5) (rd ra rb : BitVec 5)
  /-- ACAS (R247): ACAS atomically compares and swaps memory. -/
  | acas (p : Fin 253) (b : Fin 5) (rd ra rb : BitVec 5)
  /-- LDX (R247): LDX loads and sets a reservation on the granule. -/
  | ldx (p : Fin 253) (b : Fin 5) (rd ra rb : BitVec 5)
  /-- STX (R331): STX stores only if the reservation is intact and reports success. -/
  | stx (p : Fin 253) (b : Fin 5) (rd ra rb : BitVec 5)
  /-- WFE (R248): WFE clears the event flag or yields until an event sets it. -/
  | wfe (p : Fin 253) (b : Fin 5) (rd ra rb : BitVec 5)
  /-- SEV (R248): SEV sends an event to the bank or banks that ra selects. -/
  | sev (p : Fin 253) (b : Fin 5) (rd ra rb : BitVec 5)
  /-- WAITT (R248): WAITT yields until global time reaches ra. -/
  | waitt (p : Fin 253) (b : Fin 5) (rd ra rb : BitVec 5)
  /-- WAITT_DUE (R248): The time of a waiting WAITT arrives and its bank becomes READY. -/
  | waittDue (p : Fin 253) (b : Fin 5)
  /-- TCMP_FIRE (R238): An enabled time comparator fires, setting FIRED, clearing EN and raising a bank event. -/
  | tcmpFire (p : Fin 253) (b : Fin 5) (n : Fin 4)
  /-- ROT_PLUS (R236): ROT +1 moves to a new register window. -/
  | rotPlus (p : Fin 253) (b : Fin 5) (rd ra rb : BitVec 5)
  /-- ROT_MINUS (R236): ROT −1 returns to the caller's window. -/
  | rotMinus (p : Fin 253) (b : Fin 5) (rd ra rb : BitVec 5)
  /-- TRAP (R250): TRAP raises SYSCALL with its code. -/
  | trap (p : Fin 253) (b : Fin 5) (rd ra rb : BitVec 5)
  /-- ERET (R275): ERET returns from an exception, restoring window, MAC state, sp and level. -/
  | eret (p : Fin 253) (b : Fin 5) (rd ra rb : BitVec 5)
  /-- BRK (R394): BRK raises BREAK into the debug monitor. -/
  | brk (p : Fin 253) (b : Fin 5) (rd ra rb : BitVec 5)
  /-- FENCE_FULL (R294): FENCE FULL waits for all earlier operations of the bank. -/
  | fenceFull (p : Fin 253) (b : Fin 5) (ra rb : BitVec 5)
  /-- FENCE_STORE (R294): FENCE STORE waits for earlier stores, atomics and STX. -/
  | fenceStore (p : Fin 253) (b : Fin 5) (ra rb : BitVec 5)
  /-- FENCE_LOAD (R294): FENCE LOAD waits for earlier loads, atomics, LDX and stores. -/
  | fenceLoad (p : Fin 253) (b : Fin 5) (ra rb : BitVec 5)
  /-- FENCE_I (R295): FENCE.I waits as FENCE STORE, then invalidates the instruction cache, fetch buffer and resume buffers. -/
  | fenceI (p : Fin 253) (b : Fin 5) (rd ra rb : BitVec 5)
  /-- TLBI_ALL (R296): TLBI ALL removes TLB entries by the issuing level. -/
  | tlbiAll (p : Fin 253) (b : Fin 5) (ra rb : BitVec 5)
  /-- TLBI_ASID (R296): TLBI ASID removes non-global entries of an ASID. -/
  | tlbiAsid (p : Fin 253) (b : Fin 5) (ra rb : BitVec 5)
  /-- TLBI_VA (R296): TLBI VA removes entries covering a VA. -/
  | tlbiVa (p : Fin 253) (b : Fin 5) (ra rb : BitVec 5)
  /-- TLBI_VMID (R296): TLBI VMID removes stage-2 entries of a VMID. -/
  | tlbiVmid (p : Fin 253) (b : Fin 5) (ra rb : BitVec 5)
  /-- TLBI_IPA (R296): TLBI IPA removes entries whose IPA page covers the address. -/
  | tlbiIpa (p : Fin 253) (b : Fin 5) (ra rb : BitVec 5)
  /-- CRANGE_CLEAN (R313): CRANGE CLEAN writes back dirty sub-blocks of a range. -/
  | crangeClean (p : Fin 253) (b : Fin 5) (ra rb : BitVec 5)
  /-- CRANGE_INV (R313): CRANGE INV invalidates sub-blocks of a range, discarding M data. -/
  | crangeInv (p : Fin 253) (b : Fin 5) (ra rb : BitVec 5)
  /-- CRANGE_CLEAN_INV (R313): CRANGE CLEAN_INV writes back and invalidates sub-blocks of a range. -/
  | crangeCleanInv (p : Fin 253) (b : Fin 5) (ra rb : BitVec 5)
  /-- MFB (R249): MFB reads a register of the bank BWIN selects. -/
  | mfb (p : Fin 253) (b : Fin 5) (rd ra rb : BitVec 5)
  /-- MTB (R249): MTB writes a register of the bank BWIN selects. -/
  | mtb (p : Fin 253) (b : Fin 5) (rd ra rb : BitVec 5)
  /-- MACC (R244): MACC adds a signed product to an accumulator. -/
  | macc (p : Fin 253) (b : Fin 5) (rd ra rb : BitVec 5)
  /-- MSUB (R244): MSUB subtracts a signed product from an accumulator. -/
  | msub (p : Fin 253) (b : Fin 5) (rd ra rb : BitVec 5)
  /-- MACU (R244): MACU adds an unsigned product. -/
  | macu (p : Fin 253) (b : Fin 5) (rd ra rb : BitVec 5)
  /-- MACK (R244): MACK adds a product with a coefficient register. -/
  | mack (p : Fin 253) (b : Fin 5) (rd ra rb : BitVec 5)
  /-- MACL (R243): MACL loads a word, adds its product with k[KIDX] and advances ra and KIDX. -/
  | macl (p : Fin 253) (b : Fin 5) (rd ra rb : BitVec 5)
  /-- MDOT2 (R244): MDOT2 adds a two-element half-word dot product. -/
  | mdot2 (p : Fin 253) (b : Fin 5) (rd ra rb : BitVec 5)
  /-- MCLR (R243): MCLR clears an accumulator and sets KIDX. -/
  | mclr (p : Fin 253) (b : Fin 5) (rd ra rb : BitVec 5)
  /-- MRD (R244): MRD reads a shifted, rounded and saturated accumulator. -/
  | mrd (p : Fin 253) (b : Fin 5) (rd ra rb : BitVec 5)
  /-- MRDL (R243): MRDL reads accumulator bits [31:0]. -/
  | mrdl (p : Fin 253) (b : Fin 5) (rd ra rb : BitVec 5)
  /-- MRDH (R243): MRDH reads accumulator bits [63:32]. -/
  | mrdh (p : Fin 253) (b : Fin 5) (rd ra rb : BitVec 5)
  /-- MWRL (R243): MWRL writes accumulator bits [31:0]. -/
  | mwrl (p : Fin 253) (b : Fin 5) (rd ra rb : BitVec 5)
  /-- MWRH (R243): MWRH writes accumulator bits [63:32]. -/
  | mwrh (p : Fin 253) (b : Fin 5) (rd ra rb : BitVec 5)
  /-- MKW (R243): MKW writes a coefficient register. -/
  | mkw (p : Fin 253) (b : Fin 5) (rd ra rb : BitVec 5)
  /-- MKR (R243): MKR reads a coefficient register. -/
  | mkr (p : Fin 253) (b : Fin 5) (rd ra rb : BitVec 5)
  /-- QUANTUM_EXPIRE (R264): After QUANT cycles with an equal-priority bank ready, the core passes to the next such bank. -/
  | quantumExpire (p : Fin 253)
  /-- BANK_ENABLE (R267): Setting BANK_CFG EN restarts the bank at START at level M. -/
  | bankEnable (r : Req) (p : Fin 252) (k : Fin 4) (bpri : BitVec 2)
  /-- BANK_DISABLE (R267): Clearing BANK_CFG EN stops the bank at its next instruction boundary. -/
  | bankDisable (r : Req) (p : Fin 252) (k : Fin 4) (bpri : BitVec 2)
  /-- ER_RAISE (R268): A raise of an event source delivers to one bank with a pending bit, or to a broadcast set. -/
  | erRaise (r : Req) (q : Fin 4) (src : BitVec 10)
  /-- ER_ROUTE_WRITE (R268): A write of ER_ROUTE sets a route, refused with FORMAT for a target outside the quadrant. -/
  | erRouteWrite (r : Req) (q : Fin 4) (src : BitVec 10) (v : Word)
  /-- ER_CLAIM (R269): A read of ER_CLAIM_b returns and clears the lowest pending source routed to the reader's bank. -/
  | erClaim (r : Req) (q : Fin 4) (k : Fin 4)
  /-- WINDOW_SPILL (R271): The spill engine writes the oldest resident window to the frame at WSP. -/
  | windowSpill (p : Fin 253) (b : Fin 5)
  /-- WINDOW_FILL (R271): The spill engine reads back the window below the current one. -/
  | windowFill (p : Fin 253) (b : Fin 5)
  /-- TABLE_WALK (R290): A TLB miss walks the stage-1 and stage-2 tables and inserts an entry or raises an abort. -/
  | tableWalk (p : Fin 253) (b : Fin 5) (va : Word) (acc : Fin 3)
  /-- L2_WAYS_WRITE (R311): A write of L2_WAYS changing way roles sets CONV_BUSY and starts way conversion. -/
  | l2WaysWrite (r : Req) (t : Fin 28) (v : Word)
  /-- WAY_CONVERSION_DONE (R311): Converted ways are cleaned, zeroed or discarded and CONV_BUSY clears. -/
  | wayConversionDone (t : Fin 28)
  /-- GETS (R322): The home serves a GetS, giving S with data from memory or from the owner. -/
  | gets (a : Fin 32) (l : BitVec 34) (e : Ecc)
  /-- GETM (R322): The home serves a GetM, invalidating others and granting M with data. -/
  | getm (a : Fin 32) (l : BitVec 34) (e : Ecc)
  /-- UPG (R322): The home serves an Upg, granting M without data or failing a conditional one. -/
  | upg (a : Fin 32) (l : BitVec 34) (e : Ecc)
  /-- PUTM (R323): The home answers a PutM within 64 cycles, writing back from the owner or sending Stale. -/
  | putm (a : Fin 32) (l : BitVec 34)
  /-- PUTO (R323): The home answers a PutO, writing the dirty quarters or sending Stale. -/
  | puto (a : Fin 32) (l : BitVec 34)
  /-- RDONCE (R322): The home serves a cacheless read from memory or the owner. -/
  | rdonce (m : BitVec 12) (l : BitVec 34) (e : Ecc)
  /-- WRFULL (R322): The home serves a full-line write, invalidating copies and writing memory, or starts a stash. -/
  | wrfull (m : BitVec 12) (l : BitVec 34) (d : Vector Byte 64) (poison : Bool)
  /-- WRPART (R322): The home serves a partial write, flushing an owner and merging under R78. -/
  | wrpart (m : BitVec 12) (l : BitVec 34) (off : Fin 64) (d : List Byte) (e : Ecc)
  /-- ATOM (R322): The home performs an atomic operation at memory after flushing copies. -/
  | atom (m : BitVec 12) (l : BitVec 34) (off : Fin 16) (op : Fin 3) (x y : Word) (e : Ecc)
  /-- FWDS (R324): An owner receiving FwdS sends data to the requester and keeps or takes O. -/
  | fwds (t : Fin 29) (l : BitVec 34)
  /-- FWDM (R324): An owner receiving FwdM sends data and DIRTY to the requester and goes to I. -/
  | fwdm (t : Fin 29) (l : BitVec 34)
  /-- FWDRD (R324): An owner receiving FwdRd sends data and keeps its state. -/
  | fwdrd (t : Fin 29) (l : BitVec 34)
  /-- FWDFLUSH (R324): An owner receiving FwdFlush sends data and DIRTY to the home and goes to I. -/
  | fwdflush (t : Fin 29) (l : BitVec 34)
  /-- FWDKILL (R324): An owner receiving FwdKill goes to I without data. -/
  | fwdkill (t : Fin 29) (l : BitVec 34)
  /-- INV (R324): An agent receiving Inv drops its copy and answers InvAck. -/
  | inv (t : Fin 29) (l : BitVec 34)
  /-- STASH (R328): A target Tussock installs stashed data in M or refuses it under R307. -/
  | stash (t : Fin 29) (l : BitVec 34)
  /-- DATA (R324): A requester receives 64 bytes of data for its open request. -/
  | data (t : Fin 29) (l : BitVec 34)
  /-- CMP (R324): A requester receives completion, granting S or M or failing, and sends Done once data is in. -/
  | cmp (t : Fin 29) (l : BitVec 34)
  /-- RETRY (R330): A requester receives Retry with RCOUNT and schedules a reissue. -/
  | retry (t : Fin 29) (l : BitVec 34)
  /-- RETRY_REISSUE (R330): After BACKOFF × RCOUNT cycles the requester reissues its request. -/
  | retryReissue (t : Fin 29) (l : BitVec 34)
  /-- RETRY_HOLD_EXPIRE (R330): A way held for a retried request is released after BACKOFF × 16 cycles. -/
  | retryHoldExpire (l : BitVec 34)
  /-- PUTACK (R324): An owner receiving PutAck frees its eviction-buffer entry. -/
  | putack (t : Fin 29) (l : BitVec 34)
  /-- STALE (R324): An owner receiving Stale frees its eviction-buffer entry. -/
  | stale (t : Fin 29) (l : BitVec 34)
  /-- INVACK (R320): The home counts an InvAck toward closing its transaction. -/
  | invack (a : Fin 32) (l : BitVec 34)
  /-- FWDACK (R320): The home counts a FwdAck, writing flushed data, and may send Cmp. -/
  | fwdack (a : Fin 32) (l : BitVec 34)
  /-- STASHACK (R328): On StashAck the entry becomes M of the target and the writer receives Cmp. -/
  | stashack (a : Fin 32) (l : BitVec 34)
  /-- STASHNACK (R328): On StashNack the home writes memory, frees the entry and completes the writer. -/
  | stashnack (a : Fin 32) (l : BitVec 34)
  /-- DONE (R320): The home receives Done and closes the transaction, unpinning the entry. -/
  | done (a : Fin 32) (l : BitVec 34)
  /-- MIN_HOLD_END (R326): HOLD_CYCLES after obtaining M or O the agent serves the forwards it held. -/
  | minHoldEnd (t : Fin 29) (l : BitVec 34)
  /-- HOME_TXN_EXPIRE (R353): A home transaction open beyond TXN_TIMEOUT poisons the sub-block, invalidates copies and frees the entry. -/
  | homeTxnExpire (l : BitVec 34)
  /-- SPARE_RESUME (R347): After the epoch broadcast the spare resumes issuing as the identity. -/
  | spareResume (t : Fin 28)
  /-- READMIT_TEST (R351): READMIT TEST runs a DEAD or quarantined core from reset without identity. -/
  | readmitTest (r : Req) (p : Fin 252)
  /-- READMIT_ADMIT (R351): READMIT ADMIT makes a tested core the spare under a new spare identity. -/
  | readmitAdmit (r : Req) (p : Fin 252)
  /-- READMIT_REJECT (R351): READMIT REJECT returns a tested core to QUARANTINE. -/
  | readmitReject (r : Req) (p : Fin 252)
  /-- CKPT_NOW (R346): Writing CKPT_CTL NOW requests a checkpoint of the named banks at their next yield. -/
  | ckptNow (r : Req) (p : Fin 252) (banks : BitVec 4)
  /-- SRAM_BANK_FAIL (R352): A bank with 4 uncorrectable errors in 1 ms or a failed check is copied into the spare bank. -/
  | sramBankFail (a : Machine.SramArr) (b : Nat)
  /-- SRAM_REPAIR_DONE (R352): The spare bank replaces the failed one and accesses to the array resume. -/
  | sramRepairDone (a : Machine.SramArr) (b : Nat) (lost : List Nat)
  /-- WD_EXPIRE (R354): A core watchdog reaching zero sets WATCHDOG, sends a record, reloads and may declare the core dead. -/
  | wdExpire (p : Fin 252)
  /-- TWD_EXPIRE (R354): A Tussock watchdog reaching zero notifies or makes the Tussock unit-fatal. -/
  | twdExpire (t : Fin 28)
  /-- DWD_EXPIRE (R355): The device watchdog reaching zero sets ALARM, drives DWD_ALARM_N and may warm-reset. -/
  | dwdExpire
  /-- WD_KICK (R354): A write of 0xA5 to WD_KICK reloads the core watchdog. -/
  | wdKick (r : Req) (p : Fin 252) (v : Word)
  /-- TWD_KICK (R354): A write of 0xA5 to TWD_KICK reloads the Tussock watchdog. -/
  | twdKick (r : Req) (t : Fin 28) (v : Word)
  /-- DWD_KICK (R355): A write of 0xA5 to DWD_KICK reloads the device watchdog. -/
  | dwdKick (r : Req) (v : Word)
  /-- MCLOG_POP (R338): A read of MCLOG_POP removes the oldest machine-check record and latches its words. -/
  | mclogPop (r : Req)
  /-- GORSE_BOOT (R370): After reset Gorse self-tests, classifies slots, copies and verifies candidates in order. -/
  | gorseBoot (flash : List (Nat × List Byte))
  /-- BOOT_HANDOVER (R372): Gorse loads control stores and plan B, writes the handoff block, grants the boot identity, starts it and sets DONE. -/
  | bootHandover
  /-- KEY_REQ (R378): A write of KEY_REQ asks Gorse to derive an image key, or is refused with a code. -/
  | keyReq (r : Req) (v : Word)
  /-- KEY_DERIVATION_DONE (R377): Gorse places the derived key in KEY_OUT and sets READY. -/
  | keyDerivationDone
  /-- KEY_OUT_READ (R378): A read of KEY_OUT_w by the requester returns and clears the word; others get FORMAT. -/
  | keyOutRead (r : Req) (w : Fin 12)
  /-- KEY_LOCK (R379): Writing KEY_CTL KEY_LOCK locks key derivation until the next boot. -/
  | keyLock (r : Req)
  /-- ATTEST_REQ (R381): A write of ATTEST_REQ starts an attestation report over a nonce. -/
  | attestReq (r : Req)
  /-- ATTEST_DONE (R381): Gorse writes the signed attestation report and sets DONE. -/
  | attestDone
  /-- CS_RELOAD (R373): A write of CS_RELOAD asks Gorse to rewrite an engine's control store from the kept image. -/
  | csReload (r : Req) (e : Fin 64)
  /-- CS_RELOAD_DONE (R373): Gorse finishes the reload and writes CS_IMAGE, or reports FAIL. -/
  | csReloadDone
  /-- PUSH_GO (R382): A write of BOOT_MBOX_CTL GO makes Gorse read a pushed image set from host memory. -/
  | pushGo (l : Fin 2) (copy flash : List (Nat × List Byte))
  /-- PUSH_WAIT_TIMEOUT (R382): After 10 s without GO Gorse runs the flash candidate under R371. -/
  | pushWaitTimeout (flash : List (Nat × List Byte))
  /-- BYPASS (R386): TAP instruction BYPASS selects the bypass register. -/
  | bypass
  /-- IDCODE (R386): TAP instruction IDCODE selects the identification register. -/
  | idcode
  /-- SAMPLE_PRELOAD (R386): TAP instruction SAMPLE/PRELOAD samples or preloads the boundary scan. -/
  | samplePreload (d : Nat)
  /-- EXTEST (R386): TAP instruction EXTEST drives the boundary scan. -/
  | extest (d : Nat)
  /-- REGXFER (R386): Update-DR under REGXFER performs a DAP register read or write within 100 ns. -/
  | regxfer (o : BitVec 16) (w : Option Word)
  /-- AUTH_REQ (R388): A write of AUTH_REQ asks Gorse to grant a debug class by signature. -/
  | authReq (r : Req) (tap : Bool) (v : Word)
  /-- AUTH_DONE (R388): Gorse grants or refuses the class, counting failures and setting a new challenge. -/
  | authDone
  /-- DRE_READ (R391): A DRE_CMD read makes a request engine read over Sward as master 0x1C1. -/
  | dreRead (r : Req) (k : Fin 2) (wide : Bool)
  /-- DRE_WRITE (R391): A DRE_CMD write makes a request engine write over Sward as master 0x1C1. -/
  | dreWrite (r : Req) (k : Fin 2) (wide : Bool)
  /-- DRE_RESPONSE (R391): The response to a request-engine access arrives, clearing BUSY and setting status. -/
  | dreResponse (k : Fin 2)
  /-- DBG_ATTACH (R401): Setting DBG_ATTACHED starts emulation of sleep states under the debugger. -/
  | dbgAttach (r : Req) (tap : Bool)
  /-- DBG_DETACH (R403): Clearing DBG_ATTACHED ends emulation, making emulated states real within 2 ms. -/
  | dbgDetach (r : Req) (tap : Bool)
  /-- FREEZE_WRITE (R400): Setting or clearing FREEZE pauses or restarts the Tussock and device watchdogs. -/
  | freezeWrite (r : Req) (tap on : Bool)
  /-- HALT (R394): Writing DBG_CTL HALT requests a halt of a bank into the monitor. -/
  | halt (r : Req) (p : Fin 252) (banks : BitVec 4)
  /-- STEP (R396): Writing DBG_CTL STEP arms a single step for a bank. -/
  | step (r : Req) (p : Fin 252) (banks : BitVec 4)
  /-- TRACE_FLIT_TIMEOUT (R412): 1 µs after its first byte a source's trace flit leaves for Hedgerow. -/
  | traceFlitTimeout (k : BitVec 12)
  /-- TRACE_TS_TIMER (R409): A running source emits TS when 1,000 ns have passed since its reference. -/
  | traceTsTimer (k : BitVec 12)
  /-- RING_LINE_TIMEOUT (R414): 10 µs after its first byte Hedgerow writes a partial ring line padded with PAD. -/
  | ringLineTimeout
  /-- FR_TRIG (R415): A write of FR_TRIG triggers the flight recorder. -/
  | frTrig (r : Req) (t : Fin 28)
  /-- FR_STOP (R415): POST × 64 bytes after its trigger the flight recorder stops. -/
  | frStop (t : Fin 29)
  /-- PLL_LOCK (R419): A started PLL locks and its units may leave reset or change clock. -/
  | pllLock (n : Fin 7)
  /-- PLL_LOCK_LOST (R419): A PLL losing lock sets LOST and causes a device-fatal fault. -/
  | pllLockLost (n : Fin 7)
  /-- PEAT_DISCIPLINE (R420): Every 1 ms Peat compares its oscillator with REFCLK and trims it. -/
  | peatDiscipline (within : Bool)
  /-- REFCLK_LOSS (R420): REFCLK without an edge for 2 µs clears REFCLK_OK and DISCIPLINED. -/
  | refclkLoss
  /-- PEAT_CLKIN_FAIL (R420): PEAT_CLKIN without an edge for 4 µs switches Peat to the internal oscillator. -/
  | peatClkinFail
  /-- WAKE_ALARM (R426): In DORMANT, global time reaching WAKE_ALARM fires the ALARM wake source. -/
  | wakeAlarm
  /-- WAKE_N_LOW (R426): In DORMANT, WAKE_N low for two Peat periods fires the WAKE_N wake source. -/
  | wakeNLow
  /-- PERST_DEASSERT (R426): Deassertion of PERST# of a used link lets the link train and in DORMANT fires the PERST wake source. -/
  | perstDeassert (l : Fin 2)
  /-- PEAT_TRIP_WINDOW (R427): A Peat trip channel's window of PWIN bits ends and is checked, tripping after PDEB windows. -/
  | peatTripWindow (k : Fin 8) (ones : Nat)
  /-- MAIN_PG_RISE (R425): MAIN_PG rising after a wake lets the exit proceed to Gorse. -/
  | mainPgRise
  /-- PG_LATE (R425): MAIN_PG not high 8 ms after PWR_EN rises sets PG_LATE. -/
  | pgLate
  /-- COLD_RESET (R429): PORST_N low resets the whole device; its rise samples straps and VDDIO_M. -/
  | coldReset (straps : BitVec 8) (io33 : Bool)
  /-- WARM_RESET (R429): A warm reset resets every unit but Peat, takes the PCIe links down and leads to BOOT. -/
  | warmReset (r : Req)
  /-- PERST_ASSERT (R429): PERST# of a link resets its function and destroys its TIs, or makes a warm reset with PERST_WARM. -/
  | perstAssert (l : Fin 2)
  /-- FUNCTION_LEVEL_RESET (R429): A Function Level Reset resets the link's function, BAR0 registers and mailbox and destroys its TIs. -/
  | functionLevelReset (l : Fin 2)
  /-- PCIE_LINK_DOWN (R139): A link leaving DL_Active destroys every TI of the link and disables its admin ring. -/
  | pcieLinkDown (l : Fin 2)
  /-- SUPPLY_UNDERVOLTAGE (R444): A monitored supply below its minimum makes the device act as if PORST_N were low. -/
  | supplyUndervoltage (k : Fin 4)
  /-- WAIT_TIME_REACHED (R97): A Sedge thread held by wait condition TIME becomes ready when NOW − v14 reaches zero. -/
  | waitTimeReached (t : Fin 1024)
  /-- DORMANT_ENTRY_COMPLETE (R36): DORMANT entry finishes once the trace flush and stack self-refresh or power-off are done, the PLLs stop, PWM balls pass to their hold latches and PWR_EN may fall. -/
  | dormantEntryComplete
  /-- PCIE_LINK_UP (R29): A PCIe link finishes training and enters DL_Active, so the outbound window, BAR traffic and the admin ring can be used again. -/
  | pcieLinkUp (l : Fin 2)
  /-- PCIE_COMPLETION_ARRIVAL (R160): A PCIe completion for a device-issued non-posted request arrives, delivering data or being discarded for an orphaned tag, and the tag returns to the pool. -/
  | pcieCompletionArrival (tag : Nat) (d : Option (List Byte)) (poison : Bool)
  /-- PCIE_COMPLETION_TIMEOUT (R65): A device-issued PCIe non-posted request without completion reaches the PCIe completion timeout, ends and returns its tag. -/
  | pcieCompletionTimeout (tag : Nat)
  /-- REFCLK_RETURN (R420): REFCLK shows edges again, REFCLK_OK sets and Peat resumes disciplining its oscillator. -/
  | refclkReturn
  /-- MODULATOR_CLOCK_FIRST_EDGE (R165): The first rising edge of a driven modulator clock falls at a global-time multiple of its period at least 100 ns after the write, and CLK_OK sets. -/
  | modulatorClockFirstEdge (g : Fin 8)
  /-- RC_READ (R4): A read of an RC counter register returns its value and clears it, except for a debug read without DBG_SIDEEFFECT. -/
  | rcRead (r : Req) (a : BitVec 48)
  /-- CONFIG_SPACE_WRITE (R29): A host write to a function's PCIe configuration space changes Bus Master Enable, MSI-X, PASID or ATS enables. -/
  | configSpaceWrite (l : Fin 2) (bme msixEn pasidEn atsEn : Bool)
  /-- SUPPLY_RECOVERY (R444): Every monitored supply returns above its minimum, and the device leaves the reset that the undervoltage imposed. -/
  | supplyRecovery (straps : BitVec 8) (io33 : Bool)
  deriving DecidableEq, Repr

end Sys2Proof
end

