-- ==== Sys2Proof/Decode.lean ====
section
/-! DEFINITION. Decode.lean: the commands that words of spec/opcode_table.json spell. No row of the table gives bits: the block is
commanded by register accesses and events, not by instruction words. -/

namespace Sys2Proof

/-- The command a word of `nbits` bits spells: none, since the table gives no row any bits. -/
def decodeTableWord (_nbits _w : Nat) : Option Instr := none

end Sys2Proof
end

