-- ==== Sys2Proof/Config.lean ====
section
/-! DEFINITION. Config.lean: the values the spec bounds or leaves to the part and does not state. Each is a constant without a
body, applied to a counter the step reads and advances, so that nothing can be proved of its value. -/

namespace Sys2Proof

/-- A free 32-bit value (energy estimates, boundary-scan content and other values the spec does not state). -/
opaque Config.freeWord : Nat → BitVec 32

/-- A free bit. -/
opaque Config.freeBool : Nat → Bool

/-- A free natural number, for a bounded time the spec does not fix. -/
opaque Config.freeNat : Nat → Nat

/-- A free byte. -/
opaque Config.freeByte : Nat → BitVec 8

/-- The count of a Sward monitor (by number) that counts flits, at a count of free values and a time: the slot-by-slot traffic of the
mesh is not held (R68, events 0 to 5). -/
opaque Config.flitCount : Nat → Nat → Nat → BitVec 64

/-- The counts of FEC codewords of a port (10 corrected, 11 uncorrectable), by 16·port + k, at a count of free values and a time. -/
opaque Config.fecCount : Nat → Nat → Nat → BitVec 64

/-- How many frames an egress class queue holds beyond the first; the spec does not state it (R125). -/
opaque Config.egressDepth : Nat

end Sys2Proof
end

