-- ==== Sys2Proof/Machine/StateDbg.lean ====
section
/-! DEFINITION. Machine/StateDbg.lean: the plain data of Gorse, the debug access port, the trace sources, Hedgerow and the flight
recorders (chapters 17 and 18). -/

namespace Sys2Proof.Machine

/-! ### Gorse (chapter 17) -/

/-- An image of the set Gorse runs (R365, R367, R373): its header fields, the result of its verification, the SHA-384 of its
signed message, and where in the Gorse SRAM the payload of a SEDGE_UC image is kept. -/
structure Img where
  role : Nat := 0
  slot : Nat := 0
  result : Nat := 0
  svn : Nat := 0
  load : Nat := 0
  len : Nat := 0
  entry : Nat := 0
  tag : Nat := 0
  engines : Nat := 0
  revoke : Nat := 0
  pub : List Byte := []
  hash : List Byte := []
  kept : Nat := 0
  deriving DecidableEq, Repr

/-- Gorse: the fuses (secret, key-slot digests by slot, revoked slots; R360), VERIFY_FAIL as FAULT_SUM keeps it (R16), the next free region entry and the SEQ of the set it runs, the images of the set it runs, the board description
table it found, whether a set waits for its handover, when the wait for a push began (with the link whose GO it serves), the key
request in progress (requester, index) and the master that may read KEY_OUT, the attestation in progress (address, global time),
the engine being reloaded, and DSEG (R361). -/
structure GorseSt where
  secret : List Byte := []
  digs : Map (List Byte) := []
  revoked : Nat := 0
  vfail : Bool := false
  regNext : Nat := 0
  setSeq : Nat := 0
  imgs : List Img := []
  bdt : List Byte := []
  ready : Bool := false
  started : Bool := false
  waitPush : Option Nat := none
  keyReq : Option (Nat × Nat) := none
  keyOwner : Nat := 0xFFF
  attest : Option (Nat × Nat) := none
  reload : Option Nat := none
  dseg : Nat := 0
  deriving DecidableEq, Repr

/-! ### Debug access port (R385 to R392) -/

/-- An access of a debug request engine: write, 16 bytes, address, the bytes to write, when it began, and whether a read through
the outbound window has been sent. -/
structure DreAcc where
  write : Bool
  wide : Bool
  addr : Nat
  data : List Byte
  since : Nat
  issued : Bool := false
  deriving DecidableEq, Repr

/-- The debug access port: TAP instruction, the boundary-scan content last preloaded and whether it drives the balls, the last
REGXFER access (offset, read data, refused), class and host path granted, refusals, lockout, attempts, the request in progress
(request byte, key, signature), the accesses of DRE_T (0) and DRE_H (1), and the debug latches (R392) by address. -/
structure DapSt where
  ir : Nat := 1
  bsr : Nat := 0
  driving : Bool := false
  drOff : Nat := 0
  drData : Word := 0
  drRefused : Bool := false
  cls : Nat := 0
  host : Bool := false
  failed : Bool := false
  fails : Nat := 0
  lockout : Bool := false
  attempts : Nat := 0
  busy : Option (Nat × List Byte × List Byte) := none
  dre : Map (Option DreAcc) := []
  latch : Map Latch := []
  deriving DecidableEq, Repr

/-! ### Trace (R404 to R416) -/

/-- A trace source (R405, R409 to R412): whether it has started, the mode 1 window, whether the present context is traced and the
bank last traced, its reference time, the whole packets waiting in its buffer with the time of the first, packets lost since the
last OVF, whether SYNC is due, bytes since the last SYNC, the branch outcomes pending (oldest first), whether the instruction
in hand closes the window, and whether it sleeps. -/
structure TrSrc where
  on : Bool := false
  win : Bool := false
  ctx : Bool := false
  bank : Option Nat := none
  ref : Option Nat := none
  pkts : List (List Byte) := []
  since : Nat := 0
  lost : Nat := 0
  needSync : Bool := false
  sinceSync : Nat := 0
  br : List Bool := []
  stopping : Bool := false
  asleep : Bool := false
  deriving DecidableEq, Repr

/-- Hedgerow (R413, R414): the source of the last flit written, the partial ring line with the time of its first byte, bytes since
the last MARK, and whether output has started. -/
structure HedgeSt where
  cur : Option Nat := none
  line : List Byte := []
  since : Nat := 0
  sinceMark : Nat := 0
  started : Bool := false
  deriving DecidableEq, Repr

/-- A flight recorder (R415, R416): the write offset, the source of the last packet (none at the start of a block), the bytes it
still writes once triggered, WRAPPED, TRIGGERED, STOPPED and ERR, and the offset at the trigger. -/
structure FrSt where
  ptr : Nat := 0
  cur : Option Nat := none
  left : Option Nat := none
  wrapped : Bool := false
  triggered : Bool := false
  stopped : Bool := false
  err : Bool := false
  trigPtr : Nat := 0
  deriving DecidableEq, Repr

/-- Trace: sources by identifier, Hedgerow, and flight recorders by Tussock (28 is Gorse's). -/
structure TraceSt where
  src : Map TrSrc := []
  hr : HedgeSt := {}
  fr : Map FrSt := []
  pmonAt : Map Nat := []
  deriving DecidableEq, Repr

end Sys2Proof.Machine
end

