-- ==== Sys2Proof/Machine/StateLing.lean ====
section
/-! DEFINITION. Machine/StateLing.lean: the plain data of the Ling cores: banks, windows, exception register sets, the MAC unit,
the machine-check context, TLBs, L1 caches, stride detectors and debug state (chapters 11, 12, 13, 14 and 18). -/

namespace Sys2Proof.Machine

/-- Bank states (R262). -/
inductive BState where
  | off | ready | running | waiting
  deriving DecidableEq, Repr

def BState.code : BState → Nat
  | .off => 0 | .ready => 1 | .running => 2 | .waiting => 3

/-- EPC to EPROG of one level (R238). -/
structure ESet where
  epc : Word := 0
  enpc : Word := 0
  ecause : Word := 0
  eaddr : Word := 0
  estat : Word := 0
  eprog : Word := 0
  deriving DecidableEq, Repr

/-- An outstanding load of a bank (R256, R265, R276): its virtual and physical address, the register it writes (1 to 15 a global,
16 + c windowed register c), its size in bytes and whether it sign-extends. -/
structure PendLoad where
  va : Word
  pa : Nat
  rd : Nat
  size : Nat
  signed : Bool
  deriving DecidableEq, Repr

/-- An exception to take (R250, R272, R276): cause, EADDR, RESP, DETAIL and CODE of ECAUSE, the physical address of poisoned
data, and the IPA page that S2_FIPA receives (R291). -/
structure PendExc where
  cause : Nat
  eaddr : Word := 0
  resp : Nat := 0
  detail : Nat := 0
  code : Nat := 0
  pa : Nat := 0
  fipa : Option Nat := none
  deriving DecidableEq, Repr

/-- A table walk an access waits for (R290): the address, the kind of access (0 read, 1 write, 2 fetch), its level, and whether an
engine of the core made it. -/
structure WalkReq where
  va : Word
  acc : Nat
  pl : Nat
  engine : Bool
  deriving DecidableEq, Repr

/-- Why a WAITING bank waits (R248). -/
inductive WaitKind where
  | none
  | wfe
  | waitt (t : Word)
  deriving DecidableEq, Repr

/-- One register bank of a core (R261), or its machine-check context (R277). Windowed registers are numbered 12·k + i for
register i of rotating window k, and 84 + i for the trap window. `resident` counts the windows below the current one that are
in registers (R271); `hidden` is the hidden repeat counter (R246); `slot` marks that the instruction at pc is a delay slot
(R241); `lsm` is the mask an interrupted LDM or STM still has to transfer; `filled` lists the depths whose reserved frame
holds saved MAC state, `resv` a switch-out reservation and `resvFilled` whether it is filled (R278, R279); `walk` is the table
walk an access waits for, `walkErr` the
fault a walk ended in, for the access that waits, `dev` a request that its target has not
answered (address, since when), and `puts` the lines its range operations wrote back (R294, R313). -/
structure Bank where
  st : BState := .off
  pc : Word := 0
  npc : Word := 4
  g : Map Word := []
  w : Map Word := []
  cwp : Nat := 0
  depth : Nat := 0
  resident : Nat := 0
  trap : Bool := false
  wsp : Word := 0
  rc : Word := 0
  pl : Nat := 3
  eset : Map ESet := []
  tcmp : Map Word := []
  tctl : Word := 0
  timeLatch : Word := 0
  bwin : Word := 0
  flag : Bool := false
  epri : Nat := 0
  edepth : Nat := 0
  hidden : Nat := 0
  slot : Bool := false
  lsm : Option Nat := none
  ldxGran : Option Nat := none
  filled : List Nat := []
  resv : Bool := false
  resvFilled : Bool := false
  wait : WaitKind := .none
  pend : List PendLoad := []
  storesOut : Nat := 0
  exc : List PendExc := []
  walk : Option WalkReq := none
  walkErr : Option (Word × Nat × PendExc) := none
  dev : Option (Nat × Nat) := none
  puts : List Nat := []
  halt : Bool := false
  mon : Bool := false
  monAt : Nat := 0
  stepping : Bool := false
  stepHit : Bool := false
  deriving DecidableEq, Repr

/-- The shared MAC registers of a core (R243, R244). -/
structure Mac where
  acc : Map DWord := []
  k : Map Word := []
  mctl : Word := 0
  mstat : Word := 0
  deriving DecidableEq, Repr

/-- A unified TLB entry (R292): its page size (log2), VA page, PA page, IPA page, regime (0 G, 1 H, 2 M), stage-2 tag, VMID,
ASID, global, the permissions and DEV of both stages, the levels of both leaves (R291), and the attributes. `way` is its way in
the set. -/
structure Tlb where
  lg : Nat
  va : Nat
  pa : Nat
  ipa : Nat
  regime : Nat
  s2 : Bool
  vmid : Nat
  asid : Nat
  glob : Bool
  nf : Bool
  ro : Bool
  u : Bool
  xn2 : Bool
  wn2 : Bool
  rn2 : Bool
  dev : Bool
  dev2 : Bool
  lv1 : Nat
  lv2 : Nat
  stash : Bool
  cmph : Bool
  lock : Bool
  way : Nat
  deriving DecidableEq, Repr

/-- One set of an L1 cache (R299): the lines it holds, by way, and the round-robin pointer. -/
structure L1Set where
  ways : Map Nat := []
  ptr : Nat := 0
  deriving DecidableEq, Repr

/-- One entry of a stride detector (R312). -/
structure Stride where
  bank : Nat
  page : Nat
  last : Nat
  stride : Option Int
  conf : Nat
  furthest : Nat
  deriving DecidableEq, Repr

/-- What a core holds beside its banks: the MAC unit with its owner (bank, depth), the owner's level and OFRAME (R278, R279), the
machine-check context with the MAC owner it found (R277), STOPPED, the bank that ran last, the TLB and its pointers, the stride detector, and the predictor state that R31 names. -/
structure Core where
  mac : Mac := {}
  macOwner : Option (Nat × Nat) := none
  macPl : Nat := 3
  mcOwner : Option (Nat × Nat) := none
  mcPl : Nat := 3
  oframe : Word := 0
  mcActive : Bool := false
  mcBank : Nat := 0
  mcSet : ESet := {}
  stopped : Bool := false
  switching : Bool := false
  runStart : Nat := 0
  lastRun : Nat := 3
  tlb : List Tlb := []
  tlbPtr : Map Nat := []
  strides : Map (Option Stride) := []
  stridePtr : Nat := 0
  tagged : Bool := false
  clearing : Bool := false
  deriving DecidableEq, Repr

/-- The Ling state: cores by physical number (252 is Gorse's own core), banks keyed 8·core + bank, bank 4 being the
machine-check context, and L1 sets keyed 128·core + set. -/
structure LingSt where
  cores : Map Core := []
  banks : Map Bank := []
  l1d : Map L1Set := []
  l1i : Map L1Set := []
  deriving DecidableEq, Repr

end Sys2Proof.Machine
end

