-- ==== Sys2Proof/Machine/StateMeas.lean ====
section
/-! DEFINITION. Machine/StateMeas.lean: the plain data of the measurement front-end and the actuator block (chapters 8 and 9). -/

namespace Sys2Proof.Machine

/-- The filter of R167: integrators, combs and the output number j. -/
structure Sinc where
  integ : List Int := []
  comb : List Int := []
  j : Nat := 0
  deriving DecidableEq, Repr

/-- One channel output (R168, R170): y, SAT, SEQ, its timestamp, FIRST, and a number of its own. -/
structure ChOut where
  y : Nat
  sat : Bool
  seq : Nat
  ts : Nat
  first : Bool
  uid : Nat
  deriving DecidableEq, Repr

/-- A bitstream channel: its filter, the next SEQ, whether the next output is the first, and its last two outputs. -/
structure ChSt where
  filt : Sinc := {}
  seq : Nat := 0
  first : Bool := true
  uid : Nat := 0
  cur : Option ChOut := none
  prev : Option ChOut := none
  deriving DecidableEq, Repr

/-- An event input (R179 to R184): the raw level of the last two samples, the count of consecutive samples of the new level
with the time of the first, the time of the last filtered change, whether edges were counted, the edges of the current window,
the time of the last interrupt and the pending flag. `started` is false until the first sample after EN set. -/
structure EviSt where
  started : Bool := false
  raw : Bool := false
  rawRun : Nat := 0
  cnt : Nat := 0
  since : Nat := 0
  changed : Nat := 0
  ts : Option Nat := none
  winCnt : Nat := 0
  lastIrq : Option Nat := none
  pend : Bool := false
  deriving DecidableEq, Repr

/-- A sample flit on its way (R172, R190): set, Tussock, address, data, and for the last flit of a loop-triggered delivery
the identity, bank and priority of the wake. -/
structure SFlit where
  set : Nat
  tus : Nat
  addr : Nat
  data : List Byte
  mark : Option (Nat × Nat × Nat)
  deriving DecidableEq, Repr

/-- The measurement front-end: driven clocks waiting for their first edge (by group), channels, trip filters, event inputs,
the start of the current EVI_FREQ window, sample flits by set, and what each set entry delivered last (key 16·set + entry). -/
structure MeasSt where
  edge : Map (Option Nat) := []
  ch : Map ChSt := []
  trip : Map Sinc := []
  evi : Map EviSt := []
  winStart : Nat := 0
  flits : List SFlit := []
  sent : Map Nat := []
  deriving DecidableEq, Repr

/-- A loop (R188 to R193): the earliest next instant, the last instant, and the open period's sample instant. -/
structure LoopSt where
  first : Nat := 0
  last : Option Nat := none
  open_ : Option Nat := none
  deriving DecidableEq, Repr

/-- A PWM output: active values, pending values (period, duty), the start of the current period in 250 ps units of the
interval clock, and the level SAFE imposed (0 high impedance, 1 low, 2 high). -/
structure PwmSt where
  per : Nat := 4000
  duty : Nat := 0
  pend : Option (Nat × Nat) := none
  shadowNew : Bool := false
  start : Nat := 0
  safe : Option Nat := none
  deriving DecidableEq, Repr

/-- A held KIND 2 event or frame of the power-intent sender (R206). -/
structure PintSt where
  held : List DWord := []
  waiting : Bool := false
  lastK2 : Option Nat := none
  seq : Nat := 0
  nextPer : Nat := 0
  deriving DecidableEq, Repr

/-- The actuator block: loops, PWM outputs, when each brake auto-releases, brakes that the safe state asserts, the next SEQ of
each forecast ring, the forecast events in and before each group's buffer with the thread and operation that sent them, and the power-intent sender. -/
structure ActSt where
  loops : Map LoopSt := []
  pwm : Map PwmSt := []
  relAt : Map (Option Nat) := []
  force : List Nat := []
  ringSeq : Map Nat := []
  fcq : Map (List (DWord × Nat × Nat)) := []
  pint : PintSt := {}
  deriving DecidableEq, Repr

end Sys2Proof.Machine
end

