-- ==== Sys2Proof/Machine/StateMem.lean ====
section
/-! DEFINITION. Machine/StateMem.lean: the plain data of the stacked memory, the scratch arrays and the Gorse SRAM, the caching
agents, the home slices and their directories (chapters 4, 14 and 15). -/

namespace Sys2Proof.Machine

/-- States of a sub-block in a caching agent (R316), the transient ones among them. -/
inductive SubSt where
  | i | s | o | m | is | im | um
  deriving DecidableEq, Repr

/-- One sub-block of a caching agent: state, its 64 bytes (none while it holds no copy), DIRTY, poison, the end of its hold
(R326), what has arrived for its open request, whether that is conditional, whether a UM sub-block is owned (was O), whether it
was prefetched, its request's RCOUNT, and when the request is reissued (R330). -/
structure Sub where
  st : SubSt := .i
  data : List Byte := []
  dirty : Nat := 0
  poison : Bool := false
  hold : Option Nat := none
  gotData : Bool := false
  gotCmp : Bool := false
  cond : Bool := false
  own : Bool := false
  pref : Bool := false
  rcount : Nat := 0
  retryAt : Option Nat := none
  deriving DecidableEq, Repr

/-- A sector of an L2 (R303): its way, LOCKED, STASHOK, the CMPH attribute and the master class that obtained it (R321). -/
structure Sector where
  way : Nat
  locked : Bool := false
  stashOk : Bool := false
  cmph : Bool := false
  cls : Nat := 0
  deriving DecidableEq, Repr

/-- An eviction-buffer entry (R306, R324); `keep` marks the write-back of a CLEAN, whose agent stays a sharer (R313). -/
structure Evb where
  line : Nat
  data : List Byte
  dirty : Nat
  putO : Bool
  cmph : Bool
  poison : Bool
  cls : Nat := 0
  superseded : Bool := false
  keep : Bool := false
  deriving DecidableEq, Repr

/-- A store waiting in an L2 for ownership (R324): the core and bank it came from, the physical and virtual address, and the
bytes. -/
structure PendStore where
  core : Nat
  bank : Nat
  pa : Nat
  va : Word
  bytes : List Byte
  deriving DecidableEq, Repr

/-- Directory states (R317). -/
inductive DirSt where
  | s | o | m
  deriving DecidableEq, Repr

/-- A directory entry (R317). -/
structure DirEnt where
  st : DirSt
  owner : Nat := 0
  sharers : List Nat := []
  ovf : Bool := false
  way : Nat := 0
  deriving DecidableEq, Repr

/-- A request a home serves (R319). -/
inductive CohReq where
  | getS | getM | upg (x : Bool) | rdOnce | wrFull (d : List Byte) (poison : Bool) | wrPart (off : Nat) (d : List Byte)
  | atom (off : Nat) (op : Nat) (a b : Word)
  deriving DecidableEq, Repr

/-- A request with its source (an agent number below 32, or 200 + master for a cacheless one), line and RCOUNT. -/
structure HReq where
  req : CohReq
  who : Nat
  line : Nat
  rc : Nat := 0
  deriving DecidableEq, Repr

/-- An open transaction at a home (R320): the request, when it opened, the InvAcks and the FwdAck still expected, whether Done
is awaited and Cmp sent, the stash target, whether it is an eviction for `next`, and whether it has expired (R353). -/
structure HomeTxn where
  rq : HReq
  since : Nat
  acks : List Nat := []
  fwd : Option Nat := none
  needDone : Bool := false
  cmpSent : Bool := false
  fail : Bool := false
  stash : Option Nat := none
  evict : Bool := false
  next : Option HReq := none
  expired : Bool := false
  deriving DecidableEq, Repr

/-- Coherence messages (R319). Requests of cacheless agents are not among them: they reach the home as commands. -/
inductive CohMsg where
  | getS (rc : Nat) | getM (rc : Nat) | upg (x : Bool) (rc : Nat)
  | put (e : Evb)
  | fwdS (r : Nat) | fwdM (r : Nat) | fwdRd (r : Nat) | fwdFlush | fwdKill | inv | stash (d : List Byte) (poison : Bool)
  | data (d : List Byte) (dirty : Nat) (poison : Bool) | cmp (grantM : Bool) (fail : Bool) | retry (rc : Nat)
  | putAck | stale | invAck | fwdAck (d : List Byte) (dirty : Nat) (poison : Bool) | stashAck | stashNack | done
  deriving DecidableEq, Repr

/-- A coherence message on its way: agents are 0 to 28, home slice c is 100 + c. -/
structure Pkt where
  src : Nat
  dst : Nat
  line : Nat
  msg : CohMsg
  deriving DecidableEq, Repr

/-- Per channel state of a home slice and its controller (R79, R83, R84); `scrubAt` is when the scrubber last read. -/
structure Chan where
  initDone : Bool := false
  selfRef : Bool := false
  exiting : Bool := false
  refx2 : Bool := false
  lastReq : Nat := 0
  scrubAt : Nat := 0
  deriving DecidableEq, Repr

/-- The memories: `mem` holds every addressed byte (DRAM, scratch, context stores, Gorse SRAM and the flash copy areas) by
location (DRAM by the address A' of R70); an unlisted byte reads 0 (R84, R311, R360). `poison` and `fmt` are keyed by 64-byte
line of it. Sectors, sub-blocks and buffers are keyed by agent; directory entries, transactions and queues by the line of A';
`net` holds the coherence messages on their way in the order sent (R56), and `held` the forwards that wait for a hold (R326). -/
structure MemSt where
  mem : List Host.Cell := []
  poison : Map Bool := []
  fmt : Map Nat := []
  chans : Map Chan := []
  sectors : Map (Option Sector) := []
  subs : Map Sub := []
  evb : Map (List Evb) := []
  l2Ptr : Map Nat := []
  lockPtr : Map Nat := []
  stq : Map (List PendStore) := []
  conv : Map Nat := []
  dir : Map (Option DirEnt) := []
  dirPtr : Map Nat := []
  txn : Map (Option HomeTxn) := []
  queue : Map (List HReq) := []
  retryq : Map (List HReq) := []
  heldWay : Map (Option Nat) := []
  lastRetry : Map (Option Nat) := []
  net : List Pkt := []
  held : List Pkt := []
  deriving DecidableEq, Repr

end Sys2Proof.Machine
end

