-- ==== Sys2Proof/Machine/StateNet.lean ====
section
/-! DEFINITION. Machine/StateNet.lean: the plain data of the packet path, the Sedge engines, the tenant interfaces, the PCIe
complex and the telemetry coder (chapters 5, 6, 7 and 10). -/

namespace Sys2Proof.Machine

/-! ### Packet path (chapter 6) -/

/-- A frame in the packet path. `data` is the frame without FCS, as far as it has arrived; `tail` says that it has arrived
whole and `bad` that its FCS then proved wrong. `prec` is the parse record (R114), `key` the flow key (R115). `cls` is 8·port +
TC; `cells` the cells it holds (R121); `rx` marks a received frame; `disp` that it has been disposed of; `poison` a frame read
with poisoned data. `sentCut` marks a frame whose transmission may start before its tail, `owned` one charged to its TI. A frame that counts against no TI
has TI 2,048. -/
structure Frame where
  data : List Byte := []
  tail : Bool := true
  bad : Bool := false
  port : Nat := 0
  tc : Nat := 0
  arr : Nat := 0
  prec : List Word := []
  hash : Word := 0
  key : List Byte := []
  ti : Nat := 0
  recirc : Nat := 0
  cells : Nat := 0
  cls : Nat := 0
  rx : Bool := false
  disp : Bool := false
  poison : Bool := false
  sentCut : Bool := false
  owned : Bool := false
  deriving DecidableEq, Repr

/-- A packet waiting for a thread (R120): the frame, the bound context as 256·bank + number, selector and dispatch word. -/
structure DispEnt where
  frame : Nat
  ctx : Option Nat
  sel : Nat
  word : Word
  deriving DecidableEq, Repr

/-- Who waits for a table lookup (R117 to R119): a frame, or an operation of a thread (16·engine + thread, operation number). -/
inductive LookFor where
  | frame (f : Nat)
  | op (th op : Nat)
  deriving DecidableEq, Repr

/-- A lookup that missed the flow cache (R118). -/
structure Lookup where
  tbl : Nat
  key : List Word
  hash : Word
  who : LookFor
  deriving DecidableEq, Repr

/-- One set of a flow cache (R118): its lines by way, with the round-robin pointer. A line holds the bucket's 256 bytes. -/
structure FcSet where
  ways : Map (Nat × List Byte × Bool) := []
  ptr : Nat := 0
  deriving DecidableEq, Repr

/-- The two-word state of a shaper node: deficit, tokens (in millionths of a byte), when the tokens were last filled, and the
active SHAPE value (R124). -/
structure Shape where
  deficit : Nat := 0
  tokens : Int := 16384000000
  filled : Nat := 0
  active : Word := 1
  deriving DecidableEq, Repr

/-- A key slot (R127). -/
structure KeySlot where
  key : List Byte := []
  salt : Word := 0
  ti : Nat := 0
  shared : Bool := false
  valid : Bool := false
  deriving DecidableEq, Repr

/-- A port: its link, the lanes it runs on (bit set), and the pending restart (R109, R110). -/
structure EPort where
  up : Bool := false
  lanes : Nat := 0
  training : Bool := false
  deriving DecidableEq, Repr

/-- The packet path: ports, frames, egress class queues keyed 8·port + class, received pauses (end time) and sent pauses
(next repetition) by the same key, cells by class, the partly received frame of each port and the frame each port is
sending before its tail, dispatch queues by engine, lookups,
flow caches keyed 512·quadrant + set, shaper nodes by TI with the values waiting for the next 1,000 ns, the round-robin
position of the send fetcher and whether its visit has begun, transmit timestamps by port, and key slots. `sendq` holds frames fetched for engines. -/
structure EthSt where
  ports : Map EPort := []
  frames : Map Frame := []
  nextFrame : Nat := 0
  egress : Map (List Nat) := []
  pauseIn : Map (Option Nat) := []
  pauseOut : Map (Option Nat) := []
  cells : Map Nat := []
  part : Map (Option Nat) := []
  txCut : Map (Option Nat) := []
  dispq : Map (List DispEnt) := []
  looks : List Lookup := []
  fcache : Map FcSet := []
  shape : Map Shape := []
  shapeNew : List Nat := []
  drr : Nat := 0
  drrIn : Bool := false
  txts : Map (List (Nat × Word)) := []
  keys : Map KeySlot := []
  deriving DecidableEq, Repr

/-! ### Sedge engines (chapter 5) -/

/-- An operation B in flight (R92, R95): its number, code, modifier, destination specifiers, target for ordering (R96), the
TI + 1 of a DMA, and its outcome once known: CODE and result words. An operation that has to wait keeps its argument and IMM, and the
requests still to make, what they have read, when it began, and whether an outbound read has been sent. -/
structure Op where
  id : Nat
  code : Nat
  mod : Nat
  dst : Nat
  len : Nat
  target : Nat
  ti : Nat
  res : Option (Nat × List Word) := none
  arg : Word := 0
  imm : Word := 0
  waits : Bool := false
  todo : List (Nat × TReq) := []
  acc : List Byte := []
  since : Nat := 0
  sent : Bool := false
  deriving DecidableEq, Repr

/-- A completion a thread has reserved (R151): queue pair handle, receive or send, and the descriptor index. -/
structure Rsv where
  qp : Nat
  rq : Bool
  idx : Nat
  words : List Word
  deriving DecidableEq, Repr

/-- A hardware thread (R85, R101, R102). `st` is 0 FREE, 1 dispatched, 4 ENDING; whether a dispatched thread reads READY, WAIT
or HOLD follows from its next microword. `reach` is when it reached that microword (R98); `any` that an operation completed
since it last issued. `ctx` is 256·bank + number. -/
structure Thread where
  st : Nat := 0
  ctx : Option Nat := none
  v : Map Word := []
  z : Bool := false
  n : Bool := false
  c : Bool := false
  vf : Bool := false
  excAct : Bool := false
  excCause : Nat := 0
  excPc : Nat := 0
  excInfo : Word := 0
  pc : Nat := 0
  reach : Nat := 0
  pkt : Option Nat := none
  bstat : Word := 0
  ops : List Op := []
  nextOp : Nat := 0
  any : Bool := false
  berr : Option Word := none
  rsv : List Rsv := []
  selTi : Nat := 0
  deriving DecidableEq, Repr

/-- What an engine holds beside its registers: the thread that issues next, whether its identity is lost (R107), when HALTING or
RETURNING began, the command that waits for its epoch broadcast, and microcode breakpoint state. -/
structure Eng where
  rr : Nat := 0
  lost : Bool := false
  since : Nat := 0
  waitCmd : Option Nat := none
  renewals : Nat := 0
  retired : Bool := false
  mcb : Option Nat := none
  deriving DecidableEq, Repr

/-- The Sedge engines: records, threads keyed 16·engine + thread, control stores keyed 16384·engine + address with the parity
bits that differ from R89 keyed alike. Context stores are bytes of the memory map. -/
structure SedgeSt where
  engs : Map Eng := []
  threads : Map Thread := []
  cs : Map (BitVec 128) := []
  csPar : Map Nat := []
  deriving DecidableEq, Repr

/-! ### Tenant interfaces and the PCIe complex (chapter 7) -/

/-- A consumed descriptor whose completion is not written yet (R150, R151): receive or send, index, and its words once known. -/
structure CqEnt where
  rq : Bool
  idx : Nat
  words : Option (List Word)
  th : Option (Nat × Nat) := none
  deriving DecidableEq, Repr

/-- A queue pair (R146 to R154). Indices are modulo 2^16. `cqp` is the CQ producer, `pend` the reservations in the order the
descriptors were consumed, `cqBusy` a completion write in progress, `desc` the send descriptor read ahead of the fetcher, `busy` a descriptor read in progress. -/
structure Qp where
  err : Bool := false
  sqBase : Nat := 0
  rqBase : Nat := 0
  cqBase : Nat := 0
  sqLog : Nat := 6
  rqLog : Nat := 6
  cqLog : Nat := 6
  vec : Nat := 0xFFFF
  modCount : Nat := 0
  modTime : Nat := 0
  mode : Nat := 0
  sel : Nat := 0
  eng : Nat := 0
  sqTail : Nat := 0
  sqHead : Nat := 0
  rqTail : Nat := 0
  rqHead : Nat := 0
  cqHead : Nat := 0
  cqp : Nat := 0
  pend : List CqEnt := []
  cqBusy : Bool := false
  desc : Option (List Byte) := none
  busy : Bool := false
  armed : Bool := false
  armAt : Nat := 0
  nzAt : Nat := 0
  closing : Bool := false
  deriving DecidableEq, Repr

/-- A reset or destruction in progress (R160 to R162): squashing, when it began, when the DRAIN ends, whether the DRAIN turned
into SQUASH, whether it destroys the TI, and whether a completion is owed. -/
structure TiReset where
  squash : Bool
  since : Nat
  limit : Nat
  turned : Bool := false
  destroy : Bool := false
  owed : Bool := true
  deriving DecidableEq, Repr

/-- A tenant interface (R137 to R139): state code, link, PASID, PRI, quotas, vectors, permission masks, the cells its frames
hold, its enabled queue pairs, and a reset in progress. -/
structure Ti where
  st : Nat := 0
  link : Nat := 0
  pasid : Option Nat := none
  pri : Bool := false
  qpCount : Nat := 0
  ctxQuota : Nat := 0
  bufQuota : Nat := 0
  vecFirst : Nat := 0
  vecCount : Nat := 0
  telem : Nat := 0
  fcast : Nat := 0
  cells : Nat := 0
  qps : Map (Option Qp) := []
  rst : Option TiReset := none
  deriving DecidableEq, Repr

/-- An admin command in progress (R141): its bytes, the ADM_SQ head after its fetch, and how far it is: 0 waiting to run, 1 due
at a time, 2 draining contexts, 3 draining a queue pair, 4 a reset. `result` is its RESULT so far. -/
structure AdmCmd where
  data : List Byte
  head : Nat
  ph : Nat := 0
  due : Nat := 0
  arg : Nat := 0
  result : Nat := 0
  deriving DecidableEq, Repr

/-- The admin rings of a link (R140 to R143): fetched head, completion producer, and the commands in progress. -/
structure Adm where
  en : Bool := false
  sqHead : Nat := 0
  cqTail : Nat := 0
  prog : List AdmCmd := []
  fetching : Nat := 0
  deriving DecidableEq, Repr

/-- What a request to host memory is for. Operations are named (thread, operation number), queue pairs by handle. -/
inductive JobFor where
  | admCmd (head : Nat)
  | sqDesc (qp : Nat)
  | txFrame (qp idx : Nat) (desc : List Byte)
  | rqDesc (th op qp idx : Nat) (pkt : Frame)
  | rxWrite (th op qp idx status : Nat) (pkt : Frame)
  | dmarDesc (th op qp idx len : Nat)
  | cqWrite (qp : Nat) (rq : Bool) (idx : Nat) (th : Option (Nat × Nat))
  | telRec (tgt : Nat)
  | outbound (master : Nat)
  | push
  deriving DecidableEq, Repr

/-- A job of the PCIe complex: a read or write of host memory for a TI (or none), with the translations gathered so far (page
and address), the bytes written or read so far, and the tags still outstanding. `retry` is set after a PRI request. -/
structure Job where
  what : JobFor
  link : Nat
  ti : Option Nat
  addr : Nat
  len : Nat
  data : List Byte
  write : Bool
  xl : List (Nat × Nat) := []
  started : Bool := false
  open_ : Nat := 0
  retry : Bool := false
  poison : Bool := false
  failed : Bool := false
  deriving DecidableEq, Repr

/-- A PCIe tag (R64, R160): its link, the job (none when orphaned), the piece of the job it reads, or the page it translates. -/
structure Tag where
  link : Nat
  job : Option Nat
  off : Nat := 0
  len : Nat := 0
  page : Option Nat := none
  deriving DecidableEq, Repr

/-- A translation cached by R155: page address, size (log2), permissions and translated address. -/
structure Atc where
  link : Nat
  ti : Nat
  pasid : Nat
  page : Nat
  lg : Nat
  r : Bool
  w : Bool
  ta : Nat
  deriving DecidableEq, Repr

/-- An invalidation waiting for its completion (R156): link, number, and the jobs that still use a removed entry. -/
structure Inval where
  link : Nat
  itag : Nat
  jobs : List Nat
  deriving DecidableEq, Repr

/-- PCIe configuration of a function and state of its link (R27 to R29, R144, R155). -/
structure Pf where
  up : Bool := false
  bme : Bool := false
  msixEn : Bool := false
  pasidEn : Bool := false
  atsEn : Bool := false
  deriving DecidableEq, Repr

/-- The PCIe complex: functions, admin rings, TIs, jobs, tags, jobs waiting for a PRI response, the translation cache with its
pointer, invalidations, context ownership by global context, MSI-X words keyed 16384·link + 4·entry + word, pending vectors
keyed 4096·link + entry, the applied outbound base, orphaned tags by link,
and outbound reads that finished (master, host address, data, error code, poison). -/
structure PcieSt where
  fn : Map Pf := []
  adm : Map Adm := []
  tis : Map Ti := []
  jobs : Map (Option Job) := []
  nextJob : Nat := 0
  tags : Map (Option Tag) := []
  nextTag : Nat := 0
  pri : List Nat := []
  atc : Map (Option Atc) := []
  atcPtr : Nat := 0
  invs : List Inval := []
  ctxo : Map Word := []
  msix : Map Word := []
  msixPend : List Nat := []
  obBase : Nat := 0
  orphans : Map Nat := []
  obIn : List (Nat × Nat × List Byte × Option Nat × Bool) := []
  deriving DecidableEq, Repr

/-! ### Telemetry coder (chapter 10) -/

/-- A sample: value, time, SAT and FIRST. -/
structure Sample where
  x : Int
  t : Nat
  sat : Bool := false
  first : Bool := false
  deriving DecidableEq, Repr

/-- A stream (R211, R212): the samples of the open block, its configuration words, BSEQ, START and GAP for the open block, and
the pending GAP and START for the next, one more than the time of the last periodic sample, and when each queued sample
will have been coded. -/
structure Stream where
  smp : List Sample := []
  cfg : Word := 0
  src : Word := 0
  bseq : Nat := 0
  start : Bool := false
  gap : Bool := false
  gapNext : Bool := false
  startNext : Bool := false
  next : Nat := 0
  q : List Nat := []
  deriving DecidableEq, Repr

/-- A record (R213): header words 0 to 5 and the block proper. -/
structure TRec where
  hdr : List Word
  body : List Byte
  stream : Nat
  deriving DecidableEq, Repr

/-- An output target (R220 to R222): queued records, the records of the frame being filled with the time of the first, and the
index register. -/
structure TOut where
  q : List TRec := []
  frame : List TRec := []
  since : Nat := 0
  idx : Nat := 0
  deriving DecidableEq, Repr

/-- The telemetry coder: streams, targets, and when it will have coded every queued sample. -/
structure TelSt where
  str : Map Stream := []
  out : Map TOut := []
  busy : Nat := 0
  deriving DecidableEq, Repr

end Sys2Proof.Machine
end

