-- ==== Sys2Proof/Machine/State.lean ====
section
/-! DEFINITION. Machine/State.lean: the whole state of the block, its reset value, and the two reasons a step can stop. -/

namespace Sys2Proof.Machine

/-- A named fault of the model. No command of this block stops the machine: errors are responses the bus returns, and faults
of the device are states of it. The type is here for the host's interface; nothing raises its constructor (safe). -/
inductive Fault where
  /-- Raised by nothing (safe). -/
  | none
  deriving DecidableEq, Repr

/-- The reasons the model gives no meaning. -/
inductive Refusal where
  /-- Raised by an arm of `exec` that has no meaning yet (safe: nothing is claimed of that command). -/
  | notModelled (mnemonic : String)
  deriving DecidableEq, Repr

/-- Something the device has sent to the outside or along Sward, in the order sent (the model's own record, newest first):
Ethernet frames, PCIe requests and messages, MSI-X vectors, trace bytes by source identifier, and what homes answer to cacheless requesters. -/
inductive Out where
  | frame (port : Nat) (data : List Byte)
  | pcieWrite (link : Nat) (addr : Nat) (data : List Byte) (pasid : Option Nat) (poison : Bool)
  | pcieRead (link : Nat) (addr : Nat) (len : Nat) (pasid : Option Nat) (tag : Nat)
  | pcieMsg (link : Nat) (kind : Nat) (arg : Nat)
  | msix (link : Nat) (vec : Nat)
  | trace (src : Nat) (data : List Byte)
  | coh (dst : Nat) (line : Nat) (d : List Byte) (poison : Bool)
  | abort (link : Nat)
  | tap (data : Nat)
  | pfc (port : Nat) (cls : Nat) (quanta : Nat)
  deriving DecidableEq, Repr

/-- The whole machine. `pending` is the queue of commands. `now` is global time in ns (R224), `mono` a count of ns that no
step or set of global time changes (intervals). `freeCtr` numbers the free values taken so far, and `resp`, `out` record what
the last requester saw and what the device has sent; these three fields and `pending` are the model's own. `regs` holds every
described register that is not at its reset value, by physical address; `units` the record of each unit, by block base;
`latches` the owners and contents of the latched pairs and groups, by address of the register that latches. -/
structure State where
  pending : List Instr := []
  now : Nat := 0
  mono : Nat := 0
  freeCtr : Nat := 0
  resp : Resp := .none
  out : List Out := []
  regs : Map Word := []
  units : Map UnitRt := []
  latches : Map Latch := []
  tusUp : List Nat := [0]
  mode : ModeSt := {}
  sward : SwardSt := {}
  fault : FaultSt := {}
  peat : PeatSt := {}
  time : TimeSt := {}
  ling : LingSt := {}
  mem : MemSt := {}
  meas : MeasSt := {}
  act : ActSt := {}
  eth : EthSt := {}
  sedge : SedgeSt := {}
  pcie : PcieSt := {}
  tel : TelSt := {}
  gorse : GorseSt := {}
  dap : DapSt := {}
  trace : TraceSt := {}
  deriving DecidableEq, Repr

/-- The machine as PORST_N leaves it: every register at its Reset column (R7), global time 0 (R224), MODE BOOT with only
Tussock 0 of Q0 out of reset (R30), both slot banks at their reset content (R53), the access tables at the two entries of R59,
the health layout of R344, and the straps read as 0 (DESIGN CHOICE, log 2: COLD_RESET brings the sampled straps). -/
def State.reset : State := {}

end Sys2Proof.Machine
end

