-- ==== Sys2Proof/Machine/Ops.lean ====
section
/-! DEFINITION. Machine/Ops.lean: the named operations over the state that every command is written with: registers and
their fields, unit records, memory bytes, free values, output, and configuration events (R4, R16 to R19, R24, R25). -/

namespace Sys2Proof.Machine

/-! ### Registers -/

/-- The stored value of instance (i, j) of register `r` of unit `u` (R7 gives the value of one never written). -/
def State.rd (s : State) (u : UnitId) (r : Reg) (i : Nat := 0) (j : Nat := 0) : Word :=
  mapGet (BitVec.ofNat 32 r.reset) s.regs (regAddr u r i j)

/-- Store `v` there. -/
def State.wr (s : State) (u : UnitId) (r : Reg) (v : Word) (i : Nat := 0) (j : Nat := 0) : State :=
  { s with regs := mapSet (BitVec.ofNat 32 r.reset) s.regs (regAddr u r i j) v }

/-- Field `f` of a register. -/
def State.rf (s : State) (u : UnitId) (r : Reg) (f : Fld) (i : Nat := 0) (j : Nat := 0) : Nat := (s.rd u r i j).fld f

/-- A one-bit field as a Bool. -/
def State.rb (s : State) (u : UnitId) (r : Reg) (f : Fld) (i : Nat := 0) (j : Nat := 0) : Bool := s.rf u r f i j != 0

/-- Replace field `f` of a register. -/
def State.wf (s : State) (u : UnitId) (r : Reg) (f : Fld) (v : Nat) (i : Nat := 0) (j : Nat := 0) : State :=
  s.wr u r ((s.rd u r i j).setFld f v) i j

/-- Add to a counter register that saturates at 0xFFFF_FFFF. -/
def State.bump (s : State) (u : UnitId) (r : Reg) (n : Nat := 1) (i : Nat := 0) (j : Nat := 0) : State :=
  s.wr u r (BitVec.ofNat 32 (satAdd 32 (s.rd u r i j).toNat n)) i j

/-- Add to a 64-bit LO, HI counter pair that wraps modulo 2^64. -/
def State.bump64 (s : State) (u : UnitId) (lo hi : Reg) (n : Nat := 1) (i : Nat := 0) (j : Nat := 0) : State :=
  let v := (s.rd u lo i j).toNat + 2 ^ 32 * (s.rd u hi i j).toNat + n
  (s.wr u lo (lo32 v) i j).wr u hi (hi32 v) i j

/-! ### Units -/

/-- The record of unit `u`. -/
def State.unit (s : State) (u : UnitId) : UnitRt := mapGet {} s.units u.base
/-- Replace the record of unit `u`. -/
def State.setUnit (s : State) (u : UnitId) (r : UnitRt) : State := { s with units := mapSet {} s.units u.base r }

/-- A unit or an ancestor is held, or the unit lies in a Tussock that BOOT still holds (R17, R30, R343). -/
def State.inReset (s : State) (u : UnitId) : Bool :=
  u.upward.any (fun a => (s.unit a).hold || (s.unit a).dead || (match a with
    | .tussock t => !s.tusUp.contains t
    | _ => false))

/-- A unit or an ancestor has lost power or is being powered up (R24, R422). -/
def State.isOff (s : State) (u : UnitId) : Bool := u.upward.any (fun a => (s.unit a).pstate == .off || (s.unit a).pstate == .transition)

/-- Activity returns a unit to ON (R421); OFF needs a shallower TARGET. -/
def State.wakeUnit (s : State) (u : UnitId) : State :=
  let x := s.unit u
  match x.pstate with
  | .idle | .retain => s.setUnit u { x with pstate := .on, emulated := false }
  | _ => s

/-- The unit's own registers answer (R24). -/
def State.answers (s : State) (u : UnitId) : Bool := !s.inReset u && !s.isOff u && s.mode.mode != .dormant && !s.peat.underV

/-- The deepest of the TARGET values of the unit and its ancestors (R18). -/
def State.target (s : State) (u : UnitId) : Nat :=
  u.upward.foldl (fun m a => max m (s.rf a R.PWR_REQ F.PWR_REQ_TARGET)) 0

/-! ### Identities, epochs and health (R15, R344, R450) -/

/-- The PORST_N layout of R344: core 8 of each Tussock is the spare. -/
def healthReset (p : Nat) : Health := if p % 9 = 8 then .spare else .active
def State.health (s : State) (p : Nat) : Health := mapGet (healthReset p) s.fault.health p
def State.setHealth (s : State) (p : Nat) (h : Health) : State :=
  { s with fault := { s.fault with health := mapSet (healthReset p) s.fault.health p h } }
/-- The identity core `p` presents, 0xFFF for none. -/
def State.ident (s : State) (p : Nat) : Nat := mapGet p s.fault.ident p
def State.setIdent (s : State) (p : Nat) (i : Nat) : State :=
  { s with fault := { s.fault with ident := mapSet p s.fault.ident p i } }
/-- The core that presents identity `i`, if one does. -/
def State.coreOf (s : State) (i : Nat) : Option Nat :=
  if i < 252 then ((List.range 9).map (fun c => 9 * (i / 9) + c)).find? (fun p => s.ident p == i) else none

/-! ### Memory bytes -/

/-- What an unlisted byte reads as: zero (R84 zero-writes DRAM, R311 fills scratch, R360 clears the Gorse SRAM). -/
def memDefault : Byte := 0

/-- Memory is in its canonical form: addresses strictly rising and no entry that an unlisted byte would read as. -/
def Memory.wf (m : List Host.Cell) : Bool := mapWf (fun _ => memDefault) m

/-- Read one byte. -/
def State.byte (s : State) (a : Nat) : Byte := mapGet memDefault s.mem.mem a
/-- Write one byte. -/
def State.setByte (s : State) (a : Nat) (b : Byte) : State :=
  { s with mem := { s.mem with mem := mapSet memDefault s.mem.mem a b } }
/-- Read `n` bytes upward from `a`. -/
def State.bytes (s : State) (a n : Nat) : List Byte := (List.range n).map (fun i => s.byte (a + i))
/-- Write bytes upward from `a`. -/
def State.setBytes (s : State) (a : Nat) : List Byte → State
  | [] => s
  | b :: r => (s.setByte a b).setBytes (a + 1) r
/-- The little-endian number of `n` bytes at `a` (R3). -/
def State.leAt (s : State) (a n : Nat) : Nat := ofLe (s.bytes a n)
/-- Drop every byte of `[lo, hi)`: it reads as zero again. -/
def State.clearBytes (s : State) (lo hi : Nat) : State :=
  { s with mem := { s.mem with mem := mapDrop (fun a => lo ≤ a && a < hi) s.mem.mem } }

/-- The poison mark of the 64-byte line holding `a` (R66). -/
def State.poisoned (s : State) (a : Nat) : Bool := mapGet false s.mem.poison (a / 64)
def State.setPoison (s : State) (a : Nat) (b : Bool) : State :=
  { s with mem := { s.mem with poison := mapSet false s.mem.poison (a / 64) b } }

/-! ### The model's own fields -/

/-- Send something (the model's record of what leaves the block). -/
def State.send (s : State) (o : Out) : State := { s with out := o :: s.out }
/-- Record the response the requester sees. -/
def State.answer (s : State) (r : Resp) : State := { s with resp := r }
/-- Take the next free 32-bit value. -/
def State.free (s : State) : Word × State := (Config.freeWord s.freeCtr, { s with freeCtr := s.freeCtr + 1 })
/-- `n` of them. -/
def State.freeWords (s : State) (n : Nat) : List Word × State :=
  ((List.range n).map (fun i => Config.freeWord (s.freeCtr + i)), { s with freeCtr := s.freeCtr + n })
def State.freeB (s : State) : Bool × State := (Config.freeBool s.freeCtr, { s with freeCtr := s.freeCtr + 1 })
def State.freeN (s : State) : Nat × State := (Config.freeNat s.freeCtr, { s with freeCtr := s.freeCtr + 1 })

/-- The outcome of a command that goes on. -/
abbrev Out3 := Host.Outcome State Fault Refusal

/-! ### Configuration events (R19) -/

/-- LAST_WRITER of a request (R16). -/
def writerWord (m p e : Nat) (dbg : Bool) : Word :=
  BitVec.ofNat 32 (m % 4096 + 4096 * (p % 4) + 16384 * b2n dbg + 65536 * (e % 16))

/-- A configuration event in unit `u` by a writer: counted in CFG_EPOCH and recorded in LAST_WRITER of the unit and of
every ancestor (R18, R19). -/
def State.cfgEvent (s : State) (u : UnitId) (w : Word) : State :=
  u.upward.foldl (fun s a => s.setUnit a { s.unit a with cfg := ((s.unit a).cfg + 1) % 2 ^ 32, writer := w }) s

/-- The writer word of a request. -/
def Req.writer (r : Req) : Word := writerWord r.master.toNat r.priv.toNat r.epoch.toNat r.debug
/-- The writer word of the device's own machinery (R15, R19). -/
def machineWriter : Word := writerWord 0xFFE 3 0 false

/-! ### Reset of units (R17) -/

/-- The register addresses of `u`'s own block, PWR_REQ and FAULT_MASK among them. -/
def inBlock (u : UnitId) (a : Nat) : Bool := decide (u.base ≤ a ∧ a < u.base + u.size)

/-- The registers of unit `u` that a reset leaves: `keep` says which addresses. -/
def State.resetRegs (s : State) (u : UnitId) (keep : Nat → Bool) : State :=
  { s with regs := mapDrop (fun a => inBlock u a && !keep a) s.regs,
           latches := mapDrop (fun a => inBlock u a) s.latches }

end Sys2Proof.Machine
end

