-- ==== Sys2Proof/Machine/Sched.lean ====
section
/-! DEFINITION. Machine/Sched.lean: register banks and their scheduler, the events that reach a bank, and the event routers
(R261 to R270, R278). -/

namespace Sys2Proof.Machine

/-! ### Cores and banks -/

def State.core (s : State) (p : Nat) : Core := mapGet {} s.ling.cores p
def State.setCore (s : State) (p : Nat) (c : Core) : State :=
  { s with ling := { s.ling with cores := mapSet {} s.ling.cores p c } }
/-- A bank after reset: OFF (R267). The machine-check context runs at M on its one window (R277), and Gorse's core runs bank 0 from
the start of the ROM (R360, R361; the address is a DESIGN CHOICE). -/
def bankReset (p b : Nat) : Bank :=
  if b = 4 then { trap := true } else if p = 252 ∧ b = 0 then { st := .running } else {}
def State.bank (s : State) (p b : Nat) : Bank := mapGet (bankReset p b) s.ling.banks (8 * p + b)
def State.setBank (s : State) (p b : Nat) (x : Bank) : State :=
  { s with ling := { s.ling with banks := mapSet (bankReset p b) s.ling.banks (8 * p + b) x } }
/-- Advance performance counter `k` of a core (Gorse's has none). -/
def State.perf (s : State) (p k : Nat) (n : Nat := 1) : State :=
  if p < 252 then s.bump64 (.core p) R.PERF_LO R.PERF_HI n k else s

/-- The unit of a core; number 252 is Gorse's own core. -/
def coreUnit (p : Nat) : UnitId := if p = 252 then .gorse else .core p

/-- The windowed register that wr names: window i's w12 to w15 are window i + 1's w0 to w3 (R261). -/
def cellOf (cwp : Nat) (trap : Bool) (r : Nat) : Nat := if trap then 84 + r else (12 * cwp + r) % 84

/-- The storage a specifier names: globals 0 to 15, then the windowed registers. -/
def Bank.idx (x : Bank) (r : Nat) : Nat := if r < 16 then r else 16 + cellOf x.cwp x.trap (r - 16)

/-- What that storage holds; g0 reads 0 (R235). -/
def Bank.cell (x : Bank) (k : Nat) : Word := if k = 0 then 0 else if k < 16 then mapGet 0 x.g k else mapGet 0 x.w (k - 16)

/-- Write it; a write of g0 is discarded (R235). -/
def Bank.setCell (x : Bank) (k : Nat) (v : Word) : Bank :=
  if k = 0 then x else if k < 16 then { x with g := mapSet 0 x.g k v } else { x with w := mapSet 0 x.w (k - 16) v }

/-- The register a specifier names (R235). -/
def Bank.reg (x : Bank) (r : Nat) : Word := x.cell (x.idx r)

/-- Write it (R235). -/
def Bank.setReg (x : Bank) (r : Nat) (v : Word) : Bank := x.setCell (x.idx r) v

/-- sp is g13 (R235). -/
def Bank.spAdd (x : Bank) (d : Int) : Bank := x.setReg 13 (x.reg 13 + Word.ofInt d)

/-- Base priority of a bank (R263). -/
def State.bpri (s : State) (p b : Nat) : Nat := if p = 252 then 0 else s.rf (.core p) R.BANK_CFG F.BANK_CFG_BPRI b

/-! ### The scheduler (R264, R265, R278) -/

/-- The core takes part in scheduling: it is not stopped, held or in its machine-check context. -/
def State.schedulable (s : State) (p : Nat) : Bool :=
  !(s.core p).stopped && !(s.core p).switching && !(s.core p).mcActive && !s.inReset (coreUnit p)

def runnable (x : Bank) : Bool := x.st == .ready || x.st == .running

/-- The bank that runs, if one does. -/
def State.running (s : State) (p : Nat) : Option Nat := [0, 1, 2, 3].find? (fun b => (s.bank p b).st == .running)

/-- A switch away from bank `o` whose context owns the MAC state reserves a frame on its sp (R278). -/
def State.switchOut (s : State) (p o : Nat) : State :=
  let x := s.bank p o
  if (s.core p).macOwner = some (o, x.edepth) ∧ !x.resv ∧ x.st ≠ .off then
    let x' := { x.spAdd (-112) with resv := true, resvFilled := false }
    (s.setBank p o x').setCore p { s.core p with oframe := x'.reg 13 }
  else s

/-- Give the core to bank `b` (R264, R265). -/
def State.switchTo (s : State) (p b : Nat) : State :=
  let o := (s.core p).lastRun
  let s := match s.running p with
    | some r => s.setBank p r { s.bank p r with st := .ready }
    | none => s
  let s := if o = b then s else (s.switchOut p o).perf p 4
  let s := (coreUnit p).upward.foldl (fun s u => s.wakeUnit u) s
  let s := s.setBank p b { s.bank p b with st := .running }
  s.setCore p { s.core p with lastRun := b, runStart := s.mono }

/-- The bank R264 chooses: the highest EPRI; among equals the running bank, else the next in ascending number after the bank
that ran last. -/
def State.choose (s : State) (p : Nat) : Option Nat :=
  let cand := [0, 1, 2, 3].filter (fun b => runnable (s.bank p b))
  let m := cand.foldl (fun m b => max m (s.bank p b).epri) 0
  let top := cand.filter (fun b => (s.bank p b).epri == m)
  match s.running p with
  | some r => if top.contains r then some r else
      ([1, 2, 3, 4].map (fun d => ((s.core p).lastRun + d) % 4)).find? (fun b => top.contains b)
  | none => ([1, 2, 3, 4].map (fun d => ((s.core p).lastRun + d) % 4)).find? (fun b => top.contains b)

/-- The scheduler's decision at an instruction boundary (R264). -/
def State.resched (s : State) (p : Nat) : State :=
  if s.schedulable p then
    match s.choose p with
    | none => s
    | some b => if s.running p = some b then s else s.switchTo p b
  else s

/-! ### Events that reach a bank (R263) -/

/-- An event for bank `b` of core `p` at priority `prio`: it sets the flag, raises EPRI, and readies a bank in WFE; an OFF
bank discards it (R248, R263). -/
def State.bankEvent (s : State) (p b prio : Nat) : State :=
  let x := s.bank p b
  if x.st = .off then s
  else
    let x := { x with flag := true, epri := max x.epri prio }
    let x := if x.st = .waiting ∧ x.wait = .wfe then { x with st := .ready } else x
    (s.setBank p b x).resched p

/-- An event at the base priority of the bank that receives it (SEV, R263). -/
def State.sevBank (s : State) (p b : Nat) : State := s.bankEvent p b (s.bpri p b)

/-- An event addressed to a master identity reaches the core that presents it (R268, R347). -/
def State.idEvent (s : State) (id b prio : Nat) : State :=
  match s.coreOf id with
  | some p => s.bankEvent p b prio
  | none => s

/-! ### Event routers (R268 to R270) -/

/-- Identity 63q + i is in broadcast set `k` of quadrant `q` (R270). -/
def State.inBset (s : State) (q k i : Nat) : Bool :=
  if i < 32 then (s.rd (.er q) R.BSET_LO k).bit i else (s.rd (.er q) R.BSET_HI k).bit (i - 32)

/-- Deliver to bank `b` of every core of broadcast set `k` of quadrant `q`. `none`: at the bank's base priority. -/
def State.bsetEvent (s : State) (q k b : Nat) (prio : Option Nat) : State :=
  (List.range 63).foldl (fun s i =>
    if s.inBset q k i then
      match s.coreOf (63 * q + i) with
      | some p => s.bankEvent p b (prio.getD (s.bpri p b))
      | none => s
    else s) s

/-- PEND of source `n` (R268). -/
def State.erPend (s : State) (q n : Nat) : Bool := (s.rd (.er q) R.ER_PEND (n / 32)).bit (n % 32)

/-- Set or clear PEND of source `n`. -/
def State.setErPend (s : State) (q n : Nat) (v : Bool) : State :=
  s.wf (.er q) R.ER_PEND ⟨n % 32, n % 32⟩ (b2n v) (n / 32)

/-- A raise of source `n` of quadrant `q` (R268). A router held or without power discards its sources (R343). -/
def State.erRaise (s : State) (q n : Nat) : State :=
  let u := UnitId.er q
  let f (x : Fld) := s.rf u R.ER_ROUTE x n
  if !s.answers u || f F.ER_ROUTE_EN = 0 then s
  else if f F.ER_ROUTE_KIND = 0 then
    if s.erPend q n then s.bump u R.ER_MERGED
    else (s.setErPend q n true).idEvent (f F.ER_ROUTE_TARGET) (f F.ER_ROUTE_BANK) (f F.ER_ROUTE_PRIO)
  else s.bsetEvent q (f F.ER_ROUTE_TARGET % 16) (f F.ER_ROUTE_BANK) (some (f F.ER_ROUTE_PRIO))

/-- The source R269 claims for master `m` and bank `b`. -/
def State.claimable (s : State) (q m b : Nat) : Option Nat :=
  (List.range 1024).find? (fun n => s.erPend q n && s.rf (.er q) R.ER_ROUTE F.ER_ROUTE_KIND n == 0 &&
    s.rf (.er q) R.ER_ROUTE F.ER_ROUTE_TARGET n == m && s.rf (.er q) R.ER_ROUTE F.ER_ROUTE_BANK n == b)

/-- A read of ER_CLAIM_b by master `m` (R269). -/
def State.erClaim (s : State) (q m b : Nat) : Word × State :=
  match s.claimable q m b with
  | some n => (BitVec.ofNat 32 (2 ^ 31 + n), s.setErPend q n false)
  | none => (0, s)

/-- Raise the source an EVT register names: EN in bit 31, EVT_Q in [11:10], EVT_SRC in [9:0]. -/
def State.raiseEvt (s : State) (w : Word) : State :=
  if w.bit 31 then s.erRaise (natBits w.toNat 11 10) (natBits w.toNat 9 0) else s

end Sys2Proof.Machine
end

