-- ==== Sys2Proof/Machine/Notify.lean ====
section
/-! DEFINITION. Machine/Notify.lean: FAULT_SUM and its aggregation, fault notification, machine-check records, and the
aggregated header values (R18, R337 to R340, R450). -/

namespace Sys2Proof.Machine

/-- VERIFY_FAIL: implemented at the device and Gorse UMBs, kept until a boot verifies (R16). -/
def State.verifyFail (s : State) (u : UnitId) : Nat :=
  match u with
  | .gorse => 256 * b2n s.gorse.vfail
  | _ => 0

/-- FAULT_SUM of `u`: its own sticky bits ORed with the unmasked bits of every child (R18), `n` levels deep. -/
def State.fsumN (s : State) : Nat → UnitId → Nat
  | 0, u => (s.unit u).fsum ||| s.verifyFail u
  | n + 1, u => u.children.foldl (fun a c => a ||| (s.fsumN n c &&& (0x1FF ^^^ s.rf c R.FAULT_MASK F.FAULT_MASK_MASK)))
      ((s.unit u).fsum ||| s.verifyFail u)

/-- FAULT_SUM as read. VERIFY_FAIL is reserved outside the device and Gorse UMBs (R16). -/
def State.faultSum (s : State) (u : UnitId) : Nat := s.fsumN 3 u

/-- The event register of a UMB that notifies (R338). -/
def State.faultEvt (s : State) (u : UnitId) : Option Word :=
  match u with
  | .device => some (s.rd u R.FAULT_EVT_D)
  | .quad _ => some (s.rd u R.FAULT_EVT_Q)
  | _ => none

/-- Raise the source of UMB `u` for each FAULT_SUM bit that rose from `before` and is not masked (R338). -/
def State.notifyRise (s : State) (u : UnitId) (before : Nat) : State :=
  match s.faultEvt u with
  | none => s
  | some w =>
    let rose := (s.faultSum u) &&& (0x1FF ^^^ (before ||| s.rf u R.FAULT_MASK F.FAULT_MASK_MASK))
    (List.range 9).foldl (fun s b => if rose.testBit b then s.raiseEvt w else s) s

/-- Run a change of fault bits and notify every UMB above `u` whose sum rose (R338). -/
def State.withNotify (s : State) (u : UnitId) (f : State → State) : State :=
  let umbs := u.upward.filter (fun a => (s.faultEvt a).isSome)
  let before := umbs.map (fun a => (a, s.faultSum a))
  before.foldl (fun s e => s.notifyRise e.1 e.2) (f s)

/-- The bits of FAULT_SUM. -/
def fsCorr : Nat := 1
def fsUnitFatal : Nat := 2
def fsDevFatal : Nat := 4
def fsEpochStale : Nat := 8
def fsAccessViol : Nat := 16
def fsHeartbeat : Nat := 32
def fsWatchdog : Nat := 64
def fsQuarantine : Nat := 128

/-- Set sticky bits of a unit's own FAULT_SUM. -/
def State.setFault (s : State) (u : UnitId) (bits : Nat) : State :=
  s.withNotify u (fun s => s.setUnit u { s.unit u with fsum := (s.unit u).fsum ||| bits })

/-- The identity and epoch a unit presents (R15, R450). Engines lose theirs from failure to return (R107). -/
def State.masterId (s : State) (u : UnitId) : Nat :=
  if (s.unit u).dead then 0xFFF
  else match u with
  | .core p => if s.health p = .testing ∨ s.health p = .dead ∨ s.health p = .quarantine then 0xFFF else s.ident p
  | .engine e => if (mapGet {} s.sedge.engs e).lost then 0xFFF else 0x100 + e
  | .group g => 0x140 + g
  | .pcie => 0x180 | .eth => 0x182 | .mfe => 0x183 | .telCoder => 0x184 | .act => 0x185 | .mio => 0x186
  | .hedgerow => 0x187 | .gorse => 0x1C0 | .dap => 0x1C1
  | _ => 0xFFF

/-- A machine-check record (R338, R339): it enters the log of 32, or is counted in MCLOG_OVF. `id` overrides word 0's identity. -/
def State.record (s : State) (u : UnitId) (kind cause : Nat) (addr d1 d2 : Nat) (id : Option Nat := none) : State :=
  let w0 := u.cls * 2 ^ 24 + u.inst * 2 ^ 12 + id.getD (s.masterId u)
  let w1 := kind * 2 ^ 30 + cause * 2 ^ 16 + s.fault.mcSeq
  let r : List Word := [w0, w1, s.now, s.now / 2 ^ 32, addr, addr / 2 ^ 32 % 256, d1, d2].map (BitVec.ofNat 32 ·)
  let s := { s with fault := { s.fault with mcSeq := (s.fault.mcSeq + 1) % 2 ^ 16 } }
  if s.fault.mclog.length < 32 then { s with fault := { s.fault with mclog := s.fault.mclog ++ [r] } }
  else s.bump .device R.MCLOG_OVF

/-! ### Aggregated header values (R16, R18) -/

/-- STATE of a unit's own logic: OFF while IN_RESET reads 1 (R16). -/
def State.ownState (s : State) (u : UnitId) : PState := if s.inReset u then .off else (s.unit u).pstate

/-- STATE as read: the shallowest of the unit and its descendants (R18). -/
def State.aggState (s : State) : Nat → UnitId → PState
  | 0, u => s.ownState u
  | n + 1, u => u.children.foldl (fun a c =>
      let b := s.aggState n c
      if b.depth < a.depth then b else a) (s.ownState u)

/-- QUARANTINE of PWR_STATE: the unit or one below it is in quarantine (R16). -/
def State.quarantined (s : State) (u : UnitId) : Bool :=
  u.subtree.any (fun v => match v with
    | .core p => s.health p == .quarantine
    | _ => false)

/-- EMULATED of PWR_STATE (R16, R401). -/
def State.emulated (s : State) (u : UnitId) : Bool := u.subtree.any (fun v => (s.unit v).emulated)

/-- PWR_STATE as read. -/
def State.pwrState (s : State) (u : UnitId) : Word :=
  BitVec.ofNat 32 (16 * b2n (s.quarantined u) + 8 * b2n (s.emulated u) +
    (if s.inReset u then 3 else (s.aggState 3 u).code))

/-- ENERGY of the subtree in µJ (R18, R424). -/
def State.energyOf (s : State) (u : UnitId) : Nat := u.subtree.foldl (fun a v => a + (s.unit v).energy) 0

end Sys2Proof.Machine
end

