-- ==== Sys2Proof/Machine/Phys.lean ====
section
/-! DEFINITION. Machine/Phys.lean: the physical address map, the region table, access tables and violation logs, the DRAM line
store with its formats and poison, and the memories on the die (R15, R21, R58 to R63, R66, R70 to R82, R309, R350). -/

namespace Sys2Proof.Machine

/-! ### Masters (R15) -/

/-- Class code of WCLASS (R15): 0 LING, 1 SEDGE, 2 DMA, 3 HOST, 4 IO, 5 GORSE, 6 DEBUG. -/
def masterClass (m : Nat) : Nat :=
  if m < 0xFC then 0 else if 0x100 ≤ m ∧ m < 0x140 then 1 else if 0x140 ≤ m ∧ m < 0x150 then 2
  else if m = 0x180 ∨ m = 0x181 then 3 else if 0x182 ≤ m ∧ m ≤ 0x187 then 4 else if m = 0x1C0 then 5
  else if m = 0x1C1 then 6 else 7

/-- The epoch a unit presents (R16). -/
def State.epochOf (s : State) (u : UnitId) : Nat := (s.unit u).epoch % 16

/-- The request identity of a device unit: its master ID with its fixed privilege (R15). -/
def State.reqOf (s : State) (u : UnitId) : Req :=
  { master := BitVec.ofNat 12 (s.masterId u)
    priv := (match u with
      | .gorse | .dap => 3
      | _ => 1)
    epoch := BitVec.ofNat 4 (s.epochOf u) }

/-! ### Regions (R70 to R75) -/

def homeUnit0 : UnitId := .slice 0

/-- Entry `n` is active (R72). -/
def State.regActive (s : State) (n : Nat) : Bool :=
  let base := s.rf homeUnit0 R.REG_BASE F.REG_BASE_BASE n
  let size := s.rf homeUnit0 R.REG_SIZE F.REG_SIZE_SIZE n
  size != 0 && (s.rf homeUnit0 R.REG_ATTR F.REG_ATTR_QLOCAL n == 0 || (base % 4 == 0 && size % 4 == 0))

/-- The lowest-numbered active entry that covers the 64 KiB piece `p` (R72). -/
def State.regionOf (s : State) (p : Nat) : Option Nat :=
  (List.range 256).find? (fun n => s.regActive n && decide (s.rf homeUnit0 R.REG_BASE F.REG_BASE_BASE n ≤ p) &&
    decide (p < s.rf homeUnit0 R.REG_BASE F.REG_BASE_BASE n + s.rf homeUnit0 R.REG_SIZE F.REG_SIZE_SIZE n))

/-- An attribute of the piece that holds DRAM address `a`; 0 where no entry covers it (R72). -/
def State.regAttr (s : State) (a : Nat) (f : Fld) : Nat :=
  match s.regionOf (a / 65536) with
  | some n => s.rf homeUnit0 R.REG_ATTR f n
  | none => 0

/-- A' of R70: quadrant-local blocks exchange bits [12:11] and [17:16]; QLOCAL is that of the block's first piece (R71). -/
def State.dramKey (s : State) (a : Nat) : Nat :=
  if s.regAttr (a / 0x40000 * 0x40000) F.REG_ATTR_QLOCAL = 0 then a
  else a - natBits a 12 11 * 2 ^ 11 - natBits a 17 16 * 2 ^ 16 + natBits a 17 16 * 2 ^ 11 + natBits a 12 11 * 2 ^ 16

/-- The channel of A' (R70). -/
def keyChan (k : Nat) : Nat := natBits k 12 8
/-- The channel offset of A' (R70). -/
def keyOff (k : Nat) : Nat := k / 2 ^ 13 * 256 + k % 256
/-- A' of a channel location. -/
def chanKey (c off : Nat) : Nat := off / 256 * 2 ^ 13 + c * 256 + off % 256

/-! ### The memory map (R21) -/

/-- What a physical address reaches. -/
inductive Place where
  | dram | scratch (t off : Nat) | engine (e off : Nat) | reg | rom | sram (off : Nat) | peat | outbound | nowhere
  deriving DecidableEq, Repr

/-- Scratch of Tussock `t` is backed below this offset (R309). -/
def State.scratchSize (s : State) (t : Nat) : Nat := s.rf (.tussock t) R.L2_WAYS F.L2_WAYS_SCRATCH * 0x20000

def State.place (s : State) (a : Nat) : Place :=
  if a < 0xC00000000 then .dram
  else if a < 0xC0E000000 then
    let t := (a - 0xC00000000) / 0x800000
    let o := (a - 0xC00000000) % 0x800000
    if o < s.scratchSize t then .scratch t o else .nowhere
  else if 0xD00000000 ≤ a ∧ a < 0xD04000000 then
    let o := (a - 0xD00000000) % 0x100000
    if o < 0x60000 then .engine ((a - 0xD00000000) / 0x100000) o else .nowhere
  else if 0xE00000000 ≤ a ∧ a < 0xE10000000 then .reg
  else if 0xF00000000 ≤ a ∧ a < 0xF00020000 then .rom
  else if 0xF00100000 ≤ a ∧ a < 0xF00180000 then .sram (a - 0xF00100000)
  else if 0xF00800000 ≤ a ∧ a < 0xF00810000 then .peat
  else if 0x1000000000 ≤ a ∧ a < 0x10000000000 then .outbound
  else .nowhere

/-- The ATID that guards an address (R58). -/
def State.atidOf (s : State) (a : Nat) : Nat :=
  match s.place a with
  | .dram => s.regAttr a F.REG_ATTR_SET
  | .scratch t _ => 0x10 + t
  | .engine e _ => 0x30 + e / 4
  | .rom | .sram _ => 0x41
  | .outbound => 0x49
  | .peat => 0x40
  | .reg => match unitAt a with
    | some (u, _) => u.atid
    | none => 0
  | .nowhere => 0

/-- The unit whose FAULT_SUM a rejection sets, which is the target (R61). -/
def State.targetUnit (s : State) (a : Nat) : UnitId :=
  match s.place a with
  | .dram => .slice (keyChan (s.dramKey a))
  | .scratch t _ => .tussock t
  | .engine e _ => .group (e / 4)
  | .rom | .sram _ => .gorse
  | .outbound => .pcie
  | _ => match unitAt a with
    | some (u, _) => u
    | none => .device

/-! ### Access tables (R58 to R61) -/

/-- Kinds of access as R60 distinguishes them. -/
inductive AccOp where
  | read | write | fetch | own
  deriving DecidableEq, Repr

/-- OP of VIOL_POP. -/
def AccOp.code : AccOp → Nat
  | .read => 0 | .write => 1 | .fetch => 2 | .own => 3

/-- An entry after PORST_N or warm reset, laid out as ATAB_WRITE [8:0] (R59). -/
def atDefault (m : Nat) : Nat := if m = 0x1C0 then 0x1F0 else if m = 0x1C1 then 0x1B0 else 0

/-- The entry of master `m` in table `atid`. -/
def State.atEntry (s : State) (atid m : Nat) : Nat := mapGet (atDefault m) s.sward.atab (4096 * atid + m)
def State.setAtEntry (s : State) (atid m v : Nat) : State :=
  { s with sward := { s.sward with atab := mapSet (atDefault m) s.sward.atab (4096 * atid + m) (v % 512) } }

/-- The permission an operation needs (R60). -/
def atPerm (e : Nat) : AccOp → Bool
  | .read => e.testBit 8
  | .write => e.testBit 7
  | .own => e.testBit 8 && e.testBit 7
  | .fetch => e.testBit 6

/-- The checks of R60, in order: the code of the first that fails. -/
def State.atCheck (s : State) (atid : Nat) (r : Req) (op : AccOp) : Option Nat :=
  let e := s.atEntry atid r.master.toNat
  if natBits e 3 0 ≠ r.epoch.toNat then some 1
  else if r.priv.toNat < natBits e 5 4 then some 2
  else if atPerm e op then none else some 3

/-- The port of a unit's attachment (R42). -/
def unitPort : UnitId → Nat
  | .slice _ | .tussock _ | .core _ | .er _ | .quad _ | .sw _ => 4
  | _ => 5

/-- PMON_CTL value `w` counts flits of the mesh (R68): events 0 to 5 at a port that exists. -/
def countsFlits (w : Word) : Bool := w.bit 0 && decide (w.fld F.PMON_CTL_EVENT ≤ 5) && decide (w.fld F.PMON_CTL_PORT ≤ 5)

/-- What the count of monitor `m` reads (R68): for one that counts flits a free value. -/
def State.pmonShown (s : State) (q m : Nat) : BitVec 64 :=
  if countsFlits (s.rd (.sw q) R.PMON_CTL m) then Config.flitCount (8 * q + m) s.freeCtr s.now
  else (s.rd (.sw q) R.PMON_CNT_HI m) ++ (s.rd (.sw q) R.PMON_CNT_LO m)

/-- Add to every monitor that counts event `ev` at `port` of router `r` (R68). -/
def State.pmonCount (s : State) (r port ev n : Nat) : State :=
  let q := routerQuad r
  (List.range 8).foldl (fun s m =>
    let c (f : Fld) := s.rf (.sw q) R.PMON_CTL f m
    if c F.PMON_CTL_EN = 1 ∧ c F.PMON_CTL_EVENT = ev ∧ c F.PMON_CTL_ROUTER = routerLocal r ∧ c F.PMON_CTL_PORT = port then
      s.bump64 (.sw q) R.PMON_CNT_LO R.PMON_CNT_HI n m
    else s) s

/-- The unit that holds a core or engine identity while it is DEAD (R350). -/
def State.quarantineStale (s : State) (r : Req) (atid : Nat) (src : Option UnitId) : State :=
  match src with
  | some (.core p) =>
    if s.health p = .dead then
      (((s.setHealth p .quarantine).setFault (.core p) fsQuarantine).record (.core p) 2 0x08 0 r.epoch.toNat atid
        (some r.master.toNat))
    else s
  | _ => s

/-- A rejection (R61): FAULT_SUM of the target, the violation log or its overflow count, monitor event 8, and for a stale
epoch from a DEAD unit its quarantine (R350). -/
def State.reject (s : State) (u : UnitId) (atid : Nat) (r : Req) (op : AccOp) (a code : Nat) (src : Option UnitId := none) :
    State :=
  let q := routerQuad u.router
  let s := s.setFault u (if code = 1 then fsEpochStale else fsAccessViol)
  let log := mapGet [] s.sward.viol q
  let v : Viol := ⟨code, r.epoch.toNat, r.priv.toNat, op.code, atid, r.master.toNat, a⟩
  let s := if log.length < 16 then { s with sward := { s.sward with viol := mapSet [] s.sward.viol q (log ++ [v]) } }
    else s.bump (.sw q) R.VIOL_OVF
  let s := s.pmonCount u.router (unitPort u) 8 1
  if code = 1 then s.quarantineStale r atid src else s

/-- Check a request at its target and log a rejection: the error code, if it is rejected (R60, R61, R75). -/
def State.guardAcc (s : State) (a : Nat) (r : Req) (op : AccOp) (src : Option UnitId := none) : Option Nat × State :=
  let atid := s.atidOf a
  match s.atCheck atid r op with
  | some c => (some c, s.reject (s.targetUnit a) atid r op a c src)
  | none =>
    if s.place a = .dram ∧ (op = .write ∨ op = .own) ∧ s.regAttr a F.REG_ATTR_SW_ONLY = 1 ∧
        s.regAttr a F.REG_ATTR_WCLASS ≠ masterClass r.master.toNat then
      (some 3, s.reject (s.targetUnit a) atid r op a 3 src)
    else (none, s)

/-! ### DRAM lines (R76 to R82) -/

/-- Channel state. -/
def State.chan (s : State) (c : Nat) : Chan := mapGet {} s.mem.chans c
def State.setChan (s : State) (c : Nat) (x : Chan) : State :=
  { s with mem := { s.mem with chans := mapSet {} s.mem.chans c x } }

/-- The words of a line, `n` bytes each. -/
def lineWords (n : Nat) (d : List Byte) : List Nat :=
  (List.range (64 / n)).map (fun i => ofLe ((d.drop (n * i)).take n))

/-- Every word differs from the first by a delta that fits `k` bits, modulo 2^w. -/
def deltasFit (w k : Nat) (ws : List Nat) : Bool :=
  match ws with
  | [] => true
  | w0 :: r => r.all (fun x => let d := sext w (x + 2 ^ w - w0); decide (-(2 ^ (k - 1) : Int) ≤ d ∧ d < 2 ^ (k - 1)))

/-- The format a full line takes (R80). -/
def lineFmt (compress : Bool) (d : List Byte) : Nat :=
  let w4 := lineWords 4 d
  let w8 := lineWords 8 d
  if !compress then 0
  else if d.all (· == 0) then 1
  else if w4.all (fun x => x == w4.headD 0) then 2
  else if w8.all (fun x => x == w8.headD 0) then 3
  else if deltasFit 32 8 w4 then 4
  else if deltasFit 64 24 w8 then 5 else 0

/-- FORMAT of a stored line; every line is ZERO after initialisation (R84). -/
def State.lineFormat (s : State) (k : Nat) : Nat := mapGet 1 s.mem.fmt (k / 64)

/-- Count for the monitors of region `n` (R82). -/
def State.cmpCount (s : State) (n : Option Nat) (lo hi : Reg) : State :=
  match n with
  | none => s
  | some n => (List.range 8).foldl (fun s m =>
      if s.rf homeUnit0 R.CMP_SEL F.CMP_SEL_EN m = 1 ∧ s.rf homeUnit0 R.CMP_SEL F.CMP_SEL_REGION m = n then
        s.bump64 homeUnit0 lo hi 1 m else s) s

/-- Count and log an error (R77): ECC_LOG keeps the first while VALID is 0. -/
def State.eccLog (s : State) (c a : Nat) (e : Ecc) (scrub : Bool) : State :=
  let u := UnitId.slice c
  let log (s : State) : State :=
    if s.rb u R.ECC_LOG_1 F.ECC_LOG_1_VALID then s
    else (s.wr u R.ECC_LOG_0 (lo32 (a / 64 * 64))).wr u R.ECC_LOG_1
      (BitVec.ofNat 32 (a / 2 ^ 32 % 256 + 256 + 512 * b2n (e = .ue) + 1024 * b2n scrub))
  match e with
  | .clean => s
  | .corr => (log (s.bump u R.ECC_CORR_CNT)).setFault u fsCorr
  | .ue => log (s.bump u R.ECC_UE_CNT)

/-- Read the line that holds `a` at its home: its 64 bytes and whether they are poisoned (R77). -/
def State.lineRead (s : State) (a : Nat) (e : Ecc := .clean) : (List Byte × Bool) × State :=
  let k := s.dramKey (a / 64 * 64)
  let s1 := s.eccLog (keyChan k) a e false
  let s1 := if s.lineFormat k = 0 then s1 else s1.cmpCount (s.regionOf (a / 65536)) R.CMP_RD_LO R.CMP_RD_HI
  ((s.bytes k 64, s.poisoned k || e == .ue), s1)

/-- Store a line with its poison and format (R78, R80). -/
def State.lineStore (s : State) (a : Nat) (d : List Byte) (poison : Bool) (full : Bool) : State :=
  let k := s.dramKey (a / 64 * 64)
  let fmt := if poison then 0 else lineFmt (s.regAttr a F.REG_ATTR_COMPRESS = 1) d
  let s1 := (s.setBytes k d).setPoison k poison
  let s1 := { s1 with mem := { s1.mem with fmt := mapSet 1 s1.mem.fmt (k / 64) fmt } }
  let reg := s.regionOf (a / 65536)
  if full then
    let s1 := s1.cmpCount reg R.CMP_WR_LO R.CMP_WR_HI
    if fmt = 0 then s1 else s1.cmpCount reg R.CMP_PACK_LO R.CMP_PACK_HI
  else s1

/-- Replace bytes of a list from `off`. -/
def spliceBytes (d : List Byte) (off : Nat) (b : List Byte) : List Byte := d.take off ++ b ++ d.drop (off + b.length)

/-- Merge bytes into the line that holds `a` (R78): poison stays, and an uncorrectable line is stored poisoned. -/
def State.lineMerge (s : State) (a off : Nat) (b : List Byte) (poison : Bool) (e : Ecc := .clean) : State :=
  let ((d, p), s) := s.lineRead a e
  s.lineStore a (spliceBytes d off b) (p || poison) false

/-- Merge the 16-byte quarters that DIRTY marks (R323). -/
def dirtyMerge (old new : List Byte) (dirty : Nat) : List Byte :=
  (List.range 4).flatMap (fun q => ((if dirty.testBit q then new else old).drop (16 * q)).take 16)

end Sys2Proof.Machine
end

