-- ==== Sys2Proof/Machine/Cache.lean ====
section
/-! DEFINITION. Machine/Cache.lean: caching agents: the L2 of each Tussock and the cache of Gorse, the L1 tags, eviction
buffers, pending stores, and what an agent does with each message (R299 to R312, R315, R316, R324 to R326, R328, R331). -/

namespace Sys2Proof.Machine

/-! ### Accessors -/

def State.sub (s : State) (t l : Nat) : Sub := mapGet {} s.mem.subs (t * 2 ^ 34 + l)
def State.setSub (s : State) (t l : Nat) (x : Sub) : State :=
  { s with mem := { s.mem with subs := mapSet {} s.mem.subs (t * 2 ^ 34 + l) x } }
/-- The sector that holds line `l` in agent `t`. -/
def State.sector (s : State) (t l : Nat) : Option Sector := mapGet none s.mem.sectors (t * 2 ^ 32 + l / 4)
def State.setSector (s : State) (t l : Nat) (x : Option Sector) : State :=
  { s with mem := { s.mem with sectors := mapSet none s.mem.sectors (t * 2 ^ 32 + l / 4) x } }
def State.evbOf (s : State) (t : Nat) : List Evb := mapGet [] s.mem.evb t
def State.setEvb (s : State) (t : Nat) (x : List Evb) : State :=
  { s with mem := { s.mem with evb := mapSet [] s.mem.evb t x } }
/-- Send a coherence message. -/
def State.push (s : State) (src dst l : Nat) (m : CohMsg) : State :=
  { s with mem := { s.mem with net := s.mem.net ++ [⟨src, dst, l, m⟩] } }
/-- The home of a line. -/
def State.homeOf (s : State) (l : Nat) : Nat := 100 + keyChan (s.dramKey (64 * l))

/-- An L2 counter of R304 (agent 28, Gorse, has none). -/
def State.l2Count (s : State) (t k : Nat) (n : Nat := 1) : State :=
  if t < 28 then s.bump64 (.tussock t) R.L2_CNT_LO R.L2_CNT_HI n k else s

/-! ### L1 tags (R299 to R302) -/

/-- The cores of an agent. -/
def agentCores (t : Nat) : List Nat := if t < 28 then (List.range 9).map (fun c => 9 * t + c) else [252]

/-- Line `l` is in this L1. -/
def l1Has (m : Map L1Set) (p l : Nat) : Bool := (mapGet {} m (128 * p + l % 128)).ways.any (fun e => e.2 == l + 1)
/-- Fill: the way at the pointer is replaced and the pointer moves on (R299). -/
def l1Fill (m : Map L1Set) (p l : Nat) : Map L1Set :=
  let x := mapGet {} m (128 * p + l % 128)
  if l1Has m p l then m
  else mapSet {} m (128 * p + l % 128) { ways := mapSet 0 x.ways x.ptr (l + 1), ptr := (x.ptr + 1) % 4 }
/-- Invalidate a line. -/
def l1Inv (m : Map L1Set) (p l : Nat) : Map L1Set :=
  let x := mapGet {} m (128 * p + l % 128)
  mapSet {} m (128 * p + l % 128) { x with ways := x.ways.filter (fun e => e.2 != l + 1) }

/-- Invalidate line `l` in every L1 of the agent (R302). -/
def State.l1Drop (s : State) (t l : Nat) : State :=
  (agentCores t).foldl (fun s p =>
    { s with ling := { s.ling with l1d := l1Inv s.ling.l1d p l, l1i := l1Inv s.ling.l1i p l } }) s

/-! ### Reservations (R247) -/

/-- Clear every reservation of the agent's banks on line `l`, but for bank `keep` of core. -/
def State.clearResv (s : State) (t l : Nat) (keep : Option (Nat × Nat) := none) : State :=
  (agentCores t).foldl (fun s p => [0, 1, 2, 3].foldl (fun s b =>
    let x := s.bank p b
    if x.ldxGran = some l ∧ keep ≠ some (p, b) then s.setBank p b { x with ldxGran := none } else s) s) s

/-- A write to the granule by another master ends every reservation on it, wherever the bank that holds it (R247). -/
def State.clearGran (s : State) (l : Nat) : State :=
  (s.ling.banks.map (·.1)).foldl (fun (s : State) k =>
    let x := s.bank (k / 8) (k % 8)
    if x.ldxGran = some l then s.setBank (k / 8) (k % 8) { x with ldxGran := none } else s) s

/-! ### Sectors (R303, R305, R310) -/

/-- A sector's sub-blocks. -/
def sectorLines (l : Nat) : List Nat := [0, 1, 2, 3].map (fun i => l / 4 * 4 + i)

def transient (x : Sub) : Bool := x.st == .is || x.st == .im || x.st == .um

/-- Free a sector's tag once no sub-block is held and it is not LOCKED (R303). -/
def State.trimSector (s : State) (t l : Nat) : State :=
  match s.sector t l with
  | some x => if !x.locked && (sectorLines l).all (fun k => (s.sub t k).st == .i) then s.setSector t l none else s
  | none => s

/-- A sub-block goes to I: L1 copies and reservations go with it (R302, R247). -/
def State.toI (s : State) (t l : Nat) : State :=
  (((s.setSub t l {}).l1Drop t l).clearResv t l).trimSector t l

/-- L2 transactions outstanding (R64). -/
def State.l2Out (s : State) (t : Nat) : Nat :=
  (s.mem.subs.filter (fun e => e.1 / 2 ^ 34 == t && transient e.2)).length

/-- Number of scratch and of locked-line ways. -/
def State.scratchWays (s : State) (t : Nat) : Nat := if t < 28 then s.rf (.tussock t) R.L2_WAYS F.L2_WAYS_SCRATCH else 0
def State.lockWays (s : State) (t : Nat) : Nat := if t < 28 then s.rf (.tussock t) R.L2_WAYS F.L2_WAYS_LOCKW else 0

/-- The line of the sector in way `w` of the set of `l`, if one is there. -/
def State.wayLine (s : State) (t l w : Nat) : Option Nat :=
  (s.mem.sectors.find? (fun e => e.1 / 2 ^ 32 == t && e.1 % 512 == l / 4 % 512 && (match e.2 with
    | some x => x.way == w
    | none => false))).map (fun e => e.1 % 2 ^ 32 * 4)

/-- Send a put: the sub-block moves to the eviction buffer (R305, R306, R324). -/
def State.putBack (s : State) (t l : Nat) (keep : Bool := false) : State :=
  let x := s.sub t l
  let sec := (s.sector t l).getD { way := 0 }
  let e : Evb := ⟨l, x.data, x.dirty, x.st == .o, sec.cmph, x.poison, sec.cls, false, keep⟩
  (s.setEvb t (s.evbOf t ++ [e])).push t (s.homeOf l) l (.put e)

/-- Evict the sector that holds `l`: S sub-blocks drop, M and O ones are put back (R305). Forwards held for them are served
from the buffer (R326, R336). -/
def State.evictSector (s : State) (t l : Nat) : State :=
  let s := (sectorLines l).foldl (fun s k =>
    let x := s.sub t k
    let s := if x.st == .m || x.st == .o then (s.putBack t k).l2Count t 2 else s
    ((s.setSub t k {}).l1Drop t k).clearResv t k) s
  s.setSector t l none

/-- Dirty sub-blocks of a sector. -/
def State.sectorDirty (s : State) (t l : Nat) : Nat :=
  ((sectorLines l).filter (fun k => (s.sub t k).st == .m || (s.sub t k).st == .o)).length
def State.sectorBusy (s : State) (t l : Nat) : Bool := (sectorLines l).any (fun k => transient (s.sub t k))

/-- A way for a sector that misses: cache ways in round-robin order (R305); with LOCK, locked-line ways whose sector is not
LOCKED (R310). `none`: it must wait for the eviction buffer or for a transaction in the victim. -/
def State.allocWay (s : State) (t l : Nat) (lock : Bool) : Option Nat × State :=
  let sc := s.scratchWays t
  let lw := s.lockWays t
  let set := t * 512 + l / 4 % 512
  let isLocked (w : Nat) : Bool := match s.wayLine t l w with
    | some v => (match s.sector t v with
      | some x => x.locked
      | none => false)
    | none => false
  let lp := mapGet 0 s.mem.lockPtr set
  let lcand := ((List.range lw).map (fun i => sc + (lp + i) % lw)).find? (fun w => !isLocked w)
  let useLock := lock && lcand.isSome
  let nc := 16 - sc - lw
  let cp := mapGet 0 s.mem.l2Ptr set % nc
  let w := if useLock then lcand.getD 0 else sc + lw + cp
  let room := match s.wayLine t l w with
    | some v => decide (s.sectorDirty t v + (s.evbOf t).length ≤ 16) && !s.sectorBusy t v
    | none => true
  if room then
    let s := match s.wayLine t l w with
      | some v => s.evictSector t v
      | none => s
    let s := if useLock then { s with mem := { s.mem with lockPtr := mapSet 0 s.mem.lockPtr set ((w - sc + 1) % lw) } }
      else { s with mem := { s.mem with l2Ptr := mapSet 0 s.mem.l2Ptr set ((cp + 1) % nc) } }
    let s := if lock && !useLock then s.l2Count t 6 else s
    (some w, s)
  else (none, s.l2Count t 3)

/-- The attributes an access carries (R289) with the class of its master. -/
structure Attr where
  lock : Bool := false
  stash : Bool := false
  cmph : Bool := false
  cls : Nat := 0
  deriving DecidableEq, Repr

/-- Make sure line `l` has a sector, taking a way where it has none. False: it must wait. -/
def State.ensureSector (s : State) (t l : Nat) (a : Attr) : Bool × State :=
  match s.sector t l with
  | some x => (true, s.setSector t l (some { x with locked := x.locked || (a.lock && decide (x.way < s.scratchWays t + s.lockWays t)) }))
  | none => match s.allocWay t l a.lock with
    | (none, s) => (false, s)
    | (some w, s) => (true, s.setSector t l (some
        ⟨w, a.lock && decide (w < s.scratchWays t + s.lockWays t), a.stash, a.cmph, a.cls⟩))

/-! ### Accesses of the agent's own cores (R304, R316, R324) -/

/-- Read line `l` through the L2: its bytes and poison on a hit; otherwise a GetS is out or the access waits. -/
def State.l2Read (s : State) (t l : Nat) (a : Attr) : Option (List Byte × Bool) × State :=
  let x := s.sub t l
  match x.st with
  | .m | .o | .s =>
    let s := if x.pref then (s.setSub t l { x with pref := false }).l2Count t 5 else s
    (some (x.data, x.poison), s.l2Count t 0)
  | .is | .im | .um => (none, s)
  | .i =>
    if (s.evbOf t).any (fun e => e.line == l) || s.l2Out t ≥ 64 then (none, s)
    else match s.ensureSector t l a with
      | (false, s) => (none, s)
      | (true, s) => (none, ((s.setSub t l { st := .is }).push t (s.homeOf l) l (.getS 0)).l2Count t 1)

/-- Ownership of line `l` for a store or a store-conditional: true when the sub-block is in M (R324, R331). -/
def State.l2Own (s : State) (t l : Nat) (a : Attr) (x : Bool) : Bool × State :=
  let b := s.sub t l
  match b.st with
  | .m => (true, s.l2Count t 0)
  | .s | .o => if s.l2Out t ≥ 64 then (false, s) else
      (false, (s.setSub t l { b with st := .um, own := b.st == .o, cond := x }).push t (s.homeOf l) l (.upg x 0))
  | .is | .im | .um => (false, s)
  | .i =>
    if (s.evbOf t).any (fun e => e.line == l) || s.l2Out t ≥ 64 then (false, s)
    else match s.ensureSector t l a with
      | (false, s) => (false, s)
      | (true, s) => (false, ((s.setSub t l { st := .im }).push t (s.homeOf l) l (.getM 0)).l2Count t 1)

/-- The 16-byte quarters that `n` bytes from `off` touch. -/
def quarters (off n : Nat) : Nat :=
  (List.range 4).foldl (fun m q => if off < 16 * q + 16 ∧ 16 * q < off + n then m ||| 2 ^ q else m) 0

/-- Write bytes into a sub-block in M (R316); other banks' reservations on it end (R247). -/
def State.subStore (s : State) (t pa : Nat) (b : List Byte) (by_ : Option (Nat × Nat)) : State :=
  let l := pa / 64
  let x := s.sub t l
  let s := s.setSub t l { x with data := spliceBytes x.data (pa % 64) b, dirty := x.dirty ||| quarters (pa % 64) b.length }
  s.clearResv t l by_

/-- Stores of the agent waiting for ownership. -/
def State.stq (s : State) (t : Nat) : List PendStore := mapGet [] s.mem.stq t
def State.setStq (s : State) (t : Nat) (q : List PendStore) : State :=
  { s with mem := { s.mem with stq := mapSet [] s.mem.stq t q } }

/-- Perform the waiting stores to line `l`, in order (R324, R326). -/
def State.drainStores (s : State) (t l : Nat) : State :=
  let (mine, rest) := (s.stq t).partition (fun e => e.pa / 64 == l)
  mine.foldl (fun s e =>
    let s := s.subStore t e.pa e.bytes (some (e.core, e.bank))
    s.setBank e.core e.bank { s.bank e.core e.bank with storesOut := (s.bank e.core e.bank).storesOut - 1 }) (s.setStq t rest)

/-- Ask for what waits after an access could not start: ownership for the line of the oldest waiting store (R324). -/
def State.kickStores (s : State) (t : Nat) : State :=
  (s.stq t).foldl (fun s e => (s.l2Own t (e.pa / 64) {} false).2) s

/-! ### What an agent does with a message (R324 to R326, R328) -/

/-- The copy an agent can supply: a stable or owned sub-block, or its eviction-buffer entry. -/
def State.supply (s : State) (t l : Nat) : Option (List Byte × Nat × Bool) :=
  let x := s.sub t l
  if x.st = .m ∨ x.st = .o ∨ (x.st = .um ∧ x.own ∧ x.data ≠ []) then some (x.data, x.dirty, x.poison)
  else ((s.evbOf t).find? (fun e => e.line == l && !e.superseded)).map (fun e => (e.data, e.dirty, e.poison))

/-- The agent loses its copy: to I, but a UM stays in its transaction; a put in the buffer is superseded (R324). -/
def State.loseCopy (s : State) (t l : Nat) : State :=
  let x := s.sub t l
  let s := s.setEvb t ((s.evbOf t).map (fun e => if e.line = l then { e with superseded := true } else e))
  match x.st with
  | .um => ((s.setSub t l { x with data := [], dirty := 0, own := false }).l1Drop t l).clearResv t l
  | .is | .im => s
  | _ => s.toI t l

/-- Data for a requester: an agent receives it as a message; a cacheless one sees it at once. -/
def State.sendData (s : State) (src r l : Nat) (d : List Byte) (dirty : Nat) (p : Bool) : State :=
  if r < 32 then s.push src r l (.data d dirty p) else s.send (.coh r l d p)

/-- Serve a forward (R324, R325). -/
def State.serveFwd (s : State) (t l : Nat) (m : CohMsg) : State :=
  let h := s.homeOf l
  let (d, dirty, p) := (s.supply t l).getD ([], 0, false)
  let ack := CohMsg.fwdAck [] 0 false
  match m with
  | .fwdS r =>
    let x := s.sub t l
    let s := s.sendData t r l d 0 p
    (if x.st = .m then s.setSub t l { x with st := .o } else s).push t h l ack
  | .fwdM r => ((s.sendData t r l d dirty p).loseCopy t l).push t h l ack
  | .fwdRd r => (s.sendData t r l d 0 p).push t h l ack
  | .fwdFlush => (s.loseCopy t l).push t h l (.fwdAck d dirty p)
  | .fwdKill => (s.loseCopy t l).push t h l ack
  | _ => s

/-- A forward waits while the sub-block is held (R326). -/
def State.inHold (s : State) (t l : Nat) : Bool :=
  match (s.sub t l).hold with
  | some e => decide (s.mono < e) && ((s.sub t l).st == .m || (s.sub t l).st == .o)
  | none => false

/-- An Inv: S goes to I, a UM loses its copy and stays in its transaction; always InvAck (R324). -/
def State.serveInv (s : State) (t l : Nat) : State :=
  let x := s.sub t l
  let s := match x.st with
    | .s => s.toI t l
    | .um => ((s.setSub t l { x with data := [], dirty := 0, own := false }).l1Drop t l).clearResv t l
    | _ => s
  s.push t (s.homeOf l) l .invAck

/-- The target of a stash takes it or refuses it (R307, R324). -/
def State.serveStash (s : State) (t l : Nat) (d : List Byte) (p : Bool) : State :=
  let x := s.sub t l
  let inst (s : State) : State :=
    ((s.setSub t l { st := .m, data := d, dirty := 15, poison := p }).l1Drop t l).clearResv t l
  let refuse (s : State) : State :=
    ((if x.st = .s then s.toI t l else s).l2Count t 7).push t (s.homeOf l) l .stashNack
  if (s.evbOf t).any (fun e => e.line == l) then refuse s
  else match s.sector t l with
    | some sec =>
      if x.st = .m ∨ x.st = .o ∨ (sec.stashOk ∧ !transient x) then (inst s).push t (s.homeOf l) l .stashAck else refuse s
    | none =>
      let sc := s.scratchWays t + s.lockWays t
      let nc := 16 - sc
      let set := t * 512 + l / 4 % 512
      let cp := mapGet 0 s.mem.l2Ptr set % nc
      let way := ((List.range nc).map (fun i => sc + (cp + i) % nc)).find? (fun w => match s.wayLine t l w with
        | some v => s.sectorDirty t v == 0 && !s.sectorBusy t v
        | none => true)
      match way with
      | some w =>
        if t < 28 ∧ s.rb (.tussock t) R.L2_CTL F.L2_CTL_STASH_ANY then
          let s := match s.wayLine t l w with
            | some v => s.evictSector t v
            | none => s
          let s := { s with mem := { s.mem with l2Ptr := mapSet 0 s.mem.l2Ptr set ((w - sc + 1) % nc) } }
          (inst (s.setSector t l (some ⟨w, false, false, false, 0⟩))).push t (s.homeOf l) l .stashAck
        else refuse s
      | none => refuse s

/-- HOLD_CYCLES of an agent in ns (R326); two Sward cycles are 1 ns. -/
def State.holdNs (s : State) (t : Nat) : Nat :=
  if t < 28 then clampNat 16 256 (s.rf (.tussock t) R.COH_CTL F.COH_CTL_HOLD_CYCLES) / 2 else 16

/-- Data and Cmp are both in: the request of the agent completes (R324, R326). -/
def State.agentDone (s : State) (t l : Nat) (grantM fail : Bool) : State :=
  let x := s.sub t l
  let s :=
    if fail then
      if x.data = [] then s.toI t l
      else s.setSub t l { x with st := if x.own then .o else .s, gotCmp := false, gotData := false, cond := false }
    else if grantM then
      (s.setSub t l { st := .m, data := x.data, dirty := x.dirty, poison := x.poison, hold := some (s.mono + s.holdNs t) })
    else s.setSub t l { st := .s, data := x.data, poison := x.poison, pref := x.pref }
  let s := if fail then s.clearResv t l else s
  let s := s.push t (s.homeOf l) l .done
  let s := if (s.sub t l).st = .m then s.drainStores t l else s
  s.kickStores t

/-- Data arrives (R324); with Cmp already in, the request completes. -/
def State.agentData (s : State) (t l : Nat) (d : List Byte) (dirty : Nat) (p : Bool) : State :=
  let x := s.sub t l
  if transient x then
    let s := s.setSub t l { x with data := d, dirty := dirty, poison := p, gotData := true }
    if x.gotCmp then s.agentDone t l (x.st != .is) false else s
  else s

/-- Cmp arrives (R324): a UM that kept its copy needs no data, and a failed Upg none either. -/
def State.agentCmp (s : State) (t l : Nat) (grantM fail : Bool) : State :=
  let x := s.sub t l
  if transient x then
    if fail || x.data ≠ [] then s.agentDone t l grantM fail else s.setSub t l { x with gotCmp := true }
  else s

end Sys2Proof.Machine
end

