-- ==== Sys2Proof/Machine/Coh.lean ====
section
/-! DEFINITION. Machine/Coh.lean: home slices and their directories (R317 to R323, R327 to R330), and the coherent access of a
cacheless agent that completes within one command. -/

namespace Sys2Proof.Machine

/-! ### The directory (R317) -/

/-- The line of A' for a physical line. -/
def State.lineKey (s : State) (l : Nat) : Nat := s.dramKey (64 * l) / 64
/-- The slice of a line of A'. -/
def lkChan (k : Nat) : Nat := keyChan (64 * k)
/-- The directory set of a line of A' (R317). -/
def lkSet (k : Nat) : Nat := natBits (64 * k) 22 13 * 4 + natBits (64 * k) 7 6
/-- A key for slice and set. -/
def setKey (k : Nat) : Nat := lkChan k * 4096 + lkSet k

def State.dirEnt (s : State) (k : Nat) : Option DirEnt := mapGet none s.mem.dir k
def State.setDir (s : State) (k : Nat) (e : Option DirEnt) : State :=
  { s with mem := { s.mem with dir := mapSet none s.mem.dir k e } }
def State.txnOf (s : State) (k : Nat) : Option HomeTxn := mapGet none s.mem.txn k
def State.setTxn (s : State) (k : Nat) (t : Option HomeTxn) : State :=
  { s with mem := { s.mem with txn := mapSet none s.mem.txn k t } }
def State.dirCount (s : State) (k cnt : Nat) (n : Nat := 1) : State :=
  s.bump64 (.slice (lkChan k)) R.DIR_CNT_LO R.DIR_CNT_HI n cnt

/-- Entries in the set of `k`: their line and way. -/
def State.dirSetOf (s : State) (k : Nat) : List (Nat × Nat) :=
  s.mem.dir.filterMap (fun e => match e.2 with
    | some x => if setKey e.1 = setKey k then some (e.1, x.way) else none
    | none => none)

/-- The agents an invalidation of the entry reaches, leaving out `r` (R318). -/
def invTargets (e : DirEnt) (r : Nat) : List Nat :=
  if e.ovf then (List.range 29).filter (fun a => a != r && !((e.st == .o || e.st == .m) && a == e.owner))
  else e.sharers.filter (fun a => a != r && !((e.st == .o || e.st == .m) && a == e.owner))

/-- Add a sharer, setting OVF at the fifth (R318). -/
def addSharer (e : DirEnt) (r : Nat) : DirEnt :=
  if e.sharers.contains r then e else if e.sharers.length < 4 then { e with sharers := e.sharers ++ [r] } else { e with ovf := true }

/-- A caching agent is recorded (R322). -/
def recorded (e : DirEnt) (r : Nat) : Bool := e.ovf || e.sharers.contains r || ((e.st == .o || e.st == .m) && e.owner == r)

def State.sendAll (s : State) (h l : Nat) (m : CohMsg) (as : List Nat) : State := as.foldl (fun s a => s.push h a l m) s

/-- Send Inv to each agent of the list. -/
def State.sendInvs (s : State) (k h l : Nat) (e : DirEnt) (r : Nat) : List Nat × State :=
  let as := invTargets e r
  let s := (s.sendAll h l .inv as).dirCount k 2 as.length
  (as, if e.ovf then s.dirCount k 3 else s)

/-! ### Stash windows (R327) -/

/-- The target of the stash window that covers a line, for a master of class SEDGE, DMA, HOST or IO. -/
def State.stashHint (s : State) (l m : Nat) : Option Nat :=
  let c := masterClass m
  if 1 ≤ c ∧ c ≤ 4 then
    ((List.range 16).find? (fun n => s.rb homeUnit0 R.STASH_CFG F.STASH_CFG_EN n &&
      decide (s.rf homeUnit0 R.STASH_BASE F.STASH_BASE_BASE n ≤ l / 1024) &&
      decide (l / 1024 < s.rf homeUnit0 R.STASH_BASE F.STASH_BASE_BASE n + s.rf homeUnit0 R.STASH_CFG F.STASH_CFG_SIZE n))).map
      (fun n => s.rf homeUnit0 R.STASH_CFG F.STASH_CFG_TGT n)
  else none

/-- A target that is OFF, in reset or in quarantine, or does not exist, counts as refusing (R328). -/
def State.stashable (s : State) (t : Nat) : Bool := decide (t < 28) && s.answers (.tussock t)

/-! ### Memory operations at the home -/

/-- The result of an atomic on one word: 0 add, 1 swap, 2 compare-and-swap (R95, R243). -/
def atomResult (op : Nat) (old a b : Word) : Word := if op = 0 then old + a else if op = 1 then a else if old = b then a else old

/-- What a cacheless request does at memory once it may (R322). -/
def State.memPerform (s : State) (rq : HReq) (e : Ecc := .clean) : State :=
  let a := 64 * rq.line
  let s := if rq.req = .rdOnce then s else s.clearGran rq.line
  match rq.req with
  | .rdOnce => let ((d, p), s) := s.lineRead a e; s.send (.coh rq.who rq.line d p)
  | .wrFull d p => (s.lineStore a d p true).send (.coh rq.who rq.line [] false)
  | .wrPart off d => (s.lineMerge a off d false e).send (.coh rq.who rq.line [] false)
  | .atom off op x y =>
    let ((d, p), s) := s.lineRead a e
    let old : Word := BitVec.ofNat 32 (ofLe ((d.drop off).take 4))
    ((s.lineStore a (spliceBytes d off (leBytes 4 (atomResult op old x y).toNat)) p false).send
      (.coh rq.who rq.line (leBytes 4 old.toNat) p))
  | _ => s

/-! ### Serving a request (R320, R322, R329, R330) -/

/-- BACKOFF of a slice (R330). -/
def State.backoff (s : State) (c : Nat) : Nat := max 1 (s.rf (.slice c) R.DIR_CTL F.DIR_CTL_BACKOFF)

/-- The way a new entry takes: a free one, a victim, or none while every way is pinned. -/
inductive Room where
  | free (way : Nat) | victim (k way : Nat) | pinned
  deriving DecidableEq, Repr

def State.dirRoom (s : State) (k : Nat) : Room :=
  let es := s.dirSetOf k
  match (List.range 16).find? (fun w => !es.any (fun e => e.2 == w)) with
  | some w => .free w
  | none =>
    let p := mapGet 0 s.mem.dirPtr (setKey k)
    match ((List.range 16).map (fun i => (p + i) % 16)).findSome? (fun w =>
        es.find? (fun e => e.2 == w && (s.txnOf e.1).isNone)) with
    | some e => .victim e.1 e.2
    | none => .pinned

/-- Open a transaction for a request the directory state lets start, with the entry at `way` for a new one (R322). -/
def State.homeServe (s : State) (k way : Nat) (rq : HReq) (e : Ecc) : State :=
  let h := 100 + lkChan k
  let l := rq.line
  let r := rq.who
  let open_ (s : State) (t : HomeTxn) : State := s.setTxn k (some t)
  let t0 : HomeTxn := { rq := rq, since := s.mono }
  let fromMem (s : State) (gm : Bool) (now : Bool) : State :=
    let ((d, p), s) := s.lineRead (64 * l) e
    let s := s.push h r l (.data d 0 p)
    if now then s.push h r l (.cmp gm false) else s
  let s := s.dirCount k 0
  let getM (s : State) : State := match s.dirEnt k with
    | none => open_ ((fromMem s true true).setDir k (some ⟨.m, r, [], false, way⟩)) { t0 with needDone := true, cmpSent := true }
    | some x =>
      let (as, s) := s.sendInvs k h l x r
      let s' := s.setDir k (some { x with st := .m, owner := r, sharers := [], ovf := false })
      if x.st = .s then open_ (fromMem s' true as.isEmpty) { t0 with acks := as, needDone := true, cmpSent := as.isEmpty }
      else open_ ((s'.push h x.owner l (.fwdM r)).dirCount k 1) { t0 with acks := as, fwd := some x.owner, needDone := true }
  match rq.req with
  | .getS => match s.dirEnt k with
    | none => open_ ((fromMem s false true).setDir k (some ⟨.s, 0, [r], false, way⟩)) { t0 with needDone := true, cmpSent := true }
    | some x =>
      if x.st = .s then open_ ((fromMem s false true).setDir k (some (addSharer x r))) { t0 with needDone := true, cmpSent := true }
      else
        let x' := addSharer { x with st := .o } r
        open_ (((s.setDir k (some x')).push h x.owner l (.fwdS r)).dirCount k 1) { t0 with fwd := some x.owner, needDone := true }
  | .getM => getM s
  | .upg cond => match s.dirEnt k with
    | some x =>
      if recorded x r then
        let (as, s) := s.sendInvs k h l x r
        let kill := x.st ≠ .s ∧ x.owner ≠ r
        let s := if kill then (s.push h x.owner l .fwdKill).dirCount k 1 else s
        let s := s.setDir k (some { x with st := .m, owner := r, sharers := [], ovf := false })
        let now := as.isEmpty && !decide kill
        let s := if now then s.push h r l (.cmp true false) else s
        open_ s { t0 with acks := as, fwd := if kill then some x.owner else none, needDone := true, cmpSent := now }
      else if cond then open_ (s.push h r l (.cmp false true)) { t0 with needDone := true, cmpSent := true, fail := true }
      else getM s
    | none =>
      if cond then open_ (s.push h r l (.cmp false true)) { t0 with needDone := true, cmpSent := true, fail := true } else getM s
  | .rdOnce => match s.dirEnt k with
    | some x => if x.st = .s then s.memPerform rq e
        else open_ ((s.push h x.owner l (.fwdRd r)).dirCount k 1) { t0 with fwd := some x.owner }
    | none => s.memPerform rq e
  | .wrFull _ _ =>
    let hint := s.stashHint l (r - 200)
    let stash1 (s : State) (t : Nat) : State := match rq.req with
      | .wrFull d p => open_ (s.push h t l (.stash d p)) { t0 with stash := some t }
      | _ => s
    match s.dirEnt k with
    | none => match hint with
      | some t => if s.stashable t then stash1 s t else (s.memPerform rq e).dirCount k 7
      | none => s.memPerform rq e
    | some x =>
      let tgt := (hint.bind (fun t => if s.stashable t then some t else none)).getD 31
      let (as, s) := s.sendInvs k h l x tgt
      let kill := x.st ≠ .s ∧ x.owner ≠ tgt
      let s := if kill then (s.push h x.owner l .fwdKill).dirCount k 1 else s
      if as.isEmpty ∧ ¬ kill then
        if tgt < 28 then stash1 s tgt else (s.memPerform rq e).setDir k none
      else open_ s { t0 with acks := as, fwd := if kill then some x.owner else none, stash := none }
  | .wrPart _ _ | .atom _ _ _ _ => match s.dirEnt k with
    | none => s.memPerform rq e
    | some x =>
      let (as, s) := s.sendInvs k h l x 31
      let fl := x.st ≠ .s
      let s := if fl then (s.push h x.owner l .fwdFlush).dirCount k 1 else s
      if as.isEmpty ∧ ¬ fl then (s.memPerform rq e).setDir k none
      else open_ s { t0 with acks := as, fwd := if fl then some x.owner else none }

/-- Whether serving a request needs a new entry (R322). -/
def State.needsEntry (s : State) (k : Nat) (rq : HReq) : Bool :=
  (s.dirEnt k).isNone && (match rq.req with
    | .getS | .getM | .upg false => true
    | _ => false)

/-- Answer Retry (R330). -/
def State.sendRetry (s : State) (k : Nat) (rq : HReq) : State :=
  let s := { s with mem := { s.mem with lastRetry := mapSet none s.mem.lastRetry (setKey k) (some s.mono) } }
  (s.push (100 + lkChan k) rq.who rq.line (.retry (min 15 (rq.rc + 1)))).dirCount k 5

/-- A request arrives at its home (R320, R329, R330): it waits behind an open transaction; it may need a way of its set, taken
from a victim that is invalidated first; with every way pinned it gets Retry, or at RCOUNT 15 a place in the retry queue. -/
def State.homeReq (s : State) (rq : HReq) (e : Ecc := .clean) : State :=
  let k := s.lineKey rq.line
  let h := 100 + lkChan k
  if (s.txnOf k).isSome then
    { s with mem := { s.mem with queue := mapSet [] s.mem.queue k (mapGet [] s.mem.queue k ++ [rq]) } }
  else if s.needsEntry k rq then
    let isHeld : Bool := match mapGet none s.mem.heldWay (setKey k) with
      | some till => decide (s.mono < till)
      | none => false
    if isHeld = true ∧ rq.rc = 0 then s.sendRetry k rq
    else
      let s := { s with mem := { s.mem with heldWay := mapSet none s.mem.heldWay (setKey k) none } }
      match s.dirRoom k with
      | .free w => s.homeServe k w rq e
      | .victim v w =>
        let s := { s with mem := { s.mem with dirPtr := mapSet 0 s.mem.dirPtr (setKey k) ((w + 1) % 16) } }
        match s.dirEnt v with
        | some x =>
          let vl := s.lineKey v     -- the exchange of R70 is its own inverse
          let (as, s) := s.sendInvs v h vl x 31
          let fl := x.st ≠ .s
          let s := if fl then (s.push h x.owner vl .fwdFlush).dirCount v 1 else s
          let s := s.dirCount v 4
          s.setTxn v (some { rq := { rq with line := vl }, since := s.mono, acks := as,
                             fwd := if fl then some x.owner else none, evict := true, next := some rq })
        | none => s
      | .pinned =>
        let q := mapGet [] s.mem.retryq (lkChan k)
        if rq.rc = 15 ∧ q.length < 64 then
          { s with mem := { s.mem with retryq := mapSet [] s.mem.retryq (lkChan k) (q ++ [rq]) } }
        else s.sendRetry k rq
  else s.homeServe k 0 rq e

/-- The transaction at `k` closes: the entry is unpinned, the next request for the line is served, a waiting retried request
takes the way, or the way is held for one (R320, R330). -/
def State.homeClose (s : State) (k : Nat) : State :=
  let s := s.setTxn k none
  match mapGet [] s.mem.queue k with
  | rq :: rest => ({ s with mem := { s.mem with queue := mapSet [] s.mem.queue k rest } }).homeReq rq
  | [] =>
    let c := lkChan k
    match (mapGet [] s.mem.retryq c).find? (fun rq => setKey (s.lineKey rq.line) == setKey k) with
    | some rq =>
      ({ s with mem := { s.mem with retryq := mapSet [] s.mem.retryq c ((mapGet [] s.mem.retryq c).erase rq) } }).homeReq rq
    | none => match mapGet none s.mem.lastRetry (setKey k) with
      | some t0 =>
        let till := t0 + s.backoff c * 8
        if s.mono < till then { s with mem := { s.mem with heldWay := mapSet none s.mem.heldWay (setKey k) (some till) } } else s
      | none => s

/-- Every acknowledgement of a transaction is in (R320, R322, R328, R329, R353). -/
def State.homeAcked (s : State) (k : Nat) (t : HomeTxn) : State :=
  let h := 100 + lkChan k
  if t.expired then (s.setDir k none).homeClose k
  else if t.evict then
    let s := ((s.setDir k none).setTxn k none)
    match t.next with
    | some rq => s.homeReq rq
    | none => s
  else match t.rq.req with
    | .getS => (s.push h t.rq.who t.rq.line (.cmp false false)).setTxn k (some { t with cmpSent := true })
    | .getM | .upg _ => (s.push h t.rq.who t.rq.line (.cmp true false)).setTxn k (some { t with cmpSent := true })
    | .rdOnce => s.homeClose k
    | .wrFull d p =>
      match s.stashHint t.rq.line (t.rq.who - 200) with
      | some g => if s.stashable g ∧ t.stash.isNone then
            (s.push h g t.rq.line (.stash d p)).setTxn k (some { t with stash := some g })
          else ((s.memPerform t.rq).setDir k none).homeClose k
      | none => ((s.memPerform t.rq).setDir k none).homeClose k
    | _ => ((s.memPerform t.rq).setDir k none).homeClose k

/-- If nothing more is expected, go on. -/
def State.homeCheck (s : State) (k : Nat) : State :=
  match s.txnOf k with
  | some t => if t.acks.isEmpty ∧ t.fwd.isNone ∧ !t.cmpSent then s.homeAcked k t else s
  | none => s

/-- An InvAck: the code of a protocol error, or the state after it (R320). -/
def State.homeInvAck (s : State) (a l : Nat) : Option Nat × State :=
  let k := s.lineKey l
  match s.txnOf k with
  | some t => if t.acks.contains a then (none, (s.setTxn k (some { t with acks := t.acks.erase a })).homeCheck k) else (some 2, s)
  | none => (some 2, s)

/-- A FwdAck, with the flushed data it may carry (R320). -/
def State.homeFwdAck (s : State) (a l : Nat) (d : List Byte) (dirty : Nat) (p : Bool) : Option Nat × State :=
  let k := s.lineKey l
  match s.txnOf k with
  | some t =>
    if t.fwd = some a then
      let s := if d = [] ∨ t.expired then s else
        let ((old, op), s) := s.lineRead (64 * l)
        s.lineStore (64 * l) (dirtyMerge old d dirty) (op || p) false
      (none, (s.setTxn k (some { t with fwd := none })).homeCheck k)
    else (some 1, s)
  | none => (some 1, s)

/-- Done closes the transaction of a caching requester (R320). -/
def State.homeDone (s : State) (a l : Nat) : Option Nat × State :=
  let k := s.lineKey l
  match s.txnOf k with
  | some t => if t.needDone ∧ t.rq.who = a then (none, s.homeClose k) else (some 1, s)
  | none => (some 1, s)

/-- StashAck makes the target the owner; StashNack writes memory (R328). -/
def State.homeStashDone (s : State) (a l : Nat) (ok : Bool) : State :=
  let k := s.lineKey l
  match s.txnOf k with
  | some t =>
    if t.stash = some a then
      let way := ((s.dirEnt k).map (·.way)).getD (match s.dirRoom k with
        | .free w => w
        | .victim _ w => w
        | .pinned => 0)
      let s := if ok then (s.setDir k (some ⟨.m, a, [], false, way⟩)).send (.coh t.rq.who l [] false)
        else ((s.memPerform t.rq).setDir k none).dirCount k 7
      s.homeClose k
    else s
  | none => s

/-- A put (R321, R323): the owner's data is written and the entry becomes S or is freed; anyone else gets Stale. -/
def State.homePut (s : State) (a : Nat) (v : Evb) : State :=
  let k := s.lineKey v.line
  let h := 100 + lkChan k
  match s.dirEnt k with
  | some x =>
    if x.st ≠ .s ∧ x.owner = a ∧ !((s.txnOf k).any (fun t => t.fwd == some a)) then
      let drop := s.regAttr (64 * v.line) F.REG_ATTR_SW_ONLY = 1 ∧ s.regAttr (64 * v.line) F.REG_ATTR_WCLASS ≠ v.cls
      let s :=
        if drop then s.reject (.slice (lkChan k)) (s.atidOf (64 * v.line)) { master := BitVec.ofNat 12 a, priv := 0, epoch := 0 }
            .own (64 * v.line) 3
        else if v.cmph then s.lineStore (64 * v.line) v.data v.poison true
        else
          let ((old, op), s) := s.lineRead (64 * v.line)
          s.lineStore (64 * v.line) (dirtyMerge old v.data v.dirty) (op || v.poison) false
      let y : DirEnt := if v.keep then addSharer { x with st := .s, owner := 0 } a else { x with st := .s, owner := 0 }
      let s := s.setDir k (if y.sharers.isEmpty ∧ !y.ovf then none else some y)
      s.push h a v.line .putAck
    else (s.push h a v.line .stale).dirCount k 6
  | none => (s.push h a v.line .stale).dirCount k 6

/-- Expiry of a transaction open beyond TXN_TIMEOUT (R353): memory is poisoned, copies are called back, the requester is
answered, and the entry is freed once the acknowledgements are in. -/
def State.homeExpire (s : State) (k : Nat) : State :=
  match s.txnOf k with
  | none => s
  | some t =>
    let h := 100 + lkChan k
    let l := t.rq.line
    let ((d, _), s) := s.lineRead (64 * l)
    let s := s.lineStore (64 * l) d true false
    let owner := match s.dirEnt k with
      | some x => if x.st = .s then none else some x.owner
      | none => none
    let s := match owner with
      | some o => s.push h o l .fwdKill
      | none => s
    let as := (List.range 29).filter (fun a => some a != owner)
    let s := s.sendAll h l .inv as
    let s := if t.evict then s else if t.rq.who < 32 then
        (if t.cmpSent then s else (s.push h t.rq.who l (.data d 0 true)).push h t.rq.who l (.cmp (t.rq.req != .getS) false))
      else s.send (.coh t.rq.who l d true)
    let s := s.record (.slice (lkChan k)) 0 0x0D (64 * l) (lkChan k) (if t.rq.who < 32 then t.rq.who else 31)
    s.setTxn k (some { t with acks := as, fwd := owner, expired := true, cmpSent := false, needDone := false, evict := false })

/-! ### Accesses of cacheless agents within one command -/

/-- Where the newest bytes of line `l` are: an owner's copy, its eviction buffer, data on its way to a new owner, or memory. -/
def State.cohRead (s : State) (l : Nat) (e : Ecc := .clean) : (List Byte × Bool) × State :=
  match (List.range 29).findSome? (fun t => (s.supply t l).map (fun x => (x.1, x.2.2))) with
  | some x => (x, s)
  | none =>
    match (List.range 29).findSome? (fun t =>
        let b := s.sub t l
        if (b.st == .im || b.st == .um) && b.data != [] then some (b.data, b.poison) else none) with
    | some x => (x, s)
    | none => match s.mem.net.findSome? (fun (p : Pkt) => match p.msg with
        | .data d dirty po => if p.line == l && dirty != 0 then some (d, po) else none
        | .fwdAck d _ po => if p.line == l && d != [] then some (d, po) else none
        | .stash d po => if p.line == l then some (d, po) else none
        | _ => none) with
      | some x => (x, s)
      | none => s.lineRead (64 * l) e

/-- Replace bytes of a line in every copy of it and in memory: a write that the home orders before an open transaction. -/
def State.patchLine (s : State) (l off : Nat) (b : List Byte) : State :=
  let fix (d : List Byte) : List Byte := if d = [] then d else spliceBytes d off b
  let s := (List.range 29).foldl (fun s t =>
    let x := s.sub t l
    let s := if x.data = [] then s else s.setSub t l { x with data := fix x.data }
    let s := s.setEvb t ((s.evbOf t).map (fun e => if e.line = l then { e with data := fix e.data } else e))
    s.clearResv t l) s
  let fixMsg : CohMsg → CohMsg := fun m => match m with
    | .data d dirty po => .data (fix d) dirty po
    | .fwdAck d dirty po => .fwdAck (fix d) dirty po
    | .stash d po => .stash (fix d) po
    | .put e => .put { e with data := fix e.data }
    | m => m
  let net := s.mem.net.map (fun (q : Pkt) => if q.line = l then { q with msg := fixMsg q.msg } else q)
  let s := { s with mem := { s.mem with net := net } }
  s.lineMerge (64 * l) off b false

/-- Take every copy of a line back to memory and free its entry. `keep`: write the owner's data first (R322). -/
def State.recall (s : State) (l : Nat) (keep : Bool) : State :=
  let k := s.lineKey l
  let s := if keep then match (List.range 29).findSome? (fun t => s.supply t l) with
      | some (d, dirty, p) =>
        let ((old, op), s) := s.lineRead (64 * l)
        s.lineStore (64 * l) (dirtyMerge old d dirty) (op || p) false
      | none => s
    else s
  ((List.range 29).foldl (fun s t => s.loseCopy t l) s).setDir k none

/-- A write of a cacheless agent to one line, completed at once (R320, R322, R327, R328). -/
def State.cohWrite (s : State) (m : Nat) (l off : Nat) (b : List Byte) (poison : Bool) : State :=
  let s := s.clearGran l
  let k := s.lineKey l
  if (s.txnOf k).isSome then
    let s := s.patchLine l off b
    if poison then s.setPoison (64 * k) true else s
  else if b.length = 64 then
    let s := s.recall l false
    match s.stashHint l m with
    | some t =>
      if s.stashable t then
        let n := s.mem.net.length
        let s := s.serveStash t l b poison
        let ok := s.mem.net.drop n |>.any (fun p => p.msg == .stashAck)
        let s := { s with mem := { s.mem with net := s.mem.net.take n } }
        if ok then s.setDir k (some ⟨.m, t, [], false, match s.dirRoom k with
          | .free w => w
          | .victim _ w => w
          | .pinned => 0⟩)
        else (s.lineStore (64 * l) b poison true).dirCount k 7
      else (s.lineStore (64 * l) b poison true).dirCount k 7
    | none => s.lineStore (64 * l) b poison true
  else (s.recall l true).lineMerge (64 * l) off b poison

/-- An atomic of a cacheless agent on the word at `a`: the old value and its poison (R247, R322). -/
def State.cohAtomic (s : State) (a op : Nat) (x y : Word) : (Word × Bool) × State :=
  let l := a / 64
  let ((d, p), s) := (s.clearGran l).cohRead l
  let old : Word := BitVec.ofNat 32 (ofLe ((d.drop (a % 64)).take 4))
  let nw := leBytes 4 (atomResult op old x y).toNat
  let s := if (s.txnOf (s.lineKey l)).isSome then s.patchLine l (a % 64) nw
    else (s.recall l true).lineMerge (64 * l) (a % 64) nw false
  ((old, p), s)

end Sys2Proof.Machine
end

