-- ==== Sys2Proof/Machine/Mem.lean ====
section
/-! DEFINITION. Machine/Mem.lean: memory accesses of device units and engines, checked at the target and completed within the
command that makes them (R21, R60, R63, R66, R84, R309). -/

namespace Sys2Proof.Machine

/-- A finished read: an error code, or bytes with their poison. -/
structure RdRes where
  err : Option Nat := none
  data : List Byte := []
  poison : Bool := false
  deriving DecidableEq, Repr

/-- A request reaches channel `c`: it is noted, and it wakes the channel from self-refresh (R83). -/
def State.touchChan (s : State) (c : Nat) : State :=
  let s := s.wakeUnit (.slice c)
  let x := s.chan c
  s.setChan c { x with lastReq := s.mono, exiting := x.exiting || x.selfRef }

/-- Why memory at `a` cannot answer at all: no backing, a target that is down, or a channel or way that is not ready, where the
request would wait until its transaction times out (R21, R24, R65, R84, R311, R352). -/
def State.memDown (s : State) (a : Nat) : Option Nat :=
  let stall (x : SramArr) : Bool := s.fault.sramStall.any (fun e => e.1 == x)
  match s.place a with
  | .dram =>
    let c := keyChan (s.dramKey a)
    if !s.answers (.slice c) then some 5 else if (s.chan c).initDone && !stall (.dir c) then none else some 7
  | .scratch t o =>
    if !s.answers (.tussock t) then some 5
    else
      let old := mapGet 0 s.mem.conv t
      if stall (.l2 t) ∨ (old ≠ 0 ∧ (old - 1) % 16 * 0x20000 ≤ o) then some 7 else none
  | .sram _ | .rom => if s.isOff .gorse then some 5 else if stall .gorse then some 7 else none
  | _ => some 4

/-- Read `n` bytes, line by line, where memory answers; unchecked (the access check was made). -/
def State.memBytes (s : State) : Nat → Nat → Nat → (List Byte × Bool) × State
  | 0, _, _ => (([], false), s)
  | f + 1, a, n =>
    if n = 0 then (([], false), s)
    else
      let k := min n (64 - a % 64)
      let (r, s) := if a < 0xC00000000 then
          let s := s.touchChan (keyChan (s.dramKey a))
          let ((d, p), s) := s.cohRead (a / 64)
          (((d.drop (a % 64)).take k, p), s)
        else ((s.bytes a k, s.poisoned a), s)
      let ((d, p), s) := s.memBytes f (a + k) (n - k)
      ((r.1 ++ d, r.2 || p), s)

/-- Write bytes, line by line, as master `m`. Poison follows the data; a full clean line clears it (R66). -/
def State.memStore (s : State) (m : Nat) : Nat → Nat → List Byte → Bool → State
  | 0, _, _, _ => s
  | f + 1, a, b, p =>
    if b = [] then s
    else
      let k := min b.length (64 - a % 64)
      let s := if a < 0xC00000000 then
          (s.touchChan (keyChan (s.dramKey a))).cohWrite m (a / 64) (a % 64) (b.take k) p
        else
          let s := s.setBytes a (b.take k)
          let s := if p then s.setPoison a true else if k = 64 then s.setPoison a false else s
          if 0xC00000000 ≤ a ∧ a < 0xC0E000000 then s.clearGran (a / 64) else s
      s.memStore m f (a + k) (b.drop k) p

/-- A checked read of `n` bytes by a device master (R60). -/
def State.devRead (s : State) (r : Req) (a n : Nat) (src : Option UnitId := none) : RdRes × State :=
  if s.place a = .nowhere then ({ err := some 0 }, s)
  else match s.guardAcc a r .read src with
    | (some c, s) => ({ err := some c }, s)
    | (none, s) => match s.memDown a with
      | some c => ({ err := some c }, s)
      | none =>
        let ((d, p), s) := s.memBytes (n / 64 + 2) a n
        ({ data := d, poison := p }, s)

/-- A checked write by a device master: the error code, if it is refused (R60). -/
def State.devWrite (s : State) (r : Req) (a : Nat) (b : List Byte) (poison : Bool := false) (src : Option UnitId := none) :
    Option Nat × State :=
  if s.place a = .nowhere then (some 0, s)
  else match s.guardAcc a r .write src with
    | (some c, s) => (some c, s)
    | (none, s) => match s.memDown a with
      | some c => (some c, s)
      | none => (none, s.memStore r.master.toNat (b.length / 64 + 2) a b poison)

/-- A checked atomic on a word by a device master (R60, R95). -/
def State.devAtomic (s : State) (r : Req) (a op : Nat) (x y : Word) (src : Option UnitId := none) : RdRes × State :=
  if s.place a = .nowhere then ({ err := some 0 }, s)
  else match s.guardAcc a r .own src with
    | (some c, s) => ({ err := some c }, s)
    | (none, s) => match s.memDown a with
      | some c => ({ err := some c }, s)
      | none =>
        if a < 0xC00000000 then
          let ((old, p), s) := s.cohAtomic a op x y
          ({ data := leBytes 4 old.toNat, poison := p }, s)
        else
          let old : Word := BitVec.ofNat 32 (s.leAt a 4)
          ({ data := leBytes 4 old.toNat, poison := s.poisoned a },
            s.memStore r.master.toNat 2 a (leBytes 4 (atomResult op old x y).toNat) false)

/-- The scratch address of Tussock `t` at an offset in 64-byte units (R171). -/
def scratchAddr (t off : Nat) : Nat := 0xC00000000 + t * 0x800000 + 64 * off

end Sys2Proof.Machine
end

