-- ==== Sys2Proof/Machine/Peat.lean ====
section
/-! DEFINITION. Machine/Peat.lean: the wake logic of Peat and the brake outputs and PWM outputs that survive a change of mode
(R196 to R201, R341, R425 to R428). -/

namespace Sys2Proof.Machine

/-! ### Wake sources (R425, R426) -/

/-- A wake source fires (R426, R436): in DORMANT, or while its entry runs, with its WAKE_EN bit set, its WAKE_STATUS bit sets, the
exit is due and PWR_EN is driven high. Two sources in one Peat clock period give the lower WAKE_CAUSE. -/
def State.wakeFire (s : State) (src : Nat) : State :=
  if (s.mode.mode = .dormant ∨ s.mode.dormEntry) ∧ (s.rd .peat R.WAKE_EN).bit src then
    let s := s.wr .peat R.WAKE_STATUS ((s.rd .peat R.WAKE_STATUS).setFld ⟨src, src⟩ 1)
    let p := s.peat
    match p.exiting with
    | some t => if t / 500 = s.mono / 500 then { s with peat := { p with exitCode := min p.exitCode (src + 2) } } else s
    | none =>
      let at_ := if p.pwrEn then p.pwrEnAt else s.mono
      let p : PeatSt := { p with exiting := some s.mono, exitCode := src + 2, pwrEn := true, pwrEnAt := at_ }
      { s with peat := p }
  else s

/-! ### Brakes (R198, R199, R201) -/

/-- The latches TRIP, LOOP, FCAST and SW of BRK_STAT, as bits 3 to 0. -/
def latchTrip : Nat := 8
def latchLoop : Nat := 4
def latchFcast : Nat := 2
def latchSw : Nat := 1

/-- Whether brake `b` is asserted: EN with a latch set, or forced by the safe state (R198, R201). -/
def State.brkOn (s : State) (b : Nat) : Bool :=
  s.rb .act R.BRK_CFG F.BRK_CFG_EN b && (s.rf .act R.BRK_STAT F.BRK_STAT_LATCH b != 0 || s.act.force.contains b)

/-- OUT follows the latches, and its rises are counted (R198). -/
def State.brkUpdate (s : State) (b : Nat) : State :=
  let on := s.brkOn b
  let was := s.rb .act R.BRK_STAT F.BRK_STAT_OUT b
  let s := s.wf .act R.BRK_STAT F.BRK_STAT_OUT (b2n on) b
  if on && !was then s.wf .act R.BRK_STAT F.BRK_STAT_ASSERT_CNT (s.rf .act R.BRK_STAT F.BRK_STAT_ASSERT_CNT b + 1) b else s

/-- Set latches of brake `b`; each setting restarts AUTO_REL (R199). -/
def State.brkLatch (s : State) (b bits : Nat) : State :=
  let s := s.wf .act R.BRK_STAT F.BRK_STAT_LATCH (s.rf .act R.BRK_STAT F.BRK_STAT_LATCH b ||| bits) b
  let ar := min 10000 (s.rf .act R.BRK_CFG F.BRK_CFG_AUTO_REL b)
  let s := { s with act := { s.act with relAt := mapSet none s.act.relAt b (if ar = 0 then none else some (s.mono + 1000 * ar)) } }
  s.brkUpdate b

/-- Set latches of every brake of a 16-bit set. -/
def State.brkLatchSet (s : State) (set bits : Nat) : State :=
  (List.range 16).foldl (fun s b => if set.testBit b then s.brkLatch b bits else s) s

/-- Clear all four latches of brake `b` (R199). -/
def State.brkRelease (s : State) (b : Nat) : State :=
  ({ s.wf .act R.BRK_STAT F.BRK_STAT_LATCH 0 b with
      act := { s.act with relAt := mapSet none s.act.relAt b none } }).brkUpdate b

/-- Every brake takes its SAFE state: 0 release, 1 and 3 assert, 2 keep (R201, R341). -/
def State.brkSafe (s : State) : State :=
  (List.range 16).foldl (fun s b =>
    let f := s.rf .act R.BRK_CFG F.BRK_CFG_SAFE b
    if f = 0 then s.brkRelease b
    else if f = 2 then s
    else ({ s with act := { s.act with force := if s.act.force.contains b then s.act.force else s.act.force ++ [b] } }).brkUpdate b) s

/-! ### PWM outputs (R196, R197, R201, R428) -/

def State.pwm (s : State) (m : Nat) : PwmSt := mapGet {} s.act.pwm m
def State.setPwm (s : State) (m : Nat) (x : PwmSt) : State :=
  { s with act := { s.act with pwm := mapSet {} s.act.pwm m x } }

/-- The level of ball PWM_m now: 0 high impedance, 1 low, 2 high. With IOV_ERR the bank stays high impedance (R432). -/
def State.pwmBall (s : State) (m : Nat) : Nat :=
  let x := s.pwm m
  match x.safe with
  | some l => l
  | none =>
    if s.peat.iovErr ∨ !s.rb .act R.PWM_CFG F.PWM_CFG_EN m ∨ s.mono * 4 < x.start then 0
    else
      let pos := (s.mono * 4 - x.start) % max 1 x.per
      let hi := decide (pos < x.duty) != s.rb .act R.PWM_CFG F.PWM_CFG_POL m
      if hi then 2 else 1

/-- The level SAFE of PWM_CFG_m selects (R201, R428). -/
def State.pwmSafeLevel (s : State) (m : Nat) : Nat :=
  match s.rf .act R.PWM_CFG F.PWM_CFG_SAFE m with
  | 0 => 0 | 1 => 1 | 2 => 2
  | _ => s.pwmBall m

/-- Every enabled PWM output takes its SAFE level; a disabled one stays high impedance. -/
def State.pwmSafe (s : State) : State :=
  (List.range 64).foldl (fun s m =>
    if s.rb .act R.PWM_CFG F.PWM_CFG_EN m then s.setPwm m { s.pwm m with safe := some (s.pwmSafeLevel m) } else s) s

end Sys2Proof.Machine
end

