-- ==== Sys2Proof/Machine/Meas.lean ====
section
/-! DEFINITION. Machine/Meas.lean: the measurement front-end: modulator clocks, channel filters, sample sets, trip paths and
event inputs (chapter 8). -/

namespace Sys2Proof.Machine

/-! ### The sinc filter (R167) -/

/-- One bit through the integrators; each uses the value just updated. -/
def sincInteg : List Int → Int → List Int
  | [], _ => []
  | x :: r, u => (x + u) :: sincInteg r (x + u)

/-- The combs on one value. -/
def sincComb : List Int → Int → List Int × Int
  | [], v => ([], v)
  | c :: r, v => let (r', o) := sincComb r (v - c); (v :: r', o)

/-- The D bits of one output period through a filter of order `n`: the output, from the n-th on (R167). -/
def Sinc.feed (f : Sinc) (n : Nat) (bits : List Bool) : Option Int × Sinc :=
  let z := List.replicate n (0 : Int)
  let i := bits.foldl (fun i b => sincInteg i (if b then 1 else -1)) (if f.integ.length = n then f.integ else z)
  let (c, v) := sincComb (if f.comb.length = n then f.comb else z) (i.getLastD 0)
  (if n ≤ f.j + 1 then some v else none, { integ := i, comb := c, j := f.j + 1 })

/-- Saturate to `w` bits signed, saying whether it changed. -/
def satInt (w : Nat) (v : Int) : Int × Bool :=
  let hi : Int := 2 ^ (w - 1) - 1
  let lo : Int := -(2 ^ (w - 1))
  if hi < v then (hi, true) else if v < lo then (lo, true) else (v, false)

/-- Shift, offset and gain of one raw output (R168): y and SAT. -/
def scaleOut (shift off gain : Nat) (v : Int) : Int × Bool :=
  let (x, s1) := satInt 24 (v / (2 ^ (min 40 shift) : Int))
  let d := x - sext 24 off
  let (y, s2) := satInt 24 (d * gain / (2 ^ 15 : Int))
  (y, s1 || s2)

/-! ### Groups and clocks (R165, R178) -/

def chUnit (n : Nat) : UnitId := .chGroup (n / 16)
def State.chSt (s : State) (n : Nat) : ChSt := mapGet {} s.meas.ch n
def State.setCh (s : State) (n : Nat) (x : ChSt) : State :=
  { s with meas := { s.meas with ch := mapSet {} s.meas.ch n x } }

def State.clkOk (s : State) (g : Nat) : Bool := s.rb (.chGroup g) R.GRP_STATUS F.GRP_STATUS_CLK_OK
def State.clkFault (s : State) (g : Nat) : Bool :=
  s.rb (.chGroup g) R.GRP_STATUS F.GRP_STATUS_CLK_FAULT || (s.unit (.chGroup g)).dead
def State.grpEn (s : State) (g : Nat) : Bool := s.rb (.chGroup g) R.GRP_CTL F.GRP_CTL_EN && s.answers (.chGroup g)

/-- Restart a channel (R169): filter, SEQ and FIRST; no output since (R172). -/
def State.restartCh (s : State) (n : Nat) : State :=
  s.setCh n { s.chSt n with filt := {}, seq := 0, first := true, cur := none, prev := none }

/-- Restart a trip path (R175). -/
def State.restartTrip (s : State) (k : Nat) : State :=
  ({ s with meas := { s.meas with trip := mapSet {} s.meas.trip k {} } }).wf .tripUnit R.TRIP_STATUS F.TRIP_STATUS_DEB_CNT 0 k

/-- Trip paths whose source lies in group `g`. -/
def State.tripsOf (s : State) (g : Nat) : List Nat :=
  (List.range 32).filter (fun k => s.rf .tripUnit R.TRIP_CFG F.TRIP_CFG_SRC k / 16 == g)

/-- Restart every channel and trip path of a group (R165, R178). -/
def State.restartGroup (s : State) (g : Nat) : State :=
  (s.tripsOf g).foldl (fun s k => s.restartTrip k) ((List.range 16).foldl (fun s c => s.restartCh (16 * g + c)) s)

/-- The period of a driven clock in ns (R165). -/
def State.mclkNs (s : State) (g : Nat) : Nat := 2 * clampNat 20 100 (s.rf (.chGroup g) R.GRP_CTL F.GRP_CTL_MCLK_DIV)

/-- When a driven clock rises first: the first multiple of its period at least 100 ns away (R165), on the interval clock. -/
def State.setEdge (s : State) (g : Nat) (on : Bool) : State :=
  let t := s.mono + (ceilTo (s.mclkNs g) (s.now + 100) - s.now)
  { s with meas := { s.meas with edge := mapSet none s.meas.edge g (if on then some t else none) } }

/-- What a write of GRP_CTL does beside its fields (R165, R169). -/
def State.grpCtlPost (s : State) (g : Nat) (old : Word) : State :=
  let new := s.rd (.chGroup g) R.GRP_CTL
  let o (f : Fld) := old.fld f
  let n (f : Fld) := new.fld f
  let clear (s : State) : State := (s.wf (.chGroup g) R.GRP_STATUS F.GRP_STATUS_CLK_OK 0).wf (.chGroup g) R.GRP_STATUS F.GRP_STATUS_CLK_FAULT 0
  if n F.GRP_CTL_EN = 0 then (clear s).setEdge g false
  else if o F.GRP_CTL_EN = 0 then ((clear s).restartGroup g).setEdge g (n F.GRP_CTL_DRIVE = 1)
  else if n F.GRP_CTL_DRIVE = 1 ∧ (o F.GRP_CTL_DRIVE = 0 ∨ o F.GRP_CTL_MCLK_DIV ≠ n F.GRP_CTL_MCLK_DIV) then
    ((clear s).restartGroup g).setEdge g true
  else if o F.GRP_CTL_DRIVE = 1 ∧ n F.GRP_CTL_DRIVE = 0 then (clear s).setEdge g false
  else s

/-- The first rising edge of a driven clock (R165). -/
def State.mclkEdge (s : State) (g : Nat) : State :=
  match mapGet none s.meas.edge g with
  | some t => if t ≤ s.mono then (s.setEdge g false).wf (.chGroup g) R.GRP_STATUS F.GRP_STATUS_CLK_OK 1 else s
  | none => s

/-! ### Trips (R175, R176) -/

/-- TRIPPED sets: the cause, the count, the mapped brakes and the event (R176). -/
def State.tripSet (s : State) (k : Nat) (lo clk : Bool) : State :=
  if s.rb .tripUnit R.TRIP_STATUS F.TRIP_STATUS_TRIPPED k then s
  else
    let s := ((s.wf .tripUnit R.TRIP_STATUS F.TRIP_STATUS_TRIPPED 1 k).wf .tripUnit R.TRIP_STATUS F.TRIP_STATUS_CAUSE_LO (b2n lo) k).wf
      .tripUnit R.TRIP_STATUS F.TRIP_STATUS_CAUSE_CLK (b2n clk) k
    let s := s.bump .tripUnit R.TRIP_CNT 1 k
    let s := s.brkLatchSet (s.rf .act R.TRIP_MAP F.TRIP_MAP_BRAKES k) latchTrip
    s.raiseEvt (s.rd .tripUnit R.TRIP_EVT)

/-- One output of trip path `k` from its D bits (R175). -/
def State.tripOutput (s : State) (k : Nat) (bits : List Bool) : State :=
  let c (f : Fld) := s.rf .tripUnit R.TRIP_CFG f k
  let g := c F.TRIP_CFG_SRC / 16
  if c F.TRIP_CFG_EN = 1 ∧ s.answers .tripUnit ∧ s.grpEn g ∧ s.clkOk g ∧ bits.length = clampNat 16 64 (c F.TRIP_CFG_DEC) then
    let (o, f) := (mapGet {} s.meas.trip k).feed 2 bits
    let s := { s with meas := { s.meas with trip := mapSet {} s.meas.trip k f } }
    match o with
    | none => s
    | some v =>
      let hi := sext 16 (s.rf .tripUnit R.TRIP_THR F.TRIP_THR_THR_HI k)
      let lo := sext 16 (s.rf .tripUnit R.TRIP_THR F.TRIP_THR_THR_LO k)
      let n := if hi < v ∨ v < lo then min 15 (s.rf .tripUnit R.TRIP_STATUS F.TRIP_STATUS_DEB_CNT k + 1) else 0
      let s := (s.wf .tripUnit R.TRIP_STATUS F.TRIP_STATUS_VALUE (BitVec.ofInt 16 v).toNat k).wf .tripUnit R.TRIP_STATUS
        F.TRIP_STATUS_DEB_CNT n k
      if max 1 (c F.TRIP_CFG_DEB) ≤ n then s.tripSet k (decide (v < lo)) false else s
  else s

/-- A clock fault of group `g` (R165, R178). -/
def State.groupFault (s : State) (g : Nat) : State :=
  let s := ((s.wf (.chGroup g) R.GRP_STATUS F.GRP_STATUS_CLK_FAULT 1).wf (.chGroup g) R.GRP_STATUS F.GRP_STATUS_CLK_OK 0).wf
    (.chGroup g) R.GRP_STATUS F.GRP_STATUS_CLK_FAULT_SEEN 1
  (s.tripsOf g).foldl (fun s k =>
    if s.rb .tripUnit R.TRIP_CFG F.TRIP_CFG_EN k ∧ s.rb .tripUnit R.TRIP_CFG F.TRIP_CFG_CLKF_TRIP k then s.tripSet k false true else s) s

/-- A received clock fails. -/
def State.mclkFault (s : State) (g : Nat) : State :=
  if s.grpEn g ∧ s.rf (.chGroup g) R.GRP_CTL F.GRP_CTL_DRIVE = 0 ∧ !s.clkFault g then s.groupFault g else s

/-- 64 good periods of a received clock (R165): CLK_OK, and the group restarts (R178). -/
def State.mclkQualified (s : State) (g : Nat) : State :=
  if s.grpEn g ∧ s.rf (.chGroup g) R.GRP_CTL F.GRP_CTL_DRIVE = 0 ∧ !s.clkOk g then
    ((s.wf (.chGroup g) R.GRP_STATUS F.GRP_STATUS_CLK_FAULT 0).wf (.chGroup g) R.GRP_STATUS F.GRP_STATUS_CLK_OK 1).restartGroup g
  else s

/-! ### Channel outputs (R167 to R170) -/

/-- The D bits of channel `n` up to now: the output, where the filter emits one. -/
def State.chanOutput (s : State) (n : Nat) (bits : List Bool) : Option ChOut × State :=
  let u := chUnit n
  let c := n % 16
  let f (x : Fld) := s.rf u R.CH_CFG x c
  if f F.CH_CFG_EN = 1 ∧ s.grpEn (n / 16) ∧ s.clkOk (n / 16) ∧ bits.length = clampNat 8 1024 (f F.CH_CFG_DEC) then
    let x := s.chSt n
    let (o, flt) := x.filt.feed (f F.CH_CFG_ORDER + 1) bits
    match o with
    | none => (none, s.setCh n { x with filt := flt })
    | some v =>
      let (y, sat) := scaleOut (f F.CH_CFG_SHIFT) (s.rf u R.CH_OFFSET F.CH_OFFSET_OFFSET c) (s.rf u R.CH_GAIN F.CH_GAIN_GAIN c) v
      let out : ChOut := ⟨(BitVec.ofInt 24 y).toNat, sat, x.seq, s.now, x.first, x.uid + 1⟩
      let s := s.setCh n { filt := flt, seq := (x.seq + 1) % 65536, first := false, uid := x.uid + 1, cur := some out, prev := x.cur }
      (some out, if sat then s.bump u R.CH_SATCNT 1 c else s)
  else (none, s)

/-- The latest output whose timestamp is at or before `t` - 40 ns (R170, R172). -/
def State.visible (s : State) (n t : Nat) : Option ChOut :=
  let x := s.chSt n
  match x.cur with
  | some o => if o.ts + 40 ≤ t then some o else (match x.prev with
      | some o => if o.ts + 40 ≤ t then some o else none
      | none => none)
  | none => none

/-- Word 0 of a channel record without REPEAT (R172). -/
def State.chWord (s : State) (n t : Nat) : Nat :=
  let clkf := 2 ^ 25 * b2n (s.clkFault (n / 16))
  match s.visible n t with
  | some o => o.y + 2 ^ 24 * b2n o.sat + clkf
  | none => 2 ^ 26 + clkf

/-- What CH_LAST, CH_TS_LO, CH_TS_HI and CH_SEQ read (R170). -/
def State.chRegs (s : State) (n : Nat) : List Word :=
  let o := s.visible n s.now
  [BitVec.ofNat 32 (s.chWord n s.now + 2 ^ 28 * b2n ((o.map (·.first)).getD false)), lo32 ((o.map (·.ts)).getD 0),
   hi32 ((o.map (·.ts)).getD 0), BitVec.ofNat 32 ((o.map (·.seq)).getD 0)]

/-! ### Event inputs (R179 to R184) -/

def State.eviSt (s : State) (n : Nat) : EviSt := mapGet {} s.meas.evi n
def State.setEvi (s : State) (n : Nat) (x : EviSt) : State :=
  { s with meas := { s.meas with evi := mapSet {} s.meas.evi n x } }
def State.eviF (s : State) (f : Fld) (n : Nat) : Nat := s.rf .eviUnit R.EVI_CFG f n

/-- Raise the input's event source. -/
def State.eviRaise (s : State) (n : Nat) : State :=
  (s.setEvi n { s.eviSt n with lastIrq := some s.mono, pend := false }).erRaise (s.rf .eviUnit R.EVI_IRQ F.EVI_IRQ_EVT_Q n)
    (s.rf .eviUnit R.EVI_IRQ F.EVI_IRQ_EVT_SRC n)

/-- The gap since the last interrupt is over (R183). -/
def State.gapOver (s : State) (n : Nat) : Bool :=
  match (s.eviSt n).lastIrq with
  | some t => decide (t + 1000 * s.eviF F.EVI_CFG_IRQ_GAP n ≤ s.mono)
  | none => true

/-- An interrupt cause (R183): in DORMANT the wake logic takes it. -/
def State.eviCause (s : State) (n : Nat) : State :=
  if s.mode.mode = .dormant then s.wakeFire 0
  else if s.gapOver n then s.eviRaise n
  else (s.setEvi n { s.eviSt n with pend := true }).bump .eviUnit R.EVI_MERGED 1 n

/-- Acceptance of a new level after GLITCH + 1 samples (R179, R180). -/
def State.eviAccept (s : State) (n : Nat) : State :=
  let x := s.eviSt n
  if s.eviF F.EVI_CFG_EN n = 1 ∧ x.started ∧ s.eviF F.EVI_CFG_GLITCH n + 1 ≤ x.cnt then
    let lvl := !s.rb .eviUnit R.EVI_STATUS F.EVI_STATUS_LEVEL n
    let s := (s.wf .eviUnit R.EVI_STATUS F.EVI_STATUS_LEVEL (b2n lvl) n).wf .eviUnit R.EVI_STATUS F.EVI_STATUS_STUCK 0 n
    let s := s.setEvi n { x with cnt := 0, changed := s.now }
    let e := s.eviF F.EVI_CFG_EDGE n
    if e = 2 ∨ (e = 0 ∧ lvl) ∨ (e = 1 ∧ !lvl) then
      let s := s.wr .eviUnit R.EVI_COUNT (s.rd .eviUnit R.EVI_COUNT n + 1) n
      let s := match x.ts with
        | some t => s.wr .eviUnit R.EVI_PERIOD (BitVec.ofNat 32 (min (x.since - t) (2 ^ 32 - 1))) n
        | none => s
      let s := (s.wr .eviUnit R.EVI_TS_LO (lo32 x.since) n).wr .eviUnit R.EVI_TS_HI (hi32 x.since) n
      let y := s.eviSt n
      let s := s.setEvi n { y with ts := some x.since, winCnt := if s.meas.winStart ≤ s.now then y.winCnt + 1 else y.winCnt }
      if s.rb .eviUnit R.EVI_IRQ F.EVI_IRQ_IRQ_EDGE n then s.eviCause n else s
    else s
  else s

/-- One sample of an event input (R179, R182). -/
def State.eviSample (s : State) (n : Nat) (raw : Bool) : State :=
  if s.eviF F.EVI_CFG_EN n = 1 then
    let s := s.eviAccept n
    let x := s.eviSt n
    let l := raw != (s.eviF F.EVI_CFG_INV n == 1)
    if !x.started then
      (s.setEvi n { x with started := true, raw := l, rawRun := 1, cnt := 0, changed := s.now }).wf .eviUnit R.EVI_STATUS
        F.EVI_STATUS_LEVEL (b2n l) n
    else
      let s := if l ≠ x.raw ∧ x.rawRun = 1 then s.wf .eviUnit R.EVI_STATUS F.EVI_STATUS_FAST 1 n else s
      let x := { x with raw := l, rawRun := if l = x.raw then x.rawRun + 1 else 1 }
      let cur := s.rb .eviUnit R.EVI_STATUS F.EVI_STATUS_LEVEL n
      if l ≠ cur then s.setEvi n { x with cnt := x.cnt + 1, since := if x.cnt = 0 then s.now else x.since }
      else if x.cnt ≠ 0 then
        (s.setEvi n { x with cnt := 0 }).wf .eviUnit R.EVI_STATUS F.EVI_STATUS_GLITCH_CNT
          (min 0xFFFF (s.rf .eviUnit R.EVI_STATUS F.EVI_STATUS_GLITCH_CNT n + 1)) n
      else s.setEvi n x
  else s

/-- The end of a frequency window (R180). -/
def State.eviWindow (s : State) : State :=
  let size := clampNat 1 1000 (s.rf .eviUnit R.EVI_FREQ_WIN F.EVI_FREQ_WIN_MS) * 1000000
  if s.meas.winStart + size ≤ s.now then
    let s := (List.range 48).foldl (fun s n =>
      (s.wr .eviUnit R.EVI_FREQ (BitVec.ofNat 32 (s.eviSt n).winCnt) n).setEvi n { s.eviSt n with winCnt := 0 }) s
    { s with meas := { s.meas with winStart := s.meas.winStart + size } }
  else s

/-- STUCK_TIME has passed without a filtered change (R181). -/
def State.eviStuck (s : State) (n : Nat) : State :=
  let t := min 60000 (s.rf .eviUnit R.EVI_STUCK F.EVI_STUCK_STUCK_TIME n)
  let x := s.eviSt n
  if s.eviF F.EVI_CFG_EN n = 1 ∧ x.started ∧ t ≠ 0 ∧ x.changed + t * 1000000 ≤ s.now ∧
      !s.rb .eviUnit R.EVI_STATUS F.EVI_STATUS_STUCK n then
    let s := (s.wf .eviUnit R.EVI_STATUS F.EVI_STATUS_STUCK 1 n).wf .eviUnit R.EVI_STATUS F.EVI_STATUS_STUCK_SEEN 1 n
    if s.rb .eviUnit R.EVI_IRQ F.EVI_IRQ_IRQ_STUCK n then s.eviCause n else s
  else s

/-- The end of IRQ_GAP (R183). -/
def State.eviGapEnd (s : State) (n : Nat) : State :=
  if (s.eviSt n).pend ∧ s.gapOver n ∧ s.mode.mode ≠ .dormant then s.eviRaise n else s

/-- EN of an input after a write (R183, R184). -/
def State.eviCfgPost (s : State) (n : Nat) (old : Word) : State :=
  let en := s.eviF F.EVI_CFG_EN n = 1
  if en ∧ old.fld F.EVI_CFG_EN = 0 then
    let s := (((s.wr .eviUnit R.EVI_COUNT 0 n).wr .eviUnit R.EVI_PERIOD 0 n).wr .eviUnit R.EVI_TS_LO 0 n).wr .eviUnit R.EVI_TS_HI 0 n
    let s := (s.wf .eviUnit R.EVI_STATUS F.EVI_STATUS_GLITCH_CNT 0 n).wf .eviUnit R.EVI_STATUS F.EVI_STATUS_STUCK 0 n
    s.setEvi n { winCnt := (s.eviSt n).winCnt, lastIrq := (s.eviSt n).lastIrq }
  else if !en then s.setEvi n { s.eviSt n with pend := false }
  else s

/-- A write that changes FREQ_WIN (R180): the window in progress is discarded. -/
def State.eviWinPost (s : State) (old : Word) : State :=
  let new := s.rf .eviUnit R.EVI_FREQ_WIN F.EVI_FREQ_WIN_MS
  if new ≠ old.fld F.EVI_FREQ_WIN_MS then
    let s := { s with meas := { s.meas with winStart := ceilTo (clampNat 1 1000 new * 1000000) s.now } }
    (List.range 48).foldl (fun s n => s.setEvi n { s.eviSt n with winCnt := 0 }) s
  else s

/-! ### Sample sets (R171 to R174) -/

/-- The active plan reserves a slot for connection `c`. -/
def State.planHas (s : State) (c : Nat) : Bool :=
  s.sward.active.any (fun e => e.2.testBit 15 && e.2 % 4096 == c)

/-- Entry `e` of set `n`. -/
def State.ssetEntry (s : State) (n e : Nat) : Nat := natBits (s.rd .mfe R.SSET_CH n (e / 4)).toNat (8 * (e % 4) + 7) (8 * (e % 4))

/-- The 16-byte record of one entry at `ts` (R172). -/
def State.ssetRecord (s : State) (n e ts : Nat) : List Byte × State :=
  let code := s.ssetEntry n e
  if code < 0x80 then
    let o := s.visible code ts
    let uid := (o.map (·.uid)).getD 0
    let rep := o.isSome && mapGet 0 s.meas.sent (16 * n + e) == uid
    let s1 := { s with meas := { s.meas with sent := mapSet 0 s.meas.sent (16 * n + e) uid } }
    (leBytes 4 (s.chWord code ts + 2 ^ 27 * b2n rep) ++ leBytes 4 (code + 65536 * (o.map (·.seq)).getD 0) ++
      leBytes 8 ((o.map (·.ts)).getD 0), s1)
  else if code < 0xB0 then
    let i := code - 0x80
    (leBytes 4 (s.rd .eviUnit R.EVI_COUNT i).toNat ++
      leBytes 4 (i + 128 + 256 * s.rf .eviUnit R.EVI_STATUS F.EVI_STATUS_LEVEL i + 512 * s.rf .eviUnit R.EVI_STATUS F.EVI_STATUS_STUCK i) ++
      leBytes 8 (((s.eviSt i).ts).getD 0), s)
  else (leBytes 4 (2 ^ 26) ++ leBytes 12 0, s)

/-- Records of entries `e` to `e + f`. -/
def State.ssetRecords (s : State) (n ts : Nat) : Nat → Nat → List Byte × State
  | 0, _ => ([], s)
  | f + 1, e =>
    let (b, s) := s.ssetRecord n e ts
    let (r, s) := s.ssetRecords n ts f (e + 1)
    (b ++ r, s)

/-- A trigger of set `n` at `ts` (R171 to R174), for a loop with the mark (identity, bank, priority) or by SSET_TRIG. -/
def State.ssetTrigger (s : State) (n ts : Nat) (mark : Option (Nat × Nat × Nat)) : State :=
  let c (f : Fld) := s.rf .mfe R.SSET_CFG f n
  if c F.SSET_CFG_EN = 0 ∨ !s.answers .mfe then s
  else
    let cnt := c F.SSET_CFG_COUNT
    let nf := (cnt + 3) / 4
    let t := 7 * c F.SSET_CFG_Q + 6
    let (d, s) := s.ssetRecords n ts cnt 0
    let d := d ++ List.replicate (64 * nf - d.length) 0
    let s := if s.meas.flits.any (fun f => f.set == n) then s.bump .mfe R.SSET_LATE else s
    let s := if s.planHas (c F.SSET_CFG_CONN) then s else s.bump .mfe R.SSET_BE
    let fl := (List.range nf).map (fun i => (⟨n, t, scratchAddr t (s.rf .mfe R.SSET_OFF F.SSET_OFF_OFF n + i),
      (d.drop (64 * i)).take 64, if i + 1 = nf then mark else none⟩ : SFlit))
    { s with meas := { s.meas with flits := s.meas.flits ++ fl } }

/-- A flit lost to an error response (R174). -/
def State.flitError (s : State) (n code : Nat) : State :=
  let s := s.bump .mfe R.DELIV_CNT
  if s.rb .mfe R.DELIV_ERR F.DELIV_ERR_VALID then s
  else s.wr .mfe R.DELIV_ERR (BitVec.ofNat 32 (2 ^ 31 + 256 * n + code))

/-- The oldest flit of set `n` reaches its control Tussock: written and, if marked, waking the loop's bank (R190). -/
def State.flitWrite (s : State) (n : Nat) : State :=
  match s.meas.flits.find? (fun f => f.set == n) with
  | none => s
  | some f =>
    let s := { s with meas := { s.meas with flits := s.meas.flits.erase f } }
    match s.devWrite (s.reqOf .mfe) f.addr f.data with
    | (some c, s) => s.flitError n c
    | (none, s) => match f.mark with
      | some (id, b, p) => s.idEvent id b p
      | none => s

/-- The oldest flit of set `n` receives an error response on its way (R174). -/
def State.flitLost (s : State) (n code : Nat) : State :=
  match s.meas.flits.find? (fun f => f.set == n) with
  | none => s
  | some f => ({ s with meas := { s.meas with flits := s.meas.flits.erase f } }).flitError n code

/-! ### Register effects of the front-end -/

/-- A written value a register refuses (R171). -/
def measRefuse (r : Reg) (v : Word) : Bool :=
  r == R.SSET_CFG && v.bit 31 && (v.fld F.SSET_CFG_COUNT == 0 || decide (16 < v.fld F.SSET_CFG_COUNT) || v.fld F.SSET_CFG_CONN == 0)

/-- What a write does after its fields have changed; `old` is the value before. -/
def State.measPost (s : State) (u : UnitId) (r : Reg) (i : Nat) (old v : Word) : State :=
  match u with
  | .mfe => if r = R.SSET_TRIG then s.ssetTrigger (v.fld F.SSET_TRIG_SET) s.now none else s
  | .chGroup g =>
    if r = R.GRP_CTL then s.grpCtlPost g old
    else if r = R.CH_CFG then
      let new := s.rd u r i
      if new.bit 31 ∧ (!old.bit 31 ∨ old.fld F.CH_CFG_ORDER ≠ new.fld F.CH_CFG_ORDER ∨ old.fld F.CH_CFG_DEC ≠ new.fld F.CH_CFG_DEC ∨
          old.fld F.CH_CFG_SHIFT ≠ new.fld F.CH_CFG_SHIFT) then s.restartCh (16 * g + i) else s
    else s
  | .tripUnit =>
    if r = R.TRIP_CFG then s.restartTrip i
    else if r = R.TRIP_STATUS ∧ v.bit 31 then s.wf u r F.TRIP_STATUS_DEB_CNT 0 i
    else s
  | .eviUnit =>
    if r = R.EVI_CFG then s.eviCfgPost i old else if r = R.EVI_FREQ_WIN then s.eviWinPost old else s
  | _ => s

end Sys2Proof.Machine
end

