-- ==== Sys2Proof/Machine/Act.lean ====
section
/-! DEFINITION. Machine/Act.lean: control loops, commits, PWM outputs and brakes (R188 to R201). -/

namespace Sys2Proof.Machine

/-! ### Loops (R188, R189) -/

def State.loop (s : State) (n : Nat) : LoopSt := mapGet {} s.act.loops n
def State.setLoop (s : State) (n : Nat) (x : LoopSt) : State :=
  { s with act := { s.act with loops := mapSet {} s.act.loops n x } }

def State.loopEn (s : State) (n : Nat) : Bool := s.rb .act R.LOOP_CFG F.LOOP_CFG_EN n
def State.loopPer (s : State) (n : Nat) : Nat := 500 * natBits (s.rd .act R.LOOP_PER n).toNat 19 0
def State.loopPhase (s : State) (n : Nat) : Nat := (s.rd .act R.LOOP_PHASE n).toNat
def State.loopDl (s : State) (n : Nat) : Nat := natBits (s.rd .act R.LOOP_DL n).toNat 15 0
/-- The PWM set of a loop, as 64 bits. -/
def State.loopPwm (s : State) (n : Nat) : Nat :=
  (s.rd .act R.LOOP_PWM_LO n).toNat + 2 ^ 32 * (s.rd .act R.LOOP_PWM_HI n).toNat

/-- The enabled loop that owns PWM output `m` (R197). -/
def State.pwmOwner (s : State) (m : Nat) : Option Nat := (List.range 64).find? (fun n => s.loopEn n && (s.loopPwm n).testBit m)

/-- Loops run in STEADY, SURGE and RECOVERY, and in MAINTENANCE with LOOP_EN (R195). -/
def State.loopsRun (s : State) : Bool :=
  s.answers .act && !s.mode.dormEntry && (match s.mode.mode with
    | .steady | .surge | .recovery => true
    | .maintenance => s.rb .device R.MODE_REQ F.MODE_REQ_LOOP_EN
    | _ => false)

/-- Why a write that sets EN of LOOP_CFG_n is refused (R189). -/
def State.loopBad (s : State) (n : Nat) (v : Word) : Bool :=
  let per := s.loopPer n
  let set := v.fld F.LOOP_CFG_SSET
  per == 0 || decide (per ≤ s.loopPhase n) || decide (s.loopDl n < 100) || decide (per ≤ s.loopDl n) ||
    !s.rb .mfe R.SSET_CFG F.SSET_CFG_EN set ||
    (List.range 64).any (fun k => k != n && s.loopEn k && (s.rf .act R.LOOP_CFG F.LOOP_CFG_SSET k == set ||
      s.loopPwm k &&& s.loopPwm n != 0))

/-! ### Shadows and commits (R191 to R193, R197) -/

/-- The shadows of output `m`, with the period inside its range (R196). -/
def State.pwmShadow (s : State) (m : Nat) : Nat × Nat :=
  (clampNat 2000 4000000 (s.rf .act R.PWM_PER F.PWM_PER_VALUE m), s.rf .act R.PWM_DUTY F.PWM_DUTY_VALUE m)

/-- New active values; `fresh` starts a new period now. -/
def State.pwmActive (s : State) (m : Nat) (v : Nat × Nat) (fresh : Bool) : State :=
  let x := s.pwm m
  s.setPwm m { x with per := v.1, duty := v.2, pend := none, shadowNew := false, start := if fresh then s.mono * 4 else x.start }

/-- A commit moves the shadows of output `m` (R192, R197). -/
def State.pwmCommit (s : State) (m : Nat) : State :=
  let v := s.pwmShadow m
  if !s.rb .act R.PWM_CFG F.PWM_CFG_EN m then s.pwmActive m v false
  else if s.rb .act R.PWM_CFG F.PWM_CFG_UPD m then s.pwmActive m v true
  else s.setPwm m { s.pwm m with pend := some v }

/-- The shadows of a loop's outputs are reloaded from pending or active values, and BSH clears (R193). -/
def State.loopDiscard (s : State) (n : Nat) : State :=
  let s := (List.range 64).foldl (fun s m =>
    if (s.loopPwm n).testBit m then
      let x := s.pwm m
      let (p, d) := x.pend.getD (x.per, x.duty)
      (s.wf .act R.PWM_PER F.PWM_PER_VALUE p m).wf .act R.PWM_DUTY F.PWM_DUTY_VALUE d m
    else s) s
  s.wf .act R.LOOP_BRK F.LOOP_BRK_BSH 0 n

def State.loopClose (s : State) (n : Nat) : State :=
  (s.setLoop n { s.loop n with open_ := none }).wf .act R.LOOP_STAT F.LOOP_STAT_ARMED 0 n

/-- The deadline of the open period (R192, R193). In the safe state commits are stopped (R341). -/
def State.loopDeadline (s : State) (n : Nat) : State :=
  match (s.loop n).open_ with
  | none => s
  | some ts =>
    if s.now < ts + s.loopDl n then s
    else if s.rb .act R.LOOP_STAT F.LOOP_STAT_ARMED n then
      if s.mode.safe then (s.loopDiscard n).loopClose n
      else
        let s := (List.range 64).foldl (fun s m => if (s.loopPwm n).testBit m then s.pwmCommit m else s) s
        let s := s.brkLatchSet (s.rf .act R.LOOP_BRK F.LOOP_BRK_BSH n &&& s.rf .act R.LOOP_BRK F.LOOP_BRK_BSET n) latchLoop
        (s.wf .act R.LOOP_BRK F.LOOP_BRK_BSH 0 n).loopClose n
    else
      let s := s.loopDiscard n
      let s := s.wf .act R.LOOP_STAT F.LOOP_STAT_LOOP_OVERRUN 1 n
      let s := s.wf .act R.LOOP_STAT F.LOOP_STAT_OVR_CNT (s.rf .act R.LOOP_STAT F.LOOP_STAT_OVR_CNT n + 1) n
      (s.loopClose n).raiseEvt (s.rd .act R.ACT_EVT)

/-- The identity a loop wakes: 9T + CORE, T the set's control Tussock (R190). -/
def State.loopIdent (s : State) (n : Nat) : Nat :=
  9 * (7 * s.rf .mfe R.SSET_CFG F.SSET_CFG_Q (s.rf .act R.LOOP_CFG F.LOOP_CFG_SSET n) + 6) + s.rf .act R.LOOP_CFG F.LOOP_CFG_CORE n

/-- A sample instant of loop `n` (R188): it triggers the loop's set and opens a period, unless one is still open. -/
def State.sampleInstant (s : State) (n : Nat) : State :=
  let s := s.loopDeadline n
  let x := s.loop n
  if s.loopsRun ∧ s.loopEn n ∧ s.now % max 1 (s.loopPer n) = s.loopPhase n ∧ x.first ≤ s.now ∧ x.last ≠ some s.now then
    if x.open_.isSome then s.setLoop n { x with last := some s.now }
    else
      (s.setLoop n { x with last := some s.now, open_ := some s.now }).ssetTrigger (s.rf .act R.LOOP_CFG F.LOOP_CFG_SSET n) s.now
        (some (s.loopIdent n, s.rf .act R.LOOP_CFG F.LOOP_CFG_BANK n, s.rf .act R.LOOP_CFG F.LOOP_CFG_PRIO n))
  else s

/-- A write of LOOP_ARM (R191). -/
def State.loopArm (s : State) (n : Nat) : State :=
  match (s.loop n).open_ with
  | some ts => if s.loopEn n ∧ ts ≤ s.now ∧ s.now < ts + s.loopDl n then s.wf .act R.LOOP_STAT F.LOOP_STAT_ARMED 1 n
      else s.bump .act R.ARM_DISC
  | none => s.bump .act R.ARM_DISC

/-- A period boundary of PWM output `m` (R197). -/
def State.pwmBoundary (s : State) (m : Nat) : State :=
  let x := s.pwm m
  if s.rb .act R.PWM_CFG F.PWM_CFG_EN m ∧ x.safe.isNone ∧ x.start + x.per ≤ s.mono * 4 then
    let s := s.setPwm m { x with start := x.start + x.per }
    match x.pend with
    | some v => s.pwmActive m v false
    | none => if x.shadowNew ∧ (s.pwmOwner m).isNone then s.pwmActive m (s.pwmShadow m) false else s
  else s

/-- AUTO_REL of brake `b` is over (R199). -/
def State.brkAuto (s : State) (b : Nat) : State :=
  match mapGet none s.act.relAt b with
  | some t => if t ≤ s.mono then s.brkRelease b else s
  | none => s

/-! ### Register effects of the actuator block -/

/-- A written value a register refuses (R189). `old` is the register's value. -/
def State.actRefuse (s : State) (r : Reg) (i : Nat) (old v : Word) : Bool :=
  if r = R.LOOP_CFG then
    if old.bit 31 then decide (natBits (old ^^^ v).toNat 30 0 &&& R.LOOP_CFG.rw ≠ 0)
    else v.bit 31 && s.loopBad i v
  else if r = R.LOOP_PER ∨ r = R.LOOP_PHASE ∨ r = R.LOOP_DL ∨ r = R.LOOP_PWM_LO ∨ r = R.LOOP_PWM_HI then s.loopEn i
  else if r = R.LOOP_BRK then s.loopEn i && decide (old.fld F.LOOP_BRK_BSET ≠ v.fld F.LOOP_BRK_BSET)
  else false

/-- What a write does after its fields have changed. -/
def State.actPost (s : State) (r : Reg) (i : Nat) (old v : Word) : State :=
  if r = R.LOOP_CFG then
    if s.loopEn i ∧ !old.bit 31 then s.setLoop i { first := s.now + 1000 }
    else if !s.loopEn i ∧ old.bit 31 then
      (if (s.loop i).open_.isSome then s.loopDiscard i else s).loopClose i
    else s
  else if r = R.LOOP_ARM then s.loopArm (v.fld F.LOOP_ARM_LOOP)
  else if r = R.PWM_PER ∨ r = R.PWM_DUTY then
    if (s.pwmOwner i).isSome then s
    else if s.rb .act R.PWM_CFG F.PWM_CFG_EN i then s.setPwm i { s.pwm i with shadowNew := true }
    else s.pwmActive i (s.pwmShadow i) false
  else if r = R.PWM_CFG then
    if s.rb .act R.PWM_CFG F.PWM_CFG_EN i ∧ !old.bit 31 then
      s.setPwm i { s.pwm i with start := 4 * (s.mono + ((s.now / 1000 + 1) * 1000 - s.now)) }
    else s
  else if r = R.BRK_SET then s.brkLatchSet (v.fld F.BRK_SET_BITS) latchSw
  else if r = R.BRK_REL then
    (List.range 16).foldl (fun s b => if (v.fld F.BRK_REL_BITS).testBit b then s.brkRelease b else s) s
  else if r = R.BRK_CFG then s.brkUpdate i
  else if r = R.FC_RING_CFG ∧ v.bit 31 ∧ !old.bit 31 then
    { s with act := { s.act with ringSeq := mapSet 0 s.act.ringSeq i 0 } }
  else s

end Sys2Proof.Machine
end

