-- ==== Sys2Proof/Machine/Code.lean ====
section
/-! DEFINITION. Machine/Code.lean: the block coding of telemetry (R214 to R218), on exact integers and bit strings. -/

namespace Sys2Proof.Machine

/-- `n` bits of `v`, most significant first. -/
def msbBits : Nat → Nat → List Bool
  | 0, _ => []
  | n + 1, v => v.testBit n :: msbBits n v

/-- The low `w` bits of an integer. -/
def intBits (w : Nat) (v : Int) : List Bool := msbBits w (v % (2 ^ w : Nat)).toNat

/-- Whole bytes of a bit string, most significant bit first, zero-padded; `f` bounds the bytes. -/
def packBits : Nat → List Bool → List Byte
  | 0, _ => []
  | f + 1, b =>
    if b = [] then []
    else BitVec.ofNat 8 ((List.range 8).foldl (fun n i => 2 * n + b2n (b.getD i false)) 0) :: packBits f (b.drop 8)
def packBytes (b : List Bool) : List Byte := packBits ((b.length + 7) / 8) b

def clampInt (lo hi v : Int) : Int := max lo (min hi v)

/-- The range of a stream (R214). -/
def rangeOf (signed : Bool) (w : Nat) : Int × Int :=
  if signed then (-(2 ^ (w - 1) : Nat), (2 ^ (w - 1) : Nat) - 1) else (0, (2 ^ w : Nat) - 1)

/-- The prediction from the reconstructed values, newest first (R215). -/
def predict (o : Nat) (xh : List Int) : Int :=
  let a := xh.getD 0 0
  let b := xh.getD 1 0
  let c := xh.getD 2 0
  match o with
  | 0 => 0 | 1 => a | 2 => 2 * a - b | _ => 3 * a - 3 * b + c

/-- q of R215. -/
def quant (e : Nat) (r : Int) : Int := (if r < 0 then -1 else 1) * ((r.natAbs + e) / (2 * e + 1) : Nat)

/-- The zigzag of q. -/
def zigzag (q : Int) : Nat := if 0 ≤ q then (2 * q).toNat else (-2 * q - 1).toNat

/-- The z values of samples 1 on, given the reconstructed values so far, newest first (R215). -/
def zOf (order e : Nat) (lo hi : Int) : List Int → Nat → List Int → List Nat
  | _, _, [] => []
  | xh, i, x :: r =>
    let p := clampInt lo hi (predict (min order i) xh)
    let q := quant e (x - p)
    zigzag q :: zOf order e lo hi (clampInt lo hi (p + q * (2 * e + 1)) :: xh) (i + 1) r

/-- krule of R216, searching upward from `k` with `f` steps left. -/
def kruleFrom (s n : Nat) : Nat → Nat → Nat
  | 0, k => k
  | f + 1, k => if n * 2 ^ (k + 1) ≤ s then kruleFrom s n f (k + 1) else k
def krule (s n : Nat) : Nat := kruleFrom s n 31 0

/-- The Rice code of one value (R216). -/
def rice (w k z : Nat) : List Bool :=
  let u := z >>> k
  if u < 24 then List.replicate u true ++ [false] ++ msbBits k z else List.replicate 24 true ++ msbBits (w + 1) z

def listSum (l : List Nat) : Nat := l.foldl (· + ·) 0

/-- Groups after group 0: each takes its parameter from the group before (R216). -/
def riceGroups (w : Nat) : Nat → Nat → List Nat → List Bool
  | 0, _, _ => []
  | f + 1, k, zs =>
    if zs = [] then []
    else
      let g := zs.take 16
      g.flatMap (rice w k) ++ riceGroups w f (krule (listSum g) 16) (zs.drop 16)

/-- A coded body with its K0 (R215, R216). -/
def codeBody (w order e : Nat) (signed : Bool) (xs : List Int) : Nat × List Bool :=
  let (lo, hi) := rangeOf signed w
  let x0 := xs.headD 0
  let zs := zOf order e lo hi [x0] 1 (xs.drop 1)
  let g0 := zs.take 15
  let k0 := if zs = [] then 0 else krule (listSum g0) (min 15 (xs.length - 1))
  (k0, intBits w x0 ++ g0.flatMap (rice w k0) ++ riceGroups w 4 (krule (listSum g0) 15) (zs.drop 15))

def minInt : List Int → Int
  | [] => 0
  | x :: r => r.foldl min x
def maxInt : List Int → Int
  | [] => 0
  | x :: r => r.foldl max x

/-- The ENVELOPE body (R217): `f` bounds the windows. -/
def envBody (w wl : Nat) : Nat → List Int → List Bool
  | 0, _ => []
  | f + 1, xs =>
    if xs = [] then []
    else
      let g := xs.take (2 ^ wl)
      intBits w (minInt g) ++ intBits w (maxInt g) ++ intBits w (Int.fdiv (g.foldl (· + ·) 0) g.length) ++ envBody w wl f (xs.drop (2 ^ wl))

/-- The block proper of a closed block (R214 to R218). -/
def codeBlock (mode e order wl w : Nat) (signed : Bool) (xs : List Int) : List Byte :=
  let n := xs.length
  let raw := xs.flatMap (intBits w)
  let (k0, body) := if mode = 2 then (0, envBody w wl 17 xs) else codeBody w order e signed xs
  let fits := decide (body.length ≤ n * w)
  let h := if fits then
      2 ^ 30 * mode + 2 ^ 26 * (if mode = 1 then e else 0) + (if mode = 2 then 0 else 2 ^ 24 * order) + 2 ^ 19 * k0 +
        (if mode = 2 then 2 ^ 16 * wl else 0)
    else 2 ^ 30 * 3
  packBytes (msbBits 32 (h + 2 ^ 15 * b2n signed + 2 ^ 7 * (w - 1) + n) ++ (if fits then body else raw))

end Sys2Proof.Machine
end

