-- ==== Sys2Proof/Machine/Net.lean ====
section
/-! DEFINITION. Machine/Net.lean: the shared operations of the packet path: ports and counters, frames and their cells, flow
control, egress queues, drops, exception queues, per-TI counters, operation results and the records of TIs
(R109 to R112, R121, R122, R125, R129, R131, R132). -/

namespace Sys2Proof.Machine

/-! ### Ports -/

def State.ethF (s : State) (r : Reg) (f : Fld) (i : Nat := 0) : Nat := s.rf .eth r f i
def State.portMode (s : State) : Nat := s.ethF R.ETH_CFG F.ETH_CFG_PORT_MODE
/-- Ports of the port set (R109). -/
def State.portCount (s : State) : Nat :=
  match s.portMode with
  | 0 => 2 | 1 => 4 | 2 => 8 | _ => 0
/-- Lanes per port of the port set. -/
def State.portWidth (s : State) : Nat :=
  match s.portMode with
  | 0 => 4 | 1 => 2 | _ => 1
/-- The port set has port `p`. -/
def State.portExists (s : State) (p : Nat) : Bool := decide (p < s.portCount)
def State.ePort (s : State) (p : Nat) : EPort := mapGet {} s.eth.ports p
def State.setEPort (s : State) (p : Nat) (x : EPort) : State :=
  { s with eth := { s.eth with ports := mapSet {} s.eth.ports p x } }
/-- Count of ones among bits 0 to 7. -/
def ones8 (n : Nat) : Nat := (List.range 8).foldl (fun c i => c + b2n (n.testBit i)) 0
/-- The rate of port `p` in Gbit/s. -/
def State.portRate (s : State) (p : Nat) : Nat := 100 * ones8 (s.ePort p).lanes
/-- LINK_UP of port `p`. -/
def State.linkUp (s : State) (p : Nat) : Bool := (s.ePort p).up && s.portExists p

/-- Port counter `k` (R111, R122): 0 RX_FRAMES to 11 FEC uncorrectable. -/
def State.portCnt (s : State) (p k : Nat) (n : Nat := 1) : State := s.bump64 .eth R.PORTCNT_LO R.PORTCNT_HI n p k

/-- The data plane runs: not in BOOT, DORMANT or the safe state, and in MAINTENANCE only with DP_EN (R30, R135, R341). -/
def State.dpOn (s : State) : Bool :=
  !s.mode.safe && !s.mode.dormEntry && (match s.mode.mode with
    | .boot | .dormant => false
    | .maintenance => s.rb .device R.MODE_REQ F.MODE_REQ_DP_EN
    | _ => true)

/-! ### Frames -/

def State.frame (s : State) (f : Nat) : Frame := mapGet {} s.eth.frames f
def State.setFrame (s : State) (f : Nat) (x : Frame) : State :=
  { s with eth := { s.eth with frames := mapSet {} s.eth.frames f x } }
/-- A new frame. -/
def State.addFrame (s : State) (x : Frame) : Nat × State :=
  (s.eth.nextFrame, { s.setFrame s.eth.nextFrame x with
    eth := { (s.setFrame s.eth.nextFrame x).eth with nextFrame := s.eth.nextFrame + 1 } })
/-- Frame length on the wire, FCS included (R111). -/
def Frame.wire (x : Frame) : Nat := max 60 x.data.length + 4
/-- The largest accepted frame (R111). -/
def State.maxFrame (s : State) : Nat := clampNat 1518 9216 (s.ethF R.MAX_FRAME F.MAX_FRAME_LEN)

/-! ### Tenant records -/

def State.ti (s : State) (n : Nat) : Ti := mapGet {} s.pcie.tis n
def State.setTi (s : State) (n : Nat) (x : Ti) : State :=
  { s with pcie := { s.pcie with tis := mapSet {} s.pcie.tis n x } }

/-! ### Counter banks (R132) -/

/-- Add `v` to counter `i` of bank `b` as master `r`, with the outcome as a completion code (R96). -/
def State.cntAdd (s : State) (r : Req) (b i v : Nat) (src : Option UnitId := none) : Nat × State :=
  let size := s.rf .eth R.CNTB_SIZE F.CNTB_SIZE_SIZE b
  if size ≤ i then
    (0, s.wf .eth R.ETH_STATUS F.ETH_STATUS_CNT_OOR (min 255 (s.ethF R.ETH_STATUS F.ETH_STATUS_CNT_OOR + 1)))
  else
    let a := 256 * (s.rd .eth R.CNTB_BASE b).toNat + 8 * i
    match s.guardAcc a r .write src with
    | (some c, s) => (8 + c, s)
    | (none, s) => match s.memDown a with
      | some c => (8 + c, s)
      | none =>
        let ((d, p), s) := s.memBytes 3 a 8
        (0, s.memStore r.master.toNat 3 a (leBytes 8 (ofLe d + v)) p)

/-- Add to device counter `k` of TI `t` in bank 15 (R132). A disabled bank or a refused access counts nothing. -/
def State.tiCount (s : State) (t k v : Nat) : State :=
  if s.rf .eth R.CNTB_SIZE F.CNTB_SIZE_SIZE 15 = 0 ∨ 2048 ≤ t then s else (s.cntAdd (s.reqOf .eth) 15 (8 * t + k) v).2

/-! ### Cells and flow control (R121, R122) -/

/-- Cells of the receive buffer. -/
def State.bufCells (s : State) : Nat := 256 * clampNat 16 8192 (s.ethF R.RXBUF_SIZE F.RXBUF_SIZE_VALUE)
/-- Cells in use: the sum over the classes. -/
def State.usedCells (s : State) : Nat := s.eth.cells.foldl (fun n e => n + e.2) 0
def State.clsCells (s : State) (c : Nat) : Nat := mapGet 0 s.eth.cells c

/-- Half the pause time of quanta 0xFFFF at port `p`, in ns (R122). -/
def State.halfPause (s : State) (p : Nat) : Nat := 0xFFFF * 512 / max 1 (s.portRate p) / 2

/-- Send a PFC frame for class key `c`. -/
def State.pfcSend (s : State) (c quanta : Nat) : State :=
  (s.send (.pfc (c / 8) (c % 8) quanta)).portCnt (c / 8) 8

/-- The pause state of class key `c` follows its occupancy (R122). -/
def State.pfcCheck (s : State) (c : Nat) : State :=
  let xoff := s.rf .eth R.PFC_TH F.PFC_TH_XOFF c
  let xon := s.rf .eth R.PFC_TH F.PFC_TH_XON c
  let n := s.clsCells c
  match mapGet none s.eth.pauseOut c with
  | none =>
    if xoff ≠ 0 ∧ xoff ≤ n ∧ s.linkUp (c / 8) then
      { s.pfcSend c 0xFFFF with eth := { (s.pfcSend c 0xFFFF).eth with
          pauseOut := mapSet none s.eth.pauseOut c (some (s.mono + s.halfPause (c / 8))) } }
    else s
  | some _ =>
    if n < xon ∨ xoff = 0 then
      { s.pfcSend c 0 with eth := { (s.pfcSend c 0).eth with pauseOut := mapSet none s.eth.pauseOut c none } }
    else s

/-- `n` more cells for a frame, held by its class (R121, R122). -/
def State.charge (s : State) (f n : Nat) : State :=
  let x := s.frame f
  let s := s.setFrame f { x with cells := x.cells + n }
  let s := { s with eth := { s.eth with cells := mapSet 0 s.eth.cells x.cls (s.clsCells x.cls + n) } }
  let s := if x.owned then s.setTi x.ti { s.ti x.ti with cells := (s.ti x.ti).cells + n } else s
  s.pfcCheck x.cls

/-- Classification: the frame's cells are charged to TI `t` (R121). -/
def State.own (s : State) (f t : Nat) : State :=
  let x := s.frame f
  (s.setFrame f { x with ti := t, owned := true }).setTi t { s.ti t with cells := (s.ti t).cells + x.cells }

/-- The charge of a frame's cells to its TI ends: its disposal to a destination. -/
def State.disown (s : State) (f : Nat) : State :=
  let x := s.frame f
  let s := s.setFrame f { x with owned := false }
  if x.owned then s.setTi x.ti { s.ti x.ti with cells := (s.ti x.ti).cells - x.cells } else s

/-- Release every cell of a frame: its disposal. -/
def State.release (s : State) (f : Nat) : State :=
  let x := s.frame f
  let s := s.setFrame f { x with cells := 0, disp := true, owned := false }
  let s := if x.owned then s.setTi x.ti { s.ti x.ti with cells := (s.ti x.ti).cells - x.cells } else s
  if x.cells = 0 then s
  else ({ s with eth := { s.eth with cells := mapSet 0 s.eth.cells x.cls (s.clsCells x.cls - x.cells) } }).pfcCheck x.cls

/-- Forget a frame. -/
def State.forget (s : State) (f : Nat) : State :=
  { s with eth := { s.eth with frames := mapErase f s.eth.frames } }

/-! ### Drops (R131) -/

def dNodisp : Nat := 0xF0
def dQuota : Nat := 0xF1
def dBufFull : Nat := 0xF2
def dParse : Nat := 0xF3
def dMiss : Nat := 0xF4
def dQuiesce : Nat := 0xF5
def dRecirc : Nat := 0xF6
def dTiReset : Nat := 0xF7
def dExqFull : Nat := 0xF8
def dLinkDown : Nat := 0xF9
def dFcsLate : Nat := 0xFA
def dFlow : Nat := 0xFB
def dExcEnd : Nat := 0xFC
def dDispq : Nat := 0xFD
def dCtxLost : Nat := 0xFE

/-- Count a drop of a frame of TI `t` with a reason: RX_DROP_TI, or TX_DROP for a sent frame, and DROP_CNT for device reasons. -/
def State.countDrop (s : State) (rx : Bool) (t reason : Nat) : State :=
  let s := s.tiCount t (if rx then 2 else 5) 1
  if 0xF0 ≤ reason then s.bump .eth R.DROP_CNT 1 (reason - 0xF0) else s

/-- Drop frame `f`: count it and release its cells. The record stays while a thread holds the packet. -/
def State.dropKeep (s : State) (f reason : Nat) : State :=
  let x := s.frame f
  (s.countDrop x.rx x.ti reason).release f
/-- Drop a frame that no thread holds. -/
def State.drop (s : State) (f reason : Nat) : State := (s.dropKeep f reason).forget f

/-! ### Egress queues (R125) -/

def State.egress (s : State) (c : Nat) : List Nat := mapGet [] s.eth.egress c
def State.setEgress (s : State) (c : Nat) (q : List Nat) : State :=
  { s with eth := { s.eth with egress := mapSet [] s.eth.egress c q } }
/-- The class queue accepts a frame. -/
def State.egressRoom (s : State) (p c : Nat) : Bool := decide ((s.egress (8 * p + c)).length ≤ Config.egressDepth)
/-- Put frame `f` at the end of class queue `c` of port `p`, or drop it where the link is down. -/
def State.enqueue (s : State) (p c f : Nat) : State :=
  if s.linkUp p then s.setEgress (8 * p + c) (s.egress (8 * p + c) ++ [f]) else s.drop f dLinkDown

/-! ### Exception queues (R129) -/

/-- Slot size and count of a ring configured like EXQ_CFG. -/
def ringSlot (cfg : Word) : Nat := 512 * 2 ^ min 5 (natBits cfg.toNat 6 4)
def ringSlots (cfg : Word) : Nat := 2 ^ clampNat 4 12 (natBits cfg.toNat 3 0)

/-- The 64-byte header of an exception slot. -/
def State.exqHeader (s : State) (f reason eng : Nat) (trunc : Bool) : List Byte :=
  let x := s.frame f
  leBytes 4 (x.data.length % 2 ^ 14 + 2 ^ 16 * (reason % 256) + 2 ^ 24 * b2n trunc) ++
  leBytes 4 (x.ti % 2 ^ 11 + 2 ^ 11 * (x.tc % 8) + 2 ^ 14 * (x.port % 8) + 2 ^ 17 * (eng % 64)) ++
  leBytes 8 x.arr ++ leBytes 4 x.hash.toNat ++ List.replicate 12 0 ++
  (x.prec.flatMap (fun w => leBytes 4 w.toNat))

/-- Write frame `f` to exception queue `n` (R129): CODE 0, 3 FULL, or 8 + an error code. EXC_PKT is counted. -/
def State.exqPush (s : State) (n f reason eng : Nat) : Nat × State :=
  let cfg := s.rd .eth R.EXQ_CFG n
  let prod := (s.rd .eth R.EXQ_PROD n).toNat
  let cons := (s.rd .eth R.EXQ_CONS n).toNat
  if !cfg.bit 7 ∨ (prod + 2 ^ 16 - cons) % 2 ^ 16 = ringSlots cfg then (3, s)
  else
    let x := s.frame f
    let room := ringSlot cfg - 64
    let trunc := decide (room < x.data.length)
    let d := s.exqHeader f reason eng trunc ++ x.data.take room
    match s.devWrite (s.reqOf .eth) (256 * (s.rd .eth R.EXQ_BASE n).toNat + ringSlot cfg * (prod % ringSlots cfg)) d x.poison with
    | (some c, s) => (8 + c, s)
    | (none, s) =>
      let s := s.wr .eth R.EXQ_PROD (BitVec.ofNat 32 ((prod + 1) % 2 ^ 16)) n
      let s := s.tiCount x.ti 6 1
      (0, s.erRaise (natBits cfg.toNat 19 18) (natBits cfg.toNat 17 8))

/-- A frame the device itself sends to an exception queue: dropped with EXQ_FULL where the queue takes nothing (R129). -/
def State.exqDevice (s : State) (n f reason : Nat) (full : Nat := dExqFull) : State :=
  match s.exqPush n f reason 0x3F with
  | (0, s) => (s.release f).forget f
  | (_, s) => s.drop f full

/-! ### Threads and operation results (R92, R95) -/

def State.thread (s : State) (t : Nat) : Thread := mapGet {} s.sedge.threads t
def State.setThread (s : State) (t : Nat) (x : Thread) : State :=
  { s with sedge := { s.sedge with threads := mapSet {} s.sedge.threads t x } }
/-- Forget a frame that no thread and no queue refers to. -/
def State.reap (s : State) (f : Nat) : State :=
  if s.sedge.threads.any (fun e => e.2.pkt == some f) || s.eth.egress.any (fun e => e.2.contains f) ||
      s.eth.txCut.any (fun e => e.2 == some f) || s.eth.part.any (fun e => e.2 == some f) then s
  else s.forget f
def State.eng (s : State) (e : Nat) : Eng := mapGet {} s.sedge.engs e
def State.setEng (s : State) (e : Nat) (x : Eng) : State :=
  { s with sedge := { s.sedge with engs := mapSet {} s.sedge.engs e x } }

/-- The outcome of operation `o` of thread `t` is known: OPB_COMPLETE delivers it. -/
def State.opResult (s : State) (t o code : Nat) (ws : List Word := []) : State :=
  let x := s.thread t
  s.setThread t { x with ops := x.ops.map (fun p => if p.id = o ∧ p.res.isNone then { p with res := some (code, ws) } else p) }

/-! ### Contexts (R85, R90) -/

/-- The address of word `w` of context `c` = 256·bank + number. -/
def ctxAddr (c w : Nat) : Nat := 0xD00000000 + (c / 256) * 0x100000 + 0x40000 + 512 * (c % 256) + 4 * w
def State.ctxWord (s : State) (c w : Nat) : Word := BitVec.ofNat 32 (s.leAt (ctxAddr c w) 4)
def State.setCtxWord (s : State) (c w : Nat) (v : Word) : State := s.setBytes (ctxAddr c w) (leBytes 4 v.toNat)

/-! ### Engine states (R105) -/

def State.engState (s : State) (e : Nat) : Nat := s.rf (.engine e) R.ENG_STATUS F.ENG_STATUS_STATE
def State.setEngState (s : State) (e v : Nat) : State := s.wf (.engine e) R.ENG_STATUS F.ENG_STATUS_STATE v
def engStopped : Nat := 0
def engRunning : Nat := 1
def engHalting : Nat := 2
def engFailed : Nat := 3
def engTesting : Nat := 4
def engReturning : Nat := 5
def State.adopted (s : State) (e : Nat) : Bool := s.rb (.engine e) R.ENG_STATUS F.ENG_STATUS_ADOPTED
def State.adopting (s : State) (e : Nat) : Bool := s.rb (.engine e) R.ENG_STATUS F.ENG_STATUS_ADOPTING
/-- The engine that holds bank and threads of `e`. -/
def State.holder (s : State) (e : Nat) : Nat :=
  if s.adopted e then e / 4 * 4 + s.rf (.engine e) R.ENG_STATUS F.ENG_STATUS_ADOPTER else e
/-- The engine whose work `e` has adopted. -/
def State.adoptee (s : State) (e : Nat) : Option Nat :=
  if s.adopting e then some (e / 4 * 4 + s.rf (.engine e) R.ENG_STATUS F.ENG_STATUS_ADOPTEE) else none

def State.dispq (s : State) (e : Nat) : List DispEnt := mapGet [] s.eth.dispq e
def State.setDispq (s : State) (e : Nat) (q : List DispEnt) : State :=
  { s with eth := { s.eth with dispq := mapSet [] s.eth.dispq e q } }

end Sys2Proof.Machine
end

