-- ==== Sys2Proof/Machine/Parse.lean ====
section
/-! DEFINITION. Machine/Parse.lean: checksums, the frame parser, the flow key and the flow hash (R111 to R116). -/

namespace Sys2Proof.Machine

/-! ### Cyclic redundancy checks -/

/-- `k` bits of a reflected CRC register, 32 bits wide. -/
def crcBits (poly : Nat) : Nat → Nat → Nat
  | 0, r => r
  | k + 1, r => crcBits poly k (if r % 2 = 1 then (r / 2) ^^^ poly else r / 2)
/-- Feed bytes into a reflected CRC register. -/
def crcFeed (poly : Nat) (r : Nat) (d : List Byte) : Nat := d.foldl (fun r b => crcBits poly 8 (r ^^^ b.toNat)) r
/-- The IEEE 802.3 frame check sequence of a frame, in the order of its bytes on the wire. -/
def fcs (d : List Byte) : List Byte := leBytes 4 ((crcFeed 0xEDB88320 0xFFFFFFFF d) ^^^ 0xFFFFFFFF)
/-- The CRC-32C register after `d`, without final inversion (R94). -/
def crc32c (r : Nat) (d : List Byte) : Nat := crcFeed 0x82F63B78 r d

/-- The Internet checksum's one's complement sum of big-endian half-words. -/
def inetSum : List Byte → Nat
  | [] => 0
  | [a] => a.toNat * 256
  | a :: b :: r => a.toNat * 256 + b.toNat + inetSum r
/-- Fold the carries into 16 bits. -/
def inetFold (n : Nat) : Nat :=
  let a := n % 65536 + n / 65536
  let b := a % 65536 + a / 65536
  b % 65536 + b / 65536
/-- The sum of correct data with its checksum in place is all ones. -/
def inetOk (n : Nat) : Bool := inetFold n == 0xFFFF
/-- The checksum to insert where the field was counted as zero. -/
def inetCsum (n : Nat) : Nat := 0xFFFF - inetFold n

/-! ### The parser -/

/-- Bytes `o` to `o + n − 1` of a frame. -/
def pbytes (d : List Byte) (o n : Nat) : List Byte := (d.drop o).take n
/-- The big-endian number there. -/
def pbe (d : List Byte) (o n : Nat) : Nat := ofBe (pbytes d o n)

/-- A header of `n` bytes at `o`: 0 readable, 1 truncated by the frame, 2 beyond byte 255 (R113, R114). -/
def hdrAt (d : List Byte) (o n : Nat) : Nat :=
  if d.length < o + n then 1 else if 256 < o + n then 2 else 0

/-- An L3 header: found, correct, version 6, fragment, protocol, addresses, and where what follows starts and ends. -/
structure L3 where
  found : Bool := false
  ok : Bool := false
  v6 : Bool := false
  frag : Bool := false
  proto : Nat := 0
  src : List Byte := []
  dst : List Byte := []
  next : Nat := 0
  endp : Nat := 0
  err : Bool := false
  long : Bool := false
  deriving DecidableEq, Repr

/-- IPv6 extension headers, at most `n` of them. -/
def v6Ext (d : List Byte) : Nat → L3 → L3
  | 0, h => h
  | n + 1, h =>
    if h.proto = 0 ∨ h.proto = 43 ∨ h.proto = 60 ∨ h.proto = 44 then
      match hdrAt d h.next 8 with
      | 1 => { h with err := true }
      | 2 => { h with long := true }
      | _ =>
        let nx := pbe d h.next 1
        if h.proto = 44 then
          let fo := pbe d (h.next + 2) 2
          v6Ext d n { h with proto := nx, next := h.next + 8, frag := h.frag || decide (fo / 8 ≠ 0 ∨ fo % 2 = 1) }
        else
          let len := 8 * (pbe d (h.next + 1) 1 + 1)
          match hdrAt d h.next len with
          | 1 => { h with err := true }
          | 2 => { h with long := true }
          | _ => v6Ext d n { h with proto := nx, next := h.next + len }
    else h

/-- Parse the L3 header at `o` (R113, R114). -/
def parseL3 (d : List Byte) (o et : Nat) : L3 :=
  if et = 0x0800 then
    match hdrAt d o 20 with
    | 1 => { err := true }
    | 2 => { long := true }
    | _ =>
      if pbe d o 1 / 16 ≠ 4 then {}
      else
        let ihl := pbe d o 1 % 16
        if ihl < 5 then { found := true, err := true }
        else match hdrAt d o (4 * ihl) with
          | 1 => { found := true, err := true }
          | 2 => { found := true, long := true }
          | _ =>
            let tl := pbe d (o + 2) 2
            let h : L3 := { found := true, proto := pbe d (o + 9) 1, src := pbytes d (o + 12) 4, dst := pbytes d (o + 16) 4,
                            next := o + 4 * ihl, endp := o + tl, frag := decide (pbe d (o + 6) 2 % 0x4000 ≠ 0) }
            if !inetOk (inetSum (pbytes d o (4 * ihl))) then { h with err := true }
            else if d.length < o + tl ∨ tl < 4 * ihl then { h with ok := true, err := true }
            else { h with ok := true }
  else if et = 0x86DD then
    match hdrAt d o 40 with
    | 1 => { err := true }
    | 2 => { long := true }
    | _ =>
      if pbe d o 1 / 16 ≠ 6 then {}
      else
        let pl := pbe d (o + 4) 2
        let h : L3 := { found := true, ok := true, v6 := true, proto := pbe d (o + 6) 1, src := pbytes d (o + 8) 16,
                        dst := pbytes d (o + 24) 16, next := o + 40, endp := o + 40 + pl }
        if d.length < o + 40 + pl then { h with err := true } else v6Ext d 2 h
  else {}

/-- The pseudo-header sum of R114's checksum over the L4 part. -/
def pseudoSum (h : L3) : Nat := inetSum h.src + inetSum h.dst + h.proto + (h.endp - h.next) % 65536 + (h.endp - h.next) / 65536

/-- An L4 header: found, ports, checksum wrong. -/
structure L4 where
  found : Bool := false
  tcp : Bool := false
  sport : Nat := 0
  dport : Nat := 0
  csumBad : Bool := false
  err : Bool := false
  long : Bool := false
  deriving DecidableEq, Repr

/-- Parse TCP or UDP after `h`; `whole` says that the frame has arrived whole, so that its checksum can be checked. -/
def parseL4 (d : List Byte) (h : L3) (whole : Bool) : L4 :=
  if !h.found ∨ h.err ∨ h.long ∨ h.frag ∨ (h.proto ≠ 6 ∧ h.proto ≠ 17) then {}
  else
    let n := if h.proto = 6 then 20 else 8
    match hdrAt d h.next n with
    | 1 => { err := true }
    | 2 => { long := true }
    | _ =>
      let c := pbe d (h.next + (if h.proto = 6 then 16 else 6)) 2
      let good := inetOk (pseudoSum h + inetSum (pbytes d h.next (h.endp - h.next)))
      let none4 := decide (h.proto = 17 ∧ c = 0 ∧ h.v6 = false)
      { found := true, tcp := decide (h.proto = 6), sport := pbe d h.next 2, dport := pbe d (h.next + 2) 2,
        csumBad := whole && !none4 && (!good || (decide (h.proto = 17) && c == 0)) }

/-- What the parser finds. -/
structure Parsed where
  etype : Nat := 0
  tags : Nat := 0
  vid : Nat := 0
  pcp : Option Nat := none
  l3off : Nat := 0xFF
  l4off : Nat := 0xFF
  il3off : Nat := 0xFF
  il4off : Nat := 0xFF
  tunnel : Bool := false
  vni : Nat := 0
  iet : Nat := 0
  imac : Nat := 0
  l3 : L3 := {}
  l4 : L4 := {}
  err : Bool := false
  long : Bool := false
  pint : Bool := false
  ptp : Option Nat := none
  deriving DecidableEq, Repr

/-- An IEEE 1588 event message header at `o`: messageType 0 to 3 (R229). -/
def ptpEvent (d : List Byte) (o : Nat) : Option Nat :=
  if o + 34 ≤ d.length ∧ pbe d o 1 % 16 ≤ 3 then some o else none

/-- Parse a frame (R113). `vxlan`, `pet` and `pudp` are VXLAN_PORT, PINT_ETYPE and PINT_UDP. -/
def parseFrame (d : List Byte) (whole : Bool) (vxlan pet pudp : Nat) : Parsed :=
  let t0 := pbe d 12 2
  let isTag (t : Nat) : Bool := t == 0x8100 || t == 0x88A8
  let tags := if !isTag t0 then 0 else if !isTag (pbe d 16 2) then 1 else 2
  let o := 14 + 4 * tags
  if d.length < o then { err := true, tags := if 18 ≤ d.length then tags else 0, etype := t0 }
  else
    let et := pbe d (o - 2) 2
    let tci := pbe d 14 2
    let p : Parsed := { etype := et, tags := tags, vid := if tags = 0 then 0 else tci % 4096,
                        pcp := if tags = 0 then none else some (tci / 8192), pint := decide (et = pet),
                        ptp := if et = 0x88F7 then ptpEvent d o else none }
    let h := parseL3 d o et
    let q := parseL4 d h whole
    let p := { p with l3 := h, l4 := q, err := h.err || q.err, long := h.long || q.long,
                      l3off := if h.found then o else 0xFF, l4off := if q.found then h.next else 0xFF }
    if q.found ∧ q.tcp = false then
      let p := { p with pint := p.pint || (decide (pudp ≠ 0) && q.dport == pudp),
                        ptp := if q.dport = 319 then ptpEvent d (h.next + 8) else p.ptp }
      if q.dport = vxlan then
        let v := h.next + 8
        match hdrAt d v 22 with
        | 1 => { p with err := true }
        | 2 => { p with long := true }
        | _ =>
          let iet := pbe d (v + 20) 2
          let ih := parseL3 d (v + 22) iet
          let iq := parseL4 d ih whole
          { p with tunnel := true, vni := pbe d (v + 4) 3, iet := iet, imac := v + 8, l3 := ih, l4 := iq,
                   err := p.err || ih.err || iq.err, long := p.long || ih.long || iq.long,
                   il3off := if ih.found then v + 22 else 0xFF, il4off := if iq.found then ih.next else 0xFF }
      else p
    else p

/-- PFLAGS without HIT and CUT (R114). -/
def Parsed.flags (p : Parsed) : Nat :=
  b2n p.l3.ok + 2 * b2n p.l4.found + 8 * b2n p.err + 16 * b2n p.l3.v6 + 32 * b2n p.l4.tcp + 64 * b2n p.l3.frag +
  128 * b2n p.tunnel + 256 * b2n (p.tags != 0) + 512 * b2n (p.tags == 2) + 1024 * b2n p.pint + 2048 * b2n p.ptp.isSome +
  4096 * b2n p.l4.csumBad + 8192 * b2n p.long

/-- Pad to `n` bytes with zeros. -/
def padTo (n : Nat) (d : List Byte) : List Byte := d ++ List.replicate (n - d.length) 0

/-- The 44-byte flow key (R115). -/
def flowKey (d : List Byte) (p : Parsed) : List Byte :=
  let ip := p.l3.found && p.l3.src != []
  let mac := if p.tunnel then p.imac else 0
  let et := if p.tunnel then p.iet else p.etype
  let src := if ip then p.l3.src else pbytes d (mac + 6) 6
  let dst := if ip then p.l3.dst else pbytes d mac 6
  let kt := if !ip then 5 else if p.l3.v6 then 2 else 1
  let kt := if !p.tunnel then kt else if kt = 5 then 6 else kt + 2
  padTo 16 src ++ padTo 16 dst ++ beBytes 2 (if ip then p.l4.sport else et) ++ beBytes 2 p.l4.dport ++
  [BitVec.ofNat 8 (if ip then p.l3.proto else 0), BitVec.ofNat 8 kt] ++ beBytes 2 p.vid ++ beBytes 3 p.vni ++ [0]

/-- Little-endian words of a list of bytes. -/
def leWords : Nat → List Byte → List Word
  | 0, _ => []
  | n + 1, d => BitVec.ofNat 32 (ofLe (d.take 4)) :: leWords n (d.drop 4)

/-- The hash of R116. -/
def keyHash (ks : List Word) : Word :=
  let f := ks.foldl (fun a k => a ^^^ k) 0
  let h := f * 0x9E3779B1
  h ^^^ (h >>> 16)

/-- b1 and b2 of R116 for a table of 2^l buckets. -/
def bucket1 (h : Word) (l : Nat) : Nat := h.toNat % 2 ^ l
def bucket2 (h : Word) (l : Nat) : Nat := (~~~(h.rotateLeft 16)).toNat % 2 ^ l

end Sys2Proof.Machine
end

