-- ==== Sys2Proof/Machine/Flow.lean ====
section
/-! DEFINITION. Machine/Flow.lean: what the Ethernet complex does with frames: reception, the flow table and its caches,
classification, dispatch queues, transmission, flow control, injection, lanes and links (R109 to R136, R229 to R231). -/

namespace Sys2Proof.Machine

/-! ### Tables and flow caches (R117, R118) -/

/-- Table `n` is enabled: EN with a legal KEYW and L; table 0 needs KEYW 11. -/
def State.tblOn (s : State) (n : Nat) : Bool :=
  let f (x : Fld) := s.rf .eth R.TBL_CFG x n
  f F.TBL_CFG_EN == 1 && decide (1 ≤ f F.TBL_CFG_KEYW ∧ f F.TBL_CFG_KEYW ≤ 11) &&
    decide (10 ≤ f F.TBL_CFG_LOG2_BUCKETS ∧ f F.TBL_CFG_LOG2_BUCKETS ≤ 22) && (n != 0 || f F.TBL_CFG_KEYW == 11)

def State.tblKeyw (s : State) (n : Nat) : Nat := s.rf .eth R.TBL_CFG F.TBL_CFG_KEYW n
/-- The address of bucket `i` of table `n`, modulo the 40-bit space. -/
def State.bucketAddr (s : State) (n i : Nat) : Nat := (256 * (s.rd .eth R.TBL_BASE n).toNat + 256 * i) % 2 ^ 40
/-- The addresses of the two buckets of a hash. -/
def State.buckets (s : State) (n : Nat) (h : Word) : Nat × Nat :=
  let l := s.rf .eth R.TBL_CFG F.TBL_CFG_LOG2_BUCKETS n
  (bucket1 h l, bucket2 h l)

/-- The set of a bucket line: the model takes the low bits of its number (DESIGN CHOICE, log 20). -/
def fcSetOf (q a : Nat) : Nat := 512 * q + a / 256 % 512
/-- The line of address `a` in the flow cache of quadrant `q`. -/
def State.fcLine (s : State) (q a : Nat) : Option (List Byte × Bool) :=
  ((mapGet {} s.eth.fcache (fcSetOf q a)).ways.find? (fun e => e.2.1 == a)).map (fun e => e.2.2)
/-- Install a line: a free way, else the next way round robin (R118). -/
def State.fcFill (s : State) (q a : Nat) (d : List Byte) (p : Bool) : State :=
  let k := fcSetOf q a
  let x := mapGet {} s.eth.fcache k
  let w := match (List.range 8).find? (fun w => !x.ways.any (fun e => e.1 == w)) with
    | some w => w
    | none => x.ptr % 8
  let full := (List.range 8).all (fun w => x.ways.any (fun e => e.1 == w))
  let y : FcSet := { ways := mapInsert w (a, d, p) x.ways, ptr := if full then (x.ptr + 1) % 8 else x.ptr }
  { s with eth := { s.eth with fcache := mapSet {} s.eth.fcache k y } }
/-- FC_INV: drop a line from all four caches (R118). -/
def State.fcInv (s : State) (a : Nat) : State :=
  { s with eth := { s.eth with fcache := s.eth.fcache.filterMap (fun e =>
      let ways := e.2.ways.filter (fun w => w.2.1 != a)
      if e.1 % 512 = a / 256 % 512 then (if ways = [] ∧ e.2.ptr = 0 then none else some (e.1, { e.2 with ways := ways }))
      else some e) } }

/-- The first VALID entry of a bucket with an equal key: its slot and F0 to F4. -/
def findEntry (d : List Byte) (key : List Word) : Option (Nat × List Word) :=
  (List.range 4).findSome? (fun i =>
    let e := (d.drop (64 * i)).take 64
    let f := leWords 5 (e.drop 44)
    if (f.headD 0).bit 31 ∧ leWords key.length e = key then some (i, f) else none)

/-- A lookup in the flow cache: `none` when a line it needs is missing, else the match as (bucket·4 + slot, F0 to F4). -/
def State.look (s : State) (n : Nat) (key : List Word) (h : Word) : Option (Option (Nat × List Word)) :=
  let q := natBits h.toNat 31 30
  let (b1, b2) := s.buckets n h
  match s.fcLine q (s.bucketAddr n b1) with
  | none => none
  | some (d, _) => match findEntry d key with
    | some (i, f) => some (some (4 * b1 + i, f))
    | none => match s.fcLine q (s.bucketAddr n b2) with
      | none => none
      | some (d, _) => some ((findEntry d key).map (fun (i, f) => (4 * b2 + i, f)))

/-- Read both buckets into the cache (R118); an error code where memory refuses one. -/
def State.lookFill (s : State) (n : Nat) (h : Word) : Option Nat × State :=
  let q := natBits h.toNat 31 30
  let (b1, b2) := s.buckets n h
  let one (s : State) (a : Nat) : Option Nat × State :=
    match s.devRead (s.reqOf .eth) a 256 with
    | ({ err := some c, .. }, s) => (some c, s)
    | (r, s) => (none, s.fcFill q a r.data r.poison)
  match one s (s.bucketAddr n b1) with
  | (some c, s) => (some c, s)
  | (none, s) => one s (s.bucketAddr n b2)

/-! ### Dispatch queues (R119, R120) -/

/-- Queue a frame for engine `e`; a queue of 256 is full. -/
def State.queueFor (s : State) (e : Nat) (d : DispEnt) : State :=
  if 256 ≤ (s.dispq e).length then s.drop d.frame dDispq else s.setDispq e (s.dispq e ++ [d])

/-- A frame whose context is lost (R120). -/
def State.ctxLost (s : State) (f : Nat) : State :=
  let n := s.ethF R.MISS_CFG F.MISS_CFG_LOST_EXQ
  s.exqDevice n f dCtxLost (if (s.rd .eth R.EXQ_CFG n).bit 7 then dExqFull else dCtxLost)

/-- Dispatch with context `c` = 256·E + n to the engine that holds E's bank. -/
def State.dispatchCtx (s : State) (f c sel : Nat) (w : Word) : State :=
  let e := c / 256
  if s.engState e = engFailed ∧ !s.adopted e then s.ctxLost f
  else s.queueFor (s.holder e) { frame := f, ctx := some c, sel := sel, word := w }

/-- The engines that take STATELESS dispatches: set in STL_MASK and RUNNING. -/
def State.stateless (s : State) : List Nat :=
  (List.range 64).filter (fun e =>
    (if e < 32 then (s.rd .eth R.STL_MASK_LO).bit e else (s.rd .eth R.STL_MASK_HI).bit (e - 32)) && s.engState e == engRunning)

/-- A STATELESS dispatch; with no engine to take it the frame is dropped as if its queue were full (DESIGN CHOICE, log 21). -/
def State.dispatchFree (s : State) (f sel : Nat) (w : Word) : State :=
  let es := s.stateless
  match es[(s.frame f).hash.toNat % max 1 es.length]? with
  | some e => s.queueFor e { frame := f, ctx := none, sel := sel, word := w }
  | none => s.drop f dDispq

/-! ### Classification (R113, R114, R119, R121) -/

/-- Destinations (R126): kind, port, class and TI, or `none` for one that is refused. -/
def State.dest (s : State) (w : Word) : Option (Nat × Nat × Nat × Nat) :=
  let n := w.toNat
  let k := natBits n 31 28
  if 1 < k ∨ natBits n 27 17 ≠ 0 ∨ !s.portExists (natBits n 16 14) then none
  else some (k, natBits n 16 14, natBits n 13 11, natBits n 10 0)

/-- The parse record (R114). -/
def parseRec (p : Parsed) (flags tc port : Nat) (hash : Word) (arr idx ti : Nat) : List Word :=
  [BitVec.ofNat 32 (flags % 65536 + 65536 * tc + 2 ^ 19 * port),
   BitVec.ofNat 32 (p.l3off + 2 ^ 8 * p.l4off + 2 ^ 16 * p.il3off + 2 ^ 24 * p.il4off),
   BitVec.ofNat 32 (p.etype + 2 ^ 16 * p.vid), hash, lo32 arr, hi32 arr, BitVec.ofNat 32 (idx % 2 ^ 24), BitVec.ofNat 32 (ti % 2048)]

/-- Parse frame `f` again: its record, key and FLOWHASH (R113 to R116). -/
def State.parseInto (s : State) (f : Nat) : Parsed × State :=
  let x := s.frame f
  let p := parseFrame x.data x.tail (s.ethF R.PARSE_CFG F.PARSE_CFG_VXLAN_PORT) (s.ethF R.PINT_CFG F.PINT_CFG_PINT_ETYPE)
    (s.ethF R.PINT_CFG F.PINT_CFG_PINT_UDP)
  let key := flowKey x.data p
  let h := keyHash (leWords 11 key)
  let miss := s.ethF R.MISS_CFG F.MISS_CFG_MISS_TI
  let x := { x with key := key, hash := h, ti := if x.owned then x.ti else miss,
                    prec := parseRec p (p.flags + 16384 * b2n (!x.tail)) x.tc x.port h x.arr 0xFFFFFF miss }
  (p, s.setFrame f x)

/-- Set the HIT flag, index and TI in a frame's parse record. -/
def Frame.found (x : Frame) (hit : Bool) (idx ti : Nat) : Frame :=
  { x with prec := ((x.prec.set 0 ((x.prec.headD 0).setFld ⟨2, 2⟩ (b2n hit))).set 6 (BitVec.ofNat 32 idx)).set 7 (BitVec.ofNat 32 ti) }

/-- Send frame `f` to a destination without an engine, or hand it back for the parser: the returned frame is to be parsed. -/
def State.forwardTo (s : State) (f : Nat) (w : Word) : Option Nat × State :=
  match s.dest w with
  | none => (none, s.drop f dFlow)
  | some (0, p, c, t) =>
    if s.egressRoom p c then
      let s := s.disown f
      (none, (s.setFrame f { s.frame f with tc := c, ti := t }).enqueue p c f)
    else (none, s.drop f dLinkDown)
  | some (_, p, c, _) =>
    let x := s.frame f
    if 2 ≤ x.recirc then (none, s.drop f dRecirc)
    else
      let s := s.disown f
      (some f, s.setFrame f { s.frame f with port := p, tc := c, recirc := x.recirc + 1 })

/-- What the lookup's outcome does with frame `f` (R119, R121): the frame again where it goes back to the parser. -/
def State.classify (s : State) (f : Nat) (res : Option (Nat × List Word)) : Option Nat × State :=
  let hit := res.isSome
  let (idx, w) := res.getD (0xFFFFFF, [])
  let f0 := (w.headD 0).toNat
  let t := if hit then natBits f0 24 14 else s.ethF R.MISS_CFG F.MISS_CFG_MISS_TI
  let s := s.setFrame f { (s.frame f).found hit idx t with ti := if (s.frame f).owned then (s.frame f).ti else t }
  let st := (s.ti t).st
  let x := s.frame f
  if st = 3 ∨ st = 4 ∨ (st = 0 ∧ hit) then (none, s.drop f dTiReset)
  else if !x.owned ∧ (s.ti t).bufQuota < (s.ti t).cells + x.cells then (none, s.drop f dQuota)
  else
    let s := if x.owned then s else s.own f t
    let f1 := w.getD 1 0
    if hit then
      match natBits f0 30 29 with
      | 0 => (none, s.dispatchCtx f (256 * natBits f0 13 8 + natBits f0 7 0) (natBits f0 28 25) f1)
      | 1 => (none, s.dispatchFree f (natBits f0 28 25) f1)
      | 2 => s.forwardTo f (w.getD 2 0)
      | _ => (none, s.drop f dFlow)
    else match s.ethF R.MISS_CFG F.MISS_CFG_MISS_ACTION with
      | 0 => (none, s.dispatchFree f (s.ethF R.MISS_CFG F.MISS_CFG_MISS_SEL) 0)
      | 1 => (none, s.exqDevice (s.ethF R.MISS_CFG F.MISS_CFG_MISS_EXQ) f dMiss)
      | _ => (none, s.drop f dMiss)

/-- One pass of the parser and classifier over frame `f`. -/
def State.ingest1 (s : State) (f : Nat) : Option Nat × State :=
  let (p, s) := s.parseInto f
  let act := s.ethF R.ETH_CFG F.ETH_CFG_ERR_ACTION
  if p.err ∧ (act = 1 ∨ act = 3) then (none, s.drop f dParse)
  else if p.err ∧ act = 2 then (none, s.exqDevice (s.ethF R.MISS_CFG F.MISS_CFG_MISS_EXQ) f dParse)
  else if !s.tblOn 0 then s.classify f none
  else
    let x := s.frame f
    match s.look 0 (leWords 11 x.key) x.hash with
    | some r => s.classify f r
    | none => (none, { s with eth := { s.eth with looks := s.eth.looks ++ [⟨0, leWords 11 x.key, x.hash, .frame f⟩] } })

/-- The parser and classifier, with at most `n` passes: a frame recirculates at most twice (R126). -/
def State.ingestN (s : State) : Nat → Nat → State
  | 0, f => s.drop f dRecirc
  | n + 1, f => match s.ingest1 f with
    | (some f, s) => s.ingestN n f
    | (none, s) => s
def State.ingest (s : State) (f : Nat) : State := s.ingestN 4 f

/-- FLOW_CACHE_MISS_FILL for the `i`-th waiting lookup (R118); an earlier lookup of the same hash goes first. -/
def State.lookDone (s : State) (i : Nat) : State :=
  match s.eth.looks[i]? with
  | none => s
  | some l =>
    if (s.eth.looks.take i).any (fun m => m.hash == l.hash && m.tbl == l.tbl) then s
    else
      let s := { s with eth := { s.eth with looks := s.eth.looks.eraseIdx i } }
      let (e, s) := s.lookFill l.tbl l.hash
      let r := (s.look l.tbl l.key l.hash).getD none
      match l.who with
      | .frame f => match s.classify f (if e.isSome then none else r) with
        | (some f, s) => s.ingest f
        | (none, s) => s
      | .op th o => match e, r with
        | some c, _ => s.opResult th o (8 + c)
        | none, some (_, w) => s.opResult th o 0 w
        | none, none => s.opResult th o 1

/-! ### Reception (R111, R112, R121, R123, R135) -/

def cellsFor (n : Nat) : Nat := (n + 255) / 256

/-- The class of a frame: PCP of the outer tag, or DEFAULT_TC (R112). -/
def State.rxClass (s : State) (d : List Byte) : Nat :=
  let t := pbe d 12 2
  if (t = 0x8100 ∨ t = 0x88A8) ∧ 16 ≤ d.length then pbe d 14 2 / 8192 else s.ethF R.ETH_CFG F.ETH_CFG_DEFAULT_TC

/-- The receive timestamp at port `p` (R229). -/
def State.rxTime (s : State) (p : Nat) : Nat := ((s.now : Int) + sext 16 (s.rf .eth R.TS_CORR F.TS_CORR_RX_CORR p)).toNat % 2 ^ 64

/-- Admit a frame to the buffer: QUIESCE and BUF_FULL drops, else its record. -/
def State.admitFrame (s : State) (p : Nat) (d : List Byte) (tail : Bool) : Option Nat × State :=
  let c := s.rxClass d
  let miss := s.ethF R.MISS_CFG F.MISS_CFG_MISS_TI
  if !s.dpOn then (none, s.countDrop true miss dQuiesce)
  else if s.bufCells < s.usedCells + cellsFor d.length then (none, s.countDrop true miss dBufFull)
  else
    let (f, s) := s.addFrame { data := d, tail := tail, port := p, tc := c, arr := s.rxTime p, ti := miss, cls := 8 * p + c, rx := true }
    (some f, s.charge f (cellsFor d.length))

/-- A whole frame, FCS included, arrives at port `p` (R111). -/
def State.frameRx (s : State) (p : Nat) (d : List Byte) : State :=
  if !s.linkUp p then s
  else
    let body := d.take (d.length - 4)
    if d.length < 64 then s.portCnt p 3
    else if s.maxFrame < d.length then s.portCnt p 4
    else if d.drop (d.length - 4) ≠ fcs body then s.portCnt p 2
    else
      let s := ((s.portCnt p 0).portCnt p 1 d.length).bump64 .eth R.RX_TC_LO R.RX_TC_HI 1 p (s.rxClass body)
      match s.admitFrame p body true with
      | (some f, s) => s.ingest f
      | (none, s) => s

/-- The first bytes of a frame at a port with CUT_EN (R123); `d` holds at least 256 bytes of it. -/
def State.cutRx (s : State) (p : Nat) (d : List Byte) : State :=
  if !s.linkUp p ∨ !(s.ethF R.ETH_CFG F.ETH_CFG_CUT_EN).testBit p ∨ d.length < 256 ∨ (mapGet none s.eth.part p).isSome then s
  else match s.admitFrame p d false with
    | (some f, s) => ({ s with eth := { s.eth with part := mapSet none s.eth.part p (some f) } }).ingest f
    | (none, s) => s

/-! ### Transmission (R125, R229 to R231) -/

/-- The transmit time at port `p` (R229). -/
def State.txTime (s : State) (p : Nat) : Nat := ((s.now : Int) + sext 16 (s.rf .eth R.TS_CORR F.TS_CORR_TX_CORR p)).toNat % 2 ^ 64

/-- Overwrite bytes of a frame. -/
def patch (d : List Byte) (o : Nat) (b : List Byte) : List Byte := d.take o ++ b ++ d.drop (o + b.length)

/-- One-step insertion into a Sync message whose PTP header is at `o` (R230). -/
def oneStep (d : List Byte) (o t : Nat) : List Byte :=
  let d1 := patch d (o + 34) (beBytes 6 (t / 1000000000) ++ beBytes 4 (t % 1000000000))
  let p := parseFrame d true 0 0 0
  if p.etype = 0x88F7 then d1
  else if p.l3.v6 then
    let z := patch d1 (p.l3.next + 6) [0, 0]
    let c := inetCsum (pseudoSum p.l3 + inetSum (pbytes z p.l3.next (p.l3.endp - p.l3.next)))
    patch z (p.l3.next + 6) (beBytes 2 (if c = 0 then 0xFFFF else c))
  else patch d1 (p.l3.next + 6) [0, 0]

/-- Add an entry to the transmit timestamp queue (R231). -/
def State.txtsPush (s : State) (p t : Nat) (w : Word) : State :=
  let q := mapGet [] s.eth.txts p
  let c := s.rd .eth R.PTP_CFG p
  let s := if 16 ≤ q.length then s.bump .eth R.TXTS_OVF 1 p
    else { s with eth := { s.eth with txts := mapSet [] s.eth.txts p (q ++ [(t, w)]) } }
  if c.bit 29 ∧ q.length < 16 then s.erRaise (natBits c.toNat 11 10) (natBits c.toNat 9 0) else s

/-- PTP handling of a frame leaving port `p` (R229 to R231): its bytes as sent. -/
def State.txPtp (s : State) (p : Nat) (d : List Byte) : List Byte × State :=
  match (parseFrame d true 0 0 0).ptp with
  | none => (d, s)
  | some o =>
    let ty := pbe d o 1 % 16
    let c := s.rd .eth R.PTP_CFG p
    let t := s.txTime p
    if c.bit 30 ∧ ty = 0 ∧ pbe d (o + 6) 1 / 2 % 2 = 0 then (oneStep d o t, s)
    else if c.bit 31 then
      (d, s.txtsPush p t (BitVec.ofNat 32 (2 ^ 31 + 2 ^ 24 * ty + 2 ^ 16 * pbe d (o + 4) 1 + pbe d (o + 30) 2)))
    else (d, s)

/-- A frame leaves port `p` with its counters; a stomped frame ends with the inverted FCS (R123). -/
def State.emit (s : State) (p f : Nat) (stomp : Bool) : State :=
  let x := s.frame f
  let d0 := padTo 60 x.data
  let (d, s) := if stomp then (d0, s) else s.txPtp p d0
  let crc := if stomp then (fcs d).map (fun b => ~~~b) else fcs d
  let s := s.send (.frame p (d ++ crc))
  let s := ((s.portCnt p 6).portCnt p 7 (d.length + 4)).bump64 .eth R.TX_TC_LO R.TX_TC_HI 1 p x.tc
  let s := if stomp then s.portCnt p 9 else s
  ((s.tiCount x.ti 3 1).tiCount x.ti 4 (d.length + 4)).release f |>.reap f

/-- Class `c` of port `p` has a frame ready to go and is not paused. -/
def State.txReady (s : State) (p c : Nat) : Bool :=
  match s.egress (8 * p + c) with
  | [] => false
  | f :: _ => (mapGet none s.eth.pauseIn (8 * p + c)).isNone && ((s.frame f).tail || (s.frame f).sentCut)

/-- FRAME_TRANSMIT: the port takes the head of its highest ready class (R125). -/
def State.transmit (s : State) (p : Nat) : State :=
  if !s.linkUp p ∨ (mapGet none s.eth.txCut p).isSome then s
  else match [7, 6, 5, 4, 3, 2, 1, 0].find? (fun c => s.txReady p c) with
    | none => s
    | some c => match s.egress (8 * p + c) with
      | [] => s
      | f :: r =>
        let s := s.setEgress (8 * p + c) r
        if (s.frame f).tail then s.emit p f (s.frame f).bad
        else { s with eth := { s.eth with txCut := mapSet none s.eth.txCut p (some f) } }

/-- FRAME_TAIL_ARRIVAL: the rest of the partly received frame of port `p`, FCS included (R123). -/
def State.tailRx (s : State) (p : Nat) (d : List Byte) : State :=
  match mapGet none s.eth.part p with
  | none => s
  | some f =>
    let x := s.frame f
    let whole := x.data ++ d
    let body := whole.take (whole.length - 4)
    let bad := decide (whole.drop (whole.length - 4) ≠ fcs body ∨ s.maxFrame < whole.length)
    let s := { s with eth := { s.eth with part := mapSet none s.eth.part p none } }
    let s := if bad then s.portCnt p 2 else ((s.portCnt p 0).portCnt p 1 whole.length).bump64 .eth R.RX_TC_LO R.RX_TC_HI 1 p x.tc
    if s.eth.frames.any (fun e => e.1 == f) then
      let s := s.setFrame f { x with data := body, tail := true, bad := bad }
      let s := if x.cells = 0 then s else s.charge f (cellsFor body.length - x.cells)
      match s.eth.txCut.find? (fun e => e.2 == some f) with
      | some (q, _) => ({ s with eth := { s.eth with txCut := mapSet none s.eth.txCut q none } }).emit q f bad
      | none => s
    else s

/-! ### Flow control received and repeated (R122) -/

/-- A PFC frame at port `p` for the classes of `en`, with a pause time in quanta of 512 bit times for each. -/
def State.pfcRx (s : State) (p en : Nat) (quanta : List Nat) : State :=
  if !s.linkUp p then s
  else (List.range 8).foldl (fun s c =>
    if en.testBit c then
      let q := quanta.getD c 0 % 65536
      let t := if q = 0 then none else some (s.mono + q * 512 / max 1 (s.portRate p))
      { s with eth := { s.eth with pauseIn := mapSet none s.eth.pauseIn (8 * p + c) t } }
    else s) (s.portCnt p 5)

/-- PFC_PAUSE_EXPIRE for class key `c`. -/
def State.pauseEnd (s : State) (c : Nat) : State :=
  match mapGet none s.eth.pauseIn c with
  | some t => if t ≤ s.mono then { s with eth := { s.eth with pauseIn := mapSet none s.eth.pauseIn c none } } else s
  | none => s

/-- PFC_REFRESH for class key `c`: repeat the pause while the class stays at or above XON. -/
def State.pfcRefresh (s : State) (c : Nat) : State :=
  match mapGet none s.eth.pauseOut c with
  | some t =>
    if t ≤ s.mono ∧ s.linkUp (c / 8) then
      let s := s.pfcSend c 0xFFFF
      { s with eth := { s.eth with pauseOut := mapSet none s.eth.pauseOut c (some (s.mono + s.halfPause (c / 8))) } }
    else s
  | none => s

/-! ### Injection (R130) -/

/-- INJECTION_CONSUME for queue `n`. -/
def State.inject (s : State) (n : Nat) : State :=
  let cfg := s.rd .eth R.INJ_CFG n
  let prod := (s.rd .eth R.INJ_PROD n).toNat
  let cons := (s.rd .eth R.INJ_CONS n).toNat
  if !cfg.bit 7 ∨ prod = cons then s
  else
    let a := 256 * (s.rd .eth R.INJ_BASE n).toNat + ringSlot cfg * (cons % ringSlots cfg)
    let s := s.wr .eth R.INJ_CONS (BitVec.ofNat 32 ((cons + 1) % 2 ^ 16)) n
    let bad (s : State) : State := s.wf .eth R.ETH_STATUS F.ETH_STATUS_INJ_BAD (min 63 (s.ethF R.ETH_STATUS F.ETH_STATUS_INJ_BAD + 1))
    match s.devRead (s.reqOf .eth) a (ringSlot cfg) with
    | ({ err := some _, .. }, s) => bad s
    | (r, s) =>
      let len := natBits (ofLe (r.data.take 4)) 13 0
      let w : Word := BitVec.ofNat 32 (ofLe ((r.data.drop 4).take 4))
      if len < 14 ∨ s.maxFrame - 4 < len ∨ ringSlot cfg - 64 < len then bad s
      else match s.dest w with
        | none => bad s
        | some (k, p, c, t) =>
          let (f, s) := s.addFrame { data := (r.data.drop 64).take len, port := p, tc := c, arr := s.now, ti := t, cls := 8 * p + c,
                                     rx := decide (k = 1), recirc := k, poison := r.poison }
          if k = 0 then s.enqueue p c f else s.ingest f

/-! ### Links and lanes (R109, R110, R125) -/

/-- Drop the egress queues of a port that goes down (R136). -/
def State.flushPort (s : State) (p : Nat) : State :=
  (List.range 8).foldl (fun s c =>
    let q := s.egress (8 * p + c)
    q.foldl (fun s f => (s.dropKeep f dLinkDown).reap f) (s.setEgress (8 * p + c) [])) s

/-- LINK_UP follows the ports. -/
def State.linkBits (s : State) : State :=
  s.wf .eth R.ETH_STATUS F.ETH_STATUS_LINK_UP ((List.range 8).foldl (fun n p => n + 2 ^ p * b2n (s.linkUp p)) 0)

/-- Port `p` goes down. -/
def State.portDown (s : State) (p : Nat) : State :=
  let s := s.setEPort p { s.ePort p with up := false }
  let s := { s with eth := { s.eth with
      part := mapSet none s.eth.part p none, txCut := mapSet none s.eth.txCut p none,
      pauseIn := mapDrop (fun k => k / 8 == p) s.eth.pauseIn, pauseOut := mapDrop (fun k => k / 8 == p) s.eth.pauseOut } }
  (s.flushPort p).linkBits

/-- The lanes port `p` can run on, with the failed lanes of LANE_FAIL left out (R110): the widest healthy group. -/
def State.healthyLanes (s : State) (p : Nat) : Nat :=
  let bad := s.ethF R.ETH_STATUS F.ETH_STATUS_LANE_FAIL
  let w := s.portWidth
  let grp (o n : Nat) : Nat := (2 ^ n - 1) * 2 ^ (w * p + o)
  let cand := match w with
    | 4 => [grp 0 4, grp 0 2, grp 2 2]
    | 2 => [grp 0 2, grp 0 1, grp 1 1]
    | _ => [grp 0 1]
  (cand.find? (fun m => m &&& bad == 0)).getD 0

/-- Auto-negotiation starts on port `p`. -/
def State.portStart (s : State) (p : Nat) : State :=
  if s.portExists p then
    let m := s.healthyLanes p
    s.setEPort p { up := false, lanes := m, training := m != 0 }
  else s.setEPort p {}

/-- Take every link down (R109, R135); `restart` starts them again in the current port set. -/
def State.linksDown (s : State) (restart : Bool) : State :=
  let s := (List.range 8).foldl (fun s p => s.portDown p) s
  (List.range 8).foldl (fun s p => if restart then s.portStart p else s.setEPort p {}) s

/-- PORT_LINK_UP (R109). -/
def State.portUp (s : State) (p : Nat) : State :=
  let x := s.ePort p
  if x.training ∧ s.portExists p ∧ s.answers .eth ∧ s.mode.mode ≠ .boot then (s.setEPort p { x with up := true, training := false }).linkBits
  else s

/-- LANE_FAIL: lane `l` fails (R110). -/
def State.laneFail (s : State) (l : Nat) : State :=
  let p := l / s.portWidth
  let s := s.wf .eth R.ETH_STATUS F.ETH_STATUS_LANE_FAIL (s.ethF R.ETH_STATUS F.ETH_STATUS_LANE_FAIL ||| 2 ^ l)
  if s.portExists p ∧ (s.ePort p).lanes.testBit l then (s.portDown p).portStart p else s

/-! ### Register effects -/

/-- No frame remains in the packet path (R135). -/
def State.pathEmpty (s : State) : Bool :=
  s.eth.looks.isEmpty && s.eth.frames.all (fun e => e.2.disp) && s.eth.dispq.all (fun e => e.2.isEmpty) &&
  s.eth.egress.all (fun e => e.2.isEmpty)

/-- QUIESCED: the quiesced path is empty (R135). -/
def State.quiesced (s : State) : Bool :=
  s.rb .eth R.ETH_STATUS F.ETH_STATUS_QUIESCED && !s.dpOn && s.pathEmpty

/-- A write of an Ethernet register the spec refuses: none gets FORMAT. -/
def State.ethPost (s : State) (r : Reg) (i : Nat) (old v : Word) : State :=
  let new (f : Fld) := v.fld f
  if r = R.ETH_CFG then
    if natBits old.toNat 1 0 ≠ natBits (s.rd .eth r).toNat 1 0 then
      (s.wf .eth R.ETH_STATUS F.ETH_STATUS_LANE_FAIL 0).linksDown (s.mode.mode != .boot && s.mode.mode != .dormant)
    else s
  else if r = R.RXBUF_BASE ∨ r = R.RXBUF_SIZE then
    if s.quiesced ∨ s.ethF R.ETH_STATUS F.ETH_STATUS_LINK_UP = 0 then s else s.wr .eth r old
  else if r = R.FC_INV then s.fcInv (256 * v.toNat)
  else if r = R.EXQ_CFG then
    if new F.EXQ_CFG_EN = 0 then (s.wr .eth R.EXQ_PROD 0 i).wr .eth R.EXQ_CONS 0 i else s
  else if r = R.INJ_CFG then
    if new F.INJ_CFG_EN = 0 then (s.wr .eth R.INJ_PROD 0 i).wr .eth R.INJ_CONS 0 i else s
  else if r = R.PFC_TH then s.pfcCheck i
  else if r = R.SHAPE then
    { s with eth := { s.eth with shapeNew := if s.eth.shapeNew.contains i then s.eth.shapeNew else i :: s.eth.shapeNew } }
  else if r = R.KEY_COMMIT ∧ v.bit 0 then
    let a := (s.rd .eth R.KEY_ATTR).toNat
    let k : KeySlot := { key := (List.range 8).flatMap (fun w => leBytes 4 (s.rd .eth R.KEY_WORD w).toNat), salt := s.rd .eth R.KEY_SALT,
                         ti := natBits a 10 0, shared := a.testBit 11, valid := a.testBit 12 }
    let s := { s with eth := { s.eth with keys := mapSet {} s.eth.keys (s.ethF R.KEY_SLOT F.KEY_SLOT_SLOT) k } }
    (List.range 8).foldl (fun s w => s.wr .eth R.KEY_WORD 0 w) s
  else s

/-- SHAPE_APPLY: the changed values take effect at a 1,000 ns multiple (R124). -/
def State.shapeApply (s : State) : State :=
  if s.now % 1000 = 0 then
    let s1 := s.eth.shapeNew.foldl (fun s i =>
      let x := mapGet {} s.eth.shape i
      { s with eth := { s.eth with shape := mapSet {} s.eth.shape i { x with active := s.rd .eth R.SHAPE i } } }) s
    { s1 with eth := { s1.eth with shapeNew := [] } }
  else s

/-- TXTS_POP read: the head entry, and its time for the latch (R231). -/
def State.txtsPop (s : State) (p : Nat) : Word × List Word × State :=
  match mapGet [] s.eth.txts p with
  | [] => (0, [0, 0], s)
  | (t, w) :: r => (w, [lo32 t, hi32 t], { s with eth := { s.eth with txts := mapSet [] s.eth.txts p r } })

end Sys2Proof.Machine
end

