-- ==== Sys2Proof/Machine/Host.lean ====
section
/-! DEFINITION. Machine/Host.lean: requests of the device to host memory: links, tags, address translation, invalidation,
outbound accesses and message vectors (R29, R64, R153 to R156). -/

namespace Sys2Proof.Machine

/-! ### Links and functions -/

def State.pf (s : State) (l : Nat) : Pf := mapGet {} s.pcie.fn l
def State.setPf (s : State) (l : Nat) (x : Pf) : State :=
  { s with pcie := { s.pcie with fn := mapSet {} s.pcie.fn l x } }
/-- STRAP_PCIE_BIF selects two x8 links (R27). -/
def State.twoLinks (s : State) : Bool := s.peat.straps.testBit 4
/-- Link `l` is used. -/
def State.linkUsed (s : State) (l : Nat) : Bool := l == 0 || (l == 1 && s.twoLinks)
/-- Link `l` is in DL_Active with Bus Master Enable. -/
def State.linkReady (s : State) (l : Nat) : Bool := s.linkUsed l && (s.pf l).up && (s.pf l).bme

/-! ### Tags (R64) -/

def State.tag (s : State) (t : Nat) : Option Tag := mapGet none s.pcie.tags t
def State.setTag (s : State) (t : Nat) (x : Option Tag) : State :=
  { s with pcie := { s.pcie with tags := mapSet none s.pcie.tags t x } }
/-- Tags in use on link `l`. -/
def State.tagsUsed (s : State) (l : Nat) : Nat :=
  (s.pcie.tags.filter (fun e => match e.2 with
    | some t => t.link == l
    | none => false)).length
def State.tagLimit (s : State) : Nat := if s.twoLinks then 8192 else 16384
def State.newTag (s : State) (x : Tag) : Nat × State :=
  (s.pcie.nextTag, { s.setTag s.pcie.nextTag (some x) with
    pcie := { (s.setTag s.pcie.nextTag (some x)).pcie with nextTag := s.pcie.nextTag + 1 } })

/-! ### Jobs -/

def State.job (s : State) (j : Nat) : Option Job := mapGet none s.pcie.jobs j
def State.setJob (s : State) (j : Nat) (x : Option Job) : State :=
  { s with pcie := { s.pcie with jobs := mapSet none s.pcie.jobs j x } }
def State.addJob (s : State) (x : Job) : Nat × State :=
  (s.pcie.nextJob, { s.setJob s.pcie.nextJob (some x) with
    pcie := { (s.setJob s.pcie.nextJob (some x)).pcie with nextJob := s.pcie.nextJob + 1 } })

/-- The pieces of `[a, a + n)` by 4 KiB page: offset and length, at most `f` of them. -/
def pagePieces : Nat → Nat → Nat → Nat → List (Nat × Nat)
  | 0, _, _, _ => []
  | f + 1, a, off, n =>
    if n = 0 then []
    else
      let k := min n (4096 - (a + off) % 4096)
      (off, k) :: pagePieces f a (off + k) (n - k)

def Job.pieces (x : Job) : List (Nat × Nat) := pagePieces (x.len / 4096 + 2) x.addr 0 x.len

/-- The cached translation of address `a` for a TI (R155). -/
def State.atcFind (s : State) (l t p a : Nat) : Option Atc :=
  s.pcie.atc.findSome? (fun e => match e.2 with
    | some x => if x.link = l ∧ x.ti = t ∧ x.pasid = p ∧ x.page ≤ a ∧ a < x.page + 2 ^ x.lg then some x else none
    | none => none)

/-- Insert a translation, replacing round robin among 8,192 entries (R155). -/
def State.atcAdd (s : State) (x : Atc) : State :=
  let free := (List.range (s.pcie.atc.length + 1)).find? (fun i => (mapGet none s.pcie.atc i).isNone && decide (i < 8192))
  let i := free.getD (s.pcie.atcPtr % 8192)
  { s with pcie := { s.pcie with atc := mapSet none s.pcie.atc i (some x),
                                 atcPtr := if free.isSome then s.pcie.atcPtr else (s.pcie.atcPtr + 1) % 8192 } }

/-- What translating the pages of a job comes to: every address, a missing page, or a page without permission. -/
inductive Xlate where
  | done (xl : List (Nat × Nat))
  | miss (page : Nat)
  | deny (page : Nat)
  deriving DecidableEq, Repr

/-- Translate every piece of a job (R155): piece offset and host address. -/
def State.xlate (s : State) (x : Job) : Xlate :=
  match x.ti with
  | none => .done (x.pieces.map (fun p => (p.1, x.addr + p.1)))
  | some t =>
    if !(s.pf x.link).atsEn then .done (x.pieces.map (fun p => (p.1, x.addr + p.1)))
    else
      let ps := ((s.ti t).pasid).getD 0
      x.pieces.foldl (fun acc p => match acc with
        | .done l =>
          let a := x.addr + p.1
          match s.atcFind x.link t ps a with
          | none => .miss (a / 4096 * 4096)
          | some e => if (if x.write then e.w else e.r) then .done (l ++ [(p.1, e.ta + (a - e.page))]) else .deny (a / 4096 * 4096)
        | o => o) (.done [])

/-- The PASID a job's requests carry. -/
def State.jobPasid (s : State) (x : Job) : Option Nat := x.ti.bind (fun t => (s.ti t).pasid)

/-- A translation failed: a page request and one retry, or the end of the access (R155). `some false` means failed. -/
def State.xlateFail (s : State) (j : Nat) (x : Job) (page : Nat) : Option Bool × State :=
  match x.ti with
  | some t =>
    if (s.ti t).pri ∧ !x.retry then
      let s := s.send (.pcieMsg x.link 1 page)
      (none, { s with pcie := { s.pcie with pri := s.pcie.pri ++ [j] } })
    else (some false, s)
  | none => (some false, s)

/-- Advance job `j` (R155): translate, then send its writes or its reads. `some ok` when it is finished. -/
def State.jobStep (s : State) (j : Nat) : Option Bool × State :=
  match s.job j with
  | none => (none, s)
  | some x =>
    if x.started then (none, s)
    else if !s.linkReady x.link then (some false, s)
    else match s.xlate x with
      | .deny page => s.xlateFail j x page
      | .miss page =>
        if s.tagLimit ≤ s.tagsUsed x.link then (none, s)
        else
          let (t, s) := s.newTag { link := x.link, job := some j, page := some page }
          (none, s.send (.pcieMsg x.link 2 t))
      | .done xl =>
        if x.write then
          (some true, (x.pieces.zip xl).foldl (fun s p =>
            s.send (.pcieWrite x.link p.2.2 ((x.data.drop p.1.1).take p.1.2) (s.jobPasid x) x.poison)) s)
        else if s.tagLimit < s.tagsUsed x.link + xl.length then (none, s)
        else
          let s := s.setJob j (some { x with started := true, xl := xl, open_ := xl.length, data := List.replicate x.len 0 })
          (none, (x.pieces.zip xl).foldl (fun s p =>
            let (t, s) := s.newTag { link := x.link, job := some j, off := p.1.1, len := p.1.2 }
            s.send (.pcieRead x.link p.2.2 p.1.2 (s.jobPasid x) t)) s)

/-- A tag is returned: its job, and the tag record; an orphaned tag is counted out of TAG_ORPHAN (R160). -/
def State.tagReturn (s : State) (t : Nat) (x : Tag) : State :=
  let s := s.setTag t none
  match x.job with
  | some _ => s
  | none => { s with pcie := { s.pcie with orphans := mapSet 0 s.pcie.orphans x.link (mapGet 0 s.pcie.orphans x.link - 1) } }

/-- Data for a read tag, or none for an error completion: `some (job, ok)` when the job is finished. -/
def State.tagData (s : State) (t : Nat) (d : Option (List Byte)) (poison : Bool) : Option (Nat × Bool) × State :=
  match s.tag t with
  | none => (none, s)
  | some g =>
    if g.page.isSome then (none, s)
    else
      let s := s.tagReturn t g
      match g.job with
      | none => (none, s)
      | some j => match s.job j with
        | none => (none, s)
        | some x =>
          let x := { x with open_ := x.open_ - 1, poison := x.poison || poison, failed := x.failed || d.isNone,
                            data := patch x.data g.off (padTo g.len ((d.getD []).take g.len)) }
          let s := s.setJob j (some x)
          if x.open_ = 0 then (some (j, !x.failed), s) else (none, s)

/-- A translation completion for tag `t`: page size, address and permissions, or a failure. The job to advance, with
`some false` when its access failed. -/
def State.atsDone (s : State) (t : Nat) (r : Option (Nat × Nat × Bool × Bool)) : Option (Nat × Option Bool) × State :=
  match s.tag t with
  | none => (none, s)
  | some g => match g.page with
    | none => (none, s)
    | some page =>
      let s := s.tagReturn t g
      match g.job with
      | none => (none, s)
      | some j => match s.job j with
        | none => (none, s)
        | some x => match r, x.ti with
          | some (lg, ta, rd, wr), some n =>
            let lg := clampNat 12 30 lg
            let s := s.atcAdd ⟨x.link, n, ((s.ti n).pasid).getD 0, page / 2 ^ lg * 2 ^ lg, lg, rd, wr, ta / 2 ^ lg * 2 ^ lg⟩
            let (o, s) := s.jobStep j
            (some (j, o), s)
          | _, _ =>
            let (o, s) := s.xlateFail j x page
            (some (j, o), s)

/-- A PRI page response for job `j`: the translation is retried once (R155). -/
def State.priDone (s : State) (j : Nat) : Option Bool × State :=
  if s.pcie.pri.contains j then
    let s := { s with pcie := { s.pcie with pri := s.pcie.pri.filter (· != j) } }
    match s.job j with
    | none => (none, s)
    | some x =>
      let s := s.setJob j (some { x with retry := true })
      match s.xlate x with
      | .deny page =>
        -- the entry without permission makes room for the retried translation
        let s := { s with pcie := { s.pcie with atc := s.pcie.atc.filter (fun e => match e.2 with
          | some a => !(a.link == x.link && some a.ti == x.ti && decide (a.page ≤ page ∧ page < a.page + 2 ^ a.lg))
          | none => false) } }
        s.jobStep j
      | _ => s.jobStep j
  else (none, s)

/-! ### Invalidation (R156) -/

def rangesMeet (a n b m : Nat) : Bool := decide (a < b + m ∧ b < a + n)

/-- An ATS Invalidation Request: a 33rd on one link is not accepted. -/
def State.atsInval (s : State) (l itag : Nat) (pasid : Option Nat) (base size : Nat) : State :=
  if 32 ≤ (s.pcie.invs.filter (fun v => v.link == l)).length then s
  else
    let hits (a : Atc) : Bool := a.link == l && rangesMeet a.page (2 ^ a.lg) base size && (match pasid with
      | some p => a.pasid == p
      | none => true)
    let jobs := (s.pcie.jobs.filter (fun e => match e.2 with
      | some x => x.started && x.link == l && x.ti.isSome && rangesMeet x.addr x.len base size && (match pasid with
        | some p => s.jobPasid x == some p
        | none => true)
      | none => false)).map (·.1)
    { s with pcie := { s.pcie with
        atc := s.pcie.atc.filter (fun e => match e.2 with
          | some a => !hits a
          | none => false),
        invs := s.pcie.invs ++ [⟨l, itag, jobs⟩] } }

/-- ATS_INVALIDATION_COMPLETE: the completion goes once no read of a removed entry is outstanding. -/
def State.invalDone (s : State) (l itag : Nat) : State :=
  match s.pcie.invs.find? (fun v => v.link == l && v.itag == itag) with
  | none => s
  | some v =>
    if v.jobs.all (fun j => (s.job j).isNone) then
      ({ s with pcie := { s.pcie with invs := s.pcie.invs.filter (fun w => w != v) } }).send (.pcieMsg l 3 itag)
    else s

/-! ### Message vectors (R153) -/

def msixReset (k : Nat) : Word := if k % 4 = 3 then 1 else 0
def State.msixWord (s : State) (k : Nat) : Word := mapGet (msixReset k) s.pcie.msix k
/-- Signal entry `v` of link `l`: a masked entry stays pending. -/
def State.vector (s : State) (l v : Nat) : State :=
  if !(s.pf l).msixEn ∨ !s.linkReady l then s
  else if (s.msixWord (16384 * l + 4 * v + 3)).bit 0 then
    { s with pcie := { s.pcie with msixPend := if s.pcie.msixPend.contains (4096 * l + v) then s.pcie.msixPend else s.pcie.msixPend ++ [4096 * l + v] } }
  else s.send (.msix l v)
/-- A write of a table word; clearing the mask sends a pending message. -/
def State.msixWrite (s : State) (k : Nat) (v : Word) : State :=
  let v := if k % 4 = 3 then v &&& 1 else if k % 4 = 0 then v &&& 0xFFFFFFFC else v
  let s := { s with pcie := { s.pcie with msix := mapSet (msixReset k) s.pcie.msix k v } }
  let l := k / 16384
  let e := k % 16384 / 4
  if k % 4 = 3 ∧ !v.bit 0 ∧ s.pcie.msixPend.contains (4096 * l + e) then
    ({ s with pcie := { s.pcie with msixPend := s.pcie.msixPend.filter (· != 4096 * l + e) } }).vector l e
  else s

/-! ### The outbound window (R29) -/

/-- The link the window uses. -/
def State.obLink (s : State) : Nat := if s.twoLinks then s.rf .pcie R.OB_CTL F.OB_CTL_LINK else 0
/-- The host address of an address in the window. -/
def State.obAddr (s : State) (a : Nat) : Nat := (s.pcie.obBase + (a - 0x1000000000)) % 2 ^ 64
/-- The window answers. -/
def State.obUp (s : State) : Bool := s.rb .pcie R.OB_CTL F.OB_CTL_OB_EN && s.linkReady s.obLink && s.answers .pcie

/-- A write by a device master that may also reach host memory through the window: the error code, if refused. -/
def State.devWriteOut (s : State) (r : Req) (a : Nat) (b : List Byte) (poison : Bool := false) : Option Nat × State :=
  if s.place a = .outbound then
    match s.guardAcc a r .write with
    | (some c, s) => (some c, s)
    | (none, s) => if s.obUp then (none, s.send (.pcieWrite s.obLink (s.obAddr a) b none poison)) else (some 5, s)
  else s.devWrite r a b poison

/-- A checked request to the window: a posted write, or a read that answers when its completion arrives. -/
def State.outbound (s : State) (r : Req) (a n : Nat) (w : Option (List Byte)) (poison : Bool) : State :=
  if s.place a ≠ .outbound then s.answer (.err 0)
  else match s.guardAcc a r (if w.isSome then .write else .read) with
    | (some c, s) => s.answer (.err c)
    | (none, s) =>
      if !s.obUp then s.answer (.err 5)
      else match w with
        | some d => (s.send (.pcieWrite s.obLink (s.obAddr a) d none poison)).answer (.ok 0)
        | none =>
          let (j, s) := s.addJob { what := .outbound r.master.toNat, link := s.obLink, ti := none, addr := s.obAddr a, len := n,
                                   data := [], write := false }
          (s.jobStep j).2

end Sys2Proof.Machine
end

