-- ==== Sys2Proof/Machine/Ti.lean ====
section
/-! DEFINITION. Machine/Ti.lean: tenant interfaces: admin rings and commands, queue pairs and completions, doorbells, moderation,
resizing, reset and destruction, and the send fetcher (R124, R137 to R163). -/

namespace Sys2Proof.Machine

/-! ### Queue pairs (R146 to R151) -/

/-- A handle: TI in [10:0], queue pair in [14:11] (R146). -/
def hTi (h : Nat) : Nat := h % 2048
def hQ (h : Nat) : Nat := h / 2048 % 16
def State.qp (s : State) (h : Nat) : Option Qp := mapGet none (s.ti (hTi h)).qps (hQ h)
def State.setQp (s : State) (h : Nat) (x : Option Qp) : State :=
  s.setTi (hTi h) { s.ti (hTi h) with qps := mapSet none (s.ti (hTi h)).qps (hQ h) x }

/-- Free-running 16-bit indices (R148). -/
def idxSub (a b : Nat) : Nat := (a + 65536 - b) % 65536
def idxInc (a : Nat) : Nat := (a + 1) % 65536
def ringCap (k : Nat) : Nat := min (2 ^ k) 65535
/-- A free completion slot remains beyond the reservations (R151). -/
def Qp.cqRoom (x : Qp) : Bool := decide (idxSub x.cqp x.cqHead + x.pend.length < ringCap x.cqLog)
def Qp.sqEmpty (x : Qp) : Bool := x.sqTail == x.sqHead
def Qp.rqEmpty (x : Qp) : Bool := x.rqTail == x.rqHead
/-- N of R154. -/
def Qp.n (x : Qp) : Nat := idxSub x.cqp x.cqHead

/-! ### Interrupt moderation (R154) -/

/-- Send a TI's vector. -/
def State.tiVector (s : State) (h v : Nat) : State :=
  let t := s.ti (hTi h)
  if v = 0xFFFF ∨ t.st ≠ 2 then s else s.vector t.link (t.vecFirst + v)

/-- Send the queue pair's vector where R154 asks for it. -/
def State.cqCheck (s : State) (h : Nat) : State :=
  match s.qp h with
  | none => s
  | some x =>
    let waited := decide (max x.armAt x.nzAt + 1000 * x.modTime ≤ s.mono)
    if x.armed ∧ 1 ≤ x.n ∧ (max 1 x.modCount ≤ x.n ∨ waited) ∧ x.vec ≠ 0xFFFF then
      (s.setQp h (some { x with armed := false })).tiVector h x.vec
    else s

/-! ### Admin completions and events (R143) -/

def State.adm (s : State) (l : Nat) : Adm := mapGet {} s.pcie.adm l
def State.setAdm (s : State) (l : Nat) (x : Adm) : State :=
  { s with pcie := { s.pcie with adm := mapSet {} s.pcie.adm l x } }
def State.admSqLog (s : State) (l : Nat) : Nat := s.rf (.bar0 l) R.ADM_CTL F.ADM_CTL_ADM_SQ_LOG2
def State.admCqLog (s : State) (l : Nat) : Nat := s.rf (.bar0 l) R.ADM_CTL F.ADM_CTL_ADM_CQ_LOG2
def State.bar64 (s : State) (l : Nat) (lo hi : Reg) : Nat := (s.rd (.bar0 l) lo).toNat + 2 ^ 32 * (s.rd (.bar0 l) hi).toNat

/-- Slots of the admin completion ring that are neither written and unread nor reserved. -/
def State.admCqFree (s : State) (l : Nat) : Nat :=
  let a := s.adm l
  2 ^ s.admCqLog l - idxSub a.cqTail (s.rd (.bar0 l) R.ADM_CQ_HEAD).toNat - a.prog.length - a.fetching

/-- Write one admin completion entry as one posted write, and signal ADM_VEC (R143). -/
def State.admWrite (s : State) (l cid status result head : Nat) : State :=
  let a := s.adm l
  let k := s.admCqLog l
  let phase := b2n (a.cqTail / 2 ^ k % 2 == 0)
  let d := leBytes 4 (cid % 65536 + 65536 * status) ++ leBytes 4 result ++ leBytes 4 (head % 65536) ++ leBytes 4 (2 ^ 31 * phase)
  let s := s.setAdm l { a with cqTail := idxInc a.cqTail }
  let s := s.send (.pcieWrite l (s.bar64 l R.ADM_CQ_BASE_LO R.ADM_CQ_BASE_HI + 16 * (a.cqTail % 2 ^ k)) d none false)
  let v := s.rf (.bar0 l) R.ADM_CTL F.ADM_CTL_ADM_VEC
  let held := s.pcie.tis.any (fun e => e.2.link == l && e.2.st == 3 && decide (e.2.vecFirst ≤ v ∧ v < e.2.vecFirst + e.2.vecCount))
  if s.rb (.bar0 l) R.ADM_CTL F.ADM_CTL_ADM_INTR ∧ !held then s.vector l v else s

/-- An asynchronous event, or its count in ADM_EVT_LOST (R143). -/
def State.admEvent (s : State) (h code : Nat) : State :=
  let l := (s.ti (hTi h)).link
  if s.admCqFree l = 0 then s.bump (.bar0 l) R.ADM_EVT_LOST
  else s.admWrite l 0xFFFF 0 (hTi h + 2048 * hQ h + 65536 * code) (s.adm l).sqHead

/-- A ring address fails: the queue pair enters ERROR (R147, R155). -/
def State.qpError (s : State) (h code : Nat) : State :=
  match s.qp h with
  | none => s
  | some x => (s.setQp h (some { x with err := true, busy := false, cqBusy := false })).admEvent h code

/-! ### Completions of queue pairs (R150, R151) -/

/-- The words of a completion without PHASE. -/
def cqWords (h : Nat) (rq : Bool) (idx status len tc : Nat) (l3 l4 : Bool) (w2 : Word) (time : Nat) : List Word :=
  [BitVec.ofNat 32 (idx % 65536 + 65536 * hQ h + 2 ^ 20 * b2n rq + 2 ^ 24 * status),
   BitVec.ofNat 32 (len % 2 ^ 14 + 2 ^ 14 * tc + 2 ^ 17 * b2n l3 + 2 ^ 18 * b2n l4), w2, BitVec.ofNat 32 (time % 2 ^ 31)]

/-- The next completion of a queue pair that may be written: no earlier reservation of the same queue is open. -/
def nextCq : List CqEnt → List Bool → Option CqEnt
  | [], _ => none
  | e :: r, blocked =>
    if blocked.contains e.rq then nextCq r blocked
    else if e.words.isSome then some e else nextCq r (e.rq :: blocked)

/-- Start the next completion write of queue pair `h`, one at a time: the job to run, if one starts. -/
def State.cqFlush (s : State) (h : Nat) : List Nat × State :=
  match s.qp h with
  | none => ([], s)
  | some x =>
    if x.err ∨ x.cqBusy then ([], s)
    else match nextCq x.pend [] with
      | none => ([], s)
      | some e =>
        let phase := b2n (x.cqp / 2 ^ x.cqLog % 2 == 0)
        let w := e.words.getD []
        let w := w.set 3 ((w.getD 3 0).setFld ⟨31, 31⟩ phase)
        let s := s.setQp h (some { x with cqBusy := true })
        let (j, s) := s.addJob { what := .cqWrite h e.rq e.idx e.th, link := (s.ti (hTi h)).link, ti := some (hTi h),
                                 addr := x.cqBase + 16 * (x.cqp % 2 ^ x.cqLog), len := 16, data := w.flatMap (fun v => leBytes 4 v.toNat), write := true }
        ([j], s)

/-- Give a reservation its words, then write what can be written. -/
def State.cqComplete (s : State) (h : Nat) (rq : Bool) (idx : Nat) (ws : List Word) (th : Option (Nat × Nat) := none) : List Nat × State :=
  match s.qp h with
  | none => ([], s)
  | some x =>
    let pend := x.pend.map (fun e => if e.rq = rq ∧ e.idx = idx ∧ e.words.isNone then { e with words := some ws, th := th } else e)
    (s.setQp h (some { x with pend := pend })).cqFlush h

/-! ### Descriptors -/

def descLen (d : List Byte) : Nat := ofLe ((d.drop 8).take 2) % 2 ^ 14
def descAddr (d : List Byte) : Nat := ofLe (d.take 8)
/-- A send descriptor that completes with BAD_DESC (R149). -/
def State.badSend (s : State) (mode : Nat) (d : List Byte) : Bool :=
  let n := descLen d
  decide (n < 14) || decide (s.maxFrame - 4 < n) || decide (2 ^ 14 ≤ ofLe ((d.drop 8).take 2)) || decide (64 ≤ (d.getD 10 0).toNat) ||
    ((d.drop 11).take 5).any (· != 0) || (decide (mode = 0) && !s.portExists ((d.getD 10 0).toNat / 8))
/-- A receive descriptor that completes with BAD_DESC (R149). -/
def badRecv (d : List Byte) : Bool :=
  decide (descLen d < 64) || decide (2 ^ 14 ≤ ofLe ((d.drop 8).take 2)) || (d.drop 10).any (· != 0)

/-- Operation `op` of thread `th` is still in flight: a thread that ended discards its results (R100). -/
def State.opLive (s : State) (th op : Nat) : Bool := (s.thread th).ops.any (fun o => o.id == op)

/-- DMAW of packet `pkt` takes the next receive descriptor of `h` (R151): CODE 3 FULL where it cannot. -/
def State.dmawTake (s : State) (th op h : Nat) (pkt : Frame) : List Nat × State :=
  match s.qp h with
  | none => ([], s.opResult th op 3)
  | some x =>
    if x.err ∨ x.closing ∨ x.rqEmpty ∨ !x.cqRoom then ([], s.opResult th op 3)
    else
      let i := x.rqHead
      let s := s.setQp h (some { x with rqHead := idxInc i, pend := x.pend ++ [⟨true, i, none, none⟩] })
      let (j, s) := s.addJob { what := .rqDesc th op h i pkt, link := (s.ti (hTi h)).link, ti := some (hTi h),
                               addr := x.rqBase + 32 * (i % 2 ^ x.rqLog), len := 32, data := [], write := false }
      ([j], s)

/-- DMAR takes the next send descriptor of a MICRO queue pair (R151). -/
def State.dmarTake (s : State) (th op h len : Nat) : List Nat × State :=
  match s.qp h with
  | none => ([], s.opResult th op 3)
  | some x =>
    if x.err ∨ x.closing ∨ x.sqEmpty ∨ !x.cqRoom ∨ x.mode ≠ 2 then ([], s.opResult th op 3)
    else
      let i := x.sqHead
      let s := s.setQp h (some { x with sqHead := idxInc i, pend := x.pend ++ [⟨false, i, none, none⟩] })
      let (j, s) := s.addJob { what := .dmarDesc th op h i len, link := (s.ti (hTi h)).link, ti := some (hTi h),
                               addr := x.sqBase + 32 * (i % 2 ^ x.sqLog), len := 32, data := [], write := false }
      ([j], s)

/-- Add a reservation to a thread: CQPOST uses the latest of its queue pair (R151). -/
def State.addRsv (s : State) (th : Nat) (r : Rsv) : State :=
  s.setThread th { s.thread th with rsv := (s.thread th).rsv ++ [r] }

/-- The packet of a thread. -/
def State.pktOf (s : State) (th : Nat) : Frame := match (s.thread th).pkt with
  | some f => s.frame f
  | none => {}

/-- The completion of a received frame, from its parse record. -/
def rxWords (h idx status len : Nat) (x : Frame) : List Word :=
  let fl := (x.prec.headD 0).toNat
  cqWords h true idx status len x.tc (fl.testBit 0) (fl.testBit 1 && !fl.testBit 12) x.hash x.arr

/-! ### What a finished job does -/

/-- The commands that use each byte of the parameters (R144): the bits of byte `i` an opcode may set. -/
def admMask (op i : Nat) : Nat :=
  let all (lo hi : Nat) : Bool := decide (lo ≤ i ∧ i ≤ hi)
  if i < 8 then 0xFF
  else match op with
    | 0x01 => if i = 8 then 1 else 0
    | 0x03 => if i = 8 then 1 else if all 12 15 then 0xFF else 0
    | 0x04 => if all 8 9 then 0xFF else if i = 10 then 0x0F else if i = 12 then 3 else 0
    | 0x10 => if i = 8 then 0xFF else 0
    | 0x11 => if all 8 31 ∨ all 33 38 ∨ i = 40 then 0xFF else if i = 32 then 0x0F else if i = 41 then 3 else if i = 42 then 0xF3
      else if i = 43 then 0x3F else 0
    | 0x12 => if i = 8 then 0x0F else 0
    | 0x13 => if all 8 9 then 0xFF else 0
    | 0x14 => if i = 8 ∨ all 10 11 then 0xFF else 0
    | 0x15 => if all 8 11 then 0xFF else 0
    | 0x16 => if all 8 11 then 0xFF else 0
    | 0x17 | 0x18 => if all 16 47 then 0xFF else 0
    | 0x20 => if i = 8 then 0xFF else if i = 9 then 0x7F else if i = 10 then 1 else if all 12 47 then 0xFF else 0
    | 0x21 => if i = 8 then 0xFF else if i = 9 then 0x7F else 0
    | _ => 0

def admOpcodes : List Nat := [0x01, 0x02, 0x03, 0x04, 0x10, 0x11, 0x12, 0x13, 0x14, 0x15, 0x16, 0x17, 0x18, 0x20, 0x21]
def AdmCmd.byte (c : AdmCmd) (i : Nat) : Nat := (c.data.getD i 0).toNat
def AdmCmd.num (c : AdmCmd) (o n : Nat) : Nat := ofLe ((c.data.drop o).take n)
def AdmCmd.op (c : AdmCmd) : Nat := c.byte 0
def AdmCmd.cid (c : AdmCmd) : Nat := c.num 2 2
/-- The TI a command names; TI_CREATE with ANY names none. -/
def AdmCmd.tiOf (c : AdmCmd) : Option Nat := if c.op = 1 ∧ c.byte 8 % 2 = 1 then none else some (c.num 4 2 % 2048)
/-- A known opcode with zero reserved bytes (R142). -/
def AdmCmd.wellFormed (c : AdmCmd) : Bool :=
  admOpcodes.contains c.op && c.byte 1 == 0 && c.byte 6 == 0 && c.byte 7 == 0 && decide (c.byte 5 < 8) &&
  (List.range 64).all (fun i => (c.byte i) &&& (0xFF ^^^ admMask c.op i) == 0)

/-- Finish the command at position `i` of link `l`: its completion, and its place in progress (R143). -/
def State.admFinish (s : State) (l i status result : Nat) : State :=
  match (s.adm l).prog[i]? with
  | none => s
  | some c => (s.setAdm l { s.adm l with prog := (s.adm l).prog.eraseIdx i }).admWrite l c.cid status result c.head

/-- A queue pair being disabled is done once its fetched work is (R147). -/
def State.qpClosePoll (s : State) (h : Nat) : State :=
  match s.qp h with
  | none => s
  | some x =>
    if x.closing ∧ (x.err ∨ (x.pend.isEmpty ∧ !x.busy)) then
      let l := (s.ti (hTi h)).link
      let s := s.setQp h none
      match (List.range (s.adm l).prog.length).find? (fun i => match (s.adm l).prog[i]? with
          | some c => c.ph == 3 && c.arg == h
          | none => false) with
      | some i => s.admFinish l i 0 0
      | none => s
    else s

/-- A fetched frame goes to its port or engine (R124, R146). -/
def State.sendFrame (s : State) (h : Nat) (desc data : List Byte) (poison : Bool) : State :=
  match s.qp h with
  | none => s
  | some x =>
    let b := (desc.getD 10 0).toNat
    let t := hTi h
    let (f, s) := s.addFrame { data := data, port := b / 8 % 8, tc := b % 8, arr := s.now, ti := t, cls := 8 * (b / 8 % 8) + b % 8, poison := poison }
    if x.mode = 0 then s.enqueue (b / 8 % 8) (b % 8) f
    else
      let (_, s) := s.parseInto f
      let s := s.setFrame f { (s.frame f).found false 0xFFFFFF t with ti := t }
      s.queueFor (s.holder x.eng) { frame := f, ctx := none, sel := x.sel, word := BitVec.ofNat 32 (ofLe ((desc.drop 16).take 4)) }

/-- Job `j` has finished: its effect, and the jobs that start with it. -/
def State.jobDone (s : State) (j : Nat) (ok : Bool) : List Nat × State :=
  match s.job j with
  | none => ([], s)
  | some x =>
    let s := s.setJob j none
    match x.what with
    | .admCmd head =>
      let a := s.adm x.link
      let a := { a with fetching := a.fetching - 1 }
      if ok then
        let c : AdmCmd := { data := x.data, head := head }
        let s := s.setAdm x.link { a with prog := a.prog ++ [c] }
        ([], if c.wellFormed then s else s.admFinish x.link a.prog.length 1 0)
      else ([], s.setAdm x.link a)
    | .sqDesc h =>
      if ok then match s.qp h with
        | some q => ([], (s.setQp h (some { q with desc := some x.data, busy := false })).qpClosePoll h)
        | none => ([], s)
      else ([], (s.qpError h 1).qpClosePoll h)
    | .txFrame h i desc =>
      let s := if ok then s.sendFrame h desc x.data x.poison else s
      s.cqComplete h false i (cqWords h false i (if ok then 0 else 2) (descLen desc) ((desc.getD 10 0).toNat % 8) false false
        (BitVec.ofNat 32 (ofLe ((desc.drop 16).take 4))) s.now)
    | .rqDesc th op h i p =>
      if !ok then ([], ((s.qpError h 2).opResult th op 5).qpClosePoll h)
      else if badRecv x.data then
        let (a, s) := s.cqComplete h true i (rxWords h i 3 0 p)
        let (b, s) := s.dmawTake th op h p
        (a ++ b, s)
      else
        let n := min p.data.length (descLen x.data)
        let (k, s) := s.addJob { what := .rxWrite th op h i (b2n (n < p.data.length)) p, link := x.link, ti := x.ti, addr := descAddr x.data,
                                 len := n, data := p.data.take n, write := true, poison := p.poison }
        ([k], s)
    | .rxWrite th op h i status p =>
      if ok then
        let s := (s.tiCount (hTi h) 0 1).tiCount (hTi h) 1 (p.data.length + 4)
        if s.opLive th op then
          let s := s.addRsv th ⟨h, true, i, rxWords h i status x.len p⟩
          let s := match (s.thread th).pkt with
            | some f => s.release f
            | none => s
          ([], s.opResult th op 0)
        else s.cqComplete h true i (rxWords h i status x.len p)
      else
        let (a, s) := s.cqComplete h true i (rxWords h i 2 0 p)
        (a, s.opResult th op 5)
    | .dmarDesc th op h i len =>
      if !ok then ([], ((s.qpError h 1).opResult th op 5).qpClosePoll h)
      else
        let w := cqWords h false i 0 (descLen x.data) ((x.data.getD 10 0).toNat % 8) false false (BitVec.ofNat 32 (ofLe ((x.data.drop 16).take 4))) s.now
        if s.badSend 2 x.data then
          let (a, s) := s.cqComplete h false i (w.set 0 ((w.headD 0).setFld ⟨27, 24⟩ 3))
          let (b, s) := s.dmarTake th op h len
          (a ++ b, s)
        else if s.opLive th op then
          let (more, s) := s.freeWords (len - 7)
          let s := s.addRsv th ⟨h, false, i, w⟩
          ([], s.opResult th op 0 (leWords (min 8 (len + 1)) x.data ++ more))
        else s.cqComplete h false i w
    | .cqWrite h rq i th =>
      let s := match th with
        | some (t, o) => s.opResult t o (if ok then 0 else 5)
        | none => s
      if ok then match s.qp h with
        | some q =>
          let q := { q with cqp := idxInc q.cqp, cqBusy := false, nzAt := if q.n = 0 then s.mono else q.nzAt,
                            pend := q.pend.filter (fun e => !(e.rq == rq && e.idx == i)) }
          let (a, s) := ((s.setQp h (some q)).cqCheck h).cqFlush h
          (a, s.qpClosePoll h)
        | none => ([], s)
      else ([], (s.qpError h 3).qpClosePoll h)
    | .telRec _ => ([], if ok then s else s.bump .telCoder R.TEL_LOST)
    | .outbound m =>
      let r : Nat × Nat × List Byte × Option Nat × Bool := (m, x.addr, x.data, if ok then none else some 7, x.poison)
      ([], ({ s with pcie := { s.pcie with obIn := s.pcie.obIn ++ [r] } }).answer
        (if ok then .ok (BitVec.ofNat 32 (ofLe (x.data.take 4))) else .err 7))
    | .push => ([], { s with pcie := { s.pcie with obIn := s.pcie.obIn ++ [(0x1C0, x.addr, x.data, if ok then none else some 7, x.poison)] } })

/-- Run job `j` and the jobs it starts, `n` deep. -/
def State.jobRun : Nat → State → Nat → State
  | 0, s, _ => s
  | n + 1, s, j => match s.jobStep j with
    | (none, s) => s
    | (some ok, s) =>
      let (js, s) := s.jobDone j ok
      js.foldl (fun s k => State.jobRun n s k) s
def State.runJobs (s : State) (js : List Nat) : State := js.foldl (fun s k => State.jobRun 8 s k) s
/-- A job whose reads are in has finished. -/
def State.jobEnd (s : State) (j : Nat) (ok : Bool) : State :=
  let (js, s) := s.jobDone j ok
  s.runJobs js

/-- PCIE_COMPLETION_ARRIVAL and PCIE_COMPLETION_TIMEOUT for tag `t` (R65, R160). -/
def State.completion (s : State) (t : Nat) (d : Option (List Byte)) (poison : Bool) : State :=
  match s.tagData t d poison with
  | (some (j, ok), s) => s.jobEnd j ok
  | (none, s) => s
/-- ATS_TRANSLATION_COMPLETION (R155). -/
def State.atsArrive (s : State) (t : Nat) (r : Option (Nat × Nat × Bool × Bool)) : State :=
  match s.atsDone t r with
  | (some (j, some ok), s) => s.jobEnd j ok
  | (_, s) => s
/-- PRI_RESPONSE (R155). -/
def State.priArrive (s : State) (j : Nat) : State :=
  match s.priDone j with
  | (some ok, s) => s.jobEnd j ok
  | (none, s) => s

/-! ### Doorbells (R152) -/

/-- A doorbell write at BAR2 offset `o` on link `l`; `whole` says that it is an aligned 32-bit write with all byte enables. -/
def State.doorbell (s : State) (l o : Nat) (v : Word) (whole : Bool) : State :=
  let t := s.ti (o / 0x1000)
  let p := o % 0x1000
  let bad (s : State) : State := s.bump (.bar0 l) R.DB_DISCARD
  let q := if p < 0x80 then p / 8 else (p - 0x80) / 4
  let h := o / 0x1000 + 2048 * q
  if !whole ∨ p % 4 ≠ 0 ∨ 0xC0 ≤ p ∨ t.st ≠ 2 ∨ t.link ≠ l ∨ 2048 ≤ o / 0x1000 then bad s
  else match s.qp h with
    | none => bad s
    | some x =>
      let i := natBits v.toNat 15 0
      if x.err ∨ x.closing then bad s
      else if 0x80 ≤ p then
        if ringCap x.rqLog < idxSub i x.rqHead then bad s else s.setQp h (some { x with rqTail := i })
      else if p % 8 = 0 then
        if ringCap x.sqLog < idxSub i x.sqHead then bad s
        else
          let x := { x with sqTail := i }
          let x := if v.bit 31 then { x with armed := true, armAt := s.mono } else x
          (s.setQp h (some x)).cqCheck h
      else if idxSub x.cqp x.cqHead < idxSub x.cqp i then bad s
      else s.setQp h (some { x with cqHead := i, armed := x.armed && !v.bit 31 })

/-- A read of a doorbell page (R152). -/
def State.doorbellRead (s : State) (l o : Nat) : Word :=
  let t := s.ti (o / 0x1000)
  let p := o % 0x1000
  let q := if p < 0x80 then p / 8 else (p - 0x80) / 4
  if t.link ≠ l ∨ t.st = 0 then 0
  else if p = 0xFFC then BitVec.ofNat 32 t.st
  else if p % 4 ≠ 0 ∨ 0xC0 ≤ p then 0
  else match s.qp (o / 0x1000 + 2048 * q) with
    | none => 0
    | some x =>
      if 0x80 ≤ p then BitVec.ofNat 32 x.rqTail
      else if p % 8 = 0 then BitVec.ofNat 32 (x.sqTail + 2 ^ 31 * b2n x.armed) else BitVec.ofNat 32 x.cqHead

/-! ### The send fetcher (R124) -/

def State.shape (s : State) (t : Nat) : Shape := mapGet {} s.eth.shape t
def State.setShape (s : State) (t : Nat) (x : Shape) : State :=
  { s with eth := { s.eth with shape := mapSet {} s.eth.shape t x } }
/-- The queue pair the fetcher takes next of a TI: the lowest-numbered one with work (DESIGN CHOICE, log 22). -/
def State.fetchQp (s : State) (t : Nat) : Option Nat :=
  (List.range 16).find? (fun q => match s.qp (t + 2048 * q) with
    | some x => !x.err && !x.closing && decide (x.mode < 2) && !x.sqEmpty && x.cqRoom && !x.busy
    | none => false)
/-- Tokens of a node now, in millionths of a byte (R124). -/
def State.tokensNow (s : State) (t : Nat) : Int :=
  let x := s.shape t
  min 16384000000 (x.tokens + ((s.mono - x.filled) * natBits x.active.toNat 23 8 * 12500 : Nat))
/-- Node `t` can be served. -/
def State.nodeReady (s : State) (t : Nat) : Bool :=
  let w := (s.shape t).active.toNat
  (s.ti t).st == 2 && natBits w 7 0 != 0 && (s.fetchQp t).isSome && (natBits w 23 8 == 0 || decide (0 < s.tokensNow t))
/-- TIs with a queue pair, ascending. -/
def State.tiList (s : State) : List Nat := (s.pcie.tis.filter (fun e => !e.2.qps.isEmpty)).map (·.1)

/-- A node that has emptied its queues has its deficit reset (R124). -/
def State.nodeEmpty (s : State) (t : Nat) : State :=
  if (s.fetchQp t).isNone ∧ (List.range 16).all (fun q => match s.qp (t + 2048 * q) with
      | some x => x.sqEmpty || x.mode == 2
      | none => true) then s.setShape t { s.shape t with deficit := 0 } else s

/-- SEND_FETCH: one action of the fetcher: it reads a descriptor ahead, takes a frame, or ends its visit (R124). -/
def State.sendFetch (s : State) : State :=
  if !s.dpOn ∨ !s.answers .eth then s
  else
    let ready := s.tiList.filter (fun t => s.nodeReady t)
    let (node, s) :=
      if s.eth.drrIn ∧ ready.contains s.eth.drr then (some s.eth.drr, s)
      else
        let from_ := if s.eth.drrIn then s.eth.drr + 1 else s.eth.drr
        match (ready.find? (fun t => decide (from_ ≤ t))).orElse (fun _ => ready.head?) with
        | none => (none, s)
        | some t =>
          let s := s.setShape t { s.shape t with deficit := (s.shape t).deficit + 256 * natBits (s.shape t).active.toNat 7 0 }
          (some t, { s with eth := { s.eth with drr := t, drrIn := true } })
    match node with
    | none => s
    | some t => match s.fetchQp t with
      | none => s
      | some q =>
        let h := t + 2048 * q
        match s.qp h with
        | none => s
        | some x => match x.desc with
          | none =>
            let s := s.setQp h (some { x with busy := true })
            let (j, s) := s.addJob { what := .sqDesc h, link := (s.ti t).link, ti := some t, addr := x.sqBase + 32 * (x.sqHead % 2 ^ x.sqLog),
                                     len := 32, data := [], write := false }
            s.runJobs [j]
          | some d =>
            let i := x.sqHead
            let take : State := s.setQp h (some { x with sqHead := idxInc i, desc := none, pend := x.pend ++ [⟨false, i, none, none⟩] })
            if s.badSend x.mode d then
              let (js, s) := take.cqComplete h false i (cqWords h false i 3 (descLen d) ((d.getD 10 0).toNat % 8) false false
                (BitVec.ofNat 32 (ofLe ((d.drop 16).take 4))) s.now)
              (s.runJobs js).nodeEmpty t
            else
              let n := descLen d + 4
              let y := s.shape t
              if n ≤ y.deficit then
                let s := take.setShape t { y with deficit := y.deficit - n, tokens := s.tokensNow t - (1000000 * n : Nat), filled := s.mono }
                let (j, s) := s.addJob { what := .txFrame h i d, link := (s.ti t).link, ti := some t, addr := descAddr d, len := descLen d,
                                         data := [], write := false }
                (s.runJobs [j]).nodeEmpty t
              else { s with eth := { s.eth with drr := t + 1, drrIn := false } }

/-! ### Admin command execution (R140 to R147, R157 to R162) -/

/-- ADMIN_COMMAND_FETCH on link `l` (R140, R141). -/
def State.admFetch (s : State) (l : Nat) : State :=
  let a := s.adm l
  let tail := (s.rd (.bar0 l) R.ADM_SQ_TAIL).toNat
  if !a.en ∨ tail = a.sqHead ∨ 64 ≤ a.prog.length + a.fetching ∨ s.admCqFree l = 0 ∨ !s.linkReady l then s
  else
    let i := a.sqHead
    let s := s.setAdm l { a with sqHead := idxInc i, fetching := a.fetching + 1 }
    let (j, s) := s.addJob { what := .admCmd (idxInc i), link := l, ti := none,
                             addr := s.bar64 l R.ADM_SQ_BASE_LO R.ADM_SQ_BASE_HI + 64 * (i % 2 ^ s.admSqLog l), len := 64, data := [], write := false }
    s.runJobs [j]

/-- The command of opcode `op` that runs next on link `l`: not behind an earlier command of its TI (R141). -/
def State.admNext (s : State) (l op : Nat) : Option (Nat × AdmCmd) :=
  let p := (s.adm l).prog
  (List.range p.length).findSome? (fun i => match p[i]? with
    | some c =>
      let blocked := (p.take i).any (fun e => e.tiOf.isSome && e.tiOf == c.tiOf)
      if c.op = op ∧ c.ph = 0 ∧ c.wellFormed ∧ !blocked then some (i, c) else none
    | none => none)

/-- The next 1,000 ns boundary after now (R157). -/
def State.quantum (s : State) : Nat := (s.now / 1000 + 1) * 1000

/-- Put command `i` into phase `ph`. -/
def State.admPhase (s : State) (l i ph due arg result : Nat) : State :=
  let p := (s.adm l).prog
  s.setAdm l { s.adm l with prog := p.set i { p.getD i default_ with ph := ph, due := due, arg := arg, result := result } }
where default_ : AdmCmd := { data := [], head := 0 }

/-- Run the next command of opcode `op`, with the status checks every command shares: the link and the TI's existence. -/
def State.admRun (s : State) (l op : Nat) (f : State → Nat → Nat → Ti → AdmCmd → State) : State :=
  match s.admNext l op with
  | none => s
  | some (i, c) =>
    let n := c.num 4 2 % 2048
    let t := s.ti n
    if t.st ≠ 0 ∧ t.link ≠ l then s.admFinish l i 6 0
    else if t.st ≠ 1 ∧ t.st ≠ 2 then s.admFinish l i 2 0
    else f s i n t c

/-- Write SHAPE_n for a TI, in force at once. -/
def State.shapeSet (s : State) (n : Nat) (w : Word) : State :=
  (s.wr .eth R.SHAPE w n).setShape n { s.shape n with active := w }

def State.tiCreate (s : State) (l : Nat) : State :=
  match s.admNext l 1 with
  | none => s
  | some (i, c) =>
    let n := match c.tiOf with
      | some n => some n
      | none => (List.range 2048).find? (fun n => (s.ti n).st == 0)
    match n with
    | none => s.admFinish l i 3 0
    | some n =>
      let t := s.ti n
      if t.st ≠ 0 ∧ t.link ≠ l then s.admFinish l i 6 0
      else if t.st ≠ 0 then s.admFinish l i 2 0
      else ((s.setTi n { st := 1, link := l, cells := t.cells }).shapeSet n 1).admFinish l i 0 n

/-- No enabled queue pair. -/
def Ti.idle (t : Ti) : Bool := t.qps.all (fun e => e.2.isNone)

def State.bindPasid (s : State) (l : Nat) : State := s.admRun l 4 (fun s i n t c =>
  if c.byte 12 / 2 % 2 = 1 then
    if t.st = 2 ∧ t.idle then (s.setTi n { t with st := 1, pasid := none, pri := false }).admFinish l i 0 0 else s.admFinish l i 2 0
  else
    let p := c.num 8 4 % 2 ^ 20
    if t.st ≠ 1 then s.admFinish l i 2 0
    else if !(s.pf l).pasidEn then s.admFinish l i 1 0
    else if s.pcie.tis.any (fun e => e.1 != n && e.2.link == l && e.2.st != 0 && e.2.pasid == some p) then s.admFinish l i 5 0
    else (s.setTi n { t with st := 2, pasid := some p, pri := c.byte 12 % 2 == 1 }).admFinish l i 0 0)

/-- Sum of a resource over all TIs but `n`. -/
def State.pool (s : State) (n : Nat) (f : Ti → Nat) : Nat := s.pcie.tis.foldl (fun a e => if e.1 = n ∨ e.2.st = 0 then a else a + f e.2) 0

/-- Empty and disarmed (R157). -/
def Qp.quiet (x : Qp) : Bool := x.sqEmpty && x.n == 0 && x.pend.isEmpty && x.rqEmpty && !x.armed

def State.setQpCount (s : State) (l : Nat) : State := s.admRun l 0x10 (fun s i n t c =>
  let m := c.byte 8
  if 16 < m then s.admFinish l i 1 0
  else if 16384 < s.pool n (·.qpCount) + m then s.admFinish l i 3 0
  else if (List.range 16).any (fun q => decide (m ≤ q) && (match mapGet none t.qps q with
      | some x => !x.quiet
      | none => false)) then s.admFinish l i 4 0
  else s.admPhase l i 1 s.quantum m t.qpCount)

def State.qpConfig (s : State) (l : Nat) : State := s.admRun l 0x11 (fun s i n t c =>
  let q := c.byte 32
  let lg := [c.byte 33, c.byte 34, c.byte 35]
  let vec := c.num 36 2
  let mode := c.byte 42 % 4
  if t.st ≠ 2 then s.admFinish l i 2 0
  else if t.qpCount ≤ q ∨ lg.any (fun k => decide (k < 6 ∨ 16 < k)) ∨ (vec ≠ 0xFFFF ∧ t.vecCount ≤ vec) ∨ mode = 3 ∨
      c.num 8 8 % 64 ≠ 0 ∨ c.num 16 8 % 64 ≠ 0 ∨ c.num 24 8 % 64 ≠ 0 then s.admFinish l i 1 0
  else if (s.qp (n + 2048 * q)).isSome then s.admFinish l i 4 0
  else
    let x : Qp := { sqBase := c.num 8 8, rqBase := c.num 16 8, cqBase := c.num 24 8, sqLog := c.byte 33, rqLog := c.byte 34,
                    cqLog := c.byte 35, vec := vec, modCount := c.byte 38, modTime := c.num 40 2 % 1024, mode := mode, sel := c.byte 42 / 16,
                    eng := c.byte 43 % 64 }
    (s.setQp (n + 2048 * q) (some x)).admFinish l i 0 0)

def State.qpDisable (s : State) (l : Nat) : State := s.admRun l 0x12 (fun s i n _ c =>
  let h := n + 2048 * c.byte 8
  match s.qp h with
  | none => s.admFinish l i 0 0
  | some x => ((s.setQp h (some { x with closing := true })).admPhase l i 3 0 h 0).qpClosePoll h)

/-- Contexts a TI may hold (R138). -/
def State.ctxMax (s : State) : Nat :=
  let k := s.rf .pcie R.TI_OVF F.TI_OVF_OVF_SHIFT
  if 16 ≤ k ∧ k ≤ 21 then 2 ^ k / 512 else 0
/-- The context of a TI at or above a quota that is still to be drained: its global number. -/
def State.drainCtx (s : State) (n quota : Nat) : Option Nat :=
  (s.pcie.ctxo.find? (fun e => e.2.bit 31 && natBits e.2.toNat 26 16 == n && decide (quota ≤ natBits e.2.toNat 11 0))).map (·.1)

def State.setCtxQuota (s : State) (l : Nat) : State := s.admRun l 0x13 (fun s i n t c =>
  let q := c.num 8 2
  if s.ctxMax < q then s.admFinish l i 1 0
  else if 16384 < s.pool n (·.ctxQuota) + q then s.admFinish l i 3 0
  else if t.ctxQuota ≤ q then s.admPhase l i 1 s.quantum q 0
  else
    let s := s.setTi n { t with ctxQuota := q }
    if (s.drainCtx n q).isNone then s.admFinish l i 0 0 else s.admPhase l i 2 0 q 0)

def State.setBw (s : State) (l : Nat) : State := s.admRun l 0x14 (fun s i _ _ c =>
  s.admPhase l i 1 s.quantum (c.byte 8 + 256 * c.num 10 2) 0)
def State.setBufQuota (s : State) (l : Nat) : State := s.admRun l 0x15 (fun s i _ _ c =>
  if 2097152 < c.num 8 4 then s.admFinish l i 1 0 else s.admPhase l i 1 s.quantum (c.num 8 4) 0)

def State.setVectors (s : State) (l : Nat) : State := s.admRun l 0x16 (fun s i n t c =>
  let f := c.num 8 2
  let k := c.num 10 2
  if 256 < k ∨ (if s.twoLinks then 2048 else 4096) < f + k then s.admFinish l i 1 0
  else if k ≠ 0 ∧ s.pcie.tis.any (fun e => e.1 != n && e.2.link == l && e.2.st != 0 && rangesMeet f k e.2.vecFirst e.2.vecCount) then s.admFinish l i 5 0
  else if t.qps.any (fun e => match e.2 with
      | some x => x.vec != 0xFFFF && !decide (f ≤ t.vecFirst + x.vec ∧ t.vecFirst + x.vec < f + k)
      | none => false) then s.admFinish l i 4 0
  else s.admPhase l i 1 s.quantum 0 0)

def State.setTelem (s : State) (l : Nat) : State := s.admRun l 0x17 (fun s i _ _ _ => s.admPhase l i 1 s.quantum 0 0)
def State.setFcast (s : State) (l : Nat) : State := s.admRun l 0x18 (fun s i _ _ _ => s.admPhase l i 1 s.quantum 0 0)

/-- A slot within ADM_KEY_RANGE that is not VALID under another owner (R144). -/
def State.keyGrant (s : State) (n k : Nat) : Bool :=
  let f := s.rf .pcie R.ADM_KEY_RANGE F.ADM_KEY_RANGE_FIRST
  let x := mapGet {} s.eth.keys k
  decide (f ≤ k ∧ k < f + s.rf .pcie R.ADM_KEY_RANGE F.ADM_KEY_RANGE_COUNT ∧ k < 32768) && (!x.valid || x.ti == n)
def State.setKey (s : State) (k : Nat) (x : KeySlot) : State := { s with eth := { s.eth with keys := mapSet {} s.eth.keys k x } }
def State.keyWrite (s : State) (l : Nat) : State := s.admRun l 0x20 (fun s i n _ c =>
  let k := c.num 8 2 % 32768
  if s.keyGrant n k then
    let x : KeySlot := { key := (c.data.drop 16).take 32, salt := BitVec.ofNat 32 (c.num 12 4), ti := n, shared := c.byte 10 % 2 == 1, valid := true }
    (s.setKey k x).admFinish l i 0 0
  else s.admFinish l i 6 0)
def State.keyClear (s : State) (l : Nat) : State := s.admRun l 0x21 (fun s i n _ c =>
  let k := c.num 8 2 % 32768
  if s.keyGrant n k then (s.setKey k { (mapGet {} s.eth.keys k) with key := [], valid := false, ti := n }).admFinish l i 0 0
  else s.admFinish l i 6 0)

/-- The effect of a command that waited for its 1,000 ns boundary (R157). -/
def State.applyResize (s : State) (c : AdmCmd) : State :=
  let n := c.num 4 2 % 2048
  let t := s.ti n
  match c.op with
  | 0x10 => s.setTi n { t with qpCount := c.arg, qps := mapDrop (fun q => decide (c.arg ≤ q)) t.qps }
  | 0x13 => s.setTi n { t with ctxQuota := c.arg }
  | 0x14 => s.shapeSet n (BitVec.ofNat 32 c.arg)
  | 0x15 => s.setTi n { t with bufQuota := c.arg }
  | 0x16 =>
    let vq := t.qps.map (fun e => (e.1, e.2.map (fun x => if x.vec = 0xFFFF then x else { x with vec := t.vecFirst + x.vec - c.num 8 2 })))
    s.setTi n { t with vecFirst := c.num 8 2, vecCount := c.num 10 2, qps := vq }
  | 0x17 => s.setTi n { t with telem := c.num 16 32 }
  | 0x18 => s.setTi n { t with fcast := c.num 16 32 }
  | _ => s

/-- RESIZE_APPLY on link `l`: the first command whose boundary has come. -/
def State.resizeApply (s : State) (l : Nat) : State :=
  let p := (s.adm l).prog
  match (List.range p.length).findSome? (fun i => match p[i]? with
      | some c => if c.ph = 1 ∧ c.due ≤ s.now then some (i, c) else none
      | none => none) with
  | some (i, c) => (s.applyResize c).admFinish l i 0 c.result
  | none => s

/-- The overflow slot of a TI's context (R158). -/
def State.ovfAddr (s : State) (n slot : Nat) : Nat :=
  65536 * s.rf .pcie R.TI_OVF F.TI_OVF_OVF_BASE + n * 2 ^ s.rf .pcie R.TI_OVF F.TI_OVF_OVF_SHIFT + 512 * slot

/-- CONTEXT_DRAIN on link `l` (R159): the next context of a shrinking quota that is not HELD. -/
def State.contextDrain (s : State) (l : Nat) : State :=
  let p := (s.adm l).prog
  match (List.range p.length).findSome? (fun i => match p[i]? with
      | some c =>
        if c.ph = 2 then
          (s.pcie.ctxo.find? (fun e => e.2.bit 31 && natBits e.2.toNat 26 16 == c.num 4 2 % 2048 && decide (c.arg ≤ natBits e.2.toNat 11 0) &&
            !(s.ctxWord e.1 0).bit 30)).map (fun e => (i, c, e.1, e.2))
        else none
      | none => none) with
  | none => s
  | some (i, c, g, w) =>
    let n := c.num 4 2 % 2048
    let (_, s) := s.devWrite (s.reqOf (.group (g / 256 / 4))) (s.ovfAddr n (natBits w.toNat 11 0)) (s.bytes (ctxAddr g 0) 512)
    let s := s.setCtxWord g 0 ((s.ctxWord g 0) &&& 0x3FFFFFFF)
    let s := { s with pcie := { s.pcie with ctxo := mapSet 0 s.pcie.ctxo g 0 } }
    if (s.drainCtx n c.arg).isNone then s.admFinish l i 0 (c.result + 1) else s.admPhase l i 2 0 c.arg (c.result + 1)

/-! ### Reset and destruction (R139, R160 to R162) -/

/-- The squash of R160, steps 1 to 5. -/
def State.squash (s : State) (n : Nat) : State :=
  let s := s.sedge.threads.foldl (fun s e =>
    let x := s.thread e.1
    s.setThread e.1 { x with
      ops := x.ops.map (fun o => if o.ti = n + 1 ∧ o.res.isNone then { o with res := some (8 + 5, []) } else o),
      rsv := x.rsv.filter (fun r => hTi r.qp != n) }) s
  let mine (j : Nat) : Bool := match s.job j with
    | some x => x.ti == some n
    | none => false
  let s := s.pcie.tags.foldl (fun s e => match e.2 with
    | some g => match g.job with
      | some j => if mine j then
          { s.setTag e.1 (some { g with job := none }) with
            pcie := { (s.setTag e.1 (some { g with job := none })).pcie with
              orphans := mapSet 0 s.pcie.orphans g.link (min 65535 (mapGet 0 s.pcie.orphans g.link + 1)) } }
        else s
      | none => s
    | none => s) s
  let s := { s with pcie := { s.pcie with
    jobs := s.pcie.jobs.filter (fun e => match e.2 with
      | some x => x.ti != some n
      | none => false)
    pri := s.pcie.pri.filter (fun j => !mine j)
    atc := s.pcie.atc.filter (fun e => match e.2 with
      | some a => a.ti != n
      | none => false) } }
  let s := s.setTi n { s.ti n with qps := [] }
  let gone (f : Nat) : Bool := (s.frame f).ti == n && !(s.frame f).disp && !s.sedge.threads.any (fun e => e.2.pkt == some f)
  let fs := (s.eth.frames.map (·.1)).filter gone
  let s := { s with eth := { s.eth with
    egress := (s.eth.egress.map (fun e => (e.1, e.2.filter (fun f => !fs.contains f)))).filter (fun e => e.2 != []),
    dispq := (s.eth.dispq.map (fun e => (e.1, e.2.filter (fun d => !fs.contains d.frame)))).filter (fun e => e.2 != []),
    txCut := s.eth.txCut.filter (fun e => match e.2 with
      | some f => !fs.contains f
      | none => false),
    looks := s.eth.looks.filter (fun k => match k.who with
      | .frame f => !fs.contains f
      | .op _ _ => true) } }
  fs.foldl (fun s f => s.drop f dTiReset) s

/-- Begin a reset or destruction (R160, R162). -/
def State.startReset (s : State) (n : Nat) (r : TiReset) : State :=
  let s := s.setTi n { s.ti n with st := if r.destroy then 4 else 3, rst := some r }
  if r.squash then s.squash n else s

def State.tiReset (s : State) (l : Nat) : State := s.admRun l 3 (fun s i n _ c =>
  let ms := if c.num 12 4 = 0 then 100 else c.num 12 4
  if 10000 < ms then s.admFinish l i 1 0
  else (s.admPhase l i 4 0 0 0).startReset n { squash := c.byte 8 % 2 == 1, since := s.mono, limit := s.mono + 1000000 * ms })
def State.tiDestroy (s : State) (l : Nat) : State := s.admRun l 2 (fun s i n _ _ =>
  (s.admPhase l i 4 0 0 0).startReset n { squash := true, since := s.mono, limit := s.mono, destroy := true })

/-- DRAIN_TIMEOUT of TI `n` (R160). -/
def State.drainTimeout (s : State) (n : Nat) : State :=
  match (s.ti n).rst with
  | some r => if !r.squash ∧ r.limit ≤ s.mono then s.startReset n { r with squash := true, turned := true } else s
  | none => s

/-- Nothing of TI `n` is outstanding (R161). -/
def State.tiQuiet (s : State) (n : Nat) : Bool :=
  s.pcie.jobs.all (fun e => match e.2 with
    | some x => x.ti != some n
    | none => true) &&
  s.eth.frames.all (fun e => e.2.ti != n || e.2.disp) &&
  (s.ti n).qps.all (fun e => match e.2 with
    | some x => x.pend.isEmpty && !x.busy
    | none => true)

/-- Complete the command that owes a completion for TI `n`. -/
def State.resetOwed (s : State) (n result : Nat) : State :=
  let l := (s.ti n).link
  let p := (s.adm l).prog
  match (List.range p.length).find? (fun i => match p[i]? with
      | some c => c.ph == 4 && c.num 4 2 % 2048 == n
      | none => false) with
  | some i => s.admFinish l i 0 result
  | none => s

/-- TI_RESET_COMPLETE (R161). -/
def State.resetComplete (s : State) (n : Nat) : State :=
  match (s.ti n).rst with
  | some r =>
    if !r.destroy ∧ s.tiQuiet n then
      let t := s.ti n
      let s := { s with pcie := { s.pcie with atc := s.pcie.atc.filter (fun e => match e.2 with
        | some a => a.ti != n
        | none => false) } }
      (s.setTi n { t with st := if t.pasid.isSome then 2 else 1, rst := none, qps := [] }).resetOwed n (b2n r.turned)
    else s
  | none => s

/-- TI_DESTROY_COMPLETE (R162). -/
def State.destroyComplete (s : State) (n : Nat) : State :=
  match (s.ti n).rst with
  | some r =>
    if r.destroy ∧ s.tiQuiet n then
      let s := { s with eth := { s.eth with keys := s.eth.keys.filter (fun e => e.2.ti != n) } }
      let s := if r.owed then s.resetOwed n 0 else s
      (s.setTi n { cells := (s.ti n).cells }).shapeSet n 1
    else s
  | none => s

/-- Destroy every TI of link `l` without completions, and disable its admin ring (R139). -/
def State.destroyLink (s : State) (l : Nat) : State :=
  let s := s.setAdm l {}
  let s := { s with pcie := { s.pcie with
    jobs := s.pcie.jobs.filter (fun e => match e.2 with
      | some x => x.link != l || x.ti.isSome
      | none => false)
    tags := s.pcie.tags.filter (fun e => match e.2 with
      | some g => g.link != l
      | none => false)
    orphans := mapSet 0 s.pcie.orphans l 0
    invs := s.pcie.invs.filter (fun v => v.link != l) } }
  s.pcie.tis.foldl (fun s e =>
    if e.2.link = l ∧ e.2.st ≠ 0 then
      s.startReset e.1 { squash := true, since := s.mono, limit := s.mono, destroy := true, owed := false }
    else s) s

/-! ### Register effects of the PCIe complex and of BAR0 -/

/-- CTXO_DATA with a slot at or above the quota gets FORMAT (R158). -/
def State.pcieRefuse (s : State) (r : Reg) (v : Word) : Bool :=
  r == R.CTXO_DATA && v.bit 31 && decide ((s.ti (natBits v.toNat 26 16)).ctxQuota ≤ natBits v.toNat 11 0)

def State.pciePost (s : State) (r : Reg) (v : Word) : State :=
  if r = R.OB_BASE_HI then
    { s with pcie := { s.pcie with obBase := (s.rd .pcie R.OB_BASE_LO).toNat + 2 ^ 32 * v.toNat } }
  else if r = R.CTXO_DATA then
    { s with pcie := { s.pcie with ctxo := mapSet 0 s.pcie.ctxo (s.rf .pcie R.CTXO_SEL F.CTXO_SEL_G) (v &&& 0x87FF0FFF) } }
  else s

/-- Effects of a BAR0 write on link `l` (R140). -/
def State.bar0Post (s : State) (l : Nat) (r : Reg) (old v : Word) : State :=
  let a := s.adm l
  let u := UnitId.bar0 l
  let ok (k : Nat) : Bool := decide (4 ≤ k ∧ k ≤ 12)
  if r = R.ADM_CTL then s.setAdm l { a with en := false }
  else if r = R.ADM_SQ_BASE_LO ∨ r = R.ADM_SQ_BASE_HI ∨ r = R.ADM_CQ_BASE_LO ∨ r = R.ADM_CQ_BASE_HI then
    if a.en then s.wr u r old else s
  else if r = R.ADM_SQ_TAIL then
    if 2 ^ s.admSqLog l < idxSub (natBits v.toNat 15 0) a.sqHead then s.wr u r old
    else if s.bar64 l R.ADM_SQ_BASE_LO R.ADM_SQ_BASE_HI ≠ 0 ∧ s.bar64 l R.ADM_CQ_BASE_LO R.ADM_CQ_BASE_HI ≠ 0 ∧ ok (s.admSqLog l) ∧ ok (s.admCqLog l) then
      s.setAdm l { a with en := true }
    else s
  else if r = R.ADM_CQ_HEAD then
    if idxSub a.cqTail old.toNat < idxSub a.cqTail (natBits v.toNat 15 0) then s.wr u r old else s
  else s

end Sys2Proof.Machine
end

