-- ==== Sys2Proof/Machine/Tel.lean ====
section
/-! DEFINITION. Machine/Tel.lean: the telemetry coder and the forecast unit with the power-intent sender
(R202 to R207, R209 to R223). -/

namespace Sys2Proof.Machine

/-! ### Streams (R210 to R213) -/

def State.str (s : State) (n : Nat) : Stream := mapGet {} s.tel.str n
def State.setStr (s : State) (n : Nat) (x : Stream) : State :=
  { s with tel := { s.tel with str := mapSet {} s.tel.str n x } }
def State.tout (s : State) (t : Nat) : TOut := mapGet {} s.tel.out t
def State.setTout (s : State) (t : Nat) (x : TOut) : State :=
  { s with tel := { s.tel with out := mapSet {} s.tel.out t x } }
def State.strF (s : State) (f : Fld) (n : Nat) : Nat := s.rf .telCoder R.STR_CFG f n
/-- WIDTH and signedness of a KIND (R210). -/
def kindWidth (k : Nat) : Nat × Bool := if k = 0 then (24, true) else (32, k == 3)

/-- Put a record into target queue `t` (R220). A disabled target takes none. -/
def State.toTarget (s : State) (t : Nat) (r : TRec) : State :=
  let x := s.tout t
  if s.rf .telCoder R.TOUT_CFG F.TOUT_CFG_EN t = 0 then s
  else if 32 ≤ x.q.length then s.bump .telCoder R.TEL_BLK_DROP
  else s.setTout t { x with q := x.q ++ [r] }

/-- Close the open block of stream `n`: code it and send its record to every target (R212, R213, R220). -/
def State.closeBlock (s : State) (n : Nat) : State :=
  let x := s.str n
  match x.smp with
  | [] => s
  | a :: _ =>
    let (w, sg) := kindWidth (natBits x.src.toNat 31 30)
    let mode := if x.cfg.fld F.STR_CFG_MODE = 3 then 0 else x.cfg.fld F.STR_CFG_MODE
    let body := codeBlock mode (if mode = 1 then max 1 (x.cfg.fld F.STR_CFG_E) else 0) (x.cfg.fld F.STR_CFG_ORDER) (clampNat 2 6 (x.cfg.fld F.STR_CFG_WL)) w sg
      (x.smp.map (·.x))
    let z := x.smp.getLastD a
    let sat := natBits x.src.toNat 31 30 == 0 && x.smp.any (·.sat)
    let r : TRec := { hdr := [BitVec.ofNat 32 (2 ^ 24 + 2 ^ 16 * n + x.bseq),
                              BitVec.ofNat 32 (2 ^ 18 * b2n sat + 2 ^ 17 * b2n x.gap + 2 ^ 16 * b2n x.start + body.length),
                              lo32 a.t, hi32 a.t, lo32 z.t, hi32 z.t], body := body, stream := n }
    let s := s.setStr n { x with smp := [], bseq := (x.bseq + 1) % 65536, start := false, gap := false }
    (List.range 8).foldl (fun s t => if (x.cfg.fld F.STR_CFG_OUTS).testBit t then s.toTarget t r else s) s

/-- Append a sample to the open block of stream `n`, opening one if none is; 64 samples close it (R212). -/
def State.pushSample (s : State) (n : Nat) (p : Sample) : State :=
  let x := s.str n
  let x := if x.smp = [] then { x with cfg := s.rd .telCoder R.STR_CFG n, src := s.rd .telCoder R.STR_SRC n, start := x.startNext || p.first,
                                       startNext := false, gap := x.gapNext, gapNext := false }
    else { x with gap := x.gap || x.gapNext, gapNext := false }
  let s := s.setStr n { x with smp := x.smp ++ [p] }
  if 64 ≤ x.smp.length + 1 then s.closeBlock n else s

/-- A sample arrives for enabled stream `n` (R211, R212): each sample takes the coder 4 ns, and a stream queues 4. -/
def State.telSample (s : State) (n : Nat) (p : Sample) : State :=
  let x := s.str n
  let q := x.q.filter (fun t => decide (s.mono < t))
  if 4 ≤ q.length then (s.bump .telCoder R.STR_DROP 1 n).setStr n { x with q := q, gapNext := true }
  else
    let done := max s.mono s.tel.busy + 4
    let s := { s.setStr n { x with q := q ++ [done] } with tel := { (s.setStr n { x with q := q ++ [done] }).tel with busy := done } }
    let fl := x.cfg.fld F.STR_CFG_FLUSH
    let late := match x.smp with
      | a :: _ => fl != 0 && decide (a.t + 1000 * fl ≤ p.t)
      | [] => false
    let s := if late || p.first then s.closeBlock n else s
    s.pushSample n p

/-- The outputs of a bitstream channel that its streams take (R170, R210). -/
def State.telChannel (s : State) (ch : Nat) (o : ChOut) : State :=
  if s.rf (.chGroup (ch / 16)) R.CH_CFG F.CH_CFG_TEL_EN (ch % 16) = 0 ∨ !s.answers .telCoder then s
  else (List.range 256).foldl (fun s n =>
    let src := s.rd .telCoder R.STR_SRC n
    if s.strF F.STR_CFG_EN n = 1 ∧ natBits src.toNat 31 30 = 0 ∧ natBits (s.rd .telCoder R.STR_ARG n).toNat 6 0 = ch ∧
        o.seq % (src.fld F.STR_SRC_DIV + 1) = 0 then s.telSample n { x := sext 24 o.y, t := o.ts, sat := o.sat, first := o.first }
    else s) s

/-- TEL_PERIODIC_SAMPLE of stream `n`: at a multiple of PERIOD µs, once (R210). -/
def State.telPeriodic (s : State) (n : Nat) : State :=
  let src := s.rd .telCoder R.STR_SRC n
  let k := natBits src.toNat 31 30
  let per := 1000 * src.fld F.STR_SRC_PERIOD
  let arg := (s.rd .telCoder R.STR_ARG n).toNat
  if s.strF F.STR_CFG_EN n = 0 ∨ (k ≠ 1 ∧ k ≠ 2) ∨ per = 0 ∨ s.now % max 1 per ≠ 0 ∨ (s.str n).next = s.now + 1 ∨ !s.answers .telCoder then s
  else
    let s := s.setStr n { s.str n with next := s.now + 1 }
    if k = 1 then s.telSample n { x := (s.rd .eviUnit R.EVI_COUNT (natBits arg 5 0)).toNat, t := s.now }
    else match unitAt (256 * arg) with
      | some (u, 0) => s.telSample n { x := (s.energyOf u % 2 ^ 32 : Nat), t := s.now }
      | _ => s.bump .telCoder R.STR_DROP 1 n

/-- EVT with MOD 2: the completion code, 0 unless the access is refused (R210). -/
def State.telEvt (s : State) (r : Req) (src : UnitId) (n : Nat) (v : Word) : Nat × State :=
  match s.guardAcc UnitId.telCoder.base r .write (some src) with
  | (some c, s) => (8 + c, s)
  | (none, s) =>
    if !s.answers .telCoder then (8 + 5, s)
    else if s.strF F.STR_CFG_EN n = 0 ∨ natBits (s.rd .telCoder R.STR_SRC n).toNat 31 30 ≠ 3 then (0, s.bump .telCoder R.TEL_SRC_REJ)
    else (0, s.telSample n { x := sext 32 v.toNat, t := s.now })

/-- BLOCK_FLUSH_TIMEOUT of stream `n` (R212). -/
def State.flushTimeout (s : State) (n : Nat) : State :=
  let x := s.str n
  match x.smp with
  | a :: _ =>
    let fl := x.cfg.fld F.STR_CFG_FLUSH
    if fl ≠ 0 ∧ a.t + 1000 * fl + 2000 ≤ s.now then s.closeBlock n else s
  | [] => s

/-- Every open block closes (R212, R227). -/
def State.closeAll (s : State) : State :=
  (List.range 256).foldl (fun s n => (s.closeBlock n).setStr n { (s.closeBlock n).str n with next := 0 }) s

/-- Entry to DORMANT discards open blocks and pending records (R209). -/
def State.telDiscard (s : State) : State :=
  { s with tel := { s.tel with
    str := s.tel.str.map (fun e => (e.1, { e.2 with smp := [], q := [] })),
    out := s.tel.out.map (fun e => (e.1, { e.2 with q := [], frame := [] })) } }

/-! ### Output (R220 to R223) -/

/-- A MAC address held in a LO and a HI word. -/
def macBytes (lo hi : Word) : List Byte := beBytes 2 (hi.toNat % 65536) ++ beBytes 4 lo.toNat
/-- The IPv4 and UDP headers of R207. -/
def ipUdp (sip dip : Word) (port n : Nat) : List Byte :=
  let h (c : Nat) : List Byte := [0x45, 0x00] ++ beBytes 2 (28 + n) ++ [0, 0, 0x40, 0, 64, 17] ++ beBytes 2 c ++ beBytes 4 sip.toNat ++ beBytes 4 dip.toNat
  h (inetCsum (inetSum (h 0))) ++ beBytes 2 port ++ beBytes 2 port ++ beBytes 2 (8 + n) ++ [0, 0]

/-- The bytes of a record: header words in network order for frames, little-endian for rings, padded to whole words (R213). -/
def TRec.bytes (r : TRec) (net : Bool) : List Byte :=
  let d := (r.hdr.flatMap (fun w => if net then beBytes 4 w.toNat else leBytes 4 w.toNat)) ++ r.body
  padTo (ceilTo 4 d.length) d

/-- Queue a frame of the device on a port: it counts against no TI (R206, R221). -/
def State.ownFrame (s : State) (p c : Nat) (d : List Byte) : State :=
  let (f, s) := s.addFrame { data := d, port := p, tc := c, arr := s.now, ti := 2048, cls := 8 * p + c }
  s.enqueue p c f

/-- Send the frame being filled for target `t` (R221). -/
def State.telFrame (s : State) (t : Nat) : State :=
  let x := s.tout t
  match x.frame with
  | [] => s
  | rs =>
    let cfg := s.rd .telCoder R.TOUT_CFG t
    let body := rs.flatMap (fun r => r.bytes true)
    let head : List Byte := [1, BitVec.ofNat 8 rs.length] ++ beBytes 2 (12 + body.length) ++ beBytes 4 (s.rd .act R.PINT_RACK).toNat ++
      beBytes 2 (s.rd .act R.PINT_TRAY).toNat ++ beBytes 2 x.idx
    let s := s.setTout t { x with frame := [], idx := (x.idx + 1) % 65536 }
    let udp := s.rf .telCoder R.TEL_CTL F.TEL_CTL_TEL_UDP
    let k := cfg.fld F.TOUT_CFG_KIND
    let mac := macBytes (s.rd .telCoder R.TOUT_A t) (s.rd .telCoder R.TOUT_B t) ++ macBytes (s.rd .act R.PINT_SMAC_LO) (s.rd .act R.PINT_SMAC_HI)
    if !s.linkUp (cfg.fld F.TOUT_CFG_PORT) ∨ (k = 1 ∧ udp = 0) then s.bump .telCoder R.TEL_LOST
    else
      let d := if k = 1 then mac ++ [8, 0] ++ ipUdp (s.rd .act R.PINT_SIP) (s.rd .telCoder R.TOUT_C t) udp (12 + body.length)
        else mac ++ beBytes 2 (s.rf .telCoder R.TEL_CTL F.TEL_CTL_TEL_ETYPE)
      s.ownFrame (cfg.fld F.TOUT_CFG_PORT) (cfg.fld F.TOUT_CFG_TC) (d ++ head ++ body)

/-- The bytes of a record in a ring slot, up to a 64-byte boundary, with its PHASE (R222). -/
def slotBytes (r : TRec) (prod lg : Nat) : List Byte :=
  let h := r.hdr.set 1 ((r.hdr.getD 1 0).setFld ⟨31, 31⟩ (b2n (prod / 2 ^ lg % 2 == 0)))
  let d := ({ r with hdr := h } : TRec).bytes false
  padTo (ceilTo 64 d.length) d

/-- Write the lines of a slot, the one with the record header last (R222): true if every write was accepted. -/
def State.slotWrite (s : State) (a : Nat) (d : List Byte) : Bool × State :=
  let line (s : State) (i : Nat) : Bool × State :=
    match s.devWriteOut (s.reqOf .telCoder) (a + 64 * i) ((d.drop (64 * i)).take 64) with
    | (none, s) => (true, s)
    | (some _, s) => (false, s)
  let (ok, s) := (List.range (d.length / 64 - 1)).foldl (fun r i => let (b, s) := line r.2 (i + 1); (r.1 && b, s)) (true, s)
  let (b, s) := line s 0
  (ok && b, s)

/-- RECORD_SEND of target `t`: the oldest record leaves its queue (R220 to R223). -/
def State.recordSend (s : State) (t : Nat) : State :=
  let x := s.tout t
  let cfg := s.rd .telCoder R.TOUT_CFG t
  match x.q with
  | [] => s
  | r :: rest =>
    if !cfg.bit 31 then s
    else
      let s := s.setTout t { x with q := rest }
      let lg := clampNat 4 12 (cfg.fld F.TOUT_CFG_LOG2)
      match cfg.fld F.TOUT_CFG_KIND with
      | 2 =>
        let a := (s.rd .telCoder R.TOUT_A t).toNat / 512 * 512 + 2 ^ 32 * ((s.rd .telCoder R.TOUT_B t).toNat % 256)
        let d := slotBytes r x.idx lg
        let (ok, s) := s.slotWrite (a + 512 * (x.idx % 2 ^ lg)) d
        let s := s.setTout t { s.tout t with idx := (x.idx + 1) % 65536 }
        if ok then s.raiseEvt (s.rd .telCoder R.TOUT_C t) else s.bump .telCoder R.TEL_LOST
      | 3 =>
        let n := cfg.fld F.TOUT_CFG_TI
        let ti := s.ti n
        if ti.st = 2 ∧ !ti.idle ∧ ti.telem.testBit r.stream then
          let a := (s.rd .telCoder R.TOUT_A t).toNat + 2 ^ 32 * (s.rd .telCoder R.TOUT_B t).toNat + 512 * (x.idx % 2 ^ lg)
          let d := slotBytes r x.idx lg
          let s := s.setTout t { s.tout t with idx := (x.idx + 1) % 65536 }
          let (j, s) := s.addJob { what := .telRec t, link := ti.link, ti := some n, addr := a, len := d.length, data := d, write := true }
          s.runJobs [j]
        else s.bump .telCoder R.TEL_LOST
      | _ =>
        let sz := 12 + ((s.tout t).frame.flatMap (fun r => r.bytes true)).length
        let s := if 1472 < sz + (r.bytes true).length then s.telFrame t else s
        let y := s.tout t
        let s := s.setTout t { y with frame := y.frame ++ [r], since := if y.frame = [] then s.mono else y.since }
        if cfg.fld F.TOUT_CFG_HOLD = 0 then s.telFrame t else s

/-- TEL_FRAME_HOLD_EXPIRE of target `t` (R221). -/
def State.holdExpire (s : State) (t : Nat) : State :=
  let x := s.tout t
  if x.frame ≠ [] ∧ x.since + 1000 * s.rf .telCoder R.TOUT_CFG F.TOUT_CFG_HOLD t ≤ s.mono then s.telFrame t else s

/-- Effects of a write of a telemetry register (R212, R220). `s` is the state after the write. -/
def State.telPost (s : State) (r : Reg) (i : Nat) (old v : Word) : State :=
  if r = R.STR_CFG ∨ r = R.STR_SRC ∨ r = R.STR_ARG then
    let s := s.closeBlock i
    if r = R.STR_CFG ∧ v.bit 31 ∧ !old.bit 31 then s.setStr i { s.str i with bseq := 0, startNext := true, gapNext := false } else s
  else if r = R.TOUT_CFG ∧ v.bit 31 ∧ !old.bit 31 then s.setTout i { s.tout i with idx := 0 }
  else s

/-! ### The forecast unit (R202 to R204) -/

/-- An engine offers a forecast event (R202): CODE of a refusal, or `none` while it waits for the group's buffer. -/
def State.fcOffer (s : State) (r : Req) (src : UnitId) (g : Nat) (ev : DWord) (th op : Nat) : Option Nat × State :=
  match s.guardAcc UnitId.act.base r .write (some src) with
  | (some c, s) => (some (8 + c), s)
  | (none, s) =>
    if !s.answers .act then (some (8 + 5), s)
    else
      let q := mapGet [] s.act.fcq g
      (if q.length < 4 then some 0 else none, { s with act := { s.act with fcq := mapSet [] s.act.fcq g (q ++ [(ev, th, op)]) } })

def evTi (e : DWord) : Nat := natBits e.toNat 63 53
def evRule (e : DWord) : Nat := natBits e.toNat 52 45
def evMag (e : DWord) : Nat := natBits e.toNat 44 41
def evDown (e : DWord) : Bool := e.toNat.testBit 40

/-- Write an event to the ring of quadrant `q` and wake its reader (R204). -/
def State.fcRing (s : State) (q : Nat) (e : DWord) : State :=
  let cfg := s.rd .act R.FC_RING_CFG q
  if !cfg.bit 31 then s
  else
    let seq := mapGet 0 s.act.ringSeq q
    let t := 7 * q + 6
    let a := scratchAddr t (cfg.fld F.FC_RING_CFG_OFF) + 16 * (seq % 2 ^ clampNat 4 10 (cfg.fld F.FC_RING_CFG_LOG2))
    let s := { s with act := { s.act with ringSeq := mapSet 0 s.act.ringSeq q ((seq + 1) % 2 ^ 32) } }
    match s.devWrite (s.reqOf .act) a (leBytes 8 e.toNat ++ leBytes 4 seq ++ leBytes 4 0) with
    | (some _, s) => s
    | (none, s) =>
      let w := s.rd .act R.FC_RING_WAKE q
      if w.bit 31 then s.idEvent (9 * t + w.fld F.FC_RING_WAKE_CORE) (w.fld F.FC_RING_WAKE_BANK) (w.fld F.FC_RING_WAKE_PRIO) else s

/-! ### The power-intent sender (R206, R207) -/

def State.setPint (s : State) (x : PintSt) : State := { s with act := { s.act with pint := x } }

/-- Build and queue a power-intent frame of a kind: it carries the held events and clears them. -/
def State.pintSend (s : State) (kind : Nat) : State :=
  let x := s.act.pint
  let ctl := s.rd .act R.PINT_CTL
  let udp := s.rf .eth R.PINT_CFG F.PINT_CFG_PINT_UDP
  let brk := (List.range 16).foldl (fun n b => n + 2 ^ b * s.rf .act R.BRK_STAT F.BRK_STAT_OUT b) 0
  let evs := x.held.flatMap (fun e => beBytes 8 (e.toNat % 2 ^ 53))
  let body : List Byte := [1, BitVec.ofNat 8 kind] ++ beBytes 2 64 ++ beBytes 4 (s.rd .act R.PINT_RACK).toNat ++
    beBytes 2 (s.rd .act R.PINT_TRAY).toNat ++ beBytes 2 x.seq ++ beBytes 8 s.now ++ beBytes 3 (s.rf .act R.PINT_POWER F.PINT_POWER_WATTS) ++
    [BitVec.ofNat 8 (s.rf .act R.PINT_CAP F.PINT_CAP_CAP_STATE)] ++ beBytes 3 (s.rf .act R.PINT_CAP F.PINT_CAP_WATTS) ++
    [BitVec.ofNat 8 x.held.length] ++ beBytes 4 brk ++ padTo 32 evs
  let mac := macBytes (s.rd .act R.PINT_DMAC_LO) (s.rd .act R.PINT_DMAC_HI) ++ macBytes (s.rd .act R.PINT_SMAC_LO) (s.rd .act R.PINT_SMAC_HI)
  let d := if ctl.bit 30 then mac ++ [8, 0] ++ ipUdp (s.rd .act R.PINT_SIP) (s.rd .act R.PINT_DIP) udp 64 ++ body
    else mac ++ beBytes 2 (s.rf .eth R.PINT_CFG F.PINT_CFG_PINT_ETYPE) ++ body
  let s := s.setPint { x with held := [], seq := (x.seq + 1) % 65536, waiting := x.waiting && kind != 2,
                              lastK2 := if kind = 2 then some s.mono else x.lastK2 }
  if !s.linkUp (ctl.fld F.PINT_CTL_PORT) ∨ (ctl.bit 30 ∧ udp = 0) then s.bump .act R.PINT_LOST
  else (s.ownFrame (ctl.fld F.PINT_CTL_PORT) (ctl.fld F.PINT_CTL_TC) d).bump .act R.PINT_SENT

/-- GAP µs have passed since the last KIND 2 frame (R206). -/
def State.pintGapOver (s : State) : Bool :=
  match s.act.pint.lastK2 with
  | some t => decide (t + 1000 * s.rf .act R.PINT_GAP F.PINT_GAP_GAP ≤ s.mono)
  | none => true

/-- A permitted event is offered to the sender (R206). -/
def State.pintOffer (s : State) (e : DWord) : State :=
  let ctl := s.rd .act R.PINT_CTL
  let mm := ctl.fld F.PINT_CTL_MIN_MAG
  if !ctl.bit 31 ∨ mm = 0 ∨ evMag e < mm then s
  else
    let x := s.act.pint
    let s := if 4 ≤ x.held.length then s.bump .act R.PINT_LOST else s
    let s := s.setPint { x with held := (if 4 ≤ x.held.length then x.held.drop 1 else x.held) ++ [e], waiting := true }
    if s.pintGapOver then s.pintSend 2 else s

/-- PINT_GAP_EXPIRE (R206). -/
def State.pintGap (s : State) : State := if s.act.pint.waiting ∧ s.pintGapOver then s.pintSend 2 else s
/-- PINT_PERIODIC: at a multiple of PERIOD µs, once; a KIND 2 frame due as well takes its place (R206). -/
def State.pintPeriodic (s : State) : State :=
  let ctl := s.rd .act R.PINT_CTL
  let per := 1000 * ctl.fld F.PINT_CTL_PERIOD
  if !ctl.bit 31 ∨ per = 0 ∨ s.now % max 1 per ≠ 0 ∨ s.act.pint.nextPer = s.now + 1 ∨ !s.answers .act then s
  else
    let s := s.setPint { s.act.pint with nextPer := s.now + 1 }
    s.pintSend (if s.act.pint.waiting ∧ s.pintGapOver then 2 else 1)
/-- PINT_DISABLE: held events and a waiting frame are discarded (R206). -/
def State.pintOff (s : State) : State :=
  let x := s.act.pint
  (s.bump .act R.PINT_LOST x.held.length).setPint { x with held := [], waiting := false }

/-- FORECAST_EVENT: the forecast unit takes the oldest event of group `g` (R203). -/
def State.forecast (s : State) (g : Nat) : State :=
  match mapGet [] s.act.fcq g with
  | [] => s
  | (e, _, _) :: r =>
    let s := { s with act := { s.act with fcq := mapSet [] s.act.fcq g r } }
    let s := match r[3]? with
      | some (_, th, op) => s.opResult th op 0
      | none => s
    if !((s.ti (evTi e)).fcast.testBit (evRule e)) then s.bump .act R.FC_DENIED
    else
      let m := s.rd .act R.FCB_MAP (evRule e)
      let s := if m.bit 31 ∧ !evDown e ∧ m.fld F.FCB_MAP_MIN_MAG ≤ evMag e then s.brkLatchSet (m.fld F.FCB_MAP_BRAKES) latchFcast else s
      ((List.range 4).foldl (fun s q => s.fcRing q e) s).pintOffer e

/-- All register effects of the actuator block. -/
def State.actAll (s : State) (r : Reg) (i : Nat) (old v : Word) : State :=
  let s := s.actPost r i old v
  if r = R.PINT_CTL ∧ old.bit 31 ∧ !v.bit 31 then s.pintOff else s

end Sys2Proof.Machine
end

