-- ==== Sys2Proof/Machine/Plan.lean ====
section
/-! DEFINITION. Machine/Plan.lean: slot plans: the mesh, the plan directory, the checks of the loader, the slot banks, the
management broadcast and the routes of Sward (R41 to R56). -/

namespace Sys2Proof.Machine

/-! ### The mesh (R41, R42) -/

/-- The router beyond mesh port `d` of router `r`. -/
def linkNbr (r d : Nat) : Option Nat :=
  match d with
  | 0 => if r / 8 = 0 then none else some (r - 8)
  | 1 => if r % 8 = 7 then none else some (r + 1)
  | 2 => if r / 8 = 7 then none else some (r + 8)
  | 3 => if r % 8 = 0 then none else some (r - 1)
  | _ => none

/-- The device-level attachments to L1, as router numbers (R42). -/
def deviceL1 : List Nat := [26, 11, 12, 43, 44, 27, 28, 8, 29, 25]

/-- A link or agent is behind port `p` of router `r`. -/
def portBacked (r p : Nat) : Bool :=
  let i := r % 8 % 4
  let k := r / 8 % 4
  match p with
  | 4 => true
  | 5 => k == 0 || (k == 2 && i == 3) || deviceL1.contains r
  | _ => (linkNbr r p).isSome

/-- The mesh port of the neighbour that faces port `p`. -/
def facing (p : Nat) : Nat := (p + 2) % 4

/-- Link (r, d) is disabled (R67). -/
def State.linkOff (s : State) (r d : Nat) : Bool := s.sward.linkDis.contains (4 * r + d)

/-! ### The management broadcast tree (R54) -/

/-- Distance of a router from the root (2, 3). -/
def bcastDist (r : Nat) : Nat := (r % 8 - 2) + (2 - r % 8) + ((r / 8 - 3) + (3 - r / 8))

/-- Router `r` forwards the broadcast on port `p`. -/
def bcastFwd (r p : Nat) : Bool :=
  let x := r % 8
  let y := r / 8
  (linkNbr r p).isSome && (match p with
    | 0 => y == 3 || decide (y < 3)
    | 2 => y == 3 || decide (3 < y)
    | 1 => y == 3 && decide (2 ≤ x)
    | 3 => y == 3 && decide (x ≤ 2)
    | _ => false)

/-- The slot of the broadcast at router `r`. -/
def bcastSlot (r : Nat) : Nat := 4 * bcastDist r % 64

/-! ### The plan directory (R51, R52) -/

/-- The address of the plan directory. -/
def State.planDir (s : State) : Nat := (s.rd .device R.PLAN_DIR_LO).toNat + 2 ^ 32 * (s.rd .device R.PLAN_DIR_HI).toNat

/-- Bytes the loader reads; none where memory does not answer or is poisoned. -/
def State.planBytes (s : State) (a n : Nat) : Option (List Byte) :=
  if s.place a = .nowhere ∨ (s.memDown a).isSome then none
  else match s.memBytes (n / 64 + 2) a n with
    | ((d, false), _) => some d
    | _ => none

/-- What the directory holds for plan `code`: the plan's bytes, an error code of R53, or nothing. -/
inductive PlanSrc where
  | missing
  | bad (code : Nat)
  | bytes (d : List Byte)
  deriving DecidableEq, Repr

def State.planSrc (s : State) (code : Nat) : PlanSrc :=
  match s.planBytes s.planDir 128 with
  | none => .missing
  | some dir =>
    let e := dir.drop (16 * code)
    let len := ofLe ((e.drop 8).take 4)
    let a := ofLe (e.take 8)
    if len = 0 then .missing
    else if len ≠ 57408 ∨ a % 64 ≠ 0 ∨ 2 ^ 40 ≤ a ∨ (dir.drop 80).any (· != 0) then .bad 2
    else match s.planBytes a len with
      | none => .bad 1
      | some d =>
        if crc32c 0xFFFFFFFF d ^^^ 0xFFFFFFFF ≠ ofLe ((e.drop 12).take 4) then .bad 1
        else if ofLe (d.take 2) ≠ 1 ∨ ofLe ((d.drop 2).take 1) ≠ code ∨ ofLe ((d.drop 3).take 1) ≠ 0 ∨ ofLe ((d.drop 4).take 4) ≠ 57408 ∨
            ((d.drop 8).take 56).any (· != 0) then .bad 2
        else .bytes d

/-- A plan as the loader sees it: the connection table, and the slot entries keyed 384·router + 64·port + slot. -/
structure Plan where
  conn : Array Nat
  ent : Array Nat

/-- Little-endian half-words of a list of bytes. -/
def halves : List Byte → List Nat
  | a :: b :: r => (a.toNat + 256 * b.toNat) :: halves r
  | _ => []

def planOf (d : List Byte) : Plan :=
  { conn := (halves ((d.drop 64).take 8192)).toArray, ent := (halves (d.drop 8256)).toArray }

/-- The entry at router, port and slot; 0 is unreserved. -/
def Plan.at (p : Plan) (r q s : Nat) : Nat := p.ent.getD (384 * r + 64 * q + s % 64) 0
def entRsv (e : Nat) : Bool := decide (32768 ≤ e)
def entIn (e : Nat) : Nat := e / 4096 % 8
def entConn (e : Nat) : Nat := e % 4096
/-- Connection `c` is VALID, and its class; a second chain takes both from its first. -/
def Plan.valid (p : Plan) (c : Nat) : Bool := (p.conn.getD (c % 2048) 0) / 4 % 2 == 1
def Plan.cls (p : Plan) (c : Nat) : Nat := (p.conn.getD (c % 2048) 0) % 4

/-- Every reserved entry: router, port, slot and value, in ascending order. -/
def Plan.rsvd (p : Plan) : List (Nat × Nat × Nat × Nat) :=
  (List.range 24576).filterMap (fun k =>
    let e := p.ent.getD k 0
    if e = 0 then none else some (k / 384, k / 64 % 6, k % 64, e))

/-! ### The checks of the loader (R53) -/

/-- CODE 2 of the connection table: entry 0, the upper half and the reserved bits are zero. -/
def Plan.tableOk (p : Plan) : Bool :=
  (List.range 4096).all (fun c => let e := p.conn.getD c 0
    decide (e < 8) && (e == 0 || (c != 0 && decide (c < 2048))))

/-- CODE 3 of one entry. -/
def Plan.entryBad (p : Plan) (r q e : Nat) : Bool :=
  let c := entConn e
  !entRsv e || decide (6 ≤ entIn e) || !portBacked r q || !portBacked r (entIn e) || c % 2048 == 0 ||
    !p.valid c || (decide (2048 ≤ c) && p.cls c != 0)

/-- The next entry of a chain: router, port and slot (R47). -/
def Plan.succ (p : Plan) (r q s c : Nat) : Option (Nat × Nat × Nat) :=
  (linkNbr r q).bind (fun b => ((List.range 6).find? (fun q' => let e := p.at b q' (s + 4)
    entRsv e && entConn e == c && entIn e == facing q)).map (fun q' => (b, q', (s + 4) % 64)))

/-- The entry before one whose input is a mesh port. -/
def Plan.pred (p : Plan) (r i s c : Nat) : Option (Nat × Nat × Nat) :=
  (linkNbr r i).bind (fun a =>
    let e := p.at a (facing i) (s + 60)
    if entRsv e && entConn e == c then some (a, facing i, (s + 60) % 64) else none)

/-- Routers from an entry to the delivery of its chain, at most `f`. -/
def Plan.ahead (p : Plan) (c : Nat) : Nat → Nat × Nat × Nat → Option Nat
  | 0, _ => none
  | f + 1, (r, q, s) => if 4 ≤ q then some 1 else (p.succ r q s c).bind (fun n => (p.ahead c f n).map (· + 1))

/-- Routers from the injection of its chain to an entry, at most `f`. -/
def Plan.behind (p : Plan) (c : Nat) : Nat → Nat × Nat × Nat → Option Nat
  | 0, _ => none
  | f + 1, (r, q, s) =>
    let i := entIn (p.at r q s)
    if 4 ≤ i then some 1 else (p.pred r i s c).bind (fun n => (p.behind c f n).map (· + 1))

/-- CODE 4 of one entry: the chain through it is broken or longer than 16 routers. -/
def Plan.chainBad (p : Plan) (r q s e : Nat) : Bool :=
  match p.ahead (entConn e) 17 (r, q, s), p.behind (entConn e) 17 (r, q, s) with
  | some a, some b => decide (17 < a + b)
  | _, _ => true

/-- The mesh links, the injection points and the delivery points of a connection. -/
def Plan.links (es : List (Nat × Nat × Nat × Nat)) (c : Nat) : List (Nat × Nat) × List (Nat × Nat) × List (Nat × Nat) :=
  let mine := es.filter (fun e => entConn e.2.2.2 == c)
  (mine.filterMap (fun e => if e.2.1 < 4 then some (e.1, e.2.1) else none),
   mine.filterMap (fun e => if 4 ≤ entIn e.2.2.2 then some (e.1, entIn e.2.2.2) else none),
   mine.filterMap (fun e => if 4 ≤ e.2.1 then some (e.1, e.2.1) else none))

/-- The same link seen from either end. -/
def sameLink (a b : Nat × Nat) : Bool := a == b || (linkNbr a.1 a.2 == some b.1 && facing a.2 == b.2)

/-- CODE 5 of one CONTROL connection: no link-disjoint second chain from the same source to the same destination. -/
def pairBad (es : List (Nat × Nat × Nat × Nat)) (c : Nat) : Bool :=
  let (l1, i1, o1) := Plan.links es c
  let (l2, i2, o2) := Plan.links es (c + 2048)
  i1.isEmpty || i2.isEmpty || !(i1.all (fun x => i2.all (· == x))) || !(o1.all (fun x => o2.all (· == x))) ||
    l1.any (fun a => l2.any (sameLink a))

/-- Entries of CONTROL connections. -/
def Plan.control (p : Plan) : List (Nat × Nat × Nat × Nat) := p.rsvd.filter (fun e => p.cls (entConn e.2.2.2) == 0)

/-- PLAN_ERR for a failure at an entry. -/
def planErr (plan code r q s : Nat) : Word := BitVec.ofNat 32 (s * 2 ^ 21 + q * 2 ^ 18 + r * 2 ^ 12 + plan * 2 ^ 4 + code)

/-- The outcome of a load: the slot entries, or PLAN_ERR where the loader recorded a failure. -/
inductive PlanRes where
  | missing
  | bad (err : Word)
  | ok (ent : Map Nat)
  deriving DecidableEq, Repr

/-- Load plan `code` and check it (R53). -/
def State.planLoad (s : State) (code : Nat) : PlanRes :=
  match s.planSrc code with
  | .missing => .missing
  | .bad c => .bad (planErr code c 0 0 0)
  | .bytes d =>
    let p := planOf d
    let es := p.rsvd
    let at_ (c : Nat) (e : Nat × Nat × Nat × Nat) : PlanRes := .bad (planErr code c e.1 e.2.1 e.2.2.1)
    if !p.tableOk then .bad (planErr code 2 0 0 0)
    else match es.find? (fun e => p.entryBad e.1 e.2.1 e.2.2.2) with
    | some e => at_ 3 e
    | none => match es.find? (fun e => p.chainBad e.1 e.2.1 e.2.2.1 e.2.2.2) with
    | some e => at_ 4 e
    | none =>
      let ctl := (List.range 2048).filter (fun c => c != 0 && p.valid c && p.cls c == 0)
      match ctl.find? (fun c => pairBad es c) with
      | some c => match es.find? (fun e => entConn e.2.2.2 % 2048 == c) with
        | some e => at_ 5 e
        | none => .bad (planErr code 5 0 0 0)
      | none =>
        let differs : Option (Nat × Nat × Nat × Nat) :=
          if code = 2 ∨ code = 3 then match s.planSrc 1 with
            | .bytes ds =>
              let cs := (planOf ds).control
              let mine := p.control
              match mine.find? (fun e => !cs.contains e) with
              | some e => some e
              | none => cs.find? (fun e => !mine.contains e)
            | _ => some (0, 0, 0, 0)
          else none
        match differs with
        | some e => at_ 5 e
        | none => match es.find? (fun e => bcastFwd e.1 e.2.1 && e.2.2.1 == bcastSlot e.1) with
        | some e => at_ 6 e
        | none => match es.find? (fun e => decide (e.2.1 < 4) && s.linkOff e.1 e.2.1) with
        | some e => at_ 7 e
        | none => .ok (es.map (fun e => (384 * e.1 + 64 * e.2.1 + e.2.2.1, e.2.2.2)))

/-! ### The slot banks (R45) -/

/-- Write a loaded plan into the shadow banks, or record its failure. -/
def State.shadowLoad (s : State) (code : Nat) : Bool × State :=
  let s := { s with sward := { s.sward with loading := none } }
  match s.planLoad code with
  | .ok m => (true, { s with sward := { s.sward with shadow := m, shadowPlan := code, shadowValid := true } })
  | .bad e => (false, { s with sward := { s.sward with planErr := e, shadowValid := false } })
  | .missing => (false, { s with sward := { s.sward with shadowValid := false } })

/-- The loader starts on a plan: the shadow banks hold no complete plan. -/
def State.loadStart (s : State) (code : Nat) : State :=
  { s with sward := { s.sward with loading := some code, shadowValid := false } }

/-- Every router makes its shadow bank active (R45). -/
def State.bankSwap (s : State) : State :=
  let w := s.sward
  { s with sward := { w with active := w.shadow, activePlan := w.shadowPlan, activeValid := w.shadowValid, shadow := w.active,
                             shadowPlan := w.activePlan, shadowValid := w.activeValid } }

/-- Both banks at the reset content of R53. -/
def State.banksReset (s : State) : State :=
  { s with sward := { s.sward with active := [], shadow := [], activePlan := 7, shadowPlan := 7, activeValid := false,
                                   shadowValid := false, loading := none } }

/-- SW_STATUS as read. -/
def State.swStatus (s : State) : Word :=
  BitVec.ofNat 32 (s.now * 2 % 64 * 256 + s.sward.activePlan * 32 + 16 * b2n s.sward.loading.isSome + s.sward.shadowPlan * 2 +
    b2n s.sward.shadowValid)

/-- LINK_DIS of quadrant `q`, as 64 bits. -/
def State.linkDisBits (s : State) (q : Nat) : Nat :=
  (List.range 64).foldl (fun n b =>
    let l := b / 4
    let r := localRouter q (l % 4) (l / 4)
    n + 2 ^ b * b2n (s.linkOff r (b % 4))) 0

/-! ### Routes (R55) -/

/-- No disabled link among `n` steps from router `r` in direction `d`. -/
def State.legClear (s : State) (d : Nat) : Nat → Nat → Bool
  | 0, _ => true
  | n + 1, r => !s.linkOff r d && (match linkNbr r d with
    | some b => s.legClear d n b
    | none => false)

/-- X first from `a` to `b`. -/
def State.xFirst (s : State) (a b : Nat) : Bool :=
  let dx := if a % 8 ≤ b % 8 then 1 else 3
  let dy := if a / 8 ≤ b / 8 then 2 else 0
  s.legClear dx ((a % 8 - b % 8) + (b % 8 - a % 8)) a && s.legClear dy ((a / 8 - b / 8) + (b / 8 - a / 8)) (a / 8 * 8 + b % 8)
/-- Y first from `a` to `b`. -/
def State.yFirst (s : State) (a b : Nat) : Bool :=
  let dx := if a % 8 ≤ b % 8 then 1 else 3
  let dy := if a / 8 ≤ b / 8 then 2 else 0
  s.legClear dy ((a / 8 - b / 8) + (b / 8 - a / 8)) a && s.legClear dx ((a % 8 - b % 8) + (b % 8 - a % 8)) (b / 8 * 8 + a % 8)

/-- A best-effort route from router `a` to router `b` exists (R55). -/
def State.routed (s : State) (a b : Nat) : Bool :=
  if a = b ∨ s.xFirst a b ∨ s.yFirst a b then true
  else if a % 8 = b % 8 then
    let i := if a % 8 = 7 then b - 1 else b + 1
    s.xFirst a i && s.yFirst i b
  else if a / 8 = b / 8 then
    let i := if a / 8 = 7 then b - 8 else b + 8
    s.yFirst a i && s.xFirst i b
  else false

/-- Disable link (r, d): both ends read 1 (R67). -/
def State.linkDisable (s : State) (r d : Nat) : State :=
  match linkNbr r d with
  | none => s
  | some b =>
    let add (l : List Nat) (k : Nat) : List Nat := if l.contains k then l else l ++ [k]
    { s with sward := { s.sward with linkDis := add (add s.sward.linkDis (4 * r + d)) (4 * b + facing d) } }

end Sys2Proof.Machine
end

