-- ==== Sys2Proof/Machine/Mode.lean ====
section
/-! DEFINITION. Machine/Mode.lean: the operating modes, transitions, RECOVERY triggers, the safe state, and the renewal of
identities (R30 to R40, R337 to R341, R349). -/

namespace Sys2Proof.Machine

def State.setMode (s : State) (m : ModeSt) : State := { s with mode := m }

/-- MODE_STATUS as read. -/
def State.modeStatus (s : State) : Word :=
  let m := s.mode
  let md : Mode := if m.emulDormant then .dormant else m.mode
  BitVec.ofNat 32 (m.wakeCause * 2 ^ 24 + m.reqErr * 2 ^ 20 + b2n m.safe * 2 ^ 19 + b2n m.rcvPend * 2 ^ 18 + m.rcvCause * 2 ^ 16 +
    b2n m.emulDormant * 2 ^ 15 + b2n m.pending.isSome * 2 ^ 14 + (if s.sward.activePlan = 7 then 0 else s.sward.activePlan) * 2 ^ 11 +
    m.prev.code * 2 ^ 8 + b2n m.trans.isSome * 2 ^ 7 + md.code)

def State.reqErr (s : State) (e : Nat) : State := s.setMode { s.mode with reqErr := e }
def State.setTrans (s : State) (t : Option Trans) : State := s.setMode { s.mode with trans := t }

/-! ### Predictor selection (R31) -/

/-- A core of Tussock `t` uses the tagged predictor in mode `m` (R30). -/
def taggedIn (m : Mode) (t : Nat) : Bool :=
  match m with
  | .boot | .maintenance => true
  | .recovery => t % 7 != 6
  | _ => false

/-- Core `p` takes its selection for the mode; a change clears its tagged tables. -/
def State.predSelect (s : State) (p : Nat) : State :=
  let want := taggedIn s.mode.mode (p / 9)
  let c := s.core p
  if c.tagged = want then s else s.setCore p { c with tagged := want, clearing := true }

/-- Every core that is out of reset takes its selection. -/
def State.predAll (s : State) : State :=
  (List.range 252).foldl (fun s p => if s.tusUp.contains (p / 9) then s.predSelect p else s) s

/-- PREDICTOR_CLEAR_DONE. -/
def State.predDone (s : State) (p : Nat) : State :=
  if (s.core p).clearing then s.setCore p { s.core p with clearing := false } else s

/-! ### PLLs that modes start and stop (R34, R419) -/

/-- Start or stop PLL `n`. A stopped PLL is not locked. -/
def State.pllSet (s : State) (n : Nat) (on : Bool) : State :=
  let set (w : Nat) (b : Bool) : Nat := if b then w ||| 2 ^ n else w - (if w.testBit n then 2 ^ n else 0)
  if on then { s with peat := { s.peat with pllRun := set s.peat.pllRun true } }
  else { s with peat := { s.peat with pllRun := set s.peat.pllRun false, pllLock := set s.peat.pllLock false } }

def State.pllLocked (s : State) (n : Nat) : Bool := s.peat.pllLock.testBit n

/-- PLL 3 runs outside BOOT and DORMANT while PORT_MODE is not 0b11. -/
def State.pllEth (s : State) : State :=
  s.pllSet 3 (s.mode.mode != .boot && s.mode.mode != .dormant && s.portMode != 3)

/-! ### Starting a transition (R33, R36) -/

/-- The first wheel boundary at or after `t`. -/
def wheelAt (t : Nat) : Nat := ceilTo 32 t

/-- MODE_SWAP_TIME shows the latest scheduled swap. -/
def State.schedule (s : State) (t : Trans) (ts : Nat) : State :=
  s.setMode { s.mode with trans := some { t with ts := some ts }, swapTime := ts }

/-- Tussocks that BOOT holds are still to be powered up (R36). -/
def State.needTus (s : State) : Bool := s.mode.mode == .boot && !(List.range 28).all (fun t => s.tusUp.contains t)

/-- Plan V is complete in the shadow banks. -/
def State.hasV (s : State) : Bool := s.sward.shadowValid && s.sward.shadowPlan == 3

/-- Begin a reload of plan V into the shadow banks. -/
def State.vLoad (s : State) : State :=
  let s := s.loadStart 3
  s.setMode { s.mode with vReload := true }

/-- A requested transition to `t` begins (R33): the loader starts on its plan, and for SURGE PLL 2 starts (R34). -/
def State.transStart (s : State) (t : Mode) (confirm : Bool) : State :=
  let s := s.loadStart ((t.plan).getD 7)
  let s := if t = .surge then s.pllSet 2 true else s
  let s := s.setMode { s.mode with vReload := false }
  s.setTrans (some { target := t, confirm := confirm, needTus := s.needTus })

/-- The device's own entry to RECOVERY with plan V in the shadow banks: a lead of 16 wheels (R36). -/
def State.recoverNow (s : State) : State :=
  let s := s.setMode { s.mode with rcvWant := false }
  s.schedule { target := .recovery, device := true, needTus := s.needTus } (wheelAt (s.now + 512))

/-- PLL 2 stops when no SURGE is in force or on the way (R34). -/
def State.surgeOff (s : State) : State :=
  if s.mode.mode = .surge ∨ s.mode.svcFast then s else s.pllSet 2 false

/-- The request in progress is abandoned before its swap (R40). -/
def State.abandon (s : State) (err : Nat) : State := ((s.setTrans none).reqErr err).surgeOff

/-! ### The safe state (R39, R341) -/

/-- Everything R39 and R341 state of the first device-fatal fault. -/
def State.enterSafe (s : State) (u : UnitId) (cause : Nat) : State :=
  let m := s.mode
  let err := if m.pending.isSome then 4 else m.reqErr
  let s := s.setMode { m with safe := true, trans := none, pending := none, reqErr := err, rcvWant := false }
  let s := s.wr .device R.SAFE_CAUSE (BitVec.ofNat 32 (2 ^ 31 + u.cls * 2 ^ 16 + cause))
  let s := (s.pwmSafe).brkSafe
  let s := s.linksDown false
  let s := [0, 1].foldl (fun s l => if s.linkUsed l ∧ (s.pf l).up then s.send (.pcieMsg l 4 0x16) else s) s
  { s with peat := { s.peat with alarmSafe := s.rb .device R.FAULT_EVT_D F.FAULT_EVT_D_SAFE_ALARM } }

/-- A device-fatal fault of unit `u` (R337, R341). -/
def State.deviceFatal (s : State) (u : UnitId) (cause addr d1 d2 : Nat) : State :=
  let s := (s.record u 3 cause addr d1 d2).setFault u fsDevFatal
  if s.mode.safe then s else s.enterSafe u cause

/-- DWD_ALARM_N is driven low (R341, R355). -/
def State.alarmLow (s : State) : Bool := (s.rd .peat R.DWD_STATUS).bit 31 || s.peat.alarmSafe

/-! ### Requests (R36 to R38, R40) -/

/-- TARGET and PLAN_CONFIRM of a written value. -/
def reqTarget (v : Word) : Nat := natBits v.toNat 2 0
def reqConfirm (v : Word) : Bool := v.bit 12

/-- The mode a requestable TARGET names. -/
def modeOf : Nat → Option Mode
  | 0 => some .dormant | 2 => some .steady | 3 => some .surge | 5 => some .maintenance | _ => none

/-- DORMANT entry begins (R36): the data plane stops, links go down, open telemetry blocks are discarded, every PWM output takes
its SAFE level and every loop stops; the rest is done by DORMANT_ENTRY_COMPLETE. -/
def State.dormStart (s : State) : State :=
  let s := s.setMode { s.mode with dormEntry := true, reqErr := 0 }
  ((s.linksDown false).telDiscard).pwmSafe

/-- Evaluate a request (R36, R37, R38). -/
def State.evalReq (s : State) (v : Word) : State :=
  let c := reqConfirm v
  match modeOf (reqTarget v) with
  | none => s.reqErr 1
  | some .dormant => s.dormStart
  | some t =>
    let m := s.mode.mode
    let s := s.reqErr 0
    if t = m then if c then s.vLoad else s
    else match m with
      | .boot =>
        if !(s.rd .gorse R.BOOT_STATUS).bit 31 then s.reqErr 2
        else if t ≠ .maintenance ∧ s.mode.rcvPend ∧ !c then (s.transStart .recovery false).reqErr 3
        else s.transStart t c
      | .steady | .surge => s.transStart t c
      | .recovery => if t = .maintenance ∨ c then s.transStart t c else s.reqErr 2
      | .maintenance =>
        if s.mode.rcvPend ∧ !c then (s.transStart .recovery false).reqErr 3 else s.transStart t c
      | .dormant => s.reqErr 2

/-- A write of MODE_REQ acts: at once, or latched behind the transition in progress (R40). -/
def State.modeRequest (s : State) (v : Word) : State :=
  if s.mode.trans.isSome ∨ s.mode.rcvWant then
    let err := if s.mode.pending.isSome then 4 else s.mode.reqErr
    s.setMode { s.mode with pending := some v, reqErr := err }
  else s.evalReq v

/-- A latched request is evaluated once no transition is in progress. -/
def State.evalLatched (s : State) : State :=
  match s.mode.pending with
  | some v => if s.mode.rcvWant then s else (s.setMode { s.mode with pending := none }).evalReq v
  | none => s

/-- The transition is complete (R35): a confirmed one clears RCV_PEND, and a latched request is evaluated. -/
def State.transDone (s : State) : State :=
  match s.mode.trans with
  | some t =>
    if t.swapped ∧ !t.needClk ∧ !t.needV ∧ !t.needTus then
      let s := s.setTrans none
      let s := if t.confirm then s.setMode { s.mode with rcvPend := false } else s
      s.evalLatched
    else s
  | none => s

/-! ### RECOVERY triggers (R36, R37, R40) -/

/-- Enter RECOVERY now, or once plan V is back in the shadow banks. `fresh`: start a reload where none is in progress; otherwise
a trigger that finds no valid plan V is device-fatal (R53). -/
def State.recoverStart (s : State) (fresh : Bool) : State :=
  if s.hasV then s.recoverNow
  else if s.mode.vReload then s.setMode { s.mode with rcvWant := true }
  else if fresh then (s.vLoad).setMode { (s.vLoad).mode with rcvWant := true }
  else s.deviceFatal .device 0x0F 0 s.sward.planErr.toNat 0

/-- A RECOVERY trigger with cause `c` (R37, R38, R40). -/
def State.rcvTrigger (s : State) (c : Nat) : State :=
  let s := s.setMode { s.mode with rcvCause := c }
  let m := s.mode
  let pend (s : State) : State := s.setMode { s.mode with rcvPend := true }
  if m.safe then s
  else if m.mode = .dormant ∨ m.dormEntry then pend s
  else match m.trans with
    | some t =>
      if t.device then s
      else if !t.swapped then
        let s := s.abandon 4
        if m.mode = .recovery then s.evalLatched else s.recoverStart true
      else if m.mode = .maintenance then pend s
      else if m.mode = .recovery then s
      else if s.hasV then s.recoverNow
      else if t.needV then s.setMode { s.mode with rcvWant := true }
      else s.recoverStart false
    | none => match m.mode with
      | .boot | .maintenance => pend s
      | .steady | .surge => s.recoverStart false
      | _ => s

/-! ### Loading and swapping (R33, R36) -/

/-- PLAN_LOAD_DONE: the target plan is in the shadow banks and Ts is set, or the request is refused with REQ_ERR 5. -/
def State.planLoaded (s : State) : State :=
  match s.mode.trans with
  | some t =>
    if t.device ∨ t.ts.isSome ∨ s.sward.loading ≠ t.target.plan then s
    else
      let (ok, s) := s.shadowLoad ((t.target.plan).getD 7)
      if ok then
        let lead := clampNat 16 1024 (s.rf .device R.MODE_LEAD F.MODE_LEAD_LEAD)
        s.schedule t (wheelAt (s.now + 32 * lead))
      else
        let s := s.abandon 5
        let s := if s.mode.mode = .steady ∨ s.mode.mode = .surge ∨ s.mode.mode = .maintenance then s.vLoad else s
        s.evalLatched
  | none => s

/-- What a mode in force means for the data plane: 0 off, 1 128-byte line rate, 2 96-byte line rate, 3 best effort, 4 optional. -/
def rateOf : Mode → Nat
  | .dormant | .boot => 0 | .steady => 1 | .surge => 2 | .recovery => 3 | .maintenance => 4

/-- The swap at Ts (R33): the banks change over, MODE takes the new value, predictor selections and the data-plane rate change,
and for a requested transition the reload of plan V begins. -/
def State.swapNow (s : State) (t : Trans) : State :=
  let old := s.mode.mode
  let s := s.bankSwap
  let s := s.setMode { s.mode with prev := old, mode := t.target, dpRate := rateOf t.target,
                                   rcvPend := s.mode.rcvPend && t.target != .recovery }
  let clk := (t.target == .surge) != s.mode.svcFast
  let s := s.setTrans (some { t with swapped := true, needClk := clk, needV := !t.device })
  let s := s.predAll
  let s := s.pllEth.surgeOff
  let s := if old = .boot then s.linksDown true else s
  let s := if t.device then s else s.vLoad
  s.transDone

/-- MODE_SWAP. -/
def State.modeSwap (s : State) : State :=
  match s.mode.trans with
  | some t => match t.ts with
    | some ts => if !t.device ∧ !t.swapped ∧ ts ≤ s.now then s.swapNow t else s
    | none => s
  | none => s

/-- RECOVERY_ENTRY. -/
def State.recoveryEntry (s : State) : State :=
  match s.mode.trans with
  | some t => match t.ts with
    | some ts => if t.device ∧ !t.swapped ∧ ts ≤ s.now then s.swapNow t else s
    | none => s
  | none => s

/-- PLAN_V_RELOAD_DONE: the reload finishes; a waiting trigger enters RECOVERY, or finds no valid plan V (R38, R40, R53). -/
def State.vReloaded (s : State) : State :=
  if s.mode.vReload ∧ s.sward.loading = some 3 then
    let (ok, s) := s.shadowLoad 3
    let s := s.setMode { s.mode with vReload := false }
    let s := match s.mode.trans with
      | some t => s.setTrans (some { t with needV := false })
      | none => s
    if s.mode.rcvWant then
      if ok then s.recoverNow
      else (s.setMode { s.mode with rcvWant := false }).deviceFatal .device 0x0F 0 s.sward.planErr.toNat 0
    else s.transDone
  else s

/-- SERVICE_CLOCK_SWITCH: at the later of Ts and lock, service Tussocks change PLL (R34). -/
def State.clockSwitch (s : State) : State :=
  match s.mode.trans with
  | some t =>
    if t.swapped ∧ t.needClk ∧ (t.target ≠ .surge ∨ s.pllLocked 2) then
      let s := s.setMode { s.mode with svcFast := t.target == .surge }
      let s := if t.target = .surge then s else s.pllSet 2 false
      (s.setTrans (some { t with needClk := false })).transDone
    else s
  | none => s

/-- TUSSOCK_POWER_UP_DONE: a Tussock held in BOOT leaves reset with the predictor selection in force (R36). -/
def State.tussockUp (s : State) (t : Nat) : State :=
  match s.mode.trans with
  | some x =>
    if x.needTus ∧ t < 28 ∧ !s.tusUp.contains t then
      let s := { s with tusUp := s.tusUp ++ [t] }
      let s := (List.range 9).foldl (fun s c => s.setCore (9 * t + c) { s.core (9 * t + c) with tagged := taggedIn s.mode.mode t }) s
      if (List.range 28).all (fun t => s.tusUp.contains t) then (s.setTrans (some { x with needTus := false })).transDone else s
    else s
  | none => s

/-! ### Renewing an epoch (R54, R62, R347, R349) -/

/-- The epoch in force for identity `id`: one for each renewal since PORST_N. -/
def State.idEpoch (s : State) (id : Nat) : Nat := mapGet 0 s.fault.renewals id % 16

/-- Renew the epoch of `id` and ask for its broadcast; the sixteenth renewal retires it instead. True: renewed. -/
def State.renew (s : State) (u : UnitId) (q id : Nat) : Bool × State :=
  let n := mapGet 0 s.fault.renewals id + 1
  if 16 ≤ n then
    let s := { s with fault := { s.fault with retired := if s.fault.retired.contains id then s.fault.retired else s.fault.retired ++ [id] } }
    (false, (s.record u 2 0x12 0 id 0 (some id)).rcvTrigger 2)
  else
    let s := { s with fault := { s.fault with renewals := mapSet 0 s.fault.renewals id n } }
    (true, { s with sward := { s.sward with bcasts := s.sward.bcasts ++ [⟨q, id, n % 16⟩] } })

/-- Set the EPOCH field of one master in every table (R62). -/
def State.epochEverywhere (s : State) (m e : Nat) : State :=
  (List.range 128).foldl (fun s t => s.setAtEntry t m (s.atEntry t m / 16 * 16 + e % 16)) s

/-- MGMT_BROADCAST: in slot 0 of a wheel the oldest broadcast leaves; one configuration event in each Sward router block. -/
def State.broadcast (s : State) : State :=
  if s.now % 32 = 0 then match s.sward.bcasts with
    | [] => s
    | b :: r =>
      let s := { s with sward := { s.sward with bcasts := r } }
      [0, 1, 2, 3].foldl (fun s q => s.cfgEvent (.sw q) machineWriter) (s.epochEverywhere b.master b.epoch)
  else s

/-! ### Links (R67) -/

/-- Disable a link and take the RECOVERY trigger, with a record for the link (R67, R340). -/
def State.linkFail (s : State) (r d : Nat) : State :=
  if s.linkOff r d ∨ (linkNbr r d).isNone then s
  else
    let q := routerQuad r
    ((s.linkDisable r d).record (.sw q) 0 0x0B 0 (4 * routerLocal r + d) r).rcvTrigger 3

end Sys2Proof.Machine
end

