-- ==== Sys2Proof/Machine/Sedge.lean ====
section
/-! DEFINITION. Machine/Sedge.lean: the Sedge engines: microwords and operand specifiers, threads and their waits, dispatch,
microcode exceptions, engine states, takeover and return (R85 to R93, R97 to R108). -/

namespace Sys2Proof.Machine

/-! ### Microwords (R89) -/

structure Mw where
  next : Nat
  csel : Nat
  cbits : Nat
  wait : Nat
  wto : Nat
  opa : Nat
  setc : Bool
  r88 : Bool
  dst : Nat
  s1 : Nat
  s2 : Nat
  opb : Nat
  db : Nat
  ab : Nat
  len : Nat
  mod : Nat
  imm : Word
  deriving DecidableEq, Repr

/-- Take a microword apart. -/
def mwOf (w : BitVec 128) : Mw :=
  let f (hi lo : Nat) : Nat := natBits w.toNat hi lo
  { next := f 127 114, csel := f 113 110, cbits := f 109 106, wait := f 105 100, wto := f 99 96, opa := f 95 90,
    setc := w.toNat.testBit 89, r88 := w.toNat.testBit 88, dst := f 87 80, s1 := f 79 72, s2 := f 71 64, opb := f 63 58,
    db := f 57 50, ab := f 49 42, len := f 41 36, mod := f 35 32, imm := BitVec.ofNat 32 (f 31 0) }

/-- The microword at address `a` of the control store of engine `e`. -/
def State.csWord (s : State) (e a : Nat) : BitVec 128 := mapGet 0 s.sedge.cs (16384 * e + a)
/-- Which stored parity bits differ from R89. -/
def State.csBad (s : State) (e a : Nat) : Nat := mapGet 0 s.sedge.csPar (16384 * e + a)
/-- Write a microword with its parity; CS_VALID clears (R86). -/
def State.csWrite (s : State) (e a : Nat) (w : BitVec 128) : State :=
  ({ s with sedge := { s.sedge with cs := mapSet 0 s.sedge.cs (16384 * e + a) w, csPar := mapSet 0 s.sedge.csPar (16384 * e + a) 0 } }).wf
    (.engine e) R.ENG_STATUS F.ENG_STATUS_CS_VALID 0

def csValid (s : State) (e : Nat) : Bool := s.rb (.engine e) R.ENG_STATUS F.ENG_STATUS_CS_VALID

/-! ### Threads (R90, R101) -/

/-- The engine whose bank and threads a thread belongs to. -/
def thOwner (t : Nat) : Nat := t / 16
/-- The engine that issues a thread's microwords. -/
def State.thEng (s : State) (t : Nat) : Nat := s.holder (thOwner t)
def Thread.vreg (x : Thread) (i : Nat) : Word := mapGet 0 x.v i
def Thread.setV (x : Thread) (i : Nat) (w : Word) : Thread := { x with v := mapSet 0 x.v i w }

/-- The threads engine `e` issues, in the order of its pointer: its own, then its adoptee's (R106). -/
def State.engThreads (s : State) (e : Nat) : List Nat :=
  ((if s.adopted e then [] else [e]) ++ (s.adoptee e).toList).flatMap (fun o => (List.range 16).map (fun t => 16 * o + t))

/-- The microword a thread is at. -/
def State.thMw (s : State) (t : Nat) : Mw := mwOf (s.csWord (s.thEng t) (s.thread t).pc)

/-- The packet of a thread: its frame. -/
def State.thFrame (s : State) (t : Nat) : Option Frame := (s.thread t).pkt.map (fun f => s.frame f)

/-! ### Interlock (R92) -/

/-- `n` specifiers from `d` on. -/
def runSpec (d n : Nat) : List Nat := (List.range n).map (fun i => d + i)

/-- The result run of an operation B: first specifier and number of words. -/
def Mw.result (m : Mw) : Nat × Nat :=
  match m.opb with
  | 0x01 | 0x10 | 0x19 => (m.db, m.len + 1)
  | 0x03 => (m.db, 1)
  | 0x08 => (m.db, 5)
  | _ => (0, 0)

/-- The specifiers operation B reads. -/
def Mw.bReads (m : Mw) : List Nat :=
  match m.opb with
  | 0x01 | 0x09 | 0x0A | 0x10 | 0x12 | 0x18 | 0x19 | 0x20 | 0x29 => [m.ab]
  | 0x02 | 0x11 => m.ab :: runSpec m.db (m.len + 1)
  | 0x03 => m.ab :: runSpec m.db (if m.len = 2 then 2 else 1)
  | 0x08 => runSpec m.db (m.len + 1)
  | 0x1A => m.ab :: (if m.db = 0x10 then [] else runSpec m.db 4)
  | 0x28 => match m.mod with
    | 0 => [m.db, m.db + 1]
    | 1 => [m.ab]
    | _ => [m.db, m.ab]
  | _ => []

/-- The specifiers operation A reads. -/
def Mw.aReads (m : Mw) : List Nat :=
  match m.opa with
  | 0x00 => []
  | 0x01 | 0x0E | 0x0F | 0x10 => [m.s1]
  | 0x0D => [m.dst, m.s1, m.s2]
  | _ => [m.s1, m.s2]

/-- Every specifier a microword reads or writes, those its wait and condition group name among them. -/
def Mw.touches (m : Mw) : List Nat :=
  m.aReads ++ (if m.opa = 0 then [] else [m.dst]) ++ m.bReads ++ runSpec m.result.1 m.result.2 ++
    (if m.csel = 3 then [15] else []) ++ (if m.csel = 6 then [0x82] else []) ++ (if m.wait = 5 then [14] else []) ++
    (if m.wait = 8 then [13] else [])

/-- A thread holds: a word it touches is the destination of an uncompleted operation, or it has 16 operations in flight. -/
def holdsOn (x : Thread) (m : Mw) : Bool :=
  x.ops.any (fun o => m.touches.any (fun p => decide (o.dst ≤ p ∧ p < o.dst + o.len))) ||
    (decide (16 ≤ x.ops.length) && m.opb != 0)

/-! ### Waits (R97, R98) -/

/-- WAIT condition TIME. -/
def State.timeTrue (s : State) (x : Thread) : Bool := decide (0 ≤ ((lo32 s.now) - x.vreg 14).toInt)

/-- A wait condition. -/
def State.waitTrue (s : State) (t : Nat) (w : Nat) : Bool :=
  let x := s.thread t
  match w with
  | 1 => x.ops.isEmpty
  | 2 => x.any
  | 3 => !x.ops.any (fun o => o.code == 0x18 || o.code == 0x19 || o.code == 0x1A)
  | 4 => !x.ops.any (fun o => o.code == 0x20)
  | 5 => x.st == 1
  | 6 => (s.thFrame t).any (·.tail)
  | 7 => decide ((mapGet [] s.act.fcq (thOwner t / 4)).length < 4)
  | 8 => match s.dest (x.vreg 13) with
    | some (0, p, c, _) => s.linkUp p && s.egressRoom p c
    | some _ => true
    | none => false
  | _ => true

/-- Timeout of the thread's wait: expired, and the elapsed 8 ns units. -/
def State.waitExpired (s : State) (t : Nat) : Option Nat :=
  let m := s.thMw t
  let lim := s.rf (.engine (s.thEng t)) R.WTO F.WTO_TIME m.wto
  let el := s.mono - (s.thread t).reach
  if m.wait = 0 ∨ lim = 0 ∨ el < 8 * lim then none else some (el / 8)

/-- The state THREAD_n shows (R101), without the 8 for EXC_ACTIVE. -/
def State.thState (s : State) (t : Nat) : Nat :=
  let x := s.thread t
  if x.st = 0 then 0 else if x.st = 4 then 4
  else
    let m := s.thMw t
    if !s.waitTrue t m.wait then 2 else if holdsOn x m then 3 else 1

/-- THREAD_n of engine `e`. -/
def State.threadReg (s : State) (t : Nat) : Word :=
  let x := s.thread t
  BitVec.ofNat 32 ((s.thState t + 8 * b2n x.excAct) * 2 ^ 28 + (match x.ctx with
    | some c => c % 256
    | none => 0x100) * 2 ^ 19 + x.ops.length * 2 ^ 14 + x.pc)

/-- The thread reaches the microword at `pc`. -/
def State.reachPc (s : State) (t pc : Nat) : State :=
  let s := s.setThread t { s.thread t with pc := pc % 16384, reach := s.mono, st := 1 }
  if (s.thMw t).wait = 5 ∧ !s.timeTrue (s.thread t) then s.setThread t { s.thread t with st := 2 } else s

/-- WAIT_TIME_REACHED. -/
def State.timeReached (s : State) (t : Nat) : State :=
  let x := s.thread t
  if x.st = 2 ∧ s.timeTrue x then s.setThread t { x with st := 1 } else s

/-! ### The end of a thread (R100, R103) -/

/-- The thread becomes FREE: an undisposed packet is dropped with `reason`, reservations it leaves are completed, and its
context is released. A test run ends with its thread (R105). -/
def State.threadFree (s : State) (t reason : Nat) : State :=
  let x := s.thread t
  let (js, s) := x.rsv.foldl (fun (acc : List Nat × State) r =>
    let (j, s) := acc.2.cqComplete r.qp r.rq r.idx r.words
    (acc.1 ++ j, s)) ([], s)
  let s := match x.ctx with
    | some c => s.setCtxWord c 0 (s.ctxWord c 0 &&& 0xBFFFFFFF)
    | none => s
  let s := match x.pkt with
    | some f => if (s.frame f).disp then s else s.dropKeep f reason
    | none => s
  let s := s.setThread t { pc := x.pc, nextOp := x.nextOp }
  let s := match x.pkt with
    | some f => s.reap f
    | none => s
  let s := s.runJobs js
  let e := s.thEng t
  if s.engState e = engTesting ∧ t = 16 * e then s.setEngState e engStopped else s

/-- DONE has been issued and nothing is in flight (R103). -/
def State.threadCheck (s : State) (t : Nat) : State :=
  if (s.thread t).st = 4 ∧ (s.thread t).ops.isEmpty then s.threadFree t dNodisp else s

/-- A cause while EXC_ACTIVE is 1 ends the thread (R100). -/
def State.threadKill (s : State) (t : Nat) : State :=
  (s.bump (.engine (s.thEng t)) R.EXC_NEST_CNT).threadFree t dExcEnd

/-- Take microcode exception `cause` (R99). -/
def State.takeMexc (s : State) (t cause pc : Nat) (info : Word) : State :=
  let x := s.thread t
  if x.excAct then s.threadKill t
  else
    let s := s.bump (.engine (s.thEng t)) R.EXC_CNT
    (s.setThread t { x with excAct := true, excCause := cause, excPc := pc, excInfo := info, any := false }).reachPc t (8 * cause)

/-- A pending B_ERROR is taken at once by a thread in a wait (R99). -/
def State.berrNow (s : State) (t : Nat) : State :=
  let x := s.thread t
  match x.berr with
  | some w =>
    if s.thState t = 2 then (s.setThread t { x with berr := none }).takeMexc t 5 x.pc w else s
  | none => s

/-- The BSTAT of a completed operation (R90). -/
def bstatOf (code op : Nat) : Word := BitVec.ofNat 32 (code % 16 + 16 * op)

/-- Write result words from specifier `d` on: value registers or context words. -/
def State.putRun (s : State) (t d : Nat) : List Word → State
  | [] => s
  | w :: r =>
    let s := if d < 16 then s.setThread t ((s.thread t).setV d w)
      else match (s.thread t).ctx with
        | some c => s.setCtxWord c (d - 0x80) w
        | none => s
    s.putRun t (d + 1) r

/-- OPB_COMPLETE: operation `o` of thread `t` delivers its result, after every earlier operation to its target (R95, R96). -/
def State.opComplete (s : State) (t o : Nat) : State :=
  let x := s.thread t
  match x.ops.find? (fun p => p.id == o) with
  | none => s
  | some p =>
    if (x.ops.takeWhile (fun q => q.id != o)).any (fun q => q.target == p.target) then s
    else match p.res with
      | none => s
      | some (code, ws) =>
        let s := s.setThread t { x with ops := x.ops.filter (fun q => q.id != o), any := true, bstat := bstatOf code p.code }
        let s := if code < 8 then s.putRun t p.dst (ws.take p.len) else s
        let s := if code < 8 then s
          else if (s.thread t).excAct then s.threadKill t
          else
            let y := s.thread t
            (s.setThread t { y with berr := some (y.berr.getD (bstatOf code p.code)) }).berrNow t
        s.threadCheck t

/-- WAIT_TIMEOUT of thread `t` (R98). -/
def State.waitTimeout (s : State) (t : Nat) : State :=
  if s.thState t = 2 ∧ s.answers (.engine (s.thEng t)) then
    match s.waitExpired t with
    | some n => s.takeMexc t 6 (s.thread t).pc (BitVec.ofNat 32 n)
    | none => s
  else s

/-! ### Dispatch (R102, R105) -/

/-- A thread of owner `o` that is FREE, lowest number first. -/
def State.freeThread (s : State) (o : Nat) : Option Nat := ((List.range 16).map (fun t => 16 * o + t)).find? (fun t => (s.thread t).st == 0)

/-- Engine `e` takes new packets for owner `o`. -/
def State.dispatches (s : State) (e o : Nat) : Bool :=
  s.answers (.engine e) && s.engState e == engRunning && !(o != e && s.engState o == engReturning) && s.dpOn

/-- PACKET_DISPATCH of engine `e`: the first packet of its queue whose context is not HELD (R102, R120). -/
def State.packetDispatch (s : State) (e : Nat) : State :=
  let q := s.dispq e
  let owner (d : DispEnt) : Nat := match d.ctx with
    | some c => c / 256
    | none => e
  let ready (d : DispEnt) : Bool := s.dispatches e (owner d) && (s.freeThread (owner d)).isSome && (match d.ctx with
    | some c => !(s.ctxWord c 0).bit 30
    | none => true)
  match q.find? ready with
  | none => s
  | some d =>
    let s := s.setDispq e (q.erase d)
    match s.freeThread (owner d) with
    | none => s
    | some t =>
      let go (s : State) : State :=
        let entry := s.rf (.engine e) R.ENTRY F.ENTRY_ADDR (d.sel % 16)
        (s.setThread t { st := 1, ctx := d.ctx, v := mapSet 0 [] 15 d.word, pkt := some d.frame, nextOp := (s.thread t).nextOp }).reachPc
          t entry
      match d.ctx with
      | none => go s
      | some c =>
        let w := s.ctxWord c 0
        if !w.bit 31 then s.ctxLost d.frame
        else go (s.setCtxWord c 0 ((w.setFld ⟨15, 0⟩ ((w.fld ⟨15, 0⟩ + 1) % 65536)).setFld ⟨30, 30⟩ 1))

/-! ### Engine states (R105, R107) -/

/-- Every thread `e` holds for owner `o` is FREE with nothing in flight. -/
def State.ownerIdle (s : State) (o : Nat) : Bool :=
  (List.range 16).all (fun t => (s.thread (16 * o + t)).st == 0 && (s.thread (16 * o + t)).ops.isEmpty)

/-- A command ENG_CTL may give in the engine's state (R105). -/
def State.engCmdOk (s : State) (e cmd : Nat) : Bool :=
  let st := s.engState e
  (s.eng e).waitCmd.isNone && !(s.eng e).retired && (match cmd with
    | 1 => st == engStopped && csValid s e && !s.adopted e
    | 2 => st == engRunning || st == engTesting
    | 3 => st == engStopped && csValid s e
    | 4 => st == engStopped && csValid s e && s.adopted e
    | _ => false)

/-- RETURNING ends (R105): the engine runs, and neither side shows an adoption. -/
def State.returned (s : State) (e : Nat) : State :=
  let a := s.holder e
  let q := s.dispq a
  let mine (d : DispEnt) : Bool := match d.ctx with
    | some c => c / 256 == e
    | none => false
  let s := (s.setDispq a (q.filter (fun d => !mine d))).setDispq e ((s.dispq e) ++ q.filter mine)
  let s := if a = e then s else s.wf (.engine a) R.ENG_STATUS F.ENG_STATUS_ADOPTING 0
  (s.wf (.engine e) R.ENG_STATUS F.ENG_STATUS_ADOPTED 0).setEngState e engRunning

/-- The identity comes back (R107): one more renewal; the command acts once its broadcast is delivered. -/
def State.engReturn (s : State) (e cmd : Nat) : State :=
  match s.renew (.engine e) (e / 16) (0x100 + e) with
  | (true, s) => s.setEng e { s.eng e with waitCmd := some cmd }
  | (false, s) => s.setEng e { s.eng e with retired := true }

/-- A command that may act does. -/
def State.engCommand (s : State) (e cmd : Nat) : State :=
  match cmd with
  | 1 => if (s.eng e).lost then s.engReturn e 1 else s.setEngState e engRunning
  | 2 => (s.setEng e { s.eng e with since := s.mono }).setEngState e engHalting
  | 3 =>
    let s := s.setEngState e engTesting
    (s.setThread (16 * e) { st := 1, nextOp := (s.thread (16 * e)).nextOp }).reachPc (16 * e) (s.rf (.engine e) R.ENTRY F.ENTRY_ADDR 15)
  | 4 => if (s.eng e).lost then s.engReturn e 4 else
      (s.setEng e { s.eng e with since := s.mono }).setEngState e engReturning
  | _ => s

/-- The broadcast for an engine's identity has reached every table: a waiting RUN or READMIT acts (R107). -/
def State.engBroadcast (s : State) (m : Nat) : State :=
  let e := m - 0x100
  if 0x100 ≤ m ∧ m < 0x140 then match (s.eng e).waitCmd with
    | some c =>
      let s := s.setUnit (.engine e) { s.unit (.engine e) with epoch := s.idEpoch m }
      let s := s.setEng e { s.eng e with waitCmd := none, lost := false, since := s.mono }
      s.setEngState e (if c = 1 then engRunning else engReturning)
    | none => s
  else s

/-- ENGINE_HALT_DONE. -/
def State.haltDone (s : State) (e : Nat) : State :=
  if s.engState e = engHalting ∧ (s.engThreads e).all (fun t => (s.thread t).st == 0) then s.setEngState e engStopped else s
/-- ENGINE_HALT_TIMEOUT: after 100 µs the remaining threads end under R100. -/
def State.haltTimeout (s : State) (e : Nat) : State :=
  if s.engState e = engHalting ∧ (s.eng e).since + 100000 ≤ s.mono then
    let s := (s.engThreads e).foldl (fun s t => if (s.thread t).st = 0 then s else s.threadKill t) s
    s.setEngState e engStopped
  else s
/-- ENGINE_RETURN_DONE. -/
def State.returnDone (s : State) (e : Nat) : State :=
  if s.engState e = engReturning ∧ s.ownerIdle e then s.returned e else s
/-- ENGINE_RETURN_TIMEOUT. -/
def State.returnTimeout (s : State) (e : Nat) : State :=
  if s.engState e = engReturning ∧ (s.eng e).since + 100000 ≤ s.mono then
    ((List.range 16).foldl (fun s t => if (s.thread (16 * e + t)).st = 0 then s else s.threadKill (16 * e + t)) s).returned e
  else s

/-! ### Failure and takeover (R106, R108) -/

/-- The adopter R106 chooses. -/
def State.adopterFor (s : State) (e : Nat) : Option Nat :=
  ([1, 2, 3].map (fun k => e / 4 * 4 + (e % 4 ^^^ k))).find? (fun a => s.engState a == engRunning && !s.adopting a && s.answers (.engine a) &&
    s.rd (.engine a) R.CS_IMAGE == s.rd (.engine e) R.CS_IMAGE)

/-- Engine `e` fails: its identity's epoch is renewed and a sibling adopts its work, or its flows are lost (R106). -/
def State.engTakeover (s : State) (e : Nat) : State :=
  let s := s.setEngState e engFailed
  let s := s.setEng e { s.eng e with lost := true, waitCmd := none }
  let s := match s.renew (.engine e) (e / 16) (0x100 + e) with
    | (true, s) => s
    | (false, s) => s.setEng e { s.eng e with retired := true }
  -- a sibling whose work this engine held: one that is returning runs on with both banks, another stays without an adopter
  match s.adoptee e with
  | some r =>
    let s := s.wf (.engine e) R.ENG_STATUS F.ENG_STATUS_ADOPTING 0
    if s.engState r = engReturning then
      let s := s.returned r
      let s := (s.setDispq r (s.dispq r ++ s.dispq e)).setDispq e []
      let s := (s.wf (.engine e) R.ENG_STATUS F.ENG_STATUS_ADOPTED 1).wf (.engine e) R.ENG_STATUS F.ENG_STATUS_ADOPTER (r % 4)
      ((s.wf (.engine r) R.ENG_STATUS F.ENG_STATUS_ADOPTING 1).wf (.engine r) R.ENG_STATUS F.ENG_STATUS_ADOPTEE (e % 4)).rcvTrigger 2
    else
      let s := s.wf (.engine r) R.ENG_STATUS F.ENG_STATUS_ADOPTED 0
      ((s.setDispq e []).setFault (.group (e / 4)) fsUnitFatal).rcvTrigger 2
  | none => match s.adopterFor e with
    | some a =>
      let s := (s.setDispq a (s.dispq a ++ s.dispq e)).setDispq e []
      let s := (s.wf (.engine e) R.ENG_STATUS F.ENG_STATUS_ADOPTED 1).wf (.engine e) R.ENG_STATUS F.ENG_STATUS_ADOPTER (a % 4)
      ((s.wf (.engine a) R.ENG_STATUS F.ENG_STATUS_ADOPTING 1).wf (.engine a) R.ENG_STATUS F.ENG_STATUS_ADOPTEE (e % 4)).rcvTrigger 2
    | none =>
      let s := (s.dispq e).foldl (fun s d => s.ctxLost d.frame) (s.setDispq e [])
      (s.setFault (.group (e / 4)) fsUnitFatal).rcvTrigger 2

/-- The next thread engine `e` would issue: the first of its threads at or after its pointer that is ready (R101). -/
def State.nextThread (s : State) (e : Nat) : Option Nat :=
  let ts := s.engThreads e
  let rot := ts.drop ((s.eng e).rr % max 1 ts.length) ++ ts.take ((s.eng e).rr % max 1 ts.length)
  rot.find? (fun t => s.thState t == 1 && (s.engState e != engTesting || t == 16 * e))

/-- The engine issues. -/
def State.engIssues (s : State) (e : Nat) : Bool :=
  let st := s.engState e
  s.answers (.engine e) && (st == engRunning || st == engHalting || st == engTesting)

/-- CS_PARITY_ERROR of engine `e`: the next fetch fails its parity (R106). -/
def State.csParity (s : State) (e : Nat) : State :=
  if s.engIssues e then match s.nextThread e with
    | some t =>
      let pc := (s.thread t).pc
      let syn := s.csBad e pc
      if syn = 0 then s
      else
        let log := 2 ^ 31 + t % 16 * 2 ^ 22 + syn * 2 ^ 14 + pc
        let s := s.wr (.engine e) R.MC_LOG (BitVec.ofNat 32 log)
        let id := s.masterId (.engine e)
        let a := (s.adopterFor e).map (· % 4)
        let s := s.record (.engine e) 2 0x06 0 log (a.getD 0xFF) (some id)
        (s.setFault (.engine e) fsUnitFatal).engTakeover e
    | none => s
  else s

/-- CS_ERR_INJ: invert a stored parity bit. -/
def State.csInject (s : State) (e a p : Nat) : State :=
  let k := 16384 * e + a % 16384
  { s with sedge := { s.sedge with csPar := mapSet 0 s.sedge.csPar k (mapGet 0 s.sedge.csPar k ^^^ 2 ^ (p % 8)) } }

end Sys2Proof.Machine
end

