-- ==== Sys2Proof/Machine/Reset.lean ====
section
/-! DEFINITION. Machine/Reset.lean: what each reset clears and what it keeps: unit resets and holds, warm reset, cold reset and the
resets of a PCIe link (R17, R59, R184, R311, R345, R347, R390, R429 to R432). -/

namespace Sys2Proof.Machine

/-! ### One unit (R17) -/

/-- Registers of a unit that a unit reset leaves: the region table (R73), the event input unit (R184) and Peat (R429). -/
def unitKeeps (u : UnitId) (a : Nat) : Bool :=
  match u with
  | .slice 0 => decide (u.base + 0x400 ≤ a ∧ a < u.base + 0x1400)
  | .eviUnit | .peat => decide (u.base + 0x100 ≤ a)
  | _ => false

/-- A watchdog stops counting. -/
def State.wdStop (s : State) (u : UnitId) : State := { s with fault := { s.fault with wd := mapErase u.base s.fault.wd } }

/-- The register shadow of identity `i` returns to reset values (R345). -/
def State.shadowClear (s : State) (i : Nat) : State :=
  { s with fault := { s.fault with shadow := mapDrop (fun k => k / 0x8000 == i) s.fault.shadow } }

/-- A core's banks are OFF and its caches and translations empty (R267, R302). `own`: its registers and shadow go too. -/
def State.coreClear (s : State) (p : Nat) : State :=
  let s := { s with ling := { s.ling with
    banks := mapDrop (fun k => k / 8 == p) s.ling.banks,
    l1d := mapDrop (fun k => k / 128 == p) s.ling.l1d, l1i := mapDrop (fun k => k / 128 == p) s.ling.l1i } }
  s.setCore p { tagged := (s.core p).tagged, clearing := (s.core p).clearing }

/-- The L2 of a Tussock is invalidated without write-back, its ways are cache ways and its scratch is gone (R311). -/
def State.l2Clear (s : State) (t : Nat) : State :=
  let s := { s with mem := { s.mem with
    sectors := mapDrop (fun k => k / 2 ^ 32 == t) s.mem.sectors, subs := mapDrop (fun k => k / 2 ^ 34 == t) s.mem.subs,
    evb := mapErase t s.mem.evb, stq := mapErase t s.mem.stq, conv := mapErase t s.mem.conv,
    l2Ptr := mapDrop (fun k => k / 512 == t) s.mem.l2Ptr, lockPtr := mapDrop (fun k => k / 512 == t) s.mem.lockPtr } }
  s.clearBytes (0xC00000000 + t * 0x800000) (0xC00000000 + (t + 1) * 0x800000)

/-- An engine's unit reset: STOPPED with CS_VALID 0 and ADOPTED kept; threads that no sibling holds are gone (R105). -/
def State.engClear (s : State) (e keep : Nat) : State :=
  let s := s.wf (.engine e) R.ENG_STATUS F.ENG_STATUS_ADOPTED (keep / 16 % 2)
  let s := s.wf (.engine e) R.ENG_STATUS F.ENG_STATUS_ADOPTER (keep / 32 % 4)
  let s := s.wf (.engine e) R.ENG_STATUS F.ENG_STATUS_ADOPTING (keep / 128 % 2)
  let s := s.wf (.engine e) R.ENG_STATUS F.ENG_STATUS_ADOPTEE (keep / 256 % 4)
  let x := s.eng e
  let s := s.setEng e { lost := x.lost, retired := x.retired }
  if s.adopted e then s
  else { s with sedge := { s.sedge with threads := mapDrop (fun k => k / 16 == e) s.sedge.threads } }

/-- The packet path is empty and its links start again; key slots and per-TI shapes stay. -/
def State.ethClear (s : State) : State :=
  { s with eth := { keys := s.eth.keys, shape := s.eth.shape, nextFrame := s.eth.nextFrame } }

/-- PORT_MODE and STRAP_BOOT take the sampled straps (R109, R432). -/
def State.strapRegs (s : State) : State :=
  let n := s.peat.straps
  let s := s.wf .eth R.ETH_CFG F.ETH_CFG_PORT_MODE (natBits n 6 5)
  (s.wf .gorse R.BOOT_STATUS F.BOOT_STATUS_STRAP_BOOT (n % 4)).wr .gorse R.BOOT_INFO (BitVec.ofNat 32 n)

/-- One unit's own reset: its registers, its own fault bits, and the state behind them (R17). `src` is its UnitRt, whose six kept
fields stay. -/
def State.unitClear (s : State) (u : UnitId) : State :=
  let status := (s.rd u R.ENG_STATUS).toNat
  let s := s.resetRegs u (unitKeeps u)
  let s := s.setUnit u { s.unit u with fsum := 0, pstate := if (s.unit u).pstate = .off then .off else .on, emulated := false }
  match u with
  | .core p =>
    let s := if s.ident p = 0xFFF then s else s.shadowClear (s.ident p)
    ({ s with trace := { s.trace with src := mapErase p s.trace.src } }.wdStop u).coreClear p
  | .tussock t => ({ s with trace := { s.trace with fr := mapErase t s.trace.fr } }.wdStop u).l2Clear t
  | .engine e => { s with trace := { s.trace with src := mapErase (0x100 + e) s.trace.src } }.engClear e status
  | .fc q => { s with eth := { s.eth with fcache := mapDrop (fun k => k / 512 == q) s.eth.fcache } }
  | .sw q => { s with sward := { s.sward with viol := mapErase q s.sward.viol } }
  | .chGroup g => s.restartGroup g
  | .tripUnit => { s with meas := { s.meas with trip := [] } }
  | .mfe => { s with meas := { s.meas with sent := [] } }
  | .telCoder => { s with tel := {} }
  | .act => { s with act := { force := s.act.force, ringSeq := s.act.ringSeq } }
  | .eth => (s.ethClear.strapRegs).linksDown (s.mode.mode != .boot && s.mode.mode != .dormant)
  | .pcie => { s with pcie := { s.pcie with obBase := 0, ctxo := [] } }
  | .gorse => s.strapRegs
  | .hedgerow => { s with trace := { s.trace with hr := {} } }
  | .dap => { s with dap := { s.dap with cls := 0, host := false, busy := none, dre := [], latch := [] } }
  | _ => s

/-- A unit reset: the unit and its descendants, each a configuration event of `w` (R17, R19). Held engines come back (R105). -/
def State.unitReset (s : State) (u : UnitId) (w : Word) : State :=
  u.subtree.foldl (fun s v =>
    let s := s.unitClear v
    let s := match v with
      | .engine _ => s.setUnit v { s.unit v with dead := false }
      | _ => s
    s.cfgEvent v w) s

/-- HOLD of a unit (R17): the hold is set and its subtree is reset, or the hold is released; a device hold lasts (R343). -/
def State.unitHold (s : State) (u : UnitId) (on : Bool) (w : Word) : State :=
  if (s.unit u).dead ∧ !on then s.cfgEvent u w
  else if on then (s.unitReset u w).setUnit u { (s.unitReset u w).unit u with hold := true }
  else (s.setUnit u { s.unit u with hold := false }).cfgEvent u w

/-! ### The resets of a PCIe link (R139, R429, R430) -/

/-- The link's function, its BAR0 registers and its boot mailbox return to their reset values, and its TIs are destroyed. -/
def State.linkReset (s : State) (l : Nat) : State :=
  let s := s.destroyLink l
  let s := s.resetRegs (.bar0 l) (fun _ => false)
  { s with pcie := { s.pcie with msix := mapDrop (fun k => k / 16384 == l) s.pcie.msix,
                                 msixPend := s.pcie.msixPend.filter (fun k => k / 4096 != l) } }.setPf l { up := (s.pf l).up }

/-- The link leaves DL_Active: every TI of it is destroyed (R139). -/
def State.linkDown (s : State) (l : Nat) : State := (s.destroyLink l).setPf l { (s.destroyLink l).pf l with up := false }

/-! ### Warm reset (R429, R430) -/

/-- DBG_ATTACHED of DAP_CTL. -/
def State.attached (s : State) : Bool := s.rb .dap R.DAP_CTL F.DAP_CTL_DBG_ATTACHED

/-- A register address a warm reset leaves: Peat (R429), the event input unit (R184), and the DAP and Hedgerow while a debugger is
attached (R390). -/
def State.warmKeeps (s : State) (a : Nat) : Bool :=
  inBlock .peat a || inBlock .eviUnit a || (s.attached && (inBlock .dap a || inBlock .hedgerow a))

/-- The record of a unit after a warm reset: HOLDs end, and so do device holds but for those of DEAD and quarantined cores (R343). -/
def State.warmUnit (s : State) (b : Nat) (x : UnitRt) : UnitRt :=
  let stays := (List.range 252).any (fun p => (UnitId.core p).base == b && (s.health p == .dead || s.health p == .quarantine))
  { x with pstate := .on, emulated := false, hold := false, dead := x.dead && stays, fsum := 0, lastTick := x.tick, missed := 0 }

/-- The memories after a warm reset: caches, directories and messages are gone, DRAM keeps its content and waits in self-refresh,
and scratch is gone (R84, R311). -/
def State.warmMem (s : State) : State :=
  let s := { s with mem := { mem := s.mem.mem, poison := s.mem.poison, fmt := s.mem.fmt, chans := s.mem.chans } }
  let s := (List.range 32).foldl (fun s c => s.setChan c { s.chan c with initDone := false, selfRef := true, exiting := true }) s
  s.clearBytes 0xC00000000 0xC0E000000

/-- The sample period of the event inputs changes: every count toward acceptance restarts (R179). -/
def State.eviPeriod (s : State) : State :=
  let evi := (s.meas.evi.map (fun (e : Nat × EviSt) => (e.1, { e.2 with cnt := 0 }))).filter (fun e => e.2 != {})
  { s with meas := { s.meas with evi := evi } }

/-- A warm reset (R429): `cause` is RST_CAUSE and `wake` the WAKE_CAUSE it leads to BOOT with. -/
def State.warmReset (s : State) (cause wake : Nat) : State :=
  let att := s.attached
  let dorm := decide (s.mode.mode = .dormant)
  let s := (s.linkReset 0).setPf 0 {}
  let s := (s.linkReset 1).setPf 1 {}
  let units := (s.units.map (fun (e : Nat × UnitRt) => (e.1, s.warmUnit e.1 e.2))).filter (fun e => e.2 != {})
  let s := s.fault.subst.foldl (fun (s : State) (e : Nat × Option Subst) => match e.2 with
    | some x => s.setHealth x.spare .active
    | none => s) s
  let health := (s.fault.health.map (fun (e : Nat × Health) => (e.1, if e.2 = .testing then Health.quarantine else e.2))).filter
    (fun e => e.2 != healthReset e.1)
  let wd := s.fault.wd.filter (fun (e : Nat × Wd) => inBlock .peat e.1)
  let engs := (s.sedge.engs.map (fun (e : Nat × Eng) => (e.1, ({ lost := e.2.lost, retired := e.2.retired } : Eng)))).filter
    (fun e => e.2 != {})
  let fault : FaultSt := { s.fault with health := health, shadow := [], subst := [], wd := wd, sramStall := [], ckptReq := [] }
  let dap : DapSt := if att then s.dap else { ir := s.dap.ir, bsr := s.dap.bsr, driving := s.dap.driving, drOff := s.dap.drOff, drData := s.dap.drData, fails := s.dap.fails, lockout := s.dap.lockout, attempts := s.dap.attempts }
  let trace : TraceSt := if att then s.trace else { fr := s.trace.fr.filter (fun e => e.1 == 28) }
  let peat : PeatSt := { s.peat with exiting := none, exitCode := 15, ballHold := [], brkHold := none, brkLow := 0, ptrip := [], alarmSafe := false, pwrEn := true }
  let s : State := { s with regs := mapDrop (fun a => !s.warmKeeps a) s.regs, latches := [], units := units, tusUp := [0], mode := { wakeCause := wake }, sward := {}, fault := fault, ling := {}, act := {}, tel := {}, dap := dap, trace := trace, peat := peat }
  let s : State := { s with meas := { evi := s.meas.evi, winStart := s.meas.winStart } }
  let s := if dorm then s.eviPeriod else s
  let s : State := { s with eth := { keys := s.eth.keys, nextFrame := s.eth.nextFrame } }
  let s : State := { s with sedge := { engs := engs, cs := s.sedge.cs, csPar := s.sedge.csPar } }
  let s : State := { s with pcie := { tis := s.pcie.tis, nextJob := s.pcie.nextJob, nextTag := s.pcie.nextTag } }
  let s : State := { s with gorse := { secret := s.gorse.secret, digs := s.gorse.digs, revoked := s.gorse.revoked, vfail := s.gorse.vfail } }
  let s := s.warmMem
  let s := (s.pllSet 2 false).pllSet 3 false
  (s.wr .peat R.RST_CAUSE (BitVec.ofNat 32 cause)).strapRegs

/-- RESET at the device UMB (R429): a configuration event, and a warm reset. -/
def State.warmByWrite (s : State) (w : Word) : State := (s.cfgEvent .device w).warmReset 1 1

/-! ### Cold reset (R429, R431, R432) -/

/-- PORST_N: the whole device returns to its reset state but for the fuses; its rise samples the straps and measures VDDIO_M. The
levels of the inputs and the model's own fields stay. -/
def State.coldReset (s : State) (straps : Nat) (io33 : Bool) : State :=
  let peat : PeatSt := { straps := straps % 256, iov3v3 := io33, iovErr := io33 != straps.testBit 7, refclk := s.peat.refclk, mainPg := s.peat.mainPg, perst := s.peat.perst, pcieRef := s.peat.pcieRef }
  let gorse : GorseSt := { secret := s.gorse.secret, digs := s.gorse.digs, revoked := s.gorse.revoked }
  let s : State := { State.reset with pending := s.pending, mono := s.mono, freeCtr := s.freeCtr, resp := s.resp, out := s.out, gorse := gorse, peat := peat }
  let s := s.strapRegs
  (s.wf .peat R.IO_STATUS F.IO_STATUS_IOV_ERR (b2n s.peat.iovErr)).wf .peat R.IO_STATUS F.IO_STATUS_IOV_3V3 (b2n io33)

end Sys2Proof.Machine
end

