-- ==== Sys2Proof/Machine/LingReg.lean ====
section
/-! DEFINITION. Machine/LingReg.lean: the special registers of a Ling bank, the MAC state of a context, how a bank starts, and the
checkpoint slots that keep its state (R238, R243, R244, R267, R278, R282, R283, R346, R347). -/

namespace Sys2Proof.Machine

/-! ### Special registers (R238) -/

/-- WST. In the trap window CWP still names the rotating window it returns to. -/
def Bank.wst (x : Bank) : Word := BitVec.ofNat 32 (x.depth * 65536 + x.cwp)
/-- MTS WST: the depth of a fresh call chain, every window below the current one counting as spilled. -/
def Bank.setWst (x : Bank) (v : Word) : Bank := { x with depth := v.fld ⟨31, 16⟩, resident := 0 }
/-- PSR of bank `b`. -/
def Bank.psr (x : Bank) (b : Nat) : Word := BitVec.ofNat 32 (b % 4 * 16 + x.pl % 4)

/-- The exception set of level `l` (1 S, 2 H, 3 M). -/
def Bank.es (x : Bank) (l : Nat) : ESet := mapGet {} x.eset l
def Bank.setEs (x : Bank) (l : Nat) (e : ESet) : Bank := { x with eset := mapSet {} x.eset l e }

def Bank.tcmpAt (x : Bank) (n : Nat) : Word := mapGet 0 x.tcmp n
def Bank.setTcmp (x : Bank) (n : Nat) (v : Word) : Bank := { x with tcmp := mapSet 0 x.tcmp n v }

/-- Masks of the writable bits of ECAUSE, ESTAT, EPROG, TCTL, MCTL, MSTAT, BWIN and WSP. -/
def mskECAUSE : Word := 0xFF01F7FF
def mskEPROG : Word := 0xC000FFFF
def mskTCTL : Word := 0x000000FF
def mskMCTL : Word := 0x00000F03
def mskMSTAT : Word := 0x00000003
def mskBWIN : Word := 0x000003FF
def mskWSP : Word := 0xFFFFFFC0

/-- FEAT_0 to FEAT_3. -/
def feat (n : Nat) : Word := match n with
  | 0 => 0x1044841F
  | 1 => 0x00681655
  | 2 => 0x001008C1
  | _ => 0

/-- Comparator `n` of a bank is due (R238). -/
def tcmpDue (now : Nat) (x : Bank) (n : Nat) : Bool :=
  x.tctl.bit n && decide (0 ≤ (lo32 now - x.tcmpAt n).toInt)

/-! ### The MAC unit (R243, R244) -/

def Mac.accAt (m : Mac) (a : Nat) : DWord := mapGet 0 m.acc a
def Mac.setAcc (m : Mac) (a : Nat) (v : DWord) : Mac := { m with acc := mapSet 0 m.acc a v }
def Mac.kAt (m : Mac) (k : Nat) : Word := mapGet 0 m.k k
def Mac.setK (m : Mac) (k : Nat) (v : Word) : Mac := { m with k := mapSet 0 m.k k v }

/-- The 104 bytes of the MAC state of a context, as 26 words. -/
def Mac.words (m : Mac) : List Word :=
  (List.range 4).flatMap (fun a => [lo32 (m.accAt a).toNat, hi32 (m.accAt a).toNat]) ++
    (List.range 16).map m.kAt ++ [m.mctl, m.mstat]

/-- The MAC state those words hold. -/
def macOf (w : List Word) : Mac :=
  let at_ (i : Nat) : Word := w.getD i 0
  let m : Mac := (List.range 4).foldl (fun m a => m.setAcc a ((at_ (2 * a + 1)) ++ (at_ (2 * a)))) {}
  let m := (List.range 16).foldl (fun m k => m.setK k (at_ (8 + k))) m
  { m with mctl := at_ 24 &&& mskMCTL, mstat := at_ 25 &&& mskMSTAT }

/-- The context bank `b` runs in owns the MAC state (R278). -/
def State.macOwn (s : State) (p b : Nat) : Bool := (s.core p).macOwner == some (b, (s.bank p b).edepth)

/-! ### Starting a bank (R267) -/

/-- Bank `b` restarts at START at level M, with every register at its reset value; one that leaves OFF is READY. -/
def State.bankStart (s : State) (p b : Nat) (start : Word) : State :=
  let st := (start &&& 0xFFFFFFFC)
  let x : Bank := { st := .ready, pc := st, npc := st + 4, epri := s.bpri p b }
  let c := s.core p
  let mine : Bool := match c.macOwner with
    | some o => o.1 == b
    | none => false
  ((s.setBank p b x).setCore p (if mine then { c with macOwner := none } else c)).resched p

/-- The bank goes OFF: it holds its registers (R262), and what is outstanding still completes (R267). -/
def State.bankStop (s : State) (p b : Nat) : State :=
  let x := s.bank p b
  (s.setBank p b { x with st := .off, wait := .none }).resched p

/-! ### Checkpoints (R346) -/

/-- The words of a bank's slot: header with sequence number `seq`, then the bank. -/
def State.ckptWords (s : State) (p b : Nat) (seq : Word) : List Word :=
  let x := s.bank p b
  let c := s.core p
  let own := s.macOwn p b
  let es (l : Nat) : List Word :=
    let e := x.es l
    [e.epc, e.enpc, e.ecause, e.eaddr, e.estat, e.eprog]
  let flags := 2 ^ 31 + x.edepth * 2 ^ 24 + b2n own * 2 ^ 20 + b2n x.resv * 2 ^ 19 + x.hidden % 65536
  let body : List Word := [seq, BitVec.ofNat 32 flags, x.pc, x.npc] ++ (List.range 15).map (fun i => x.reg (i + 1)) ++
    [x.wst, x.wsp, x.rc, x.psr b, x.bwin] ++ es 1 ++ es 2 ++ es 3 ++ (List.range 4).map x.tcmpAt ++
    [x.tctl, if x.resv || own then c.oframe else 0] ++ (List.range 100).map (fun i => mapGet 0 x.w i) ++
    (if own then c.mac.words else List.replicate 26 0)
  body ++ List.replicate (256 - body.length) 0

/-- The area's address of a slot, for identity `i`. -/
def State.ckptAddr (s : State) (i b k : Nat) : Nat :=
  let t := i / 9
  scratchAddr t (s.rf (.tussock t) R.CKPT_CFG F.CKPT_CFG_OFF) + i % 9 * 0x2000 + b * 0x800 + k * 0x400

/-- SEQ of a slot, if it is valid. -/
def State.slotSeq (s : State) (a : Nat) : Option Word :=
  if (s.leAt (a + 4) 4).testBit 31 then some (BitVec.ofNat 32 (s.leAt a 4)) else none

/-- The slot to load or, else, the newer one: number and SEQ. -/
def State.newestSlot (s : State) (i b : Nat) : Option (Nat × Word) :=
  match s.slotSeq (s.ckptAddr i b 0), s.slotSeq (s.ckptAddr i b 1) with
  | none, none => none
  | some a, none => some (0, a)
  | none, some c => some (1, c)
  | some a, some c => if 0 ≤ (a - c).toInt then some (0, a) else some (1, c)

/-- Bytes of words. -/
def wordBytes (ws : List Word) : List Byte := ws.flatMap (fun w => leBytes 4 w.toNat)
/-- Words of bytes. -/
def bytesWords (b : List Byte) : List Word := (List.range (b.length / 4)).map (fun i => BitVec.ofNat 32 (ofLe ((b.drop (4 * i)).take 4)))

/-- The core writes bank `b`'s state into the older slot; a slot without backing fails (R346). -/
def State.ckptWrite (s : State) (p b : Nat) : State :=
  let i := s.ident p
  let (slot, seq) := match s.newestSlot i b with
    | none => (0, (1 : Word))
    | some (k, q) => (1 - k, q + 1)
  let a := s.ckptAddr i b slot
  let u := UnitId.core p
  if s.place a = .nowhere ∨ s.place (a + 0x3FF) = .nowhere ∨ (s.memDown a).isSome ∨ (s.memDown (a + 0x3FF)).isSome then
    s.wf u R.CKPT_CTL F.CKPT_CTL_CKPT_ERR 1
  else
    (s.memStore (s.masterId u) 20 a (wordBytes (s.ckptWords p b seq)) false).wf u R.CKPT_CTL F.CKPT_CTL_CKPT_ERR 0

/-- Bank `b` of core `p` yields: a checkpoint follows where AUTO or NOW asks for one. -/
def State.ckptYield (s : State) (p b : Nat) : State :=
  if p ≥ 252 ∨ s.ident p ≥ 252 ∨ !s.rb (.tussock (p / 9)) R.CKPT_CFG F.CKPT_CFG_EN then s
  else
    let now := (mapGet 0 s.fault.ckptReq p).testBit b
    if now ∨ (s.rf (.core p) R.CKPT_CTL F.CKPT_CTL_AUTO).testBit b then
      let m := mapGet 0 s.fault.ckptReq p
      let s : State := { s with fault := { s.fault with ckptReq := mapSet 0 s.fault.ckptReq p (if now then m - 2 ^ b else m) } }
      s.ckptWrite p b
    else s

/-- Load bank `b` of core `p` from slot `k` of identity `i` (R347 step 2). The slot holds neither how many windows were in
registers nor whether the bank was in its trap window: both are free values. -/
def State.ckptLoad (s : State) (p b i k : Nat) : State :=
  let w := bytesWords (s.bytes (s.ckptAddr i b k) 0x400)
  let at_ (n : Nat) : Word := w.getD n 0
  let fl := (at_ 1).toNat
  let es (n : Nat) : ESet := ⟨at_ n, at_ (n + 1), at_ (n + 2), at_ (n + 3), at_ (n + 4), at_ (n + 5)⟩
  let (fw, s) := s.freeN
  let (ft, s) := s.freeB
  let depth := natBits (at_ 19).toNat 31 16
  let edepth := natBits fl 27 24
  let x : Bank := { st := .ready, pc := at_ 2, npc := at_ 3, wsp := at_ 20, rc := at_ 21, bwin := at_ 23, tctl := at_ 46 }
  let x : Bank := { x with cwp := natBits (at_ 19).toNat 2 0 % 7, depth := depth, resident := min depth (fw % 6), trap := ft && decide (0 < edepth), pl := natBits (at_ 22).toNat 1 0, edepth := edepth, hidden := natBits fl 15 0, resv := fl.testBit 19, epri := s.bpri p b }
  let x := (List.range 15).foldl (fun x n => x.setReg (n + 1) (at_ (4 + n))) x
  let x := ((x.setEs 1 (es 24)).setEs 2 (es 30)).setEs 3 (es 36)
  let x := (List.range 4).foldl (fun x n => x.setTcmp n (at_ (42 + n))) x
  let x : Bank := { x with w := (List.range 100).foldl (fun m n => mapSet 0 m n (at_ (48 + n))) x.w }
  let s := s.setBank p b x
  let c := s.core p
  if fl.testBit 20 then s.setCore p { c with mac := macOf (w.drop 148), macOwner := some (b, edepth), oframe := at_ 47 }
  else if fl.testBit 19 then s.setCore p { c with oframe := at_ 47 } else s

end Sys2Proof.Machine
end

