-- ==== Sys2Proof/Machine/Death.lean ====
section
/-! DEFINITION. Machine/Death.lean: health checks, what the death of each unit leads to, substitution and re-admission of cores,
watchdogs, SRAM bank sparing and the machine-check log (R338, R342 to R355, R399, R400). -/

namespace Sys2Proof.Machine

/-! ### Watchdogs (R354, R355, R399, R400) -/

/-- The watchdog of a unit: its control word and the ns of one count. -/
def State.wdCfg (s : State) (u : UnitId) : Word × Nat :=
  match u with
  | .core _ => (s.rd u R.WD_CTL, 1000)
  | .tussock _ => (s.rd u R.TWD_CTL, 1000)
  | _ => (s.rd .peat R.DWD_CTL, 1000000)

def wdEn (w : Word) : Bool := w.bit 31
def wdReload (w : Word) : Nat := max 1 (natBits w.toNat 23 0)
/-- ACTION: 2 and 3 act as 1. -/
def wdActs (w : Word) : Bool := decide (1 ≤ natBits w.toNat 29 28)

def State.wd (s : State) (u : UnitId) : Wd := mapGet {} s.fault.wd u.base
def State.setWd (s : State) (u : UnitId) (x : Wd) : State :=
  { s with fault := { s.fault with wd := mapSet {} s.fault.wd u.base x } }

def State.frozen (s : State) : Bool := s.rb .dap R.DAP_CTL F.DAP_CTL_FREEZE

/-- The watchdog does not count now: debug monitor with WD_DBGPAUSE, FREEZE, or DORMANT without DORMANT_RUN. -/
def State.wdPaused (s : State) (u : UnitId) : Bool :=
  match u with
  | .core p => (s.rd u R.WD_CTL).bit 30 && [0, 1, 2, 3].any (fun b => (s.bank p b).mon)
  | .tussock _ => s.frozen
  | _ => s.frozen || (s.mode.mode == .dormant && !(s.rd .peat R.DWD_CTL).bit 30)

/-- Load RELOAD. -/
def State.wdLoad (s : State) (u : UnitId) : State :=
  let (w, k) := s.wdCfg u
  if s.wdPaused u then s.setWd u { due := none, left := wdReload w * k }
  else s.setWd u { due := some (s.mono + wdReload w * k), left := 0 }

/-- A write of the control register: setting EN loads the count, clearing it stops the count. -/
def State.wdPost (s : State) (u : UnitId) (old : Word) : State :=
  let (w, _) := s.wdCfg u
  if wdEn w then (if wdEn old then s else s.wdLoad u) else s.setWd u {}

/-- A kick. -/
def State.wdKick (s : State) (u : UnitId) (v : Word) : State :=
  if natBits v.toNat 7 0 = 0xA5 ∧ wdEn (s.wdCfg u).1 then s.wdLoad u else s

/-- What pauses a watchdog has changed: stop the count, or resume it. `full`: resume from RELOAD (R400). -/
def State.wdSync (s : State) (u : UnitId) (full : Bool := false) : State :=
  let x := s.wd u
  match x.due with
  | some d => if s.wdPaused u then s.setWd u { due := none, left := max 1 (d - s.mono) } else s
  | none =>
    if x.left = 0 ∨ s.wdPaused u then s
    else if full then s.wdLoad u
    else
      let n := match u with
        | .core _ => max x.left 4000000
        | _ => x.left
      s.setWd u { due := some (s.mono + n), left := 0 }

/-- Every watchdog that FREEZE pauses. -/
def State.wdFreeze (s : State) (full : Bool) : State :=
  ((List.range 28).foldl (fun s t => s.wdSync (.tussock t) full) s).wdSync .peat full

/-- The count left, in counts, rounded up. -/
def State.wdRemain (s : State) (u : UnitId) : Nat :=
  let k := (s.wdCfg u).2
  match (s.wd u).due with
  | some d => (d - s.mono + k - 1) / k
  | none => ((s.wd u).left + k - 1) / k

def State.wdDue (s : State) (u : UnitId) : Bool := match (s.wd u).due with
  | some d => decide (d ≤ s.mono)
  | none => false

/-! ### Holding a unit (R343) -/

/-- The hold of a unit that has failed: its subtree is reset, register shadows stay (R345), and `bits` of FAULT_SUM are set. -/
def State.devHold (s : State) (u : UnitId) (bits : Nat) : State :=
  let sh := s.fault.shadow
  let s := match u with
    | .engine _ | .group _ => s
    | _ => u.subtree.foldl (fun s v => s.unitClear v) s
  let s : State := { s with fault := { s.fault with shadow := sh } }
  (s.setUnit u { s.unit u with dead := true }).setFault u (fsUnitFatal ||| bits)

/-! ### Substitution (R347, R349) -/

/-- The core of a Tussock that is its spare. -/
def State.spareOf (s : State) (t : Nat) : Option Nat :=
  ((List.range 9).map (fun c => 9 * t + c)).find? (fun p => s.health p == .spare)

/-- The identities a core has held, its first among them. -/
def State.held (s : State) (p : Nat) : List Nat := p :: mapGet [] s.fault.heldIds p

/-- Core `p` takes identity `i`, and shows its epoch. -/
def State.takeIdent (s : State) (p i : Nat) : State :=
  let s : State := { s with fault := { s.fault with heldIds := mapSet [] s.fault.heldIds p (mapGet [] s.fault.heldIds p ++ [i]) } }
  (s.setIdent p i).setUnit (.core p) { s.unit (.core p) with epoch := s.idEpoch i }

/-- Registers of the spare are written from the shadow of identity `i` by the device itself (R345, R347 step 1). -/
def State.shadowLoadInto (s : State) (p i : Nat) : State :=
  s.fault.shadow.foldl (fun s e =>
    if e.1 / 0x8000 = i then
      let a := (UnitId.core p).base + e.1 % 0x8000
      let d := match (UnitId.core p).findReg (e.1 % 0x8000) with
        | some (r, _, _) => BitVec.ofNat 32 r.reset
        | none => 0
      let s : State := { s with regs := mapSet d s.regs a e.2 }
      s.cfgEvent (.core p) machineWriter
    else s) s

/-- Steps 1 to 3 of R347 for the dead core `d`, whose hold is made: the spare `p` takes registers, banks and identity. -/
def State.substitute (s : State) (d p i : Nat) : State :=
  match s.renew (.quad (d / 63)) (d / 63) i with
  | (false, s) => s.setIdent d 0xFFF
  | (true, s) =>
    let s := s.shadowLoadInto p i
    let s := s.setCore p { s.core p with switching := true }
    let s := [0, 1, 2, 3].foldl (fun s b =>
      match (if s.rb (.tussock (p / 9)) R.CKPT_CFG F.CKPT_CFG_EN then s.newestSlot i b else none) with
      | some (k, _) => s.ckptLoad p b i k
      | none => s.setBank p b {}) s
    let s := ((s.setIdent d 0xFFF).takeIdent p i)
    { s with fault := { s.fault with subst := mapSet none s.fault.subst (p / 9) (some ⟨d, p, i, 3⟩) } }

/-- SPARE_RESUME: the broadcast has set the epoch in every table; the spare issues, and the substitution is logged. -/
def State.spareResume (s : State) (t : Nat) : State :=
  match mapGet none s.fault.subst t with
  | none => s
  | some x =>
    if s.sward.bcasts.any (fun b => b.master == x.ident) then s
    else
      let q := t / 7
      let log := 2 ^ 31 + t % 7 * 2 ^ 28 + x.dead % 9 * 2 ^ 24 + x.spare % 9 * 2 ^ 20 + s.idEpoch x.ident * 2 ^ 16 + x.ident
      let s : State := { s with fault := { s.fault with subst := mapSet none s.fault.subst t none } }
      let s := s.setHealth x.spare .active
      let s := s.wr (.quad q) R.SUB_LOG (BitVec.ofNat 32 log)
      let s := s.record (.quad q) 0 0x07 0 log 0
      (s.setCore x.spare { s.core x.spare with switching := false }).resched x.spare

/-! ### What a death leads to (R343) -/

/-- A core is declared dead. `bits` says HEARTBEAT or WATCHDOG. -/
def State.coreDeath (s : State) (p bits : Nat) : State :=
  let u := UnitId.core p
  let t := p / 9
  match s.health p with
  | .testing => (s.devHold u bits).setHealth p .quarantine
  | .spare => (((s.devHold u bits).setHealth p .dead).setIdent p 0xFFF).rcvTrigger 1
  | .active =>
    let i := s.ident p
    let s := (s.devHold u bits).setHealth p .dead
    let pending := mapGet none s.fault.subst t
    match s.spareOf t with
    | some sp =>
      if pending.isSome then ((s.renew u (p / 63) i).2.setIdent p 0xFFF).rcvTrigger 2
      else
        let s := s.substitute p sp i
        if s.ident sp = i then s.rcvTrigger 1 else s
    | none =>
      let s := s.record u 2 0x11 0 u.cls 0
      ((s.renew u (p / 63) i).2.setIdent p 0xFFF).rcvTrigger 2
  | _ => s.devHold u bits

/-- A Sedge group dies: its engines fail without an adopter and their flows are lost. -/
def State.groupDeath (s : State) (g : Nat) : State :=
  (List.range 4).foldl (fun s j =>
    let e := 4 * g + j
    let s := (s.setEngState e engFailed).setEng e { s.eng e with lost := true, waitCmd := none }
    let s := match s.renew (.engine e) (e / 16) (0x100 + e) with
      | (true, s) => s
      | (false, s) => s.setEng e { s.eng e with retired := true }
    let s := (s.wf (.engine e) R.ENG_STATUS F.ENG_STATUS_ADOPTED 0).wf (.engine e) R.ENG_STATUS F.ENG_STATUS_ADOPTING 0
    let s := (s.dispq e).foldl (fun s d => s.ctxLost d.frame) (s.setDispq e [])
    (List.range 16).foldl (fun s t => if (s.thread (16 * e + t)).st = 0 then s else s.threadFree (16 * e + t) dCtxLost) s) s

/-- Everything that follows the failure of a unit (R343); `u` is not yet held. -/
def State.unitDeath (s : State) (u : UnitId) (bits : Nat) : State :=
  let lone (s : State) : State := s.record u 2 0x11 0 u.cls 0
  match u with
  | .core p => s.coreDeath p bits
  | .engine e => (s.devHold u bits).engTakeover e
  | .group g => (((lone s).groupDeath g).devHold u bits).rcvTrigger 2
  | .tussock _ | .er _ | .fc _ => ((lone s).devHold u bits).rcvTrigger 2
  | .mio | .hedgerow | .dap | .telCoder => (lone s).devHold u bits
  | .chGroup g => ((lone s).devHold u bits).groupFault g
  | _ => (s.devHold u bits).deviceFatal u 0x11 0 u.cls 0

/-! ### Health checks (R342) -/

/-- The unit is checked: ON or IDLE, and not in reset, dead or quarantined. -/
def State.checked (s : State) (u : UnitId) : Bool :=
  let x := s.unit u
  (x.pstate == .on || x.pstate == .idle) && !s.inReset u && s.mode.mode != .dormant && u != .device && (match u with
    | .core p => s.health p != .dead && s.health p != .quarantine
    | _ => true)

/-- Its own logic does not answer: it is silent from outside, or its core has stopped (R277). -/
def State.silent (s : State) (l : List UnitId) (u : UnitId) : Bool :=
  l.contains u || (match u with
    | .core p => (s.core p).stopped
    | _ => false)

/-- HEALTH_TICK of every unit but those in `l`, and the check that follows, at a multiple of 2,000 ns. -/
def State.healthTick (s : State) (l : List UnitId) : State :=
  if s.now % 2000 ≠ 0 then s
  else allUnits.foldl (fun s u =>
    let x := s.unit u
    if s.checked u ∨ (u = .device ∧ s.mode.mode ≠ .dormant) then
      if s.silent l u then s.setUnit u { x with missed := x.missed + 1 }
      else s.setUnit u { x with tick := (x.tick + 1) % 2 ^ 32, lastTick := s.now, missed := 0 }
    else if x.missed = 0 then s else s.setUnit u { x with missed := 0 }) s

/-- A sibling core with a lower number is due first. -/
def State.siblingDue (s : State) (u : UnitId) : Bool :=
  match u with
  | .core p => (List.range (p % 9)).any (fun c => s.checked (.core (p / 9 * 9 + c)) && decide (3 ≤ (s.unit (.core (p / 9 * 9 + c))).missed))
  | _ => false

/-- UNIT_DECLARED_DEAD: after the third check without a tick. DETAIL1 is the last HEALTH_TICK. -/
def State.declareDead (s : State) (u : UnitId) : State :=
  if s.checked u ∧ 3 ≤ (s.unit u).missed ∧ !s.siblingDue u then
    (s.record u 2 0x03 0 (s.unit u).tick 0).unitDeath u fsHeartbeat
  else s

/-! ### Watchdog expiry (R354, R355) -/

/-- WD_EXPIRE and TWD_EXPIRE. -/
def State.wdExpire (s : State) (u : UnitId) (cause : Nat) : State :=
  if s.wdDue u ∧ s.answers u then
    let (w, _) := s.wdCfg u
    let acts := wdActs w
    let s := s.record u (if acts then 2 else 0) cause 0 w.toNat 0
    let s := (s.wdLoad u).setFault u fsWatchdog
    if acts then s.unitDeath u fsWatchdog else s
  else s

/-- DWD_EXPIRE. -/
def State.dwdExpire (s : State) : State :=
  if s.wdDue .peat then
    let (w, _) := s.wdCfg .peat
    let s := (s.wf .peat R.DWD_STATUS F.DWD_STATUS_ALARM 1).wdLoad .peat
    if wdActs w then (s.warmReset 2 1).wf .peat R.DWD_STATUS F.DWD_STATUS_RESET_SEEN 1 else s
  else s

/-! ### Re-admission (R351) -/

/-- The lowest identity of Tussock `t` that core `p` may take. -/
def State.freeIdent (s : State) (p : Nat) : Option Nat :=
  let t := p / 9
  ((List.range 9).map (fun c => 9 * t + c)).find? (fun i =>
    !(List.range 9).any (fun c => s.ident (9 * t + c) == i) && !s.fault.retired.contains i && !(s.held p).contains i)

/-- READMIT TEST. -/
def State.readmitTest (s : State) (p : Nat) : Option State :=
  if s.health p = .dead ∨ s.health p = .quarantine then
    let u := UnitId.core p
    let s := ((s.setUnit u { s.unit u with dead := false, missed := 0 }).setHealth p .testing).setIdent p 0xFFF
    some (s.bankStart p 0 (s.rd u R.BANK_START))
  else none

/-- READMIT ADMIT. -/
def State.readmitAdmit (s : State) (p : Nat) : Option State :=
  if s.health p ≠ .testing ∨ (s.spareOf (p / 9)).isSome then none
  else match s.freeIdent p with
    | none => none
    | some i => match s.renew (.quad (p / 63)) (p / 63) i with
      | (false, s) => some s
      | (true, s) => some ((s.setHealth p .spare).takeIdent p i)

/-- READMIT REJECT. -/
def State.readmitReject (s : State) (p : Nat) : Option State :=
  if s.health p = .testing then
    let u := UnitId.core p
    some (((s.unitClear u).setUnit u { (s.unitClear u).unit u with dead := true }).setHealth p .quarantine)
  else none

/-- A write of READMIT at quadrant `q`: none where it is refused. CMD 0 does nothing. -/
def State.readmit (s : State) (q : Nat) (v : Word) : Option State :=
  let t := v.fld F.READMIT_T
  let c := v.fld F.READMIT_C
  let p := 9 * (7 * q + t) + c
  match v.fld F.READMIT_CMD with
  | 0 => some s
  | k => if 7 ≤ t ∨ 9 ≤ c then none
    else if k = 1 then s.readmitTest p else if k = 2 then s.readmitAdmit p else s.readmitReject p

/-! ### SRAM bank sparing (R352, R353) -/

/-- The unit that owns an array. -/
def SramArr.owner : SramArr → UnitId
  | .l2 t => .tussock t
  | .dir c => .slice c
  | .ctx g => .group g
  | .fcache q => .fc q
  | .gorse => .gorse

/-- SRAM_BANK_FAIL: accesses to the array stall; a second failed bank is fatal. DETAIL1's layout is not stated: a free value. -/
def State.sramFail (s : State) (a : SramArr) (b : Nat) : State :=
  let u := a.owner
  if !s.answers u then s
  else if s.fault.sramUsed.contains a ∨ s.fault.sramStall.any (fun e => e.1 == a) then
    let (w, s) := s.free
    match a with
    | .dir _ | .gorse => s.deviceFatal u 0x0A 0 w.toNat 0
    | _ => (s.record u 2 0x0A 0 w.toNat 0).unitDeath u 0
  else { s with fault := { s.fault with sramStall := s.fault.sramStall ++ [(a, b)] } }

/-- An array stalls accesses (R352). -/
def State.stalled (s : State) (a : SramArr) : Bool := s.fault.sramStall.any (fun e => e.1 == a)

/-- What could not be corrected is poisoned; a directory's lines go as an expired transaction's do (R352, R353). -/
def State.sramLost (s : State) (a : SramArr) (x : Nat) : State :=
  match a with
  | .l2 t =>
    if x < 0xC00000000 then
      let y := s.sub t (x / 64)
      if y.data = [] then s else s.setSub t (x / 64) { y with poison := true }
    else s.setPoison x true
  | .dir _ =>
    let l := x / 64
    let k := s.lineKey l
    let s := if (s.txnOf k).isSome then s else s.setTxn k (some { rq := ⟨.rdOnce, 31, l, 0⟩, since := s.mono, evict := true })
    s.homeExpire k
  | .fcache q => { s with eth := { s.eth with fcache := mapErase (q * 512 + x % 512) s.eth.fcache } }
  | _ => s.setPoison x true

/-- SRAM_REPAIR_DONE: the bank is redirected to the spare; `lost` are the addresses whose words could not be corrected. -/
def State.sramRepair (s : State) (a : SramArr) (b : Nat) (lost : List Nat) : State :=
  if s.fault.sramStall.contains (a, b) then
    let fault : FaultSt := { s.fault with sramStall := s.fault.sramStall.erase (a, b), sramUsed := s.fault.sramUsed ++ [a] }
    let s : State := { s with fault := fault }
    let s := lost.foldl (fun s x => s.sramLost a x) s
    let (w, s) := s.free
    s.record a.owner 0 0x09 0 w.toNat lost.length
  else s

/-! ### The machine-check log (R338) -/

/-- A read of MCLOG_POP: the oldest record leaves the log and its words are latched for the reader. -/
def State.mclogPop (s : State) : Word × List Word × State :=
  match s.fault.mclog with
  | [] => (0, List.replicate 8 0, s)
  | r :: rest => (BitVec.ofNat 32 (2 ^ 31 + rest.length), r, { s with fault := { s.fault with mclog := rest } })

/-! ### Broadcasts (R54) -/

/-- MGMT_BROADCAST: the oldest one leaves in slot 0, and an engine that waited for it runs again (R107). -/
def State.mgmtBroadcast (s : State) : State :=
  match s.sward.bcasts with
  | [] => s
  | b :: _ => if s.now % 32 = 0 then (s.broadcast).engBroadcast b.master else s

end Sys2Proof.Machine
end

