-- ==== Sys2Proof/Machine/Clock.lean ====
section
/-! DEFINITION. Machine/Clock.lean: clocks and PLLs, block power states, energy, the entry to and the exit from DORMANT, Peat's
trip channels, and the reset inputs (R36, R418 to R431, R436, R444, R401 to R403). -/

namespace Sys2Proof.Machine

def State.setPeat (s : State) (p : PeatSt) : State := { s with peat := p }

/-! ### PLLs and clock inputs (R419, R420) -/

/-- The condition under which PLL `n` runs. -/
def State.pllWant (s : State) (n : Nat) : Bool :=
  s.mode.mode != .dormant && !s.peat.underV && (match n with
    | 0 | 1 | 6 => true
    | 2 | 3 => s.peat.pllRun.testBit n
    | 4 | 5 => s.linkUsed (n - 4) && s.peat.pcieRef.contains (n - 4) && !s.peat.perst.contains (n - 4)
    | _ => false)

/-- PLL_LOCK. -/
def State.pllLockOn (s : State) (n : Nat) : State :=
  if s.pllWant n then
    let s := s.pllSet n true
    s.setPeat { s.peat with pllLock := s.peat.pllLock ||| 2 ^ n }
  else s

/-- PLL_LOCK_LOST: LOST sets and the fault is device-fatal. -/
def State.pllLoss (s : State) (n : Nat) : State :=
  if s.pllLocked n ∧ s.pllWant n then
    let s := s.setPeat { s.peat with pllLock := s.peat.pllLock - 2 ^ n }
    let s := s.wf .peat R.PLL_STATUS ⟨16 + n, 16 + n⟩ 1
    s.deviceFatal .peat 0x10 0 n 0
  else s

/-- Peat runs from PEAT_CLKIN. -/
def State.peatExt (s : State) : Bool := s.peat.straps.testBit 3 && !s.peat.peatClkF

/-- CLK_STATUS as read. -/
def State.clkStatus (s : State) : Word :=
  (s.rd .peat R.CLK_STATUS &&& 0x8) ||| BitVec.ofNat 32 (4 * b2n s.peat.refclk + 2 * b2n s.peat.disciplined + b2n s.peatExt)
/-- PLL_STATUS as read. -/
def State.pllStatus (s : State) : Word :=
  (s.rd .peat R.PLL_STATUS &&& 0x7F0000) ||| BitVec.ofNat 32 (s.peat.pllRun * 256 + s.peat.pllLock)

/-- REFCLK_LOSS, REFCLK_RETURN, PEAT_DISCIPLINE (`within`: the average period now lies within 1 ppm) and PEAT_CLKIN_FAIL. -/
def State.refLost (s : State) : State := s.setPeat { s.peat with refclk := false, disciplined := false }
def State.refBack (s : State) : State := s.setPeat { s.peat with refclk := true }
def State.discipline (s : State) (within : Bool) : State :=
  if s.peat.refclk ∧ !s.peat.straps.testBit 3 then s.setPeat { s.peat with disciplined := s.peat.disciplined || within } else s
def State.clkinFail (s : State) : State :=
  if s.peatExt then (s.setPeat { s.peat with peatClkF := true }).wf .peat R.CLK_STATUS ⟨3, 3⟩ 1 else s

/-! ### Block power states (R18, R421 to R423, R401) -/

/-- The deepest state the table of R421 allows, as a TARGET code. -/
def State.deepest (s : State) (u : UnitId) : Nat :=
  match u with
  | .core _ | .tussock _ | .eth | .pcie | .mio | .hedgerow | .dap => 3
  | .engine e => if s.engState e = engStopped ∨ s.engState e = engFailed then 3 else 2
  | .group _ | .slice _ => 2
  | .quad _ | .er _ | .fc _ | .sw _ | .gorse | .mfe | .act | .chGroup _ | .tripUnit | .eviUnit | .telCoder => 1
  | _ => 0

/-- Tussock `t` is kept awake by an enabled loop or forecast ring wake that names one of its identities (R423). -/
def State.loopTus (s : State) (t : Nat) : Bool :=
  t % 7 == 6 && ((List.range 64).any (fun n => s.loopEn n && s.loopIdent n / 9 == t) ||
    s.rb .act R.FC_RING_WAKE F.FC_RING_WAKE_EN (t / 7))

/-- The TARGET a unit obeys (R18, R421, R423). -/
def State.obeys (s : State) (u : UnitId) : Nat :=
  let t := min (s.target u) (s.deepest u)
  match u with
  | .tussock k => if s.loopTus k then min t 1 else t
  | .core p => if s.loopTus (p / 9) then min t 1 else t
  | _ => t

/-- A Tussock's L2 has no transaction, conversion or eviction-buffer entry. -/
def State.l2Quiet (s : State) (t : Nat) : Bool :=
  s.l2Out t == 0 && (s.evbOf t).isEmpty && (s.stq t).isEmpty && mapGet 0 s.mem.conv t == 0

/-- Every bank of a core is WAITING or OFF with nothing outstanding (R421). -/
def State.banksIdle (s : State) (p : Nat) : Bool :=
  [0, 1, 2, 3].all (fun b =>
    let x := s.bank p b
    (x.st == .waiting || x.st == .off) && x.pend.isEmpty && x.storesOut == 0)

/-- The idle condition of R421, as far as the state shows it. -/
def State.idle (s : State) (u : UnitId) : Bool :=
  match u with
  | .core p => !(s.core p).mcActive && s.banksIdle p
  | .tussock t => s.l2Quiet t && (List.range 9).all (fun c => s.inReset (.core (9 * t + c)) || s.banksIdle (9 * t + c))
  | .engine e => (s.engThreads e).all (fun t => (s.thread t).st == 0) && (s.dispq e).isEmpty
  | .group g => (List.range 4).all (fun j => (s.unit (.engine (4 * g + j))).pstate != .on)
  | .eth => (List.range 8).all (fun p => !s.linkUp p)
  | .pcie => !(s.pf 0).up && !(s.pf 1).up
  | .slice c => decide ((s.chan c).lastReq + 1000 * max 1 (s.rf u R.MC_CTL F.MC_CTL_SR_IDLE) ≤ s.mono)
  | _ => true

/-- Write back what the L2 of `t` owns (R421). -/
def State.l2WriteBack (s : State) (t : Nat) : State :=
  let ls := (s.mem.subs.filter (fun e => e.1 / 2 ^ 34 == t && (e.2.st == .m || e.2.st == .o))).map (fun e => e.1 % 2 ^ 34)
  ls.foldl (fun s l => s.recall l true) s

/-- Enter power state `k` (TARGET code 1 to 3), if TARGET and the idle condition allow it. -/
def State.enterPower (s : State) (u : UnitId) (k : Nat) : State :=
  let x := s.unit u
  let deeper : Bool := match x.pstate with
    | .on => true
    | .idle => decide (2 ≤ k)
    | .retain => decide (3 ≤ k)
    | _ => false
  if !deeper ∨ s.inReset u ∨ s.mode.mode = .dormant ∨ s.obeys u < k ∨ !s.idle u then s
  else
    let ps : PState := if k = 1 then .idle else if k = 2 then .retain else .off
    if s.attached then s.setUnit u { x with pstate := ps, emulated := true }
    else if k < 3 then
      let s := s.setUnit u { x with pstate := ps }
      match u with
      | .slice c => if k = 2 ∧ (s.chan c).initDone then s.setChan c { s.chan c with selfRef := true, exiting := false } else s
      | _ => s
    else
      let s := match u with
        | .tussock t => s.l2WriteBack t
        | _ => s
      let s := u.subtree.foldl (fun s v => s.unitClear v) s
      s.setUnit u { s.unit u with pstate := .off }

/-- A write of PWR_REQ (R422): an OFF unit whose TARGET is now shallower powers up. -/
def State.pwrPost (s : State) (u : UnitId) : State :=
  u.subtree.foldl (fun s v =>
    if (s.unit v).pstate = .off ∧ s.target v < 3 then s.setUnit v { s.unit v with pstate := .transition } else s) s

/-- UNIT_POWER_UP_DONE: the unit comes out of a unit reset. An emulated OFF has lost nothing (R401). -/
def State.powerUp (s : State) (u : UnitId) : State :=
  let x := s.unit u
  if x.pstate ≠ .transition then s
  else if x.emulated then s.setUnit u { x with pstate := .on, emulated := false }
  else
    let s := u.subtree.foldl (fun s v => s.unitClear v) s
    s.setUnit u { s.unit u with pstate := .on }

/-- Clearing DBG_ATTACHED makes emulated states real (R403): an emulated OFF loses its state. -/
def State.emulEnd (s : State) : State :=
  allUnits.foldl (fun s u =>
    let x := s.unit u
    if x.emulated then
      let s := if x.pstate = .off then
          let s := match u with
            | .tussock t => s.l2WriteBack t
            | _ => s
          u.subtree.foldl (fun s v => s.unitClear v) s
        else s
      s.setUnit u { s.unit u with pstate := x.pstate, emulated := false }
    else s) s

/-- ENERGY_UPDATE: each unit that has power adds its estimate, a value the spec bounds and does not state (R424). -/
def State.energyTick (s : State) : State :=
  allUnits.foldl (fun s u =>
    if s.isOff u then s
    else
      let (w, s) := s.free
      s.setUnit u { s.unit u with energy := ((s.unit u).energy + w.toNat) % 2 ^ 64 }) s

/-! ### DORMANT (R36, R425 to R428) -/

/-- The exit from DORMANT goes on once MAIN_PG is high: the reset of the exit, into BOOT. -/
def State.exitGo (s : State) : State :=
  if s.mode.mode = .dormant ∧ s.peat.exiting.isSome ∧ s.peat.mainPg then s.warmReset 3 s.peat.exitCode else s

/-- Peat trip channel `k` at the entry to DORMANT (R427). -/
def State.ptripEnter (s : State) (k : Nat) : State :=
  let src := s.rf .tripUnit R.TRIP_CFG F.TRIP_CFG_SRC k
  let g := src / 16
  let run := s.rb .peat R.PTRIP_CFG F.PTRIP_CFG_EN k && s.grpEn g && s.rf (.chGroup g) R.GRP_CTL F.GRP_CTL_DRIVE == 0 && s.clkOk g
  let x : PTrip := { run := run, src := src, brakes := s.rf .act R.TRIP_MAP F.TRIP_MAP_BRAKES k }
  s.setPeat { s.peat with ptrip := mapSet {} s.peat.ptrip k x }

/-- The memories at the entry: every channel in self-refresh, or without power (R83). -/
def State.stacksDown (s : State) (keep : Bool) : State :=
  let s := (List.range 32).foldl (fun s c =>
    s.setChan c { s.chan c with selfRef := keep, initDone := (s.chan c).initDone && keep, exiting := false }) s
  if keep then s
  else
    let s := s.clearBytes 0 0xC00000000
    { s with mem := { s.mem with fmt := [], poison := mapDrop (fun l => decide (64 * l < 0xC00000000)) s.mem.poison } }

/-- The real part of the entry: stacks, trip channels, balls, PLLs and PWR_EN. -/
def State.dormReal (s : State) : State :=
  let s := s.stacksDown (s.rb .device R.MODE_REQ F.MODE_REQ_STACKS)
  let s := (List.range 8).foldl (fun s k => s.ptripEnter k) s
  let balls := (List.range 64).foldl (fun m k => mapSet 0 m k (s.pwmBall k)) []
  let low := (List.range 16).foldl (fun m b => if s.brkOn b then m + 2 ^ b else m) 0
  let off := s.rb .peat R.PEAT_CTL F.PEAT_CTL_PWREN_OFF && s.peat.exiting.isNone
  let p : PeatSt := { s.peat with ballHold := balls, brkHold := some low, brkLow := 0, pllRun := 0, pllLock := 0, pwrEn := !off, mainPg := s.peat.mainPg && !off }
  s.setPeat p

/-- DORMANT_ENTRY_COMPLETE. With a debugger attached the entry is emulated (R402). -/
def State.dormComplete (s : State) : State :=
  if !s.mode.dormEntry then s
  else
    let emul := s.attached
    let m : ModeSt := { s.mode with mode := .dormant, prev := s.mode.mode, trans := none, dormEntry := false, emulDormant := emul, dpRate := 0, svcFast := false, vReload := false, rcvWant := false }
    let s := s.setMode m
    let s := (if emul then s else s.dormReal).eviPeriod
    (s.wdSync .peat).exitGo

/-- MAIN_PG_RISE and PG_LATE. -/
def State.pgRise (s : State) : State := (s.setPeat { s.peat with mainPg := true }).exitGo
def State.pgIsLate (s : State) : State :=
  if s.mode.mode = .dormant ∧ s.peat.exiting.isSome ∧ !s.peat.mainPg ∧ s.peat.pwrEnAt + 8000000 ≤ s.mono then
    s.wf .peat R.WAKE_STATUS ⟨8, 8⟩ 1
  else s

/-- A wake source fires, and the exit goes on where it can. -/
def State.wake (s : State) (src : Nat) : State := (s.wakeFire src).exitGo

/-- WAKE_ALARM. -/
def State.wakeAlarm (s : State) : State := if s.mode.mode = .dormant ∧ s.peat.alarm ≤ s.now then s.wake 1 else s

/-- PEAT_TRIP_WINDOW of channel `k`: a window ends with `ones` ones among its PWIN bits (R427). -/
def State.ptripWindow (s : State) (k ones : Nat) : State :=
  let x := mapGet {} s.peat.ptrip k
  let win := clampNat 16 256 (s.rf .peat R.PTRIP_CFG F.PTRIP_CFG_PWIN k)
  let n := min ones win
  if s.mode.mode ≠ .dormant ∨ s.mode.emulDormant ∨ !x.run ∨ x.tripped then s
  else
    let bad := decide (s.rf .peat R.PTRIP_THR F.PTRIP_THR_PHI k < n ∨ n < s.rf .peat R.PTRIP_THR F.PTRIP_THR_PLO k)
    let d := if bad then x.deb + 1 else 0
    if max 1 (s.rf .peat R.PTRIP_CFG F.PTRIP_CFG_PDEB k) ≤ d then
      let p : PeatSt := { s.peat with ptrip := mapSet {} s.peat.ptrip k { x with deb := d, tripped := true }, brkLow := s.peat.brkLow ||| x.brakes }
      (s.setPeat p).wake 4
    else s.setPeat { s.peat with ptrip := mapSet {} s.peat.ptrip k { x with deb := d } }

/-- Whether brake ball `b` is driven low: by the actuator block, or in DORMANT by Peat. -/
def State.brkBall (s : State) (b : Nat) : Bool :=
  match s.peat.brkHold with
  | some h => h.testBit b || s.peat.brkLow.testBit b
  | none => s.brkOn b

/-! ### PERST# and the supplies (R429, R430, R444) -/

/-- PERST_ASSERT of link `l`. -/
def State.perstOn (s : State) (l : Nat) : State :=
  let s := s.setPeat { s.peat with perst := if s.peat.perst.contains l then s.peat.perst else s.peat.perst ++ [l] }
  let s := (s.pllSet (4 + l) false).linkReset l
  let s := s.setPf l {}
  if (s.rd .peat R.RST_CFG).bit l then s.warmReset (4 + l) 1 else s

/-- PERST_DEASSERT. -/
def State.perstOff (s : State) (l : Nat) : State :=
  let s := s.setPeat { s.peat with perst := s.peat.perst.filter (· != l) }
  if s.linkUsed l then
    let s := if s.pllWant (4 + l) then s.pllSet (4 + l) true else s
    s.wake 2
  else s

/-- SUPPLY_UNDERVOLTAGE of supply `k` (0 VDD_AON, 1 VDD_IO18, 2 VDD_SRAM, 3 VDD_CORE): as if PORST_N were low. -/
def State.underVolt (s : State) (k : Nat) : State :=
  if s.mode.mode = .dormant ∧ !s.peat.pwrEn ∧ 2 ≤ k then s
  else
    let s := s.coldReset 0 false
    s.setPeat { s.peat with underV := true, iovErr := false }

/-- SUPPLY_RECOVERY: the reset ends, and its end samples the straps and VDDIO_M. -/
def State.supplyBack (s : State) (straps : Nat) (io33 : Bool) : State := if s.peat.underV then s.coldReset straps io33 else s

end Sys2Proof.Machine
end

