-- ==== Sys2Proof/Machine/Crypto.lean ====
section
/-! DEFINITION. Machine/Crypto.lean: the functions the spec names by their standards: SHA-384, HMAC and HKDF, ECDSA on P-384,
AES-256-GCM and the CRC-64 of the digest (R127, R128, R357, R364, R369, R377, R381). -/

namespace Sys2Proof.Machine

/-! ### Checks by polynomial division -/

/-- One byte of the CRC-64 of R357, most significant bit first. -/
def crc64Byte (c b : Nat) : Nat :=
  (List.range 8).foldl (fun c _ => if c / 2 ^ 63 = 1 then (2 * c % 2 ^ 64) ^^^ 0x42F0E1EBA9EA3693 else 2 * c % 2 ^ 64) (c ^^^ (b * 2 ^ 56))
/-- The CRC of R357 over a byte stream. -/
def crc64 (d : List Byte) : Nat := d.foldl (fun c b => crc64Byte c b.toNat) 0

/-! ### SHA-384 (FIPS 180-4) -/

def shaK0 : List Nat := [0x428A2F98D728AE22, 0x7137449123EF65CD, 0xB5C0FBCFEC4D3B2F, 0xE9B5DBA58189DBBC,
   0x3956C25BF348B538, 0x59F111F1B605D019, 0x923F82A4AF194F9B, 0xAB1C5ED5DA6D8118,
   0xD807AA98A3030242, 0x12835B0145706FBE, 0x243185BE4EE4B28C, 0x550C7DC3D5FFB4E2,
   0x72BE5D74F27B896F, 0x80DEB1FE3B1696B1, 0x9BDC06A725C71235, 0xC19BF174CF692694,
   0xE49B69C19EF14AD2, 0xEFBE4786384F25E3, 0x0FC19DC68B8CD5B5, 0x240CA1CC77AC9C65]
def shaK1 : List Nat := [0x2DE92C6F592B0275, 0x4A7484AA6EA6E483, 0x5CB0A9DCBD41FBD4, 0x76F988DA831153B5,
   0x983E5152EE66DFAB, 0xA831C66D2DB43210, 0xB00327C898FB213F, 0xBF597FC7BEEF0EE4,
   0xC6E00BF33DA88FC2, 0xD5A79147930AA725, 0x06CA6351E003826F, 0x142929670A0E6E70,
   0x27B70A8546D22FFC, 0x2E1B21385C26C926, 0x4D2C6DFC5AC42AED, 0x53380D139D95B3DF,
   0x650A73548BAF63DE, 0x766A0ABB3C77B2A8, 0x81C2C92E47EDAEE6, 0x92722C851482353B]
def shaK2 : List Nat := [0xA2BFE8A14CF10364, 0xA81A664BBC423001, 0xC24B8B70D0F89791, 0xC76C51A30654BE30,
   0xD192E819D6EF5218, 0xD69906245565A910, 0xF40E35855771202A, 0x106AA07032BBD1B8,
   0x19A4C116B8D2D0C8, 0x1E376C085141AB53, 0x2748774CDF8EEB99, 0x34B0BCB5E19B48A8,
   0x391C0CB3C5C95A63, 0x4ED8AA4AE3418ACB, 0x5B9CCA4F7763E373, 0x682E6FF3D6B2B8A3,
   0x748F82EE5DEFB2FC, 0x78A5636F43172F60, 0x84C87814A1F0AB72, 0x8CC702081A6439EC]
def shaK3 : List Nat := [0x90BEFFFA23631E28, 0xA4506CEBDE82BDE9, 0xBEF9A3F7B2C67915, 0xC67178F2E372532B,
   0xCA273ECEEA26619C, 0xD186B8C721C0C207, 0xEADA7DD6CDE0EB1E, 0xF57D4F7FEE6ED178,
   0x06F067AA72176FBA, 0x0A637DC5A2C898A6, 0x113F9804BEF90DAE, 0x1B710B35131C471B,
   0x28DB77F523047D84, 0x32CAAB7B40C72493, 0x3C9EBE0A15C9BEBC, 0x431D67C49C100D4C,
   0x4CC5D4BECB3E42B6, 0x597F299CFC657E2A, 0x5FCB6FAB3AD6FAEC, 0x6C44198C4A475817]
/-- The round constants. -/
def shaK : List Nat := shaK0 ++ shaK1 ++ shaK2 ++ shaK3
/-- The initial hash value of SHA-384. -/
def shaH : List DWord := [0xCBBB9D5DC1059ED8, 0x629A292A367CD507, 0x9159015A3070DD17, 0x152FECD8F70E5939,
   0x67332667FFC00B31, 0x8EB44A8768581511, 0xDB0C2E0D64F98FA7, 0x47B5481DBEFA4FA4]

def shaS0 (x : DWord) : DWord := x.rotateRight 28 ^^^ x.rotateRight 34 ^^^ x.rotateRight 39
def shaS1 (x : DWord) : DWord := x.rotateRight 14 ^^^ x.rotateRight 18 ^^^ x.rotateRight 41
def shaG0 (x : DWord) : DWord := x.rotateRight 1 ^^^ x.rotateRight 8 ^^^ (x >>> 7)
def shaG1 (x : DWord) : DWord := x.rotateRight 19 ^^^ x.rotateRight 61 ^^^ (x >>> 6)

/-- The message schedule, kept newest first. -/
def shaSched : Nat → List DWord → List DWord
  | 0, w => w
  | n + 1, w => shaSched n ((shaG1 (w.getD 1 0) + w.getD 6 0 + shaG0 (w.getD 14 0) + w.getD 15 0) :: w)

/-- One round. -/
def shaRound (h : List DWord) (k : Nat) (w : DWord) : List DWord :=
  match h with
  | [a, b, c, d, e, f, g, x] =>
    let t1 := x + shaS1 e + ((e &&& f) ^^^ (~~~e &&& g)) + BitVec.ofNat 64 k + w
    let t2 := shaS0 a + ((a &&& b) ^^^ (a &&& c) ^^^ (b &&& c))
    [t1 + t2, a, b, c, d + t1, e, f, g]
  | _ => h

/-- One block of 128 bytes. -/
def shaBlock (h : List DWord) (d : List Byte) : List DWord :=
  let w := (List.range 16).map (fun i => BitVec.ofNat 64 (ofBe ((d.drop (8 * i)).take 8)))
  let ws := (shaSched 64 w.reverse).reverse
  let h' := (List.zip shaK ws).foldl (fun h e => shaRound h e.1 e.2) h
  List.zipWith (· + ·) h h'

def shaBlocks : Nat → List DWord → List Byte → List DWord
  | 0, h, _ => h
  | n + 1, h, d => shaBlocks n (shaBlock h (d.take 128)) (d.drop 128)

/-- SHA-384 of a message: 48 bytes. -/
def sha384 (m : List Byte) : List Byte :=
  let n := m.length
  let d := m ++ [0x80] ++ List.replicate ((240 - (n + 1) % 128) % 128) 0 ++ beBytes 16 (8 * n)
  ((shaBlocks (d.length / 128) shaH d).take 6).flatMap (fun w => beBytes 8 w.toNat)

/-- HMAC-SHA-384 (RFC 2104). -/
def hmac384 (key m : List Byte) : List Byte :=
  let k := if 128 < key.length then sha384 key else key
  let k := k ++ List.replicate (128 - k.length) 0
  sha384 (k.map (· ^^^ 0x5C) ++ sha384 (k.map (· ^^^ 0x36) ++ m))

/-- T(1) of HKDF-SHA-384 with a salt of 48 zero bytes (R377). -/
def hkdf384 (ikm info : List Byte) : List Byte := hmac384 (hmac384 (List.replicate 48 0) ikm) (info ++ [1])

/-! ### ECDSA on P-384 (FIPS 186) -/

def ecP : Nat := 2 ^ 384 - 2 ^ 128 - 2 ^ 96 + 2 ^ 32 - 1
def ecB : Nat := 0xB3312FA7E23EE7E4988E056BE3F82D19181D9C6EFE8141120314088F5013875AC656398D8A2ED19D2A85C8EDD3EC2AEF
def ecN : Nat := 0xFFFFFFFFFFFFFFFFFFFFFFFFFFFFFFFFFFFFFFFFFFFFFFFFC7634D81F4372DDF581A0DB248B0A77AECEC196ACCC52973
def ecG : Nat × Nat :=
  (0xAA87CA22BE8B05378EB1C71EF320AD746E1D3B628BA79B9859F741E082542A385502F25DBF55296C3A545E3872760AB7,
   0x3617DE4A96262C6F5D9E98BF9292DC29F8F41DBD289A147CE9DA3113B5F0B8C00A60B1CE1D7E819D7A431D7C90EA0E5F)

/-- Power modulo `m`, `k` bits of the exponent. -/
def powMod (m : Nat) : Nat → Nat → Nat → Nat
  | 0, _, _ => 1 % m
  | k + 1, b, e => let r := powMod m k (b * b % m) (e / 2); if e % 2 = 1 then b * r % m else r
/-- The inverse modulo a 384-bit prime. -/
def invMod (m a : Nat) : Nat := powMod m 384 (a % m) (m - 2)

/-- Points; none is the point at infinity. -/
abbrev EcPt := Option (Nat × Nat)

def ecAdd (a b : EcPt) : EcPt :=
  match a, b with
  | none, b => b
  | a, none => a
  | some (x1, y1), some (x2, y2) =>
    if x1 = x2 ∧ (y1 + y2) % ecP = 0 then none
    else
      let l := if x1 = x2 then (3 * x1 * x1 + (ecP - 3)) * invMod ecP (2 * y1) % ecP
        else (y2 + ecP - y1) * invMod ecP (x2 + ecP - x1) % ecP
      let x3 := (l * l + 2 * ecP - x1 - x2) % ecP
      some (x3, (l * (x1 + ecP - x3) + ecP - y1) % ecP)

/-- Multiples of a point, `k` bits of the scalar. -/
def ecMulN : Nat → Nat → EcPt → EcPt
  | 0, _, _ => none
  | k + 1, n, p => let r := ecMulN k (n / 2) (ecAdd p p); if n % 2 = 1 then ecAdd p r else r
def ecMul (n : Nat) (p : EcPt) : EcPt := ecMulN 384 n p

/-- The public key lies on the curve. -/
def ecOn (x y : Nat) : Bool :=
  decide (x < ecP ∧ y < ecP ∧ y * y % ecP = (x * x % ecP * x + (ecP - 3) * x + ecB) % ecP)

/-- A signature r, s of hash `z` under public key x, y (all big-endian bytes). -/
def ecdsaOk (pub sig hash : List Byte) : Bool :=
  let x := ofBe (pub.take 48)
  let y := ofBe (pub.drop 48)
  let r := ofBe (sig.take 48)
  let t := ofBe (sig.drop 48)
  let z := ofBe hash
  if ecOn x y ∧ 1 ≤ r ∧ r < ecN ∧ 1 ≤ t ∧ t < ecN then
    let w := invMod ecN t
    match ecAdd (ecMul (z * w % ecN) (some ecG)) (ecMul (r * w % ecN) (some (x, y))) with
    | some (px, _) => px % ecN == r
    | none => false
  else false

/-- The public key of a private scalar. -/
def ecPub (d : Nat) : List Byte := match ecMul d (some ecG) with
  | some (x, y) => beBytes 48 x ++ beBytes 48 y
  | none => List.replicate 96 0

/-- The signature of `hash` with private scalar `d` and nonce `k`. -/
def ecSign (d k : Nat) (hash : List Byte) : List Byte :=
  let k := k % (ecN - 1) + 1
  let r := match ecMul k (some ecG) with
    | some (x, _) => x % ecN
    | none => 0
  let t := invMod ecN k * (ofBe hash + r * d) % ecN
  beBytes 48 r ++ beBytes 48 t

/-! ### AES-256-GCM (FIPS 197, SP 800-38D) -/

/-- Multiplication in GF(2^8). -/
def gf8 : Nat → Nat → Nat → Nat
  | 0, _, _ => 0
  | n + 1, a, b =>
    let a2 := if 128 ≤ a then (2 * a % 256) ^^^ 0x1B else 2 * a
    (if b % 2 = 1 then a else 0) ^^^ gf8 n a2 (b / 2)
def gfMul (a b : Nat) : Nat := gf8 8 a b
/-- a^254, the inverse. -/
def gfInv (a : Nat) : Nat := (List.range 6).foldl (fun r _ => gfMul (gfMul r r) a) a |> fun r => gfMul r r
def rotl8 (a n : Nat) : Nat := (a * 2 ^ n % 256) ||| (a / 2 ^ (8 - n))
def sbox (a : Nat) : Nat := let b := gfInv a; b ^^^ rotl8 b 1 ^^^ rotl8 b 2 ^^^ rotl8 b 3 ^^^ rotl8 b 4 ^^^ 0x63

/-- Key expansion: words of 4 bytes, newest first. -/
def aesExpand : Nat → Nat → Nat → List (List Nat) → List (List Nat)
  | 0, _, _, w => w
  | n + 1, i, rc, w =>
    let p := w.headD []
    let t := if i % 8 = 0 then (match p with
        | [a, b, c, d] => [sbox b ^^^ rc, sbox c, sbox d, sbox a]
        | _ => p)
      else if i % 8 = 4 then p.map sbox else p
    aesExpand n (i + 1) (if i % 8 = 0 then gfMul rc 2 else rc) (List.zipWith (· ^^^ ·) (w.getD 7 []) t :: w)

/-- The 15 round keys of a 256-bit key. -/
def aesKeys (k : List Byte) : List (List Nat) :=
  let w0 := (List.range 8).map (fun i => ((k.drop (4 * i)).take 4).map (·.toNat))
  let w := (aesExpand 52 8 1 w0.reverse).reverse
  (List.range 15).map (fun i => ((w.drop (4 * i)).take 4).flatten)

def aesShift (s : List Nat) : List Nat := (List.range 16).map (fun i => s.getD ((i + 4 * (i % 4)) % 16) 0)
def aesMix (s : List Nat) : List Nat := (List.range 16).map (fun i =>
  let c := i / 4 * 4
  let at_ (j : Nat) : Nat := s.getD (c + (i + j) % 4) 0
  gfMul (at_ 0) 2 ^^^ gfMul (at_ 1) 3 ^^^ at_ 2 ^^^ at_ 3)

/-- AES-256 of one block. -/
def aesBlock (ks : List (List Nat)) (d : List Nat) : List Nat :=
  let s := List.zipWith (· ^^^ ·) d (ks.getD 0 [])
  let s := (List.range 13).foldl (fun s r => List.zipWith (· ^^^ ·) (aesMix (aesShift (s.map sbox))) (ks.getD (r + 1) [])) s
  List.zipWith (· ^^^ ·) (aesShift (s.map sbox)) (ks.getD 14 [])

def natBe (d : List Nat) : Nat := d.foldl (fun a b => 256 * a + b) 0
def beNat (k n : Nat) : List Nat := (beBytes k n).map (·.toNat)

/-- Multiplication in GF(2^128) as GCM orders bits. -/
def ghMul (x y : Nat) : Nat :=
  ((List.range 128).foldl (fun (a : Nat × Nat) i =>
    (if x.testBit (127 - i) then a.1 ^^^ a.2 else a.1,
     if a.2 % 2 = 1 then (a.2 / 2) ^^^ (0xE1 * 2 ^ 120) else a.2 / 2)) (0, y)).1

/-- Blocks of 16 bytes, the last padded with zeros. -/
def gcmBlocks (d : List Byte) : List Nat :=
  (List.range ((d.length + 15) / 16)).map (fun i =>
    let b := ((d.drop (16 * i)).take 16).map (·.toNat)
    natBe (b ++ List.replicate (16 - b.length) 0))

def ghash (h : Nat) (aad ct : List Byte) : Nat :=
  (gcmBlocks aad ++ gcmBlocks ct ++ [aad.length * 8 * 2 ^ 64 + ct.length * 8]).foldl (fun y b => ghMul (y ^^^ b) h) 0

/-- Counter mode from counter block 2 on, with a 12-byte nonce. -/
def gcmCtr (ks : List (List Nat)) (iv : List Byte) (d : List Byte) : List Byte :=
  (List.range ((d.length + 15) / 16)).flatMap (fun i =>
    let p := aesBlock ks (iv.map (·.toNat) ++ beNat 4 (i + 2))
    List.zipWith (fun (x : Byte) y => x ^^^ BitVec.ofNat 8 y) ((d.drop (16 * i)).take 16) p)

/-- The tag of AAD and ciphertext. -/
def gcmTag (ks : List (List Nat)) (iv aad ct : List Byte) : List Byte :=
  let h := natBe (aesBlock ks (List.replicate 16 0))
  beBytes 16 (ghash h aad ct ^^^ natBe (aesBlock ks (iv.map (·.toNat) ++ [0, 0, 0, 1])))

/-- Ciphertext and tag. -/
def gcmSeal (key iv aad pt : List Byte) : List Byte × List Byte :=
  let ks := aesKeys key
  let ct := gcmCtr ks iv pt
  (ct, gcmTag ks iv aad ct)

/-- Plaintext where the tag is right. -/
def gcmOpen (key iv aad ct tag : List Byte) : Option (List Byte) :=
  let ks := aesKeys key
  if gcmTag ks iv aad ct = tag then some (gcmCtr ks iv ct) else none

end Sys2Proof.Machine
end

