-- ==== Sys2Proof/Machine/Gorse.lean ====
section
/-! DEFINITION. Machine/Gorse.lean: the boot of Gorse, its handover, keys, attestation and control-store reloads (R360 to R384). -/

namespace Sys2Proof.Machine

def State.setGorse (s : State) (g : GorseSt) : State := { s with gorse := g }

/-! ### The flash and its records (R364 to R366, R375) -/

/-- Content outside the device: segments at byte offsets; erased flash reads 0xFF. -/
abbrev Segs := List (Nat × List Byte)

/-- `n` bytes at offset `o`. -/
def segRead (f : Segs) (o n : Nat) : List Byte :=
  match f.find? (fun e => decide (e.1 ≤ o ∧ o + n ≤ e.1 + e.2.length)) with
  | some e => (e.2.drop (o - e.1)).take n
  | none => (List.range n).map (fun i => match f.find? (fun e => decide (e.1 ≤ o + i ∧ o + i < e.1 + e.2.length)) with
    | some e => e.2.getD (o + i - e.1) 0xFF
    | none => 0xFF)

/-- CRC-32C as the flash stores it. -/
def flashCrc (d : List Byte) : Nat := crc32c 0xFFFFFFFF d ^^^ 0xFFFFFFFF
def ascii (l : List Nat) : List Byte := l.map (BitVec.ofNat 8)

/-- An entry of a slot record: image offset, image length, ROLE. -/
structure RecEnt where
  off : Nat
  len : Nat
  role : Nat
  deriving DecidableEq, Repr

/-- A good slot record at `o`: SEQ and entries (R365). -/
def slotRecord (f : Segs) (o : Nat) : Option (Nat × List RecEnt) :=
  let h := segRead f o 16
  let n := (h.getD 6 0).toNat
  if h.take 4 = ascii [0x48, 0x46, 0x49, 0x52] ∧ (h.drop 4).take 2 = ascii [1, 0] ∧ 1 ≤ n ∧ n ≤ 32 ∧ h.getD 7 0 = 0 ∧
      (h.drop 12).all (· == 0) then
    let es := (List.range n).map (fun i => segRead f (o + 16 + 16 * i) 16)
    let crc := ofLe (segRead f (o + 16 + 16 * n) 4)
    if es.all (fun e => (e.drop 9).all (· == 0)) ∧ crc = flashCrc (segRead f o (16 + 16 * n)) then
      some (ofLe ((h.drop 8).take 4), es.map (fun e => ⟨ofLe (e.take 4), ofLe ((e.drop 4).take 4), (e.getD 8 0).toNat⟩))
    else none
  else none

/-- The SEQ a good revoke record names (R366). -/
def revokeRecord (f : Segs) (o : Nat) : Option Nat :=
  let h := segRead f (o + 0x1000) 16
  if h.take 4 = ascii [0x48, 0x46, 0x52, 0x56] ∧ (h.drop 8).take 4 = ascii [0, 0, 0, 0] ∧ ofLe (h.drop 12) = flashCrc (h.take 12) then
    some (ofLe ((h.drop 4).take 4))
  else none

/-- A candidate set: its slot (0 A, 1 B, 2 push), its source, SEQ and entries. -/
structure Cand where
  slot : Nat
  src : Segs
  seq : Nat
  ents : List RecEnt
  deriving DecidableEq, Repr

/-- The state CANDIDATE of R366. -/
def slotCand (f : Segs) (o slot : Nat) : Option Cand :=
  match slotRecord f o with
  | none => none
  | some (q, es) => if revokeRecord f o = some q then none else some ⟨slot, f, q, es⟩

/-- Insert a candidate: descending SEQ, earlier slots first on equal SEQ (R370). -/
def candInsert (c : Cand) : List Cand → List Cand
  | [] => [c]
  | d :: r => if d.seq < c.seq ∨ (d.seq = c.seq ∧ c.slot < d.slot) then c :: d :: r else d :: candInsert c r

/-- The candidates of the flash. -/
def flashCands (f : Segs) : List Cand :=
  ((slotCand f 0 0).toList ++ (slotCand f 0x10000 1).toList).foldl (fun l c => candInsert c l) []

/-- BDT_PRESENT, and the table where it is also correct (R375). -/
def bdtRead (f : Segs) : Bool × List Byte :=
  let h := segRead f 0x20000 12
  let n := ofLe (h.drop 8)
  let chain (d : List Byte) : Bool := ((List.range 15360).foldl (fun (r : List Byte × Bool) _ =>
    if r.1 = [] ∨ !r.2 then r
    else if r.1.length < 4 ∨ r.1.length < 4 + ofLe ((r.1.drop 2).take 2) then (r.1, false)
    else (r.1.drop (4 + ofLe ((r.1.drop 2).take 2)), true)) (d, true)) == ([], true)
  if h.take 4 = ascii [0x48, 0x46, 0x42, 0x44] then
    if (h.drop 4).take 4 = ascii [1, 0, 0, 0] ∧ 16 ≤ n ∧ n ≤ 61440 ∧
        ofLe (segRead f (0x20000 + n - 4) 4) = flashCrc (segRead f 0x20000 (n - 4)) ∧ chain (segRead f 0x2000C (n - 16)) then
      (true, segRead f 0x20000 n)
    else (true, [])
  else (false, [])

/-! ### Images (R367 to R369) -/

/-- An image with its header and payload as read. -/
structure RawImg where
  hdr : List Byte
  pay : List Byte
  ent : RecEnt
  deriving DecidableEq, Repr

def imgFld (h : List Byte) (o n : Nat) : Nat := ofLe ((h.drop o).take n)
def RawImg.len (x : RawImg) : Nat := imgFld x.hdr 12 4
def RawImg.load (x : RawImg) : Nat := imgFld x.hdr 16 8
def RawImg.role (x : RawImg) : Nat := imgFld x.hdr 6 1

def readImg (f : Segs) (e : RecEnt) : RawImg :=
  let h := segRead f e.off 256
  { hdr := h, pay := segRead f (e.off + 256) (min (imgFld h 12 4) (e.len - 256)), ent := e }

/-- A range inside Tussock 0's scratch that ends at or below offset 0xF_0000 (R368). -/
def inBootScratch (a n : Nat) : Bool := decide (0xC00000000 ≤ a ∧ a + n ≤ 0xC000F0000)
/-- A range in DRAM that begins at a 64 KiB boundary. -/
def inBootDram (a n : Nat) : Bool := decide (a % 65536 = 0 ∧ a + n ≤ 0xC00000000)

/-- The header fields meet R367 and R368, and the record's entry. -/
def RawImg.good (x : RawImg) : Bool :=
  let h := x.hdr
  let n := x.len
  h.take 4 == ascii [0x48, 0x46, 0x49, 0x4D] && (h.drop 4).take 2 == ascii [1, 0] && decide (imgFld h 7 1 ≤ 3) &&
    decide (x.load < 2 ^ 40) && decide (imgFld h 40 1 < 16) && ((h.drop 41).take 23).all (· == 0) && x.role == x.ent.role &&
    x.ent.len == 256 + n && (match x.role with
      | 1 => inBootScratch x.load n || inBootDram x.load n
      | 2 => n % 16 == 0 && decide (n ≤ 262144)
      | 3 => decide (imgFld h 28 4 % 8 ≤ 4) && inBootDram x.load n
      | 4 => inBootDram x.load n
      | _ => false)

/-- Key slots: digest programmed, revoked. -/
def State.slotDigest (s : State) (k : Nat) : List Byte := mapGet [] s.gorse.digs k
def State.slotRevoked (s : State) (k : Nat) : Bool := s.gorse.revoked.testBit k

/-- The signed message: header bytes 0x000 to 0x09F and the payload as stored. -/
def RawImg.message (x : RawImg) (copy : List Byte) : List Byte := x.hdr.take 160 ++ copy

/-- FAIL_CODE of one image (R369, BOOT_STATUS); 0 where it verifies. -/
def State.imgCode (s : State) (x : RawImg) (copy : List Byte) (loaded : Bool) : Nat :=
  let k := imgFld x.hdr 7 1
  let pub := (x.hdr.drop 64).take 96
  if !x.good then 1
  else if !loaded then 8
  else if (s.slotDigest k).all (· == 0) then 2
  else if s.slotRevoked k then 3
  else if sha384 pub ≠ s.slotDigest k then 4
  else if ecdsaOk pub ((x.hdr.drop 160).take 96) (sha384 (x.message copy)) then 0 else 5

/-- The set rules of R369. -/
def setOk (l : List Img) : Bool :=
  let ucs := l.filter (·.role == 2)
  let placed := l.filter (·.role != 2)
  (l.filter (·.role == 1)).length == 1 &&
    (List.range 5).all (fun c => (l.filter (fun i => i.role == 3 && i.tag % 8 == c)).length == 1) &&
    (List.range 64).all (fun e => decide ((ucs.filter (fun i => i.engines.testBit e)).length ≤ 1)) &&
    decide (ucs.foldl (fun n i => n + i.len) 0 ≤ 393216) &&
    (List.range placed.length).all (fun i => (List.range placed.length).all (fun j => i == j ||
      (match placed[i]?, placed[j]? with
        | some a, some b => !rangesMeet a.load a.len b.load b.len
        | _, _ => true)))

/-! ### Boot (R370, R371, R380) -/

def State.bootF (s : State) (f : Fld) (v : Nat) : State := s.wf .gorse R.BOOT_STATUS f v
/-- A register write of Gorse's own, a configuration event (R19). -/
def State.gorseWr (s : State) (u : UnitId) (r : Reg) (v : Word) (i : Nat := 0) : State :=
  (s.wr u r v i).cfgEvent u (Req.writer (s.reqOf .gorse))

/-- Copy one image to its place: whether the copy stands, and the state. `at_` is the next free byte of the Gorse SRAM. -/
def State.placeImg (s : State) (x : RawImg) (at_ : Nat) : Bool × Nat × State :=
  if !x.good then (false, at_, s)
  else if x.role = 2 then
    if at_ + x.pay.length ≤ 0x80000 then (true, at_ + x.pay.length, s.setBytes (0xF00100000 + at_) x.pay) else (false, at_, s)
  else if x.load < 0xC00000000 then
    let n := s.gorse.regNext
    let s := s.gorseWr homeUnit0 R.REG_BASE (BitVec.ofNat 32 (x.load / 65536)) n
    let s := s.gorseWr homeUnit0 R.REG_SIZE (BitVec.ofNat 32 ((x.len + 65535) / 65536)) n
    let s := s.gorseWr homeUnit0 R.REG_ATTR (BitVec.ofNat 32 (2 ^ 31 + 5 * 2 ^ 12 + 2 ^ 11 + 15)) n
    let s := s.setGorse { s.gorse with regNext := n + 1 }
    (true, at_, s.memStore 0x1C0 (x.pay.length / 64 + 2) x.load x.pay false)
  else if s.place (x.load + x.len) = .nowhere then (false, at_, s)
  else (true, at_, s.setBytes x.load x.pay)

/-- The copy of a placed image. -/
def State.imgCopy (s : State) (x : RawImg) (kept : Nat) : List Byte :=
  if x.role = 2 then s.bytes (0xF00100000 + kept) x.pay.length else (s.memBytes (x.len / 64 + 2) x.load x.pay.length).1.1

/-- Place the images of a candidate, on-die placements first, in record order: for each image its place in the SRAM and whether
it stands. -/
def State.placeAll (s : State) (xs : List RawImg) : List (Nat × Bool) × State :=
  let onDie (x : RawImg) : Bool := x.role == 2 || decide (0xC00000000 ≤ x.load)
  let go (pick : RawImg → Bool) (acc : List (Nat × Bool) × Nat × State) : List (Nat × Bool) × Nat × State :=
    (List.range xs.length).foldl (fun acc i =>
      match xs[i]? with
      | some x =>
        if pick x then
          let (ok, n, s) := acc.2.2.placeImg x acc.2.1
          (acc.1.set i (acc.2.1, ok), n, s)
        else acc
      | none => acc) acc
  let r := go (fun x => !onDie x) (go onDie (List.replicate xs.length (0, false), 0, s))
  (r.1, r.2.2)

/-- The record Gorse keeps of an image. -/
def State.imgOf (s : State) (x : RawImg) (kept : Nat) (ok : Bool) : Img :=
  let copy := s.imgCopy x kept
  let h := x.hdr
  { role := x.role, slot := imgFld h 7 1, result := s.imgCode x copy ok, svn := imgFld h 8 4, load := x.load, len := x.len,
    entry := imgFld h 24 4, tag := imgFld h 28 4, engines := imgFld h 32 8, revoke := imgFld h 40 1, pub := (h.drop 64).take 96,
    hash := sha384 (x.message copy), kept := kept }

/-- Copy and verify one candidate: its images, the first failing image and the first failure, 0 where the set verifies. -/
def State.tryCand (s : State) (c : Cand) : List Img × Nat × Nat × State :=
  let xs := c.ents.map (readImg c.src)
  let (pl, s) := s.placeAll xs
  let imgs := (List.zip xs pl).map (fun e => s.imgOf e.1 e.2.1 e.2.2)
  match (List.range imgs.length).find? (fun i => (imgs.getD i {}).result != 0) with
  | some i => (imgs, i, (imgs.getD i {}).result, s)
  | none => if setOk imgs then (imgs, 0xFF, 0, s) else (imgs, 0xFF, 6, s)

/-- Every channel has finished initialisation (R84). -/
def State.dramReady (s : State) : Bool := (List.range 32).all (fun c => (s.chan c).initDone)

/-- The set Gorse will hand over; revocations are burned where it verified (R380). -/
def State.selectSet (s : State) (c : Cand) (imgs : List Img) (fi code : Nat) : State :=
  let s := s.setGorse { s.gorse with imgs := imgs, setSeq := c.seq, ready := true, waitPush := none, vfail := code != 0 }
  let s := ((s.bootF F.BOOT_STATUS_SLOT c.slot).bootF F.BOOT_STATUS_PHASE 5).wr .gorse R.BOOT_SEQ (BitVec.ofNat 32 c.seq)
  let s := ((s.bootF F.BOOT_STATUS_VERIFY_FAIL (b2n (code != 0))).bootF F.BOOT_STATUS_FAIL_IMAGE fi).bootF F.BOOT_STATUS_FAIL_CODE code
  if code ≠ 0 then s.bootF F.BOOT_STATUS_KEY_LOCK 1
  else
    let burn := imgs.foldl (fun m i => m ||| (i.revoke - (if i.revoke.testBit i.slot then 2 ^ i.slot else 0))) 0
    let new := burn &&& (0xF ^^^ (s.gorse.revoked &&& 0xF))
    let s := s.setGorse { s.gorse with revoked := s.gorse.revoked ||| burn }
    if new = 0 then s else s.bootF F.BOOT_STATUS_REVOKED_NOW 1

/-- Try the candidates in turn; the state and whether one was selected. -/
def State.tryAll (s : State) : List Cand → Bool × State
  | [] => (false, s)
  | c :: r =>
    let (imgs, fi, code, s') := s.tryCand c
    if code = 0 then (true, s'.selectSet c imgs fi code) else s'.tryAll r

/-- Run the candidate with the highest SEQ although it does not verify, or nothing where there is none (R371). -/
def State.bootAnyway (s : State) (cs : List Cand) : State :=
  match cs with
  | [] => (s.setGorse { s.gorse with waitPush := none }).bootF F.BOOT_STATUS_PHASE 8
  | c :: _ =>
    let (imgs, fi, code, s) := s.tryCand c
    s.selectSet c imgs fi code

/-- STRAP_BOOT as it acts: 0 flash, 1 push, 2 flash then push. -/
def State.strapBoot (s : State) : Nat := let n := s.peat.straps % 4; if n = 3 then 0 else n

/-- The start of a boot (R370 step 1, R379): the SRAM is zero, Tussock 0 has eight scratch ways. -/
def State.bootStart (s : State) : State :=
  let s := s.clearBytes 0xF00100000 0xF00180000
  let s : State := { s with mem := { s.mem with poison := mapDrop (fun l => decide (0xF00100000 ≤ 64 * l ∧ 64 * l < 0xF00180000)) s.mem.poison } }
  let s := s.gorseWr (.tussock 0) R.L2_WAYS 8
  let none_ := s.gorse.secret.all (· == 0)
  let s := (s.bootF F.BOOT_STATUS_NO_SECRET (b2n none_)).bootF F.BOOT_STATUS_KEY_LOCK (b2n none_)
  s.setGorse { s.gorse with started := true, regNext := 0, imgs := [], ready := false }

/-- GORSE_BOOT with the content of the flash: a boot up to the selection of a set or the wait for a push. -/
def State.gorseBoot (s : State) (f : Segs) : State :=
  let cs := if s.strapBoot = 1 then [] else flashCands f
  if s.mode.mode ≠ .boot ∨ s.gorse.started ∨ !s.answers .gorse ∨ (!cs.isEmpty ∧ !s.dramReady) then s
  else
    let s := s.bootStart
    let s := if s.strapBoot = 1 then s else
      let (p, t) := bdtRead f
      ((s.bootF F.BOOT_STATUS_BDT_PRESENT (b2n p)).bootF F.BOOT_STATUS_BDT_OK (b2n (t != []))).setGorse { s.gorse with bdt := t }
    let (ok, s) := s.tryAll cs
    if ok then s
    else if s.strapBoot = 0 then s.bootAnyway cs
    else (s.setGorse { s.gorse with waitPush := some s.mono }).bootF F.BOOT_STATUS_PHASE 7

/-- Gorse waits for a GO (R371, R382). -/
def State.waitsPush (s : State) : Bool :=
  s.gorse.started && !s.gorse.ready && s.mode.mode == .boot && (s.gorse.waitPush.isSome || s.rf .gorse R.BOOT_STATUS F.BOOT_STATUS_PHASE == 8)

/-- PUSH_GO on link `l`: the host's copy is one more candidate. `flash` is the flash, for the set R371 may fall back to. -/
def State.pushGo (s : State) (l : Nat) (copy flash : Segs) : State :=
  if !s.waitsPush ∨ !s.linkUsed l then s
  else if !s.linkReady l then
    -- a read error: the pushed candidate fails and Gorse waits again (R384)
    (s.bootF F.BOOT_STATUS_FAIL_CODE 7).setGorse { s.gorse with waitPush := some (s.gorse.waitPush.getD s.mono) }
  else match slotCand copy 0 2 with
    | none => s
    | some c =>
      if !s.dramReady then s
      else
        let (imgs, fi, code, s') := s.tryCand c
        if code = 0 then s'.selectSet c imgs fi code
        else s'.bootAnyway (candInsert c (if s.strapBoot = 2 then flashCands flash else []))

/-- PUSH_WAIT_TIMEOUT: with strap 0b10, 10 s without a GO. -/
def State.pushTimeout (s : State) (flash : Segs) : State :=
  match s.gorse.waitPush with
  | some t => if s.strapBoot = 2 ∧ t + 10000000000 ≤ s.mono ∧ s.mode.mode = .boot ∧ !s.gorse.ready ∧ s.dramReady then
      s.bootAnyway (flashCands flash) else s
  | none => s

/-! ### Handover (R372, R373) -/

/-- Load one engine's control store from the kept copy, and CS_IMAGE. -/
def State.csLoad (s : State) (i : Img) (e : Nat) : State :=
  let d := s.bytes (0xF00100000 + i.kept) i.len
  let s := (List.range (i.len / 16)).foldl (fun s a => s.csWrite e a (BitVec.ofNat 128 (ofLe ((d.drop (16 * a)).take 16)))) s
  (s.gorseWr (.engine e) R.CS_IMAGE (BitVec.ofNat 32 i.tag)).wf (.engine e) R.ENG_STATUS F.ENG_STATUS_CS_VALID 1

/-- The image that holds engine `e`'s microcode. -/
def State.csImg (s : State) (e : Nat) : Option Img := s.gorse.imgs.find? (fun i => i.role == 2 && i.engines.testBit e && i.result != 1 && i.result != 8)

/-- One entry of the plan directory (R51). -/
def State.dirEntry (s : State) (code : Nat) : List Byte :=
  match s.gorse.imgs.find? (fun i => i.role == 3 && i.tag % 8 == code) with
  | some i => leBytes 8 i.load ++ leBytes 4 i.len ++ leBytes 4 (flashCrc (s.memBytes (i.len / 64 + 2) i.load i.len).1.1)
  | none => List.replicate 16 0

/-- The handoff block up to the board table. -/
def State.handoff (s : State) : List Byte :=
  let w (r : Reg) : List Byte := leBytes 4 (s.rd .gorse r).toNat
  let imgs := s.gorse.imgs.flatMap (fun i => ascii [i.role, i.slot, i.result, 0] ++ leBytes 4 i.svn ++ leBytes 8 i.load ++ leBytes 4 i.len ++
    leBytes 4 i.tag ++ List.replicate 8 0)
  w R.BOOT_STATUS ++ w R.BOOT_SEQ ++ leBytes 4 s.gorse.imgs.length ++ leBytes 4 0 ++ imgs

/-- The identity that runs BOOTFW: 0x000, or the lowest of Tussock 0 that an ACTIVE core presents. -/
def State.bootCore (s : State) : Option (Nat × Nat) :=
  ((List.range 9).findSome? (fun i => match s.coreOf i with
    | some p => if i = 0 ∨ s.health p = .active then some (i, p) else none
    | none => none))

/-- The boot identity `i`, which core `p` presents, gets its access-table entries and the core starts BOOTFW (R372 steps 4, 5). -/
def State.bootGrant (s : State) (i p : Nat) : State :=
  let ep := s.epochOf (.core p)
  let wrt := Req.writer (s.reqOf .gorse)
  let s := (List.range 128).foldl (fun (s : State) t =>
    match [0, 1, 2, 3].find? (fun q => atabWritable q t) with
    | some q => (s.setAtEntry t i ((if t = 0x41 then 0x1B0 else 0x1F0) + ep)).cfgEvent (.sw q) wrt
    | none => s) s
  match s.gorse.imgs.find? (fun (x : Img) => x.role == 1) with
  | none => s
  | some b =>
    let sh (s : State) (r : Reg) (v : Word) : State :=
      let s := s.gorseWr (.core p) r v
      { s with fault := { s.fault with shadow := mapInsert (i * 0x8000 + r.off) v s.fault.shadow } }
    let s := sh s R.M_CTL (BitVec.ofNat 32 (b.load / 2 ^ 32 * 2 ^ 24))
    let s := sh s R.BANK_START (BitVec.ofNat 32 (b.entry / 4 * 4))
    let s := sh s R.BANK_CFG (BitVec.ofNat 32 (2 ^ 31))
    s.bankStart p 0 (BitVec.ofNat 32 b.entry)

/-- BOOT_HANDOVER. -/
def State.handover (s : State) : State :=
  if !s.gorse.ready ∨ s.mode.mode ≠ .boot then s
  else
    let s := (List.range 64).foldl (fun s e => match s.csImg e with
      | some i => s.csLoad i e
      | none => s) s
    let dir := (List.range 5).flatMap s.dirEntry ++ List.replicate 48 0
    let s := s.memStore 0x1C0 4 0xBFBFFF000 dir false
    let s := s.gorseWr .device R.PLAN_DIR_LO (BitVec.ofNat 32 0xFBFFF000)
    let s := s.gorseWr .device R.PLAN_DIR_HI (BitVec.ofNat 32 0xB)
    let (ok, s) := s.shadowLoad 0
    let s := if ok then s.bankSwap else s
    let s := s.bootF F.BOOT_STATUS_PHASE 6
    let s := s.bootF F.BOOT_STATUS_DONE 1
    let s := s.setBytes 0xC000F0000 s.handoff
    let s := s.setBytes 0xC000F1000 (s.gorse.bdt ++ List.replicate (61440 - s.gorse.bdt.length) 0)
    let s := match s.bootCore with
      | none => s
      | some (i, p) => s.bootGrant i p
    s.setGorse { s.gorse with ready := false }

/-! ### Keys (R377 to R379) -/

def State.keyLock (s : State) : State := s.bootF F.BOOT_STATUS_KEY_LOCK 1
def State.keyLocked (s : State) : Bool := s.rb .gorse R.BOOT_STATUS F.BOOT_STATUS_KEY_LOCK

/-- The info of an image's key. -/
def keyInfo (i : Img) : List Byte := sha384 i.pub ++ leBytes 4 i.svn ++ leBytes 1 i.role

/-- KEY_REQ: the request starts, or is refused with a code. -/
def State.keyReq (s : State) (r : Req) (idx : Nat) : State :=
  let code := if s.keyLocked then 1 else if s.gorse.imgs.length ≤ idx then 2
    else if r.master ≠ 0 ∨ r.priv ≠ 3 then 3 else if s.gorse.keyReq.isSome then 4 else 0
  if code = 0 then
    (s.setGorse { s.gorse with keyReq := some (r.master.toNat, idx) }).wr .gorse R.KEY_STATUS (BitVec.ofNat 32 (2 ^ 31 + idx))
  else if s.gorse.keyReq.isSome then s.wf .gorse R.KEY_STATUS F.KEY_STATUS_CODE code
  else s.wr .gorse R.KEY_STATUS (BitVec.ofNat 32 (code * 256 + idx))

/-- KEY_DERIVATION_DONE; a KEY_LOCK set meanwhile discards the key (R384). -/
def State.keyDone (s : State) : State :=
  match s.gorse.keyReq with
  | none => s
  | some (m, idx) =>
    let s := s.setGorse { s.gorse with keyReq := none }
    match (if s.keyLocked then none else s.gorse.imgs[idx]?) with
    | none =>
      let s := (List.range 12).foldl (fun s w => s.wr .gorse R.KEY_OUT 0 w) s
      s.wr .gorse R.KEY_STATUS (BitVec.ofNat 32 (256 + idx))
    | some i =>
      let k := hkdf384 s.gorse.secret (keyInfo i)
      let s := (List.range 12).foldl (fun s w => s.wr .gorse R.KEY_OUT (BitVec.ofNat 32 (ofLe ((k.drop (4 * w)).take 4))) w) s
      (s.setGorse { s.gorse with keyOwner := m }).wr .gorse R.KEY_STATUS (BitVec.ofNat 32 (2 ^ 30 + idx))

/-! ### Attestation (R381) -/

/-- FUSE_STAT and KEYDIG as read. -/
def State.fuseStat (s : State) : Word :=
  let prog := (List.range 4).foldl (fun m k => if (s.slotDigest k).all (· == 0) then m else m + 2 ^ k) 0
  BitVec.ofNat 32 (prog + s.gorse.revoked % 16 * 16 + 256 * b2n (s.gorse.secret.any (· != 0)))
def State.keyDig (s : State) (k w : Nat) : Word := BitVec.ofNat 32 (ofLe (((s.slotDigest k).drop (4 * w)).take 4))

/-- The private scalar of attestation. -/
def State.attKey (s : State) : Nat :=
  ofBe (hkdf384 s.gorse.secret (List.replicate 48 0 ++ ascii [0xFF, 0xFF, 0xFF, 0xFF, 0])) % (ecN - 1) + 1

/-- ATTEST_REQ. -/
def State.attestReq (s : State) : State :=
  if s.gorse.attest.isSome then s.wf .gorse R.ATTEST_STATUS ⟨29, 29⟩ 1
  else
    let a := (s.rd .gorse R.ATTEST_ADDR_LO).toNat / 64 * 64 + (s.rd .gorse R.ATTEST_ADDR_HI).toNat % 256 * 2 ^ 32
    (s.setGorse { s.gorse with attest := some (a, s.now) }).wr .gorse R.ATTEST_STATUS (BitVec.ofNat 32 (2 ^ 31))

/-- The report without its signature. -/
def State.report (s : State) (t : Nat) (nonce : List Byte) : List Byte :=
  let imgs := s.gorse.imgs
  let w (r : Reg) : List Byte := leBytes 4 (s.rd .gorse r).toNat
  ascii [0x48, 0x46, 0x41, 0x52, 1, 0] ++ leBytes 2 (256 + 64 * imgs.length) ++ leBytes 8 t ++ nonce ++ w R.BOOT_STATUS ++ w R.BOOT_SEQ ++
    leBytes 4 s.fuseStat.toNat ++ ascii [s.dap.cls, imgs.length, 0, 0] ++
    imgs.flatMap (fun i => ascii [i.role, i.slot, i.result, 0] ++ leBytes 4 i.svn ++ i.hash ++ leBytes 8 i.load) ++ ecPub s.attKey

/-- ATTEST_DONE. The nonce of the signature is a free value. -/
def State.attestDone (s : State) : State :=
  match s.gorse.attest with
  | none => s
  | some (a, t) =>
    let s := s.setGorse { s.gorse with attest := none }
    let r := s.reqOf .gorse
    let fail (s : State) : State := s.wr .gorse R.ATTEST_STATUS (BitVec.ofNat 32 (2 ^ 29))
    match s.devRead r a 32 (some .gorse) with
    | (x, s) =>
      if x.err.isSome ∨ x.poison then fail s
      else
        let body := s.report t x.data
        let (k, s) := s.freeN
        match s.devWrite r (a + 64) (body ++ ecSign s.attKey k (sha384 body)) false (some .gorse) with
        | (some _, s) => fail s
        | (none, s) => s.wr .gorse R.ATTEST_STATUS (BitVec.ofNat 32 (2 ^ 30))

/-! ### Control-store reloads (R373) -/

/-- CS_RELOAD of engine `e`. -/
def State.csReload (s : State) (e : Nat) : State :=
  if s.gorse.reload.isSome then s
  else if (s.engState e = engStopped ∨ s.engState e = engFailed) ∧ (s.csImg e).isSome then
    (s.setGorse { s.gorse with reload := some e }).wr .gorse R.CS_RELOAD_STATUS (BitVec.ofNat 32 (2 ^ 31))
  else s.wr .gorse R.CS_RELOAD_STATUS (BitVec.ofNat 32 (2 ^ 30 + 2 ^ 29))

/-- CS_RELOAD_DONE. -/
def State.csReloaded (s : State) : State :=
  match s.gorse.reload with
  | none => s
  | some e =>
    let s := s.setGorse { s.gorse with reload := none }
    match s.csImg e with
    | some i => (s.csLoad i e).wr .gorse R.CS_RELOAD_STATUS (BitVec.ofNat 32 (2 ^ 30))
    | none => s.wr .gorse R.CS_RELOAD_STATUS (BitVec.ofNat 32 (2 ^ 30 + 2 ^ 29))

end Sys2Proof.Machine
end

