-- ==== Sys2Proof/Machine/Trace.lean ====
section
/-! DEFINITION. Machine/Trace.lean: trace packets and their sources, Hedgerow with its sinks, and the flight recorders
(R404 to R416). -/

namespace Sys2Proof.Machine

/-! ### Sources and their state -/

def State.trSrc (s : State) (i : Nat) : TrSrc := mapGet {} s.trace.src i
def State.setTrSrc (s : State) (i : Nat) (x : TrSrc) : State :=
  { s with trace := { s.trace with src := mapSet {} s.trace.src i x } }
def State.setHr (s : State) (x : HedgeSt) : State := { s with trace := { s.trace with hr := x } }
def State.frec (s : State) (t : Nat) : FrSt := mapGet {} s.trace.fr t
def State.setFrec (s : State) (t : Nat) (x : FrSt) : State :=
  { s with trace := { s.trace with fr := mapSet {} s.trace.fr t x } }

/-- The source number of a core; Gorse's core is source 0x1E0 (R404). -/
def trId (p : Nat) : Nat := if p = 252 then 0x1E0 else p

/-- Identifiers that name a source (R404). -/
def srcUsed (i : Nat) : Bool :=
  decide (i < 0xFC ∨ (0x100 ≤ i ∧ i < 0x140) ∨ (0x180 ≤ i ∧ i < 0x1A0) ∨ (0x1C0 ≤ i ∧ i < 0x1C8) ∨ i = 0x1E0)

/-- TRC_CTL of a source; a source without one traces always, and Gorse at every bank and level. -/
def State.trCtl (s : State) (i : Nat) : Word :=
  if i < 0xFC then s.rd (.core i) R.TRC_CTL_C
  else if 0x100 ≤ i ∧ i < 0x140 then s.rd (.engine (i - 0x100)) R.TRC_CTL_E
  else 0x8FF00000

/-- Hedgerow accepts the source (R404). -/
def State.srcEn (s : State) (i : Nat) : Bool :=
  (s.rd .hedgerow R.HR_SRC_EN (i / 32)).bit (i % 32) && (i != 0x1E0 || s.dap.cls == 4)

/-- The flight recorder that copies the source: Gorse's own, or that of a control Tussock for a core with FR set (R415, R416). -/
def State.frTakes (s : State) (i : Nat) : Option Nat :=
  if i = 0x1E0 then some 28
  else if i < 0xFC ∧ i / 9 % 7 = 6 ∧ (s.trCtl i).fld F.TRC_CTL_C_FR = 1 ∧ s.rb (.tussock (i / 9)) R.FR_CFG F.FR_CFG_EN then
    some (i / 9)
  else none

/-- The source emits: its own control enables it, and Hedgerow or a flight recorder takes its packets. -/
def State.trLive (s : State) (i : Nat) : Bool := (s.trCtl i).bit 31 && (s.srcEn i || (s.frTakes i).isSome)

/-- Hedgerow takes flits: EN, and it runs, in an emulated DORMANT too (R402). -/
def State.hrOn (s : State) : Bool :=
  s.rb .hedgerow R.HR_CTL F.HR_CTL_EN && (s.answers .hedgerow || s.mode.emulDormant)

/-! ### Packets (R406 to R408) -/

def pkMark : List Byte := List.replicate 11 0xFF ++ [0x7F]
def pkSrc (i : Nat) : List Byte := 1 :: leBytes 2 i
def pkSync (t addr ctx asid : Nat) : List Byte := 2 :: leBytes 8 t ++ leBytes 4 addr ++ leBytes 1 ctx ++ leBytes 2 asid
def pkOvf (n : Nat) : List Byte := 7 :: leBytes 2 n
def pkTrig (c : Nat) : List Byte := [8, BitVec.ofNat 8 c]
/-- START (`on`) or STOP with a reason. -/
def pkStart (on : Bool) (reason : Nat) : List Byte := [9, BitVec.ofNat 8 (2 * reason + b2n on)]
/-- BR: the outcomes, oldest in bit 0. -/
def pkBr (l : List Bool) : List Byte :=
  BitVec.ofNat 8 (0x7F + l.length) :: leBytes 2 (l.foldr (fun b n => 2 * n + b2n b) 0)

/-! ### Flight recorders (R415, R416) -/

/-- Where a recorder writes: the base, and the size. -/
def State.frArea (s : State) (t : Nat) : Nat × Nat :=
  if t = 28 then (0x0E00780000, 0x8000) else (scratchAddr t (s.rf (.tussock t) R.FR_CFG F.FR_CFG_OFF), 0x40000)

/-- Write bytes at the write offset, which wraps; the count after a trigger may end in them. -/
def State.frRaw (s : State) (t : Nat) (d : List Byte) : State :=
  let x := s.frec t
  let (base, size) := s.frArea t
  let d := match x.left with
    | some n => d.take n
    | none => d
  let s := (d.zipIdx).foldl (fun (s : State) e => s.setByte (base + (x.ptr + e.2) % size) e.1) s
  let left := x.left.map (fun n => n - d.length)
  let x : FrSt := { x with ptr := (x.ptr + d.length) % size, wrapped := x.wrapped || decide (size ≤ x.ptr + d.length), left := left, stopped := left == some 0 }
  s.setFrec t x

/-- Write a packet of source `i`: MARK and SRC begin each 4 KiB block, and SRC precedes a change of source. A packet that would
cross into the next block starts there, after PAD (DESIGN CHOICE, log 40). -/
def State.frPut (s : State) (t i : Nat) (pk : List Byte) : State :=
  let x := s.frec t
  if x.stopped || x.err then s
  else
    let room := 4096 - x.ptr % 4096
    let need := pk.length + (if x.cur = some i then 0 else 3)
    let s := if x.ptr % 4096 ≠ 0 ∧ room < need then s.frRaw t (List.replicate room 0) else s
    let y := s.frec t
    let pre := if y.ptr % 4096 = 0 then pkMark ++ pkSrc i else if y.cur = some i then [] else pkSrc i
    let s := s.frRaw t (pre ++ pk)
    s.setFrec t { s.frec t with cur := some i }

/-- A trigger (R415): it writes TRIG unless the source's own TRIG is already in the recorder, sets TRIGGERED and latches
FR_TRIGPTR. Later triggers are ignored. -/
def State.frTrig (s : State) (t i code : Nat) (written : Bool) : State :=
  let x := s.frec t
  if x.triggered ∨ x.stopped ∨ x.err ∨ (t ≠ 28 ∧ !s.rb (.tussock t) R.FR_CFG F.FR_CFG_EN) then s
  else
    let s := if written then s else s.frPut t (x.cur.getD i) (pkTrig code)
    let y := s.frec t
    let n := if t = 28 then 4096 else 64 * s.rf (.tussock t) R.FR_POST F.FR_POST_POST
    s.setFrec t { y with triggered := true, trigPtr := y.ptr, left := some n, stopped := n == 0 }

/-- FR_STATUS and GFR_STATUS as read. -/
def State.frStatus (s : State) (t : Nat) : Word :=
  let x := s.frec t
  BitVec.ofNat 32 (2 ^ 31 * b2n x.triggered + 2 ^ 30 * b2n x.stopped + 2 ^ 29 * b2n x.wrapped + 2 ^ 28 * b2n x.err + x.ptr)
def State.gfrStatus (s : State) : Word :=
  let x := s.frec 28
  BitVec.ofNat 32 (2 ^ 31 * b2n x.triggered + 2 ^ 30 * b2n x.stopped + x.ptr)

/-- FR_STOP: once the count after the trigger is written, the recorder of Tussock `t` is stopped. -/
def State.frStop (s : State) (t : Nat) : State :=
  let x := s.frec t
  if x.left = some 0 then s.setFrec t { x with stopped := true } else s

/-- The area of a recorder set by FR_CFG is not wholly backed scratch, or not a multiple of 64 units (R415). -/
def State.frBad (s : State) (t : Nat) (v : Word) : Bool :=
  v.bit 31 && (v.fld F.FR_CFG_OFF % 64 != 0 || decide (s.scratchSize t < 64 * v.fld F.FR_CFG_OFF + 0x40000))

/-- FR_CFG written: setting EN restarts the recorder from offset 0. -/
def State.frPost (s : State) (t : Nat) (v : Word) : State := if v.bit 31 then s.setFrec t {} else s

/-- A way conversion removed the area's backing: the recorder stops with ERR (R415). -/
def State.frLost (s : State) (t : Nat) : State :=
  if t % 7 = 6 ∧ s.rb (.tussock t) R.FR_CFG F.FR_CFG_EN ∧ s.scratchSize t < 64 * s.rf (.tussock t) R.FR_CFG F.FR_CFG_OFF + 0x40000 then
    s.setFrec t { s.frec t with err := true, stopped := true }
  else s

/-- A machine-check record or unit-fatal fault of core `p` (R415). -/
def State.frFault (s : State) (p : Nat) : State :=
  let t := p / 9
  if p < 252 ∧ t % 7 = 6 ∧ s.rb (.tussock t) R.FR_CFG F.FR_CFG_TRIG_MC then s.frTrig t p 0xFE false else s

/-! ### Hedgerow (R413, R414) -/

/-- BYTES of HR_SYNC; values outside act as the nearer limit. -/
def State.hrSync (s : State) : Nat := clampNat 256 65536 (s.rf .hedgerow R.HR_SYNC F.HR_SYNC_BYTES)
/-- The size of the ring in bytes. -/
def State.ringLen (s : State) : Nat := 65536 * clampNat 1 16384 (s.rf .hedgerow R.RING_SIZE F.RING_SIZE_SIZE)
def State.ringBase (s : State) : Nat :=
  65536 * s.rf .hedgerow R.RING_BASE_LO F.RING_BASE_LO_ADDR + 2 ^ 32 * s.rf .hedgerow R.RING_BASE_HI F.RING_BASE_HI_ADDR
def State.ringFull (s : State) : Bool := s.rb .hedgerow R.HR_STATUS F.HR_STATUS_FULL

/-- Write one full line to the ring; RING_WPTR advances with its response. -/
def State.ringLine (s : State) (d : List Byte) : State :=
  if s.ringFull then s
  else
    let w := (s.rd .hedgerow R.RING_WPTR).toNat
    let w := if s.ringLen ≤ w then 0 else w
    let s := (s.devWriteOut (s.reqOf .hedgerow) (s.ringBase + w) d).2
    if w + 64 < s.ringLen then s.wr .hedgerow R.RING_WPTR (BitVec.ofNat 32 (w + 64))
    else if s.rb .hedgerow R.HR_CTL F.HR_CTL_STOP_FULL then
      (s.wr .hedgerow R.RING_WPTR (BitVec.ofNat 32 (w + 64))).wf .hedgerow R.HR_STATUS F.HR_STATUS_FULL 1
    else (s.wr .hedgerow R.RING_WPTR 0).wf .hedgerow R.HR_STATUS F.HR_STATUS_WRAPPED 1

/-- Bytes for the ring: full lines are written. `n` bounds the lines. -/
def State.ringPut : Nat → State → State
  | 0, s => s
  | n + 1, s =>
    let h := s.trace.hr
    if h.line.length < 64 then s
    else ((s.setHr { h with line := h.line.drop 64, since := s.mono }).ringLine (h.line.take 64)).ringPut n

/-- Output bytes to the sinks that SINK selects. -/
def State.hrOut (s : State) (d : List Byte) : State :=
  let k := s.rf .hedgerow R.HR_CTL F.HR_CTL_SINK
  let h := s.trace.hr
  let s := s.setHr { h with sinceMark := h.sinceMark + d.length }
  let s := if k = 2 ∨ k = 3 then s.send (.trace (h.cur.getD 0) d) else s
  if k = 1 ∨ k = 3 then
    let h := s.trace.hr
    (s.setHr { h with line := h.line ++ d, since := if h.line.isEmpty then s.mono else h.since }).ringPut (d.length / 64 + 2)
  else s

/-- One packet of source `i` to the output: MARK when output starts and after every HR_SYNC bytes, SRC after it and when the
source changes; an OVF counts in HR_LOST (R413). -/
def State.hrPacket (s : State) (i : Nat) (pk : List Byte) : State :=
  let h := s.trace.hr
  let mark := !h.started || decide (s.hrSync ≤ h.sinceMark)
  let s := if mark then (s.setHr { h with started := true, sinceMark := 0 }).hrOut pkMark else s
  let s := if mark ∨ h.cur ≠ some i then (s.setHr { s.trace.hr with cur := some i }).hrOut (pkSrc i) else s
  let s := if pk.head? = some 7 then s.bump .hedgerow R.HR_LOST else s
  s.hrOut pk

/-- The longest prefix of whole packets within `n` bytes, and the rest. -/
def flitTake : Nat → List (List Byte) → List (List Byte) × List (List Byte)
  | _, [] => ([], [])
  | n, p :: r =>
    if p.length ≤ n then
      let (a, b) := flitTake (n - p.length) r
      (p :: a, b)
    else ([], p :: r)

def packLen (l : List (List Byte)) : Nat := l.foldl (fun n p => n + p.length) 0

/-- A flit of source `i` leaves for Hedgerow (R412). -/
def State.trFlit (s : State) (i : Nat) : State :=
  let x := s.trSrc i
  let (a, b) := flitTake 63 x.pkts
  a.foldl (fun (s : State) pk => s.hrPacket i pk) (s.setTrSrc i { x with pkts := b, since := s.mono })

/-- Every packet of the source leaves. -/
def State.trDrain (s : State) (i : Nat) : Nat → State
  | 0 => s
  | n + 1 => if (s.trSrc i).pkts.isEmpty then s else (s.trFlit i).trDrain i n

/-- TRACE_FLIT_TIMEOUT of source `i`: 1 µs after its first byte a flit leaves. -/
def State.trTimeout (s : State) (i : Nat) : State :=
  let x := s.trSrc i
  if s.hrOn ∧ !x.pkts.isEmpty ∧ x.since + 1000 ≤ s.mono then s.trDrain i x.pkts.length else s

/-- RING_LINE_TIMEOUT: a partial line is written, padded with PAD. -/
def State.ringPad (s : State) : State :=
  let h := s.trace.hr
  if h.line.isEmpty then s
  else (s.setHr { h with line := [] }).ringLine (h.line ++ List.replicate (64 - h.line.length) 0)
def State.ringTimeout (s : State) : State :=
  if s.hrOn ∧ !s.trace.hr.line.isEmpty ∧ s.trace.hr.since + 10000 ≤ s.mono then s.ringPad else s

/-- HR_CTL written: setting EN starts a new output. -/
def State.hrPost (s : State) (old v : Word) : State :=
  if !old.bit 31 ∧ v.bit 31 then (s.setHr {}).wf .hedgerow R.HR_STATUS F.HR_STATUS_FLUSHED 0 else s

/-! ### Emission (R409, R410, R412) -/

/-- A packet enters the source's buffer. One that finds it full is lost and counted; the next that fits is preceded by OVF, and
a SYNC is then due. -/
def State.trPut (s : State) (i : Nat) (pk : List Byte) : State :=
  let x := s.trSrc i
  let s := if s.hrOn ∧ 63 < packLen x.pkts + pk.length then s.trFlit i else s
  let x := s.trSrc i
  let pre := if x.lost = 0 then [] else [pkOvf x.lost]
  if 512 < packLen x.pkts + packLen pre + pk.length then s.setTrSrc i { x with lost := min (x.lost + 1) 0xFFFF }
  else s.setTrSrc i { x with pkts := x.pkts ++ pre ++ [pk], since := if x.pkts.isEmpty then s.mono else x.since, lost := 0, needSync := x.needSync || x.lost != 0 }

/-- Emit a packet as it stands: to the flight recorder that copies the source, and to the buffer. -/
def State.trRaw (s : State) (i : Nat) (pk : List Byte) : State :=
  let s := match s.frTakes i with
    | some t => s.frPut t i pk
    | none => s
  let s := if s.srcEn i then s.trPut i pk else s
  s.setTrSrc i { s.trSrc i with sinceSync := (s.trSrc i).sinceSync + pk.length }

/-- CTX of bank `b` of core `p` (R406); bank 4 is the machine-check context. -/
def State.ctxByte (s : State) (p b : Nat) : Nat :=
  if b = 4 then (s.core p).mcBank + 12 + 16 else b + 4 * (s.bank p b).pl

/-- The bank a core runs: the machine-check context, the RUNNING bank, or the one that ran last. -/
def State.curBank (s : State) (p : Nat) : Nat :=
  if (s.core p).mcActive then 4 else (s.running p).getD (s.core p).lastRun

/-- What SYNC of source `i` says: the next instruction, CTX and ASID on a core, zeros elsewhere (R406). -/
def State.syncAt (s : State) (i : Nat) : Nat × Nat × Nat :=
  if i < 0xFC ∨ i = 0x1E0 then
    let p := if i = 0x1E0 then 252 else i
    let b := s.curBank p
    let x := s.bank p b
    (x.pc.toNat, s.ctxByte p b, if b < 4 ∧ x.pl < 2 then s.rf (.core p) R.S_CTL F.S_CTL_ASID b else 0)
  else (0, 0, 0)

/-- Emit SYNC; the reference time becomes its time. -/
def State.trSync (s : State) (i : Nat) : State :=
  let (a, c, d) := s.syncAt i
  let s := s.trRaw i (pkSync s.now a c d)
  s.setTrSrc i { s.trSrc i with ref := some s.now, needSync := false, sinceSync := 0 }

/-- The pending branch outcomes leave as one BR (R407). -/
def State.trBr (s : State) (i : Nat) : State :=
  let x := s.trSrc i
  if x.br.isEmpty then s else (s.setTrSrc i { x with br := [] }).trRaw i (pkBr x.br)

/-- TS, TSL or SYNC before a packet at this time (R409); `always` for the sources that precede every packet with one. -/
def State.trTime (s : State) (i : Nat) (always : Bool) : State :=
  let d := s.now - ((s.trSrc i).ref.getD 0)
  if always ∨ 1000 ≤ d then
    if d < 2 ^ 32 then
      let s := s.trRaw i (if d < 65536 then 3 :: leBytes 2 d else 4 :: leBytes 4 d)
      s.setTrSrc i { s.trSrc i with ref := some s.now }
    else s.trSync i
  else s

/-- SYNC where one is due (R410). -/
def State.trDue (s : State) (i : Nat) : State :=
  let x := s.trSrc i
  if x.needSync ∨ s.hrSync ≤ x.sinceSync then (s.trBr i).trSync i else s

/-- A source starts with SYNC (R410). -/
def State.trOpen (s : State) (i : Nat) : State :=
  if (s.trSrc i).on then s else (s.setTrSrc i { s.trSrc i with on := true, ctx := true }).trSync i

/-- WAKE and then SYNC of a source that slept (R411). -/
def State.trWake (s : State) (i : Nat) : State :=
  if (s.trSrc i).asleep then
    let s := (s.setTrSrc i { s.trSrc i with asleep := false, ref := some s.now }).trRaw i (6 :: leBytes 8 s.now)
    s.trSync i
  else s

/-- SLEEP, after the pending branch outcomes (R411). -/
def State.trSleep (s : State) (i : Nat) : State :=
  if (s.trSrc i).on ∧ !(s.trSrc i).asleep ∧ s.trLive i then
    let s := (s.trBr i).trRaw i (5 :: leBytes 8 s.now)
    s.setTrSrc i { s.trSrc i with asleep := true }
  else s

/-- Emit a packet of source `i` now. -/
def State.trEmit (s : State) (i : Nat) (pk : List Byte) : State :=
  if s.trLive i then
    let s := (((s.trOpen i).trWake i).trBr i).trTime i (decide (0x180 ≤ i ∧ i < 0x1C8))
    let s := s.trRaw i pk
    if i < 0xFC ∨ i = 0x1E0 then s else s.trDue i
  else s

/-! ### Comparators and traced contexts (R393, R405) -/

/-- Comparator `n` of a core or engine block: CMP_CFG, CMP_A and CMP_B. -/
def State.cmp (s : State) (u : UnitId) (n : Nat) : Word × Nat × Nat :=
  match u with
  | .engine _ => (s.rd u R.CMP_CFG_E n, (s.rd u R.CMP_A_E n).toNat, (s.rd u R.CMP_B_E n).toNat)
  | _ => (s.rd u R.CMP_CFG_C n, (s.rd u R.CMP_A_C n).toNat, (s.rd u R.CMP_B_C n).toNat)

/-- The access `[lo, lo + k)` meets the range of comparators 0 to 3, or holds the address of the others. -/
def cmpMeets (n a b lo k : Nat) : Bool :=
  if n < 4 then decide (a < lo + k ∧ lo < b ∧ a < b) else decide (lo ≤ a ∧ a < lo + k)

/-- The comparators of a core that match an access of one of `kinds` by bank `b` (R393). -/
def State.coreHits (s : State) (p b : Nat) (kinds : List Nat) (lo k : Nat) : List Nat :=
  let bk := if b = 4 then (s.core p).mcBank else b
  let pl := if b = 4 then 3 else (s.bank p b).pl
  if p ≥ 252 then []
  else (List.range 8).filter (fun n =>
    let (c, x, y) := s.cmp (.core p) n
    c.bit 31 && kinds.contains (c.fld F.CMP_CFG_C_KIND) && c.bit (24 + bk) && c.bit (20 + pl) && cmpMeets n x y lo k)

/-- The comparators of an engine that match a microword address. -/
def State.engHits (s : State) (e a : Nat) : List Nat :=
  (List.range 8).filter (fun n =>
    let (c, x, y) := s.cmp (.engine e) n
    c.bit 31 && c.fld F.CMP_CFG_C_KIND == 0 && cmpMeets n x y a 1)

/-- The trace actions of matching comparators: TRIG, TSTART and TSTOP (R405). -/
def State.trHits (s : State) (u : UnitId) (i : Nat) (hits : List Nat) : State :=
  let act (n bit : Nat) : Bool := (s.cmp u n).1.bit bit
  let win := !decide ((s.trCtl i).fld F.TRC_CTL_C_MODE % 2 = 0)
  let s := hits.foldl (fun (s : State) n =>
    if act n 12 then
      let s := s.trEmit i (pkTrig n)
      match u with
      | .core p => if p / 9 % 7 = 6 then s.frTrig (p / 9) i n (s.trLive i && (s.frTakes i).isSome) else s
      | _ => s
    else s) s
  let s := if win ∧ hits.any (fun n => act n 9) ∧ !(s.trSrc i).win ∧ s.trLive i then
      let s := s.trRaw i (pkStart true 0)
      s.setTrSrc i { s.trSrc i with on := true, win := true, ctx := false }
    else s
  if win ∧ hits.any (fun n => act n 10) then s.setTrSrc i { s.trSrc i with stopping := true } else s

/-- The modes' condition on an instruction at `pc` that matched `hits` (R405). -/
def State.trModes (s : State) (u : UnitId) (i : Nat) (hits : List Nat) : Bool :=
  let m := (s.trCtl i).fld F.TRC_CTL_C_MODE
  (m % 2 == 0 || (s.trSrc i).win) && (m < 2 || hits.any (fun n => n < 4 && (s.cmp u n).1.bit 11))

/-- Enter or leave the traced context; entering emits SYNC (R405, R410). -/
def State.trContext (s : State) (i : Nat) (traced : Bool) : State :=
  if traced ∧ s.trLive i then
    let s := s.trWake i
    let x := s.trSrc i
    if x.on ∧ x.ctx then s.trDue i else ((s.setTrSrc i { x with on := true, ctx := true }).trBr i).trSync i
  else if (s.trSrc i).ctx then s.setTrSrc i { s.trSrc i with ctx := false } else s

/-- Before bank `b` of core `p` executes the instruction at its pc: comparator actions, the context, and BANK where the bank
differs from the last traced one. -/
def State.trBefore (s : State) (p b : Nat) : State :=
  let i := trId p
  if !s.trLive i then s
  else
    let x := s.bank p b
    let hits := s.coreHits p b [0] x.pc.toNat 1
    let s := s.trHits (coreUnit p) i hits
    let c := s.trCtl i
    let bk := if b = 4 then (s.core p).mcBank else b
    let was := (s.trSrc i).ctx
    let s := s.trContext i (c.bit (24 + bk) && c.bit (20 + (if b = 4 then 3 else x.pl)) && s.trModes (coreUnit p) i hits)
    if (s.trSrc i).ctx then
      let s := if was ∧ (s.trSrc i).bank ≠ none ∧ (s.trSrc i).bank ≠ some b then
          s.trEmit i (0x14 :: leBytes 1 (s.ctxByte p b) ++ leBytes 4 x.pc.toNat)
        else s
      s.setTrSrc i { s.trSrc i with bank := some b }
    else s

/-- A data access of the instruction in hand: its comparator actions (R393). -/
def State.trData (s : State) (p b : Nat) (kinds : List Nat) (lo k : Nat) : State :=
  if s.trLive (trId p) then s.trHits (coreUnit p) (trId p) (s.coreHits p b kinds lo k) else s

/-- A packet of core `p`, in the traced context. -/
def State.trCore (s : State) (p : Nat) (pk : List Byte) : State :=
  if (s.trSrc (trId p)).ctx then s.trEmit (trId p) pk else s

/-- A BCC resolved on the correct path: BR leaves when 16 outcomes are pending (R407). -/
def State.trBranch (s : State) (p : Nat) (taken : Bool) : State :=
  let i := trId p
  let x := s.trSrc i
  if x.ctx ∧ s.trLive i then
    let s := s.setTrSrc i { x with br := x.br ++ [taken] }
    if 16 ≤ x.br.length + 1 then s.trBr i else s
  else s

/-- JR or CALLR from `pc` to `target` (R407). -/
def State.trJump (s : State) (p : Nat) (pc target : Word) : State :=
  s.trCore p (if pc.toNat / 65536 = target.toNat / 65536 then 0x10 :: leBytes 2 target.toNat else 0x11 :: leBytes 4 target.toNat)

/-- An exception entered by bank `b` (R407). -/
def State.trExc (s : State) (p b cause : Nat) (epc vec : Word) : State :=
  s.trCore p (0x12 :: leBytes 1 cause ++ leBytes 1 (s.ctxByte p b) ++ leBytes 4 epc.toNat ++ leBytes 4 vec.toNat)

/-- A return from an exception to `target` (R407). -/
def State.trEret (s : State) (p b : Nat) (target : Word) : State :=
  s.trCore p (0x13 :: leBytes 1 (s.ctxByte p b) ++ leBytes 4 target.toNat)

/-- After the instruction: a matching TSTOP closes the window, and a due SYNC is emitted at the boundary (R405, R410). -/
def State.trAfter (s : State) (p : Nat) : State :=
  let i := trId p
  let x := s.trSrc i
  if !s.trLive i then s
  else
    let s := if x.stopping ∧ x.win then
        let s := (s.trBr i).trRaw i (pkStart false 0)
        s.setTrSrc i { s.trSrc i with win := false, ctx := false, stopping := false }
      else if x.stopping then s.setTrSrc i { x with stopping := false } else s
    if (s.trSrc i).ctx then s.trDue i else s

/-- An engine issues the microword at `a` in thread `t`: comparator actions, the context, MW under MODE 2 or 3 (R405, R408). -/
def State.trMw (s : State) (e t a : Nat) : State :=
  let i := 0x100 + e
  if !s.trLive i then s
  else
    let hits := s.engHits e a
    let s := s.trHits (.engine e) i hits
    let s := s.trContext i (s.trModes (.engine e) i hits)
    let s := if (s.trSrc i).ctx ∧ 2 ≤ (s.trCtl i).fld F.TRC_CTL_C_MODE then
        s.trEmit i (BitVec.ofNat 8 (0x40 + t % 16) :: leBytes 2 a)
      else s
    let x := s.trSrc i
    if x.stopping then
      let s := if x.win then s.trRaw i (pkStart false 0) else s
      s.setTrSrc i { s.trSrc i with win := false, ctx := x.ctx && !x.win, stopping := false }
    else s

/-- ACTIVE of TRC_CTL. -/
def State.trActive (s : State) (i : Nat) : Bool := s.trLive i && (s.trSrc i).on && (s.trSrc i).ctx && !(s.trSrc i).asleep

/-- TRC_CTL of source `i` written: setting EN emits START and, in mode 0, SYNC; clearing it emits STOP (R405). The write has
been made; the packets of a STOP leave under the old value. -/
def State.trcPost (s : State) (i : Nat) (old v : Word) : State :=
  if !old.bit 31 ∧ v.bit 31 then
    if s.trLive i then
      let s := (s.setTrSrc i { s.trSrc i with on := true, win := false, ctx := false, asleep := false, bank := none }).trRaw i (pkStart true 1)
      if v.fld F.TRC_CTL_C_MODE = 0 then (s.setTrSrc i { s.trSrc i with ctx := true }).trSync i else s
    else s
  else if old.bit 31 ∧ !v.bit 31 ∧ (s.trSrc i).on then
    let s := (s.trBr i).trRaw i (pkStart false 1)
    let x := s.trSrc i
    s.setTrSrc i { pkts := x.pkts, since := x.since, lost := x.lost }
  else s

/-- HR_SRC_EN word `k` written: bits of unused identifiers read 0, a source newly accepted starts with SYNC, and one no longer
accepted keeps only what it has buffered. -/
def State.srcEnPost (s : State) (k : Nat) (old v : Word) : State :=
  (List.range 32).foldl (fun (s : State) j =>
    let i := 32 * k + j
    if v.bit j ∧ !srcUsed i then s.wr .hedgerow R.HR_SRC_EN ((s.rd .hedgerow R.HR_SRC_EN k).setFld ⟨j, j⟩ 0) k
    else if v.bit j ∧ !old.bit j then (if s.trLive i then s.trOpen i else s)
    else if !v.bit j ∧ old.bit j then
      s.setTrSrc i { pkts := (s.trSrc i).pkts, since := (s.trSrc i).since, lost := (s.trSrc i).lost }
    else s) s

/-- TRACE_TS_TIMER of source `i`: a core with a RUNNING bank, or an engine with a thread that is not FREE, whose reference is
1,000 ns old (R409). -/
def State.trTick (s : State) (i : Nat) : State :=
  let x := s.trSrc i
  let runs := if i < 0xFC ∨ i = 0x1E0 then (s.running (if i = 0x1E0 then 252 else i)).isSome
    else if 0x100 ≤ i ∧ i < 0x140 then (List.range 16).any (fun k => (s.thread (16 * (i - 0x100) + k)).st != 0)
    else false
  if s.trLive i ∧ x.on ∧ !x.asleep ∧ runs ∧ x.ref.getD 0 + 1000 ≤ s.now then (s.trBr i).trTime i false else s

/-- PMON_TRACE_EMIT of monitor `m` of quadrant `q`: every INTERVAL wheels (R68). -/
def State.pmonTrace (s : State) (q m : Nat) : State :=
  let k := 8 * q + m
  let iv := 32 * max 1 (s.rf (.sw q) R.PMON_CTL F.PMON_CTL_INTERVAL m)
  if s.rb (.sw q) R.PMON_CTL F.PMON_CTL_TRACE_EN m ∧ s.answers (.sw q) ∧ mapGet 0 s.trace.pmonAt k + iv ≤ s.mono then
    let s := { s with trace := { s.trace with pmonAt := mapSet 0 s.trace.pmonAt k s.mono } }
    s.trEmit (0x180 + k) (0x20 :: leBytes 8 (s.pmonShown q m).toNat)
  else s

/-- On entry to DORMANT every enabled source emits SLEEP, Hedgerow drains them, writes its last line and sets FLUSHED (R411). A
ring that is full loses those packets, counted in HR_LOST (R417). -/
def State.traceFlush (s : State) : State :=
  let ids := s.trace.src.map (·.1)
  let s := ids.foldl (fun (s : State) i => s.trSleep i) s
  if s.hrOn then
    let n := if s.ringFull then ids.foldl (fun n i => n + (s.trSrc i).pkts.length) 0 else 0
    let s := ids.foldl (fun (s : State) i => s.trDrain i (s.trSrc i).pkts.length) s
    ((s.bump .hedgerow R.HR_LOST n).ringPad).wf .hedgerow R.HR_STATUS F.HR_STATUS_FLUSHED 1
  else s

/-! ### What a command shows the device sources (R404, R408, R411) -/

/-- Some source may emit. -/
def State.tracing (s : State) : Bool :=
  (List.range 16).any (fun k => s.rd .hedgerow R.HR_SRC_EN k != 0) ||
  [6, 13, 20, 27].any (fun t => s.rb (.tussock t) R.FR_CFG F.FR_CFG_EN)

/-- Trips, counted edges, brakes, loops, PWM outputs and group clocks that changed from `o` to `s`. -/
def State.devTrace (s o : State) : State :=
  let s := (List.range 32).foldl (fun (s : State) k =>
    let w := s.rd .tripUnit R.TRIP_STATUS k
    if w.bit 31 ∧ !(o.rd .tripUnit R.TRIP_STATUS k).bit 31 then
      s.trEmit 0x1C0 (0x30 :: leBytes 1 k ++ leBytes 1 (b2n (w.bit 30) + 2 * b2n (w.bit 29)) ++ leBytes 2 w.toNat)
    else s) s
  let s := (List.range 48).foldl (fun (s : State) k =>
    if s.rd .eviUnit R.EVI_COUNT k = o.rd .eviUnit R.EVI_COUNT k + 1 then
      s.trEmit 0x1C1 (0x31 :: leBytes 1 k ++ leBytes 1 (s.rf .eviUnit R.EVI_STATUS F.EVI_STATUS_LEVEL k))
    else s) s
  let out (x : State) : Nat := (List.range 16).foldl (fun n b => n + 2 ^ b * x.rf .act R.BRK_STAT F.BRK_STAT_OUT b) 0
  let s := if out s ≠ out o then s.trEmit 0x1C2 (0x32 :: leBytes 2 (out s)) else s
  let s := (List.range 64).foldl (fun (s : State) n =>
    let c (x : State) : Nat := x.rf .act R.LOOP_STAT F.LOOP_STAT_OVR_CNT n
    if c s ≠ c o ∧ c s ≠ 0 then s.trEmit 0x1C3 (0x33 :: leBytes 1 (n + 64))
    else if (o.loop n).open_.isSome ∧ (s.loop n).open_.isNone ∧ o.rb .act R.LOOP_STAT F.LOOP_STAT_ARMED n ∧ s.loopEn n ∧ !s.mode.safe then
      s.trEmit 0x1C3 (0x33 :: leBytes 1 n)
    else s) s
  let s := (List.range 64).foldl (fun (s : State) m =>
    let a := o.pwm m
    let b := s.pwm m
    if (a.per, a.duty) ≠ (b.per, b.duty) ∨ (a.pend.isSome ∧ b.pend.isNone) then s.trEmit 0x1C6 (0x36 :: leBytes 1 m) else s) s
  (List.range 8).foldl (fun (s : State) g =>
    let f (x : State) : Bool := x.rb (.chGroup g) R.GRP_STATUS F.GRP_STATUS_CLK_FAULT
    if f s ≠ f o then s.trEmit 0x1C7 (0x37 :: leBytes 1 (g + 128 * b2n (f s))) else s) s

/-- Threads dispatched, freed or in a microcode exception since `o`; a packet is emitted where the modes trace its address. -/
def State.engTrace (s o : State) : State :=
  ((o.sedge.threads ++ s.sedge.threads).map (·.1)).dedup.foldl (fun (s : State) t =>
    let a := o.thread t
    let b := s.thread t
    let e := t / 16
    let i := 0x100 + e
    let put (addr : Nat) (s : State) (pk : List Byte) : State :=
      let s := s.trContext i (s.trModes (.engine e) i (s.engHits e addr))
      if (s.trSrc i).ctx then s.trEmit i pk else s
    if !s.trLive i then s
    else if a.st = 0 ∧ b.st ≠ 0 then
      put b.pc s (BitVec.ofNat 8 (0x50 + t % 16) :: leBytes 2 b.pc ++ leBytes 2 ((b.ctx.map (· % 256)).getD 0x100))
    else if a.st ≠ 0 ∧ b.st = 0 then put a.pc s [BitVec.ofNat 8 (0x60 + t % 16)]
    else if b.excAct ∧ (!a.excAct ∨ a.excPc ≠ b.excPc ∨ a.excCause ≠ b.excCause) then
      put b.excPc s (BitVec.ofNat 8 (0x70 + t % 16) :: leBytes 1 b.excCause ++ leBytes 2 b.excPc)
    else s) s

/-- Cores and engines that fell asleep or woke (R411). -/
def State.sleepTrace (s : State) : State :=
  (s.trace.src.map (·.1)).foldl (fun (s : State) i =>
    let quiet := if i < 0xFC ∨ i = 0x1E0 then
        let p := if i = 0x1E0 then 252 else i
        !(s.core p).mcActive && [0, 1, 2, 3].all (fun b => (s.bank p b).st == .off || (s.bank p b).st == .waiting)
      else if 0x100 ≤ i ∧ i < 0x140 then (s.unit (.engine (i - 0x100))).pstate == .idle
      else (s.trSrc i).asleep
    if quiet then s.trSleep i else if s.trLive i then s.trWake i else s) s

/-- Machine-check records and unit-fatal faults of cores trigger the recorders of their Tussocks (R415); Gorse's triggers on
VERIFY_FAIL and on its machine check (R416). -/
def State.faultTrace (s o : State) : State :=
  let n := s.fault.mclog.length - o.fault.mclog.length
  let cores := (s.fault.mclog.drop (s.fault.mclog.length - n)).filterMap (fun r => match r with
    | w :: _ => if w.toNat / 2 ^ 24 = 0x04 then some (w.toNat / 2 ^ 12 % 4096) else none
    | [] => none)
  let s := cores.foldl (fun (s : State) p => s.frFault p) s
  let s := ([6, 13, 20, 27].flatMap (fun t => (List.range 9).map (fun c => 9 * t + c))).foldl (fun (s : State) p =>
    if ((s.unit (.core p)).fsum &&& fsUnitFatal) ≠ 0 ∧ ((o.unit (.core p)).fsum &&& fsUnitFatal) = 0 then s.frFault p else s) s
  if (s.gorse.vfail ∧ !o.gorse.vfail) ∨ ((s.core 252).mcActive ∧ !(o.core 252).mcActive) then s.frTrig 28 0x1E0 0xFE false else s

/-- What the command that led from `o` to `s` adds to the trace. -/
def State.traced (s o : State) : State :=
  let s := if s.gorse.vfail = o.gorse.vfail ∧ (s.core 252).mcActive = (o.core 252).mcActive ∧ !s.tracing then s else s.faultTrace o
  if s.tracing then ((s.devTrace o).engTrace o).sleepTrace else s

/-- The outcome of a command that leads from `o` to `s`: commands leave the queue alone and take no time, and global time is a count
of 64 bits (R224). -/
def State.done (s o : State) : Out3 :=
  let t := s.traced o
  .next { t with pending := o.pending, mono := o.mono, now := t.now % 2 ^ 64 }

end Sys2Proof.Machine
end

