-- ==== Sys2Proof/Machine/Dbg.lean ====
section
/-! DEFINITION. Machine/Dbg.lean: the debug class and its grant, the fields of DAP_CTL, the request engines' commands, and halt
and step requests (R385 to R396, R400 to R403). -/

namespace Sys2Proof.Machine

def State.setDap (s : State) (d : DapSt) : State := { s with dap := d }

/-- MAX_CLASS: 2, or 4 with STRAP_DEBUG (R387, R432). -/
def State.maxClass (s : State) : Nat := if s.peat.straps.testBit 2 then 4 else 2

/-- AUTH_STATUS as read. -/
def State.authStatus (s : State) : Word :=
  let d := s.dap
  BitVec.ofNat 32 (2 ^ 31 * b2n d.busy.isSome + 2 ^ 30 * b2n d.failed + 2 ^ 29 * b2n d.lockout + 2 ^ 24 * d.fails +
    2 ^ 16 * s.maxClass + 128 * b2n d.host + d.cls)

/-- Set FREEZE; when it clears, each watchdog it stopped restarts from RELOAD (R400). -/
def State.setFreeze (s : State) (on : Bool) : State :=
  if s.frozen = on then s else (s.wf .dap R.DAP_CTL F.DAP_CTL_FREEZE (b2n on)).wdFreeze true

/-- Emulation ends (R403): emulated states become real, an emulated DORMANT too, unless a wake was taken (R417). -/
def State.detach (s : State) : State :=
  if !s.attached then s
  else
    let s := (s.wf .dap R.DAP_CTL F.DAP_CTL_DBG_ATTACHED 0).emulEnd
    if s.mode.emulDormant then
      let s := s.setMode { s.mode with emulDormant := false }
      if s.peat.exiting.isSome then s.exitGo else s.dormReal.exitGo
    else s

/-- CLASS becomes `c`; the fields it no longer permits clear (R390). -/
def State.setClass (s : State) (c : Nat) (host : Bool) : State :=
  let s := s.setDap { s.dap with cls := c, host := host }
  let s := if c < 3 then (s.setFreeze false).wf .dap R.DAP_CTL F.DAP_CTL_DBG_SIDEEFFECT 0 else s
  if c < 1 then s.detach else s

/-- A write of DAP_CTL (R390): a field that CLASS does not permit stays 0. -/
def State.dapCtl (s : State) (v : Word) : State :=
  let s := s.wf .dap R.DAP_CTL F.DAP_CTL_DBG_SIDEEFFECT (b2n (v.bit 30 && decide (3 ≤ s.dap.cls)))
  let s := s.setFreeze (v.bit 29 && decide (3 ≤ s.dap.cls))
  if v.bit 31 then (if 1 ≤ s.dap.cls then s.wf .dap R.DAP_CTL F.DAP_CTL_DBG_ATTACHED 1 else s) else s.detach

/-- Bytes held in an array of word registers. -/
def State.regBytes (s : State) (u : UnitId) (r : Reg) (n : Nat) : List Byte :=
  (List.range n).flatMap (fun w => leBytes 4 (s.rd u r w).toNat)

/-- A write of AUTH_REQ (R388). -/
def State.authReq (s : State) (v : Word) : State :=
  let c := v.fld F.AUTH_REQ_CLASS
  if s.dap.busy.isSome then s
  else if c = 0 then s.setClass 0 false
  else if s.dap.fails = 8 then s.setDap { s.dap with lockout := true }
  else s.setDap { s.dap with busy := some (c + 128 * v.fld F.AUTH_REQ_HOST, s.regBytes .dap R.AUTH_KEY 24, s.regBytes .dap R.AUTH_SIG 24) }

/-- The message a debugger signs (R388). -/
def State.authMessage (s : State) (req : Nat) : List Byte :=
  ascii [0x48, 0x46, 0x44, 0x41] ++ leBytes 4 req ++ s.regBytes .dap R.AUTH_CHAL 8

/-- The conditions of R388: the key is that of a programmed slot with its revocation fuse intact, the signature is valid, and
the class is at most MAX_CLASS. -/
def State.authOk (s : State) (req : Nat) (key sig : List Byte) : Bool :=
  let d := sha384 key
  (List.range 4).any (fun k => (s.gorse.digs.any (fun e => e.1 == k)) && s.slotDigest k == d && !s.slotRevoked k) &&
    ecdsaOk key sig (sha384 (s.authMessage req)) && decide (req % 8 ≤ s.maxClass)

/-- The next challenge (R388): it depends on the attempts so far and the global time. -/
def State.nextChal (s : State) (attempts : Nat) : List Byte :=
  (hmac384 (hmac384 (List.replicate 48 0) s.gorse.secret) (ascii [0x48, 0x46, 0x43, 0x48] ++ leBytes 4 attempts ++ leBytes 8 s.now)).take 32

/-- AUTH_DONE: Gorse grants or refuses, and sets a new challenge. Before class 4 it sets KEY_LOCK (R389). -/
def State.authDone (s : State) : State :=
  match s.dap.busy with
  | none => s
  | some (req, key, sig) =>
    let ok := s.authOk req key sig
    let n := s.dap.attempts + 1
    let ch := s.nextChal n
    let d : DapSt := { s.dap with busy := none, attempts := n, failed := !ok, fails := if ok then s.dap.fails else min 8 (s.dap.fails + 1) }
    let s := s.setDap d
    let s := (List.range 8).foldl (fun (s : State) w => s.wr .dap R.AUTH_CHAL (BitVec.ofNat 32 (ofLe ((ch.drop (4 * w)).take 4))) w) s
    if ok then
      let s := if req % 8 = 4 then s.keyLock else s
      s.setClass (req % 8) (decide (128 ≤ req))
    else s

/-! ### Request engines (R387, R391) -/

def State.dreAcc (s : State) (k : Nat) : Option DreAcc := mapGet none s.dap.dre k
def State.setDre (s : State) (k : Nat) (x : Option DreAcc) : State := s.setDap { s.dap with dre := mapSet none s.dap.dre k x }

/-- DRE_STATUS: ERR, POISON and RESP of the last access; BUSY is computed. -/
def State.dreEnd (s : State) (k : Nat) (err : Option Nat) (poison : Bool) : State :=
  s.wr .dap R.DRE_STATUS (BitVec.ofNat 32 (2 ^ 30 * b2n err.isSome + 2 ^ 29 * b2n poison + err.getD 0)) k

/-- What a debug class reaches (R387). -/
def State.dreAllowed (s : State) (a : Nat) (write : Bool) : Bool :=
  let c := s.dap.cls
  let gorse := match s.place a with
    | .rom | .sram _ => true
    | _ => decide ((UnitId.gorse.base ≤ a ∧ a < UnitId.gorse.base + UnitId.gorse.size) ∨ (0x0E00780000 ≤ a ∧ a < 0x0E00788000))
  let trace := match unitAt a with
    | some (.hedgerow, _) => !gorse
    | some (.core _, o) => decide (0x60C ≤ o ∧ o < 0x6C0)
    | some (.engine _, o) => decide (0x400 ≤ o ∧ o < 0x4C0)
    | some (.tussock t, o) => decide (t % 7 = 6 ∧ 0x3C0 ≤ o ∧ o < 0x3D4)
    | _ => false
  let header := match unitAt a with
    | some (_, o) => !write && decide (o < 0x100) && !gorse
    | none => false
  decide (4 ≤ c) || (decide (2 ≤ c) && !gorse) || (decide (c = 1) && (trace || header))

/-- A command of request engine `k` (R387, R391): discarded while BUSY; outside the granted class, or on the host engine without
HOST, it sends nothing and reports PERM; a misaligned access reports FORMAT. -/
def State.dreCmd (s : State) (k : Nat) (v : Word) : State :=
  if (s.dreAcc k).isSome then s
  else
    let wide := v.fld F.DRE_CMD_SIZE16 = 1
    let a := (s.rd .dap R.DRE_ADDR_LO k).toNat + 2 ^ 32 * s.rf .dap R.DRE_ADDR_HI F.DRE_ADDR_HI_ADDR k
    let n := if wide then 16 else 4
    let write := v.fld F.DRE_CMD_WRITE = 1
    if s.dap.cls = 0 ∨ (k = 1 ∧ !s.dap.host) ∨ !s.dreAllowed a write then s.dreEnd k (some 3) false
    else if a % n ≠ 0 then s.dreEnd k (some 4) false
    else
      let d := ((List.range 4).flatMap (fun j => leBytes 4 (s.rd .dap R.DRE_DATA k j).toNat)).take n
      s.setDre k (some { write := write, wide := wide, addr := a, data := d, since := s.mono })

/-- DRE_STATUS as read. -/
def State.dreStatus (s : State) (k : Nat) : Word :=
  let w := s.rd .dap R.DRE_STATUS k
  if (s.dreAcc k).isSome then w ||| 0x80000000 else w

/-! ### Halt and step (R394 to R396) -/

/-- A halt request to bank `b` (R394): discarded at an OFF bank, and a WAITING bank that can take it becomes READY. -/
def State.haltReq (s : State) (p b : Nat) : State :=
  let x := s.bank p b
  if x.st = .off then s
  else
    let go := x.st == .waiting && s.rb (.core p) R.DBG_CTL F.DBG_CTL_DBG_EN && !x.mon
    let x : Bank := { x with halt := true, st := if go then .ready else x.st, wait := if go then .none else x.wait }
    (s.setBank p b x).resched p

/-- A write of DBG_CTL: its halt requests. -/
def State.dbgCtl (s : State) (p : Nat) (v : Word) : State :=
  [0, 1, 2, 3].foldl (fun (s : State) b => if (v.fld F.DBG_CTL_HALT).testBit b then s.haltReq p b else s) s

/-- DBG_STAT as read. -/
def State.dbgStat (s : State) (p : Nat) : Word :=
  BitVec.ofNat 32 ([0, 1, 2, 3].foldl (fun n b => n + 2 ^ (28 + b) * b2n (s.bank p b).mon + 2 ^ (24 + b) * b2n (s.bank p b).halt) 0)

end Sys2Proof.Machine
end

