-- ==== Sys2Proof/Machine/Bus.lean ====
section
/-! DEFINITION. Machine/Bus.lean: reads and writes of registers over Sward, BAR0, BAR4 and the TAP: the checks in their order, the
generic access codes, latches, and what each register's read or write does (R4 to R9, R16 to R28, R60 to R63, R392). -/

namespace Sys2Proof.Machine

/-! ### Global time (R224 to R228) -/

def State.setTime (s : State) (t : TimeSt) : State := { s with time := t }

/-- A write of GT_STEP waits for the first wheel boundary at least 1 µs later; bits [4:0] count as zero (R227). -/
def State.gtStep (s : State) (v : Word) : State :=
  s.setTime { s.time with step := some (v.toInt - (natBits v.toNat 4 0 : Nat), ceilTo 32 (s.now + 1000)) }

/-- A write of GT_SET_HI applies at the next wheel boundary (R228). -/
def State.gtSet (s : State) : State :=
  let v := (s.rd .peat R.GT_SET_LO).toNat + 2 ^ 32 * (s.rd .peat R.GT_SET_HI).toNat
  s.setTime { s.time with set := some (v / 32 * 32, (s.now / 32 + 1) * 32) }

/-- A time moved by a step. -/
def movedBy (d : Int) (t : Nat) : Nat := (((t : Int) + d) % (2 ^ 64 : Nat)).toNat

/-- GT_STEP_APPLY (R227): the count moves, and with it open loop deadlines, the scheduled swap and armed comparators; open
telemetry blocks close. -/
def State.gtStepApply (s : State) : State :=
  match s.time.step with
  | none => s
  | some (d, t) =>
    if s.now < t then s
    else
      let s := s.closeAll
      let loops := s.act.loops.map (fun (e : Nat × LoopSt) => (e.1, { e.2 with open_ := e.2.open_.map (movedBy d) }))
      let banks := s.ling.banks.map (fun (e : Nat × Bank) => (e.1, [0, 1, 2, 3].foldl (fun (x : Bank) n =>
        if x.tctl.bit n then x.setTcmp n (x.tcmpAt n + Word.ofInt d) else x) e.2))
      let m : ModeSt := { s.mode with trans := s.mode.trans.map (fun t => { t with ts := t.ts.map (movedBy d) }), swapTime := if s.mode.trans.isSome then movedBy d s.mode.swapTime else s.mode.swapTime }
      let s : State := { s with now := movedBy d s.now, act := { s.act with loops := loops }, ling := { s.ling with banks := banks }, mode := m }
      s.setTime { s.time with step := none, cnt := (s.time.cnt + 1) % 2 ^ 16 }

/-- GT_SET_APPLY (R228). -/
def State.gtSetApply (s : State) : State :=
  match s.time.set with
  | none => s
  | some (v, t) =>
    if s.now < t then s
    else
      let s : State := { s with now := v }
      s.setTime { s.time with set := none, cnt := (s.time.cnt + 1) % 2 ^ 16 }

/-! ### Way conversion (R311) -/

/-- The role of way `w` under an L2_WAYS value: 0 scratch, 1 locked-line, 2 cache (R308). -/
def wayRole (v : Word) (w : Nat) : Nat :=
  let sc := v.fld F.L2_WAYS_SCRATCH
  if w < sc then 0 else if w < sc + v.fld F.L2_WAYS_LOCKW then 1 else 2

/-- A write of L2_WAYS is refused: more than 12 ways converted, or a conversion in progress. -/
def State.waysBad (s : State) (t : Nat) (v : Word) : Bool :=
  decide (12 < v.fld F.L2_WAYS_SCRATCH + v.fld F.L2_WAYS_LOCKW) || mapGet 0 s.mem.conv t != 0

/-- L2_WAYS written: a conversion starts if a role changes; scratch that loses its backing is gone. -/
def State.waysPost (s : State) (t : Nat) (old v : Word) : State :=
  if (List.range 16).all (fun w => wayRole old w == wayRole v w) then s
  else
    let base := 0xC00000000 + t * 0x800000
    let s := s.clearBytes (base + v.fld F.L2_WAYS_SCRATCH * 0x20000) (base + old.fld F.L2_WAYS_SCRATCH * 0x20000)
    ({ s with mem := { s.mem with conv := mapSet 0 s.mem.conv t (old.toNat + 1) } } : State).frLost t

/-- WAY_CONVERSION_DONE: the sectors of ways that changed role are cleaned and invalidated, with their locks, and new scratch is
zero. It waits for a sector with a transaction. -/
def State.waysDone (s : State) (t : Nat) : State :=
  let c := mapGet 0 s.mem.conv t
  let old : Word := BitVec.ofNat 32 (c - 1)
  let v := s.rd (.tussock t) R.L2_WAYS
  let secs := (s.mem.sectors.filter (fun e => e.1 / 2 ^ 32 == t && (match e.2 with
    | some x => wayRole old x.way != wayRole v x.way
    | none => false))).map (fun e => e.1 % 2 ^ 32 * 4)
  if c = 0 ∨ secs.any (fun l => s.sectorBusy t l) then s
  else
    let s := secs.foldl (fun (s : State) l =>
      let s := (sectorLines l).foldl (fun (s : State) k =>
        let st := (s.sub t k).st
        let s := if st == .m || st == .o then s.recall k true else s
        s.toI t k) s
      s.setSector t l none) s
    let base := 0xC00000000 + t * 0x800000
    let s := s.clearBytes (base + old.fld F.L2_WAYS_SCRATCH * 0x20000) (base + v.fld F.L2_WAYS_SCRATCH * 0x20000)
    { s with mem := { s.mem with conv := mapErase t s.mem.conv } }

/-! ### What a register reads as -/

/-- SR of MC_STATUS, as R401 reports it under a debugger. -/
def State.srShown (s : State) (c : Nat) : Bool :=
  let x := s.unit (.slice c)
  (s.chan c).selfRef || (x.emulated && (x.pstate == .retain || x.pstate == .off))

/-- BANK_STAT_b. -/
def State.bankStat (s : State) (p b : Nat) : Word :=
  let x := s.bank p b
  BitVec.ofNat 32 (x.st.code * 2 ^ 30 + 2 ^ 29 * b2n x.flag + x.epri * 2 ^ 27 + 2 ^ 26 * b2n x.trap + 2 ^ 25 * b2n (s.macOwn p b) +
    2 ^ 24 * b2n x.resv + x.edepth * 2 ^ 20)

/-- The header registers (R16). -/
def State.hdrValue (s : State) (u : UnitId) (o : Nat) : Word :=
  match o with
  | 0x00 => BitVec.ofNat 32 (u.cls * 2 ^ 24 + u.inst * 2 ^ 12 + s.masterId u)
  | 0x08 => BitVec.ofNat 32 u.children.length
  | 0x0C => if u.children = [] then 0 else BitVec.ofNat 32 childTableOff
  | 0x14 => s.pwrState u
  | 0x18 => BitVec.ofNat 32 (s.faultSum u)
  | 0x20 => BitVec.ofNat 32 (s.epochOf u)
  | 0x24 => BitVec.ofNat 32 (s.unit u).cfg
  | 0x30 => (s.unit u).writer
  | 0x34 => BitVec.ofNat 32 (s.unit u).tick
  | 0x38 => BitVec.ofNat 32 (4 * b2n (s.inReset u) + 2 * b2n ((s.unit u).hold || (s.unit u).dead))
  | 0x3C => lo32 (s.energyOf u)
  | 0x40 => hi32 (s.energyOf u)
  | _ => 0

/-- The value of a register that the device computes on reading, for its unit's own registers. -/
def State.ownValue (s : State) (u : UnitId) (r : Reg) (i j : Nat) : Word :=
  let v := s.rd u r i j
  match u with
  | .device =>
    if r = R.MODE_STATUS then s.modeStatus
    else if r = R.MODE_SWAP_TIME_LO then lo32 s.mode.swapTime
    else if r = R.MODE_SWAP_TIME_HI then hi32 s.mode.swapTime else v
  | .quad q =>
    if r = R.TUS_HEALTH then
      BitVec.ofNat 32 ((List.range 9).foldl (fun n c => n + 2 ^ (3 * c) * (s.health (9 * (7 * q + i) + c)).code) 0)
    else v
  | .sw q =>
    if r = R.SW_STATUS then s.swStatus
    else if r = R.PLAN_ERR then s.sward.planErr
    else if r = R.LINK_DIS_LO then lo32 (s.linkDisBits q)
    else if r = R.LINK_DIS_HI then hi32 (s.linkDisBits q)
    else if r = R.ATAB_RD_DATA then
      let w := s.rd u R.ATAB_RD_SEL
      BitVec.ofNat 32 (s.atEntry (w.fld F.ATAB_RD_SEL_ATID) (w.fld F.ATAB_RD_SEL_MASTER))
    else if r = R.PMON_CNT_LO then (s.pmonShown q i).setWidth 32
    else if r = R.PMON_CNT_HI then (s.pmonShown q i >>> 32).setWidth 32
    else if r = R.VIOL_POP then match mapGet [] s.sward.viol q with
      | [] => 0
      | x :: _ => BitVec.ofNat 32 (2 ^ 31 + x.kind * 2 ^ 28 + x.epoch % 16 * 2 ^ 24 + x.priv % 4 * 2 ^ 22 + x.op % 4 * 2 ^ 20 + x.atid % 256 * 2 ^ 12 + x.master % 4096)
    else v
  | .slice c =>
    if r = R.MC_STATUS then BitVec.ofNat 32 (4 * b2n (s.chan c).refx2 + 2 * b2n (s.srShown c) + b2n (s.chan c).initDone)
    else if r = R.DIR_STATUS then
      BitVec.ofNat 32 ((mapGet [] s.mem.retryq c).length * 2 ^ 24 + (s.mem.dir.filter (fun e => lkChan e.1 == c)).length)
    else v
  | .engine e =>
    if r = R.ENG_STATUS then v.setFld F.ENG_STATUS_OPS ((s.engThreads e).foldl (fun n t => n + (s.thread t).ops.length) 0)
    else if r = R.THREAD then s.threadReg (16 * e + i)
    else if r = R.TRC_CTL_E then v.setFld F.TRC_CTL_E_ACTIVE (b2n (s.trActive (0x100 + e))) else v
  | .tussock t =>
    if r = R.L2_STATUS then
      (v.setFld F.L2_STATUS_CONV_BUSY (b2n (mapGet 0 s.mem.conv t != 0))).setFld F.L2_STATUS_EVB (s.evbOf t).length
    else if r = R.FR_STATUS then s.frStatus t
    else if r = R.FR_TRIGPTR then BitVec.ofNat 32 (s.frec t).trigPtr else v
  | .core p =>
    if r = R.BANK_STAT then s.bankStat p i
    else if r = R.CORE_STATUS then BitVec.ofNat 32 (2 * b2n (s.core p).stopped + b2n (s.core p).mcActive)
    else if r = R.DBG_STAT then s.dbgStat p
    else if r = R.TRC_CTL_C then v.setFld F.TRC_CTL_C_ACTIVE (b2n (s.trActive p)) else v
  | .gorse => if r = R.FUSE_STAT then s.fuseStat else if r = R.KEYDIG then s.keyDig i j else v
  | .eth =>
    if r = R.ETH_STATUS then v.setFld F.ETH_STATUS_QUIESCED (b2n s.quiesced)
    else if r = R.PORTCNT_LO ∧ (j = 10 ∨ j = 11) then (Config.fecCount (16 * i + j) s.freeCtr s.now).setWidth 32
    else if r = R.PORTCNT_HI ∧ (j = 10 ∨ j = 11) then (Config.fecCount (16 * i + j) s.freeCtr s.now >>> 32).setWidth 32
    else v
  | .pcie => if r = R.CTXO_DATA then mapGet 0 s.pcie.ctxo (s.rf .pcie R.CTXO_SEL F.CTXO_SEL_G) else v
  | .chGroup g =>
    if r = R.CH_LAST then (s.chRegs (16 * g + i)).getD 0 0
    else if r = R.CH_TS_LO then (s.chRegs (16 * g + i)).getD 1 0
    else if r = R.CH_TS_HI then (s.chRegs (16 * g + i)).getD 2 0
    else if r = R.CH_SEQ then (s.chRegs (16 * g + i)).getD 3 0 else v
  | .tripUnit =>
    if r = R.TRIP_SUM then BitVec.ofNat 32 ((List.range 32).foldl (fun n k => n + 2 ^ k * b2n ((s.rd u R.TRIP_STATUS k).bit 31)) 0) else v
  | .act =>
    let ovr := (List.range 64).foldl (fun n k => n + 2 ^ k * s.rf .act R.LOOP_STAT F.LOOP_STAT_LOOP_OVERRUN k) 0
    if r = R.LOOP_OVR_SUM_LO then lo32 ovr
    else if r = R.LOOP_OVR_SUM_HI then hi32 ovr
    else if r = R.BRK_OUT then BitVec.ofNat 32 ((List.range 16).foldl (fun n b => n + 2 ^ b * s.rf .act R.BRK_STAT F.BRK_STAT_OUT b) 0)
    else if r = R.PWM_CFG then match s.pwmOwner i with
      | some n => (v.setFld F.PWM_CFG_OWNED 1).setFld F.PWM_CFG_OWNER n
      | none => v
    else if r = R.PWM_ACT then BitVec.ofNat 32 (2 ^ 31 * b2n ((s.pwm i).pend.isSome || (s.pwm i).shadowNew) + (s.pwm i).duty % 2 ^ 22)
    else v
  | .telCoder =>
    if r = R.TOUT_IDX then BitVec.ofNat 32 ((s.tout i).idx % 65536)
    else if r = R.STR_STAT then
      BitVec.ofNat 32 ((s.str i).bseq % 65536 * 65536 + 128 * b2n (!(s.str i).smp.isEmpty) + (s.str i).smp.length % 128) else v
  | .peat =>
    if r = R.CLK_STATUS then s.clkStatus
    else if r = R.PLL_STATUS then s.pllStatus
    else if r = R.GT_LO then lo32 s.now
    else if r = R.GT_HI then hi32 s.now
    else if r = R.GT_STATUS then BitVec.ofNat 32 (2 ^ 31 * b2n s.time.step.isSome + s.time.cnt)
    else if r = R.DWD_STATUS then v.setFld F.DWD_STATUS_REMAIN (s.wdRemain .peat) else v
  | .hedgerow => if r = R.GFR_STATUS then s.gfrStatus else v
  | .dap => if r = R.AUTH_STATUS then s.authStatus else if r = R.DRE_STATUS then s.dreStatus i else v
  | .bar0 l =>
    if r = R.ADM_STATUS then
      BitVec.ofNat 32 (2 ^ 31 * b2n (s.adm l).en + (s.adm l).prog.length % 128 * 65536 + mapGet 0 s.pcie.orphans l % 65536)
    else if r = R.BOOT_MBOX_STATUS then s.rd .gorse R.BOOT_STATUS else v
  | _ => v

/-- What a read of instance (i, j) of `r` returns; write-only registers read zero (R4). -/
def State.regValue (s : State) (u : UnitId) (r : Reg) (i j : Nat) : Word :=
  if r.writeOnly then 0
  else if u.cls ≠ 0 ∧ r.off < 0x100 then
    (if r.off = 0x10 ∨ r.off = 0x1C ∨ r.off = 0x04 then s.rd u r else s.hdrValue u r.off)
  else
    let v := s.ownValue u r i j
    BitVec.ofNat 32 (v.toNat &&& (0xFFFFFFFF ^^^ (r.wo &&& (0xFFFFFFFF ^^^ (r.rw ||| r.w1c ||| r.w1s)))))

/-! ### The configuration digest (R356, R357) -/

/-- Insert by offset. -/
def offInsert (x : Nat × Reg × Nat × Nat) : List (Nat × Reg × Nat × Nat) → List (Nat × Reg × Nat × Nat)
  | [] => [x]
  | y :: t => if x.1 < y.1 then x :: y :: t else y :: offInsert x t

/-- The register instances of a unit with a portable field, header included, in ascending offset order; CTXO_DATA is not among
them. -/
def portRegs (u : UnitId) : List (Nat × Reg × Nat × Nat) :=
  ((regsHdr ++ u.regs).filter (fun r => r.port != 0 && !(u == .pcie && r == R.CTXO_DATA))).foldl (fun l r =>
    (List.range (max 1 r.n1)).foldl (fun l i => (List.range (max 1 r.n2)).foldl (fun l j =>
      offInsert (r.off + i * r.s1 + j * r.s2, r, i, j) l) l) l) []

/-- The unit's registers enter at their reset values: OFF, in reset, DEAD, in QUARANTINE or TESTING. -/
def State.digestReset (s : State) (u : UnitId) : Bool :=
  s.inReset u || s.isOff u || (match u with
    | .core p => s.health p == .dead || s.health p == .quarantine || s.health p == .testing
    | _ => false)

/-- The words of step 3 of R356. -/
def State.digestTables (s : State) (u : UnitId) : List Byte :=
  match u with
  | .sw q => (List.range 256).flatMap (fun a =>
      if atabWritable q a && (q == 0 || decide (0x10 ≤ a)) then (List.range 4096).flatMap (fun m =>
        let e := s.atEntry a m / 16 * 16
        if e = 0 then [] else leBytes 4 (a * 2 ^ 24 + m * 2 ^ 12 + e)) else [])
  | .pcie => s.pcie.ctxo.flatMap (fun e => if e.2.bit 31 then leBytes 4 e.1 ++ leBytes 4 (e.2.toNat &&& R.CTXO_DATA.port) else [])
  | _ => []

/-- The digest of a unit, `n` levels deep. -/
def State.digestN (s : State) : Nat → UnitId → Nat
  | n, u =>
    let own := leBytes 1 u.cls ++ (portRegs u).flatMap (fun (o, r, i, j) =>
      let v := if s.digestReset u then r.reset else (s.regValue u r i j).toNat
      leBytes 4 o ++ leBytes 4 (v &&& r.port)) ++ s.digestTables u
    match n with
    | 0 => crc64 own
    | m + 1 => crc64 (own ++ u.children.flatMap (fun c => leBytes 8 (s.digestN m c)))

/-- CFG_DIGEST of a unit. -/
def State.digest (s : State) (u : UnitId) : Nat := s.digestN 3 u

/-! ### Latches (R25, R185, R338, R392) -/

/-- The register pairs of R25 in a unit, the header's apart. -/
def loHiOf (u : UnitId) : List (Reg × Reg) :=
  match u with
  | .device => [(R.MODE_SWAP_TIME_LO, R.MODE_SWAP_TIME_HI), (R.PLAN_DIR_LO, R.PLAN_DIR_HI)]
  | .sw _ => [(R.LINK_DIS_LO, R.LINK_DIS_HI), (R.PMON_CNT_LO, R.PMON_CNT_HI)]
  | .slice _ => [(R.DIR_CNT_LO, R.DIR_CNT_HI), (R.CMP_WR_LO, R.CMP_WR_HI), (R.CMP_PACK_LO, R.CMP_PACK_HI), (R.CMP_RD_LO, R.CMP_RD_HI)]
  | .engine _ => [(R.ISSUE_CNT_LO, R.ISSUE_CNT_HI), (R.IDLE_CNT_LO, R.IDLE_CNT_HI)]
  | .eth => [(R.STL_MASK_LO, R.STL_MASK_HI), (R.PORTCNT_LO, R.PORTCNT_HI), (R.RX_TC_LO, R.RX_TC_HI), (R.TX_TC_LO, R.TX_TC_HI)]
  | .pcie => [(R.OB_BASE_LO, R.OB_BASE_HI)]
  | .act => [(R.LOOP_OVR_SUM_LO, R.LOOP_OVR_SUM_HI), (R.LOOP_PWM_LO, R.LOOP_PWM_HI), (R.PINT_SMAC_LO, R.PINT_SMAC_HI), (R.PINT_DMAC_LO, R.PINT_DMAC_HI)]
  | .peat => [(R.WAKE_ALARM_LO, R.WAKE_ALARM_HI), (R.GT_LO, R.GT_HI), (R.GT_SET_LO, R.GT_SET_HI)]
  | .core _ => [(R.PERF_LO, R.PERF_HI)]
  | .er _ => [(R.BSET_LO, R.BSET_HI)]
  | .tussock _ => [(R.LOCK_LOG_LO, R.LOCK_LOG_HI), (R.L2_CNT_LO, R.L2_CNT_HI)]
  | .hedgerow => [(R.RING_BASE_LO, R.RING_BASE_HI)]
  | .gorse => [(R.ATTEST_ADDR_LO, R.ATTEST_ADDR_HI)]
  | .dap => [(R.DRE_ADDR_LO, R.DRE_ADDR_HI)]
  | .bar0 _ => [(R.ADM_SQ_BASE_LO, R.ADM_SQ_BASE_HI), (R.ADM_CQ_BASE_LO, R.ADM_CQ_BASE_HI), (R.BOOT_MBOX_LO, R.BOOT_MBOX_HI)]
  | _ => []

/-- The registers that a read of `r` latches for its reader, with their instances. -/
def latched (u : UnitId) (r : Reg) (i j : Nat) : List (Reg × Nat × Nat) :=
  if r = R.CFG_DIGEST_LO ∧ u.cls ≠ 0 then [(R.CFG_DIGEST_HI, 0, 0)]
  else if r = R.ENERGY_LO ∧ u.cls ≠ 0 then [(R.ENERGY_HI, 0, 0)]
  else match (loHiOf u).find? (fun p => p.1 = r) with
  | some (_, hi) => [(hi, i, j)]
  | none => match u with
    | .chGroup _ => if r = R.CH_LAST then [(R.CH_TS_LO, i, 0), (R.CH_TS_HI, i, 0), (R.CH_SEQ, i, 0)] else []
    | .eviUnit => if r = R.EVI_COUNT then [(R.EVI_PERIOD, i, 0), (R.EVI_TS_LO, i, 0), (R.EVI_TS_HI, i, 0)] else []
    | .eth => if r = R.TXTS_POP then [(R.TXTS_TIME_LO, i, 0), (R.TXTS_TIME_HI, i, 0)] else []
    | .device => if r = R.MCLOG_POP then (List.range 8).map (fun k => (R.MCLOG_W, k, 0)) else []
    | _ => []

/-- The register whose read latches `r`: its address, and which of the latched words `r` is. -/
def latchOf (u : UnitId) (r : Reg) (i j : Nat) : Option (Nat × Nat) :=
  let at_ (l : Reg) (k : Nat) : Option (Nat × Nat) := some (regAddr u l i j, k)
  if u.cls ≠ 0 ∧ r = R.CFG_DIGEST_HI then at_ R.CFG_DIGEST_LO 0
  else if u.cls ≠ 0 ∧ r = R.ENERGY_HI then at_ R.ENERGY_LO 0
  else match (loHiOf u).find? (fun p => p.2 = r) with
  | some (lo, _) => at_ lo 0
  | none => match u with
    | .chGroup _ => if r = R.CH_TS_LO then at_ R.CH_LAST 0 else if r = R.CH_TS_HI then at_ R.CH_LAST 1 else if r = R.CH_SEQ then at_ R.CH_LAST 2 else none
    | .eviUnit => if r = R.EVI_PERIOD then at_ R.EVI_COUNT 0 else if r = R.EVI_TS_LO then at_ R.EVI_COUNT 1 else if r = R.EVI_TS_HI then at_ R.EVI_COUNT 2 else none
    | .eth => if r = R.TXTS_TIME_LO then at_ R.TXTS_POP 0 else if r = R.TXTS_TIME_HI then at_ R.TXTS_POP 1 else none
    | .device => if r = R.MCLOG_W then some (regAddr u R.MCLOG_POP 0 0, i) else none
    | _ => none

/-- Record a latch, in the debug latches for a read without side effects (R392). -/
def State.setLatch (s : State) (dbg : Bool) (a : Nat) (l : Latch) : State :=
  if dbg then s.setDap { s.dap with latch := mapInsert a l s.dap.latch } else { s with latches := mapInsert a l s.latches }

def noLatch : Latch := ⟨0x1000, []⟩

/-- The latched word, if `m` holds the latch. -/
def State.latchWord (s : State) (dbg : Bool) (a m k : Nat) : Option Word :=
  let l := mapGet noLatch (if dbg then s.dap.latch else s.latches) a
  if l.owner = m then l.words[k]? else none

/-- A debug read that leaves everything as it was (R392). -/
def State.quiet (s : State) (r : Req) : Bool := r.debug && !s.rb .dap R.DAP_CTL F.DAP_CTL_DBG_SIDEEFFECT

/-! ### Reads -/

/-- What a read of a queue or semaphore returns, the words it latches, and the state once the entry is gone. -/
def State.popReg (s : State) (r : Req) (u : UnitId) (g : Reg) (i : Nat) : Option (Word × List Word × State) :=
  match u with
  | .device => if g = R.MCLOG_POP then some s.mclogPop else none
  | .eth => if g = R.TXTS_POP then some (s.txtsPop i) else none
  | .er q =>
    if g = R.ER_CLAIM then
      let (w, t) := s.erClaim q r.master.toNat i
      some (w, [], t)
    else none
  | .sw q =>
    if g = R.VIOL_POP then match mapGet [] s.sward.viol q with
      | [] => some (0, [], s)
      | x :: rest =>
        let t : State := { s with sward := { s.sward with viol := mapSet [] s.sward.viol q rest } }
        some (s.ownValue u g 0 0, [], (t.wr u R.VIOL_W1 (lo32 x.addr)).wr u R.VIOL_W2 (hi32 x.addr))
    else none
  | _ => none

/-- A read of an accessible register: an error code or the value. -/
def State.regRead (s : State) (r : Req) (u : UnitId) (g : Reg) (i j : Nat) : Option Nat × Word × State :=
  let m := r.master.toNat
  let q := s.quiet r
  match latchOf u g i j with
  | some (a, k) => match s.latchWord q a m k with
    | some w => (none, w, s)
    | none => (some 4, 0, s)
  | none =>
    if u = .gorse ∧ g = R.KEY_OUT ∧ (m ≠ s.gorse.keyOwner ∨ r.debug ∨ m = 0x1C1) then (some 4, 0, s)
    else match s.popReg r u g i with
    | some (w, ws, t) =>
      let t := if q then s else t
      (none, w, if ws = [] then t else t.setLatch q (regAddr u g i j) ⟨m, ws⟩)
    | none =>
      if g = R.CFG_DIGEST_LO ∧ u.cls ≠ 0 then
        let d := s.digest u
        (none, lo32 d, s.setLatch q (regAddr u g 0 0) ⟨m, [hi32 d]⟩)
      else
        let w := s.regValue u g i j
        let ws := (latched u g i j).map (fun (h, a, b) => s.regValue u h a b)
        let s := if ws = [] then s else s.setLatch q (regAddr u g i j) ⟨m, ws⟩
        (none, w, if g.rc != 0 && !q then s.wr u g (s.rd u g i j &&& BitVec.ofNat 32 (0xFFFFFFFF ^^^ g.rc)) i j else s)

/-! ### Writes -/

/-- Every writable field of a register. -/
def regWritable (g : Reg) : Nat := g.rw ||| g.w1c ||| g.w1s ||| g.wo

/-- The error code of a write that the register's description refuses (R4, R63), the access table having passed. `host` is
whether it comes through the TAP (0) or BAR4 (1), where it does. -/
def State.wrRefuse (s : State) (r : Req) (u : UnitId) (g : Reg) (i : Nat) (old v : Word) (path : Option Nat) : Option Nat :=
  let fmt (b : Bool) : Option Nat := if b then some 4 else none
  match u with
  | .quad q => if g = R.READMIT then fmt (s.readmit q v).isNone else none
  | .sw q => if g = R.ATAB_WRITE then fmt (!atabWritable q (v.fld F.ATAB_WRITE_ATID)) else none
  | .er q =>
    let m := v.fld F.ER_ROUTE_TARGET
    if g = R.ER_ROUTE then fmt (!v.bit 30 && (decide (m < 63 * q) || decide (63 * q + 62 < m))) else none
  | .engine _ => if g = R.CS_IMAGE ∧ masterClass r.master.toNat ≠ 5 then some 3 else none
  | .tussock t =>
    if g = R.L2_WAYS then fmt (s.waysBad t v) else if g = R.FR_CFG then fmt (s.frBad t v) else none
  | .pcie => fmt (s.pcieRefuse g v)
  | .mfe => fmt (measRefuse g v)
  | .act => fmt (s.actRefuse g i old v)
  | .peat =>
    if g = R.GT_STEP then fmt s.time.step.isSome
    else if g = R.GT_SET_LO ∨ g = R.GT_SET_HI then fmt (s.mode.mode != .boot) else none
  | .dap =>
    if g = R.DAP_CTL ∨ g = R.AUTH_REQ ∨ g = R.AUTH_KEY ∨ g = R.AUTH_SIG then (if path.isNone then some 3 else none)
    else if g = R.DRE_CMD then (if path = some i then none else some 3) else none
  | _ => none

/-- A write that is discarded: no action, no change, no configuration event. -/
def State.wrDiscard (s : State) (u : UnitId) (g : Reg) (i : Nat) (v : Word) : Bool :=
  match u with
  | .slice 0 => (g == R.REG_BASE || g == R.REG_SIZE || g == R.REG_ATTR) && (s.rd u R.REG_ATTR i).bit 31
  | .engine e => g == R.ENG_CTL && !s.engCmdOk e (v.fld F.ENG_CTL_CMD)
  | _ => false

/-- R72's check after a write to entry `n` of the region table. -/
def State.regionCheck (s : State) (n : Nat) : State :=
  let b := (s.rd homeUnit0 R.REG_BASE n).toNat
  let z := (s.rd homeUnit0 R.REG_SIZE n).toNat
  if z ≠ 0 ∧ s.rb homeUnit0 R.REG_ATTR F.REG_ATTR_QLOCAL n ∧ (b % 4 ≠ 0 ∨ z % 4 ≠ 0) then
    s.wr homeUnit0 R.REGION_ERR (BitVec.ofNat 32 (256 + n))
  else s

/-- What a write does once its fields have changed, for a unit's own registers. -/
def State.wrPost (s : State) (r : Req) (u : UnitId) (g : Reg) (i : Nat) (old v : Word) : State :=
  match u with
  | .device => if g = R.MODE_REQ then s.modeRequest v else s
  | .quad q => if g = R.READMIT then (s.readmit q v).getD s else s
  | .sw q =>
    if g = R.ATAB_WRITE then
      s.setAtEntry (v.fld F.ATAB_WRITE_ATID) (v.fld F.ATAB_WRITE_MASTER) (natBits v.toNat 8 0)
    else if g = R.LINK_DIS_LO ∨ g = R.LINK_DIS_HI then
      let o := if g = R.LINK_DIS_HI then 32 else 0
      let s := s.wr u g 0
      (List.range 32).foldl (fun (s : State) b =>
        if v.bit b then s.linkFail (localRouter q ((b + o) / 4 % 4) ((b + o) / 16)) ((b + o) % 4) else s) s
    else if g = R.SEM_REL then s.wr u R.SEM 1 (v.fld F.SEM_REL_N)
    else if g = R.PMON_CTL then
      let c := Config.flitCount (8 * q + i) s.freeCtr s.now
      let s := if v.bit 1 then (s.wr u R.PMON_CNT_LO 0 i).wr u R.PMON_CNT_HI 0 i
        else if countsFlits old then (s.wr u R.PMON_CNT_LO (c.setWidth 32) i).wr u R.PMON_CNT_HI ((c >>> 32).setWidth 32) i
        else s
      if v.bit 2 ∧ !old.bit 2 then { s with trace := { s.trace with pmonAt := mapSet 0 s.trace.pmonAt (8 * q + i) s.mono } } else s
    else s
  | .slice 0 => if g = R.REG_BASE ∨ g = R.REG_SIZE ∨ g = R.REG_ATTR then s.regionCheck i else s
  | .engine e =>
    if g = R.ENG_CTL then s.engCommand e (v.fld F.ENG_CTL_CMD)
    else if g = R.CS_IMAGE then s.wf u R.ENG_STATUS F.ENG_STATUS_CS_VALID 1
    else if g = R.CS_ERR_INJ then s.csInject e (v.fld F.CS_ERR_INJ_ADDR) (v.fld F.CS_ERR_INJ_PIECE)
    else if g = R.TRC_CTL_E then s.trcPost (0x100 + e) old v
    else if g = R.CMP_CFG_E ∧ r.debug ∧ s.dap.cls = 1 then s.wr u g ((s.rd u g i) &&& 0xFFFFFEFF) i
    else s
  | .er q => if g = R.ER_RAISE then s.erRaise q (v.fld F.ER_RAISE_SRC) else s
  | .tussock t =>
    if g = R.L2_WAYS then s.waysPost t old (s.rd u g)
    else if g = R.TWD_CTL then s.wdPost u old
    else if g = R.TWD_KICK then s.wdKick u v
    else if g = R.FR_CFG then s.frPost t v
    else if g = R.FR_TRIG ∧ v.bit 0 then s.frTrig t (9 * t) 0xFF false
    else s
  | .core p =>
    if g = R.BANK_CFG then
      if v.bit 31 ∧ !old.bit 31 then s.bankStart p i (s.rd u R.BANK_START i)
      else if !v.bit 31 ∧ old.bit 31 then s.bankStop p i
      else s
    else if g = R.WD_CTL then s.wdPost u old
    else if g = R.WD_KICK then s.wdKick u v
    else if g = R.CKPT_CTL then
      { s with fault := { s.fault with ckptReq := mapSet 0 s.fault.ckptReq p (mapGet 0 s.fault.ckptReq p ||| v.fld F.CKPT_CTL_NOW) } }
    else if g = R.DBG_CTL then s.dbgCtl p v
    else if g = R.TRC_CTL_C then s.trcPost p old v
    else if g = R.CMP_CFG_C ∧ r.debug ∧ s.dap.cls = 1 then s.wr u g ((s.rd u g i) &&& 0xFFFFFEFF) i
    else s
  | .gorse =>
    if g = R.KEY_CTL ∧ v.bit 0 then s.keyLock
    else if g = R.KEY_REQ then s.keyReq r (v.fld F.KEY_REQ_INDEX)
    else if g = R.ATTEST_REQ ∧ v.bit 31 then s.attestReq
    else if g = R.CS_RELOAD ∧ v.bit 31 then s.csReload (natBits v.toNat 5 0)
    else s
  | .eth => s.ethPost g i old v
  | .pcie => s.pciePost g v
  | .mfe | .chGroup _ | .tripUnit | .eviUnit => s.measPost u g i old v
  | .act => s.actAll g i old v
  | .telCoder => s.telPost g i old v
  | .hedgerow =>
    if g = R.HR_CTL then s.hrPost old v else if g = R.HR_SRC_EN then s.srcEnPost i old v else s
  | .peat =>
    if g = R.GT_STEP then s.gtStep v
    else if g = R.GT_SET_HI then s.gtSet
    else if g = R.WAKE_ALARM_HI then
      s.setPeat { s.peat with alarm := (s.rd .peat R.WAKE_ALARM_LO).toNat + 2 ^ 32 * (s.rd .peat R.WAKE_ALARM_HI).toNat }
    else if g = R.DWD_CTL then s.wdPost .peat old
    else if g = R.DWD_KICK then s.wdKick .peat v
    else s
  | .dap =>
    if g = R.DAP_CTL then (s.wr u g old).dapCtl v
    else if g = R.AUTH_REQ then s.authReq v
    else if g = R.DRE_CMD then s.dreCmd i v
    else s
  | .bar0 l => s.bar0Post l g old v
  | _ => s

/-- The fields of a register after a write of `v` (R4). -/
def regWritten (g : Reg) (old v : Word) : Word :=
  BitVec.ofNat 32 ((((old.toNat &&& (0xFFFFFFFF ^^^ g.rw)) ||| (v.toNat &&& g.rw)) &&& (0xFFFFFFFF ^^^ (v.toNat &&& g.w1c))) ||| (v.toNat &&& g.w1s))

/-- An accepted write to a header register (R16 to R18). A reset counts as the events of R19 in place of the write. -/
def State.hdrWrite (s : State) (u : UnitId) (o : Nat) (v : Word) (w : Word) : State :=
  match o with
  | 0x10 => ((s.wr u R.PWR_REQ (v &&& 3)).cfgEvent u w).pwrPost u
  | 0x18 => (s.setUnit u { s.unit u with fsum := (s.unit u).fsum &&& (0x1FF ^^^ (v.toNat % 256)) }).cfgEvent u w
  | 0x1C => (s.withNotify u (fun s => s.wr u R.FAULT_MASK (v &&& 0xFF))).cfgEvent u w
  | 0x38 =>
    if u = .device then (if v.bit 0 then s.warmByWrite w else s.cfgEvent u w)
    else
      let held := (s.unit u).hold || (s.unit u).dead
      let s := if v.bit 1 = held then (if v.bit 0 then s else s.cfgEvent u w) else s.unitHold u (v.bit 1) w
      if v.bit 0 then s.unitReset u w else s
  | _ => s

/-- Record the written core register in the shadow of the identity the core presents (R345). -/
def State.shadowWrite (s : State) (u : UnitId) (g : Reg) (i j : Nat) : State :=
  match u with
  | .core p =>
    if s.ident p < 252 then
      let k := s.ident p * 0x8000 + (regAddr u g i j - u.base)
      { s with fault := { s.fault with shadow := mapInsert k (s.rd u g i j) s.fault.shadow } }
    else s
  | _ => s

/-- A write of an accessible register: the error code, if it is refused. -/
def State.regWrite (s : State) (r : Req) (u : UnitId) (g : Reg) (i j : Nat) (v : Word) (path : Option Nat) : Option Nat × State :=
  if regWritable g = 0 then (none, s)
  else if u.cls ≠ 0 ∧ g.off < 0x100 then (none, s.hdrWrite u g.off v (Req.writer r))
  else
    let old := s.rd u g i j
    match s.wrRefuse r u g i old v path with
    | some c => (some c, s)
    | none =>
      if s.wrDiscard u g i v then (none, s)
      else
        let keep := (u == .dap && (g == R.AUTH_KEY || g == R.AUTH_SIG)) || (u == .eth && (g == R.KEY_SALT || g == R.KEY_WORD))
        let new := if keep then v else regWritten g old v
        let s := if new = old then s else s.wr u g new i j
        let s := if u.cls = 0 then s else s.cfgEvent u (Req.writer r)
        let s := s.wrPost r u g i old v
        (none, s.shadowWrite u g i j)

/-! ### Requests -/

/-- The router a master's requests leave from (R15, R42). -/
def State.masterRouter (s : State) (m : Nat) : Option Nat :=
  if m < 252 then (s.coreOf m).map (fun p => (UnitId.core p).router)
  else if 0x100 ≤ m ∧ m < 0x140 then some (UnitId.engine (m - 0x100)).router
  else if 0x140 ≤ m ∧ m < 0x150 then some (UnitId.group (m - 0x140)).router
  else match m with
  | 0x180 | 0x181 => some UnitId.pcie.router
  | 0x182 => some UnitId.eth.router
  | 0x183 | 0x184 => some UnitId.mfe.router
  | 0x185 => some UnitId.act.router
  | 0x186 => some UnitId.mio.router
  | 0x187 => some UnitId.hedgerow.router
  | 0x1C0 => some UnitId.gorse.router
  | 0x1C1 => some UnitId.dap.router
  | _ => none

/-- The register's unit answers beyond its header; a sleep state that is only emulated still answers a debug access (R24, R401). -/
def State.regUp (s : State) (u : UnitId) (r : Req) : Bool :=
  s.answers u || (r.debug && !s.inReset u && (s.mode.mode != .dormant || s.mode.emulDormant) &&
    u.upward.all (fun a => !((s.unit a).pstate == .off || (s.unit a).pstate == .transition) || (s.unit a).emulated))

/-- Offsets that only Gorse, or the debugger with class 4, may reach (R362, R416). -/
def gorseOnly (a : Nat) : Bool :=
  decide ((0x0E00101000 ≤ a ∧ a < 0x0E00200000) ∨ (0x0E00780000 ≤ a ∧ a < 0x0E00788000))

/-- What the access at a register-space or Peat address meets before its register: an error, a register, a child-table entry, or
a word of Gorse's own that no rule describes. -/
inductive BusAt where
  | err (code : Nat)
  | reg (u : UnitId) (g : Reg) (i j : Nat)
  | child (v : Word)
  | priv
  | window (a : Nat)
  deriving DecidableEq, Repr

/-- The checks of an access at its target, in order: the map, the route, the access table, and the unit (R21, R24, R55, R60). A
unit in IDLE or RETAIN wakes. -/
def State.busAt (s : State) (r : Req) (a : Nat) (op : AccOp) (src : Option UnitId) : BusAt × State :=
  match unitAt a with
  | none => (.err 0, s)
  | some (u, o) =>
    let far : Bool := match s.masterRouter r.master.toNat with
      | some b => !s.routed b u.router
      | none => false
    if far ∨ (s.mode.mode = .dormant ∧ !s.mode.emulDormant) ∨ s.peat.underV then (.err 5, s)
    else if gorseOnly a ∧ ¬(r.master = 0x1C0 ∨ (r.master = 0x1C1 ∧ s.dap.cls = 4)) then
      (.err 3, s.reject u u.atid r op a 3 src)
    else match s.guardAcc a r op src with
    | (some c, s) => (.err c, s)
    | (none, s) =>
      if a % 4 ≠ 0 then (.err 4, s)
      else if 0x100 ≤ o ∧ !s.regUp u r then (.err 5, s)
      else
        let s := if 0x100 ≤ o then u.upward.foldl (fun (s : State) x => s.wakeUnit x) s else s
        if 0x0E00780000 ≤ a ∧ a < 0x0E00788000 then (.window a, s)
        else if u = .gorse ∧ 0x1000 ≤ o then (.priv, s)
        else match u.findReg o with
        | some (g, i, j) => (.reg u g i j, s)
        | none =>
          if childTableOff ≤ o ∧ o < childTableOff + 4 * u.children.length then
            (.child (BitVec.ofNat 32 ((u.children.map (·.base)).getD ((o - childTableOff) / 4) 0 / 256)), s)
          else (.err 4, s)

/-- A 32-bit read: an error code or the data. -/
def State.busRead (s : State) (r : Req) (a : Nat) (src : Option UnitId := none) : Option Nat × Word × State :=
  match s.busAt r a .read src with
  | (.err c, s) => (some c, 0, s)
  | (.reg u g i j, s) => s.regRead r u g i j
  | (.child v, s) => (none, v, s)
  | (.priv, s) =>
    let (w, s) := s.free
    (none, w, s)
  | (.window b, s) => (none, BitVec.ofNat 32 (s.leAt b 4), s)

/-- A 32-bit write: the error code, if there is one. `path` names BAR4 (1) for a host write of the DAP block (R385). -/
def State.busWrite (s : State) (r : Req) (a : Nat) (v : Word) (src : Option UnitId := none) (path : Option Nat := none) :
    Option Nat × State :=
  match s.busAt r a .write src with
  | (.err c, s) => (some c, s)
  | (.reg u g i j, s) => s.regWrite r u g i j v path
  | (.child _, s) => (none, s)
  | (.priv, s) => (none, s)
  | (.window b, s) => (none, s.setBytes b (leBytes 4 v.toNat))

/-- Record the response of a write. -/
def State.wrReq (s : State) (r : Req) (a : Nat) (v : Word) (src : Option UnitId := none) (path : Option Nat := none) : State :=
  match s.busWrite r a v src path with
  | (some c, s) => s.answer (.err c)
  | (none, s) => s.answer (.ok 0)

/-- Record the response of a read. -/
def State.rdReq (s : State) (r : Req) (a : Nat) (src : Option UnitId := none) : State :=
  match s.busRead r a src with
  | (some c, _, s) => s.answer (.err c)
  | (none, v, s) => s.answer (.ok v)

/-- An access through BAR4 of link `l` (R28): master 0x180 + l at level S, epoch 0. Outside DORMANT with the link up. -/
def barReq (l : Nat) : Req := { master := BitVec.ofNat 12 (0x180 + l % 2), priv := 1, epoch := 0 }

/-- BAR0 register at offset `o` of link `l`, if there is one (R27). -/
def bar0Reg (l o : Nat) : Option (Reg × Nat × Nat) := (UnitId.bar0 l).findReg o

/-- The host reaches the BARs of link `l`: its link is up and the PCIe complex answers. -/
def State.barUp (s : State) (l : Nat) : Bool := s.linkUsed l && (s.pf l).up && s.answers .pcie

/-- The MSI-X word at BAR0 offset `o`, if one is there (R153): entries from 0x10_0000, the second half with one link only. -/
def State.msixAt (s : State) (l o : Nat) : Option Nat :=
  if 0x100000 ≤ o ∧ o < (if s.twoLinks then 0x108000 else 0x110000) then some (16384 * l + (o - 0x100000) / 4) else none

/-- A word of the Pending Bit Array of link `l`. -/
def State.msixPba (s : State) (l w : Nat) : Word :=
  BitVec.ofNat 32 ((List.range 32).foldl (fun n i => n + 2 ^ i * b2n (s.pcie.msixPend.contains (4096 * l + 32 * w + i))) 0)

/-- A write to BAR0 of link `l`. -/
def State.bar0Write (s : State) (l o : Nat) (v : Word) : State :=
  if !s.barUp l then s
  else match s.msixAt l o with
  | some k => s.msixWrite k v
  | none => match bar0Reg l o with
  | none => s
  | some (g, i, j) => (s.regWrite (barReq l) (.bar0 l) g i j v none).2

/-- A read from BAR0 of link `l`; an offset without a register reads 0. -/
def State.bar0Read (s : State) (l o : Nat) : State :=
  if !s.barUp l then s.answer (.err 5)
  else if 0x120000 ≤ o ∧ o < 0x120100 then s.answer (.ok (s.msixPba l ((o - 0x120000) / 4)))
  else match s.msixAt l o with
  | some k => s.answer (.ok (s.msixWord k))
  | none => match bar0Reg l o with
  | none => s.answer (.ok 0)
  | some (g, i, j) => match s.regRead (barReq l) (.bar0 l) g i j with
    | (some c, _, s) => s.answer (.err c)
    | (none, v, s) => s.answer (.ok v)

/-- A DAP register through the TAP, with no access check (R385): the error code, the data read. -/
def State.tapReg (s : State) (o : Nat) (w : Option Word) : Option Nat × Word × State :=
  let r : Req := { master := 0x1C1, priv := 3, epoch := 0, debug := true }
  match UnitId.dap.findReg o with
  | none => (some 4, 0, s)
  | some (g, i, j) => match w with
    | none => s.regRead r .dap g i j
    | some v =>
      let (e, s) := s.regWrite r .dap g i j v (some 0)
      (e, 0, s)

end Sys2Proof.Machine
end

