-- ==== Sys2Proof/Machine/Target.lean ====
section
/-! DEFINITION. Machine/Target.lean: a request at any target of the physical map (R21, R60 to R65, R86, R87, R362). -/

namespace Sys2Proof.Machine

/-- What a request comes to: an error, data (with poison), or nothing yet, because the target cannot answer. -/
inductive TRes where
  | err (code : Nat)
  | data (d : List Byte) (poison : Bool)
  | waits
  deriving DecidableEq, Repr

/-- The kind of access a request makes (R60). -/
def TReq.op : TReq → AccOp
  | .read _ => .read
  | .write _ _ => .write
  | .fetch _ => .fetch
  | .atomic _ _ _ => .own

/-- The bytes a request touches. -/
def TReq.len : TReq → Nat
  | .read n | .fetch n => n
  | .write d _ => d.length
  | .atomic _ _ _ => 4

/-- A request to register space or Peat: naturally aligned 32-bit reads and writes only (R23); a poisoned write gets POISON. -/
def State.regTarget (s : State) (r : Req) (src : Option UnitId) (a : Nat) (k : TReq) : TRes × State :=
  match k with
  | .read 4 => match s.busRead r a src with
    | (some c, _, s) => (.err c, s)
    | (none, v, s) => (.data (leBytes 4 v.toNat) false, s)
  | .write d p =>
    if d.length = 4 then
      match s.busAt r a .write src with
      | (.err c, s) => (.err c, s)
      | _ =>
        if p then (.err 6, s)
        else match s.busWrite r a (BitVec.ofNat 32 (ofLe d)) src with
          | (some c, s) => (.err c, s)
          | (none, s) => (.data [] false, s)
    else match s.guardAcc a r .write src with
      | (some c, s) => (.err c, s)
      | (none, s) => (.err 4, s)
  | k => if (unitAt a).isNone then (.err 0, s) else match s.guardAcc a r (TReq.op k) src with
    | (some c, s) => (.err c, s)
    | (none, s) => (.err 4, s)

/-- The control-store window of engine `e` at byte offset `o` (R86). -/
def State.csTarget (s : State) (r : Req) (src : Option UnitId) (a e o : Nat) (k : TReq) : TRes × State :=
  let n := TReq.len k
  let shape := (n == 16 || n == 32 || n == 64) && o % n == 0
  let words := (List.range (n / 16)).map (fun i => o / 16 + i)
  match k with
  | .read _ =>
    if !shape then (.err 4, s)
    else (.data (words.flatMap (fun w => leBytes 16 (s.csWord e w).toNat)) (words.any (fun w => s.csBad e w != 0)), s)
  | .write d _ =>
    if !shape then (.err 4, s)
    else if masterClass r.master.toNat ≠ 5 then (.err 3, s.reject (.group (e / 4)) (0x30 + e / 4) r .write a 3 src)
    else if s.engState e ≠ engStopped ∧ s.engState e ≠ engFailed then (.err 5, s)
    else
      (.data [] false, (List.range (n / 16)).foldl (fun (s : State) i =>
        s.csWrite e (o / 16 + i) (BitVec.ofNat 128 (ofLe ((d.drop (16 * i)).take 16)))) s)
  | _ => (.err 4, s)

/-- The context-store window of engine `e` at physical address `a` (R87). -/
def State.ctxTarget (s : State) (a e : Nat) (k : TReq) : TRes × State :=
  let n := TReq.len k
  if a % 4 ≠ 0 ∨ n % 4 ≠ 0 ∨ n < 4 ∨ 64 < n ∨ 64 < a % 64 + n then (.err 4, s)
  else match k with
  | .read _ => (.data (s.bytes a n) (s.poisoned a), s)
  | .write d p =>
    if s.engState e = engStopped ∧ !s.adopted e then (.data [] false, (s.setBytes a d).setPoison a p) else (.err 5, s)
  | _ => (.err 4, s)

/-- Gorse's ROM and SRAM (R362). The ROM's content is not stated: reads give free values and a write is without effect. -/
def State.gorseTarget (s : State) (r : Req) (src : Option UnitId) (a : Nat) (k : TReq) : TRes × State :=
  if ¬(r.master = 0x1C0 ∨ (r.master = 0x1C1 ∧ s.dap.cls = 4)) then (.err 3, s.reject .gorse 0x41 r (TReq.op k) a 3 src)
  else match s.memDown a with
  | some 7 => (.waits, s)
  | some c => (.err c, s)
  | none => match s.place a, k with
    | .sram _, .write d p => (.data [] false, s.memStore r.master.toNat (d.length / 64 + 2) a d p)
    | .sram _, k => (.data (s.bytes a (TReq.len k)) (s.poisoned a), s)
    | _, .write _ _ => (.data [] false, s)
    | _, k =>
      let c := s.freeCtr
      (.data ((List.range (TReq.len k)).map (fun i => Config.freeByte (c + i))) false, { s with freeCtr := c + TReq.len k })

/-- A request to DRAM or scratch whose check has passed: it acts where memory answers. -/
def State.memTarget (s : State) (r : Req) (a : Nat) (k : TReq) : TRes × State :=
  match s.memDown a with
  | some 7 => (.waits, s)
  | some c => (.err c, s)
  | none =>
    if s.place a = .dram ∧ (s.chan (keyChan (s.dramKey a))).selfRef then (.waits, s.touchChan (keyChan (s.dramKey a)))
    else match k with
    | .read n | .fetch n =>
      let ((d, p), s) := s.memBytes (n / 64 + 2) a n
      (.data d p, s)
    | .write d p => (.data [] false, s.memStore r.master.toNat (d.length / 64 + 2) a d p)
    | .atomic op x y =>
      if a % 4 ≠ 0 then (.err 4, s)
      else if a < 0xC00000000 then
        let ((old, p), s) := s.cohAtomic a op x y
        (.data (leBytes 4 old.toNat) p, s)
      else
        let old : Word := BitVec.ofNat 32 (s.leAt a 4)
        (.data (leBytes 4 old.toNat) (s.poisoned a), s.memStore r.master.toNat 2 a (leBytes 4 (atomResult op old x y).toNat) false)

/-- A request at its target: the map and the route, the access table, then the target's own rules. -/
def State.reqTarget (s : State) (r : Req) (src : Option UnitId) (a : Nat) (k : TReq) : TRes × State :=
  let far : Bool := match s.masterRouter r.master.toNat with
    | some b => !s.routed b (s.targetUnit a).router
    | none => false
  match s.place a with
  | .nowhere => (.err 0, s)
  | .reg | .peat => s.regTarget r src a k
  | _ =>
    if far then (.err 5, s)
    else match s.guardAcc a r (TReq.op k) src with
    | (some c, s) => (.err c, s)
    | (none, s) => match s.place a with
      | .engine e o =>
        if !s.answers (.group (e / 4)) then (.err 5, s)
        else if o < 0x40000 then s.csTarget r src a e o k else if s.stalled (.ctx (e / 4)) then (.waits, s) else s.ctxTarget a e k
      | .rom | .sram _ => s.gorseTarget r src a k
      | .outbound => match k with
        | .write d p => if s.obUp then (.data [] false, s.send (.pcieWrite s.obLink (s.obAddr a) d none p)) else (.err 5, s)
        | .read n | .fetch n =>
          if s.obUp then
            let (j, s) := s.addJob { what := .outbound r.master.toNat, link := s.obLink, ti := none, addr := s.obAddr a, len := n, data := [], write := false }
            (.waits, (s.jobStep j).2)
          else (.err 5, s)
        | _ => (.err 4, s)
      | _ => s.memTarget r a k

/-- Take the response to an outbound read that master `m` made at physical address `a`, if it is in. -/
def State.takeOutbound (s : State) (m a : Nat) : Option TRes × State :=
  match s.pcie.obIn.find? (fun e => e.1 == m && e.2.1 == s.obAddr a) with
  | some e =>
    let s : State := { s with pcie := { s.pcie with obIn := s.pcie.obIn.erase e } }
    match e.2.2.2.1 with
    | some c => (some (.err c), s)
    | none => (some (.data e.2.2.1 e.2.2.2.2), s)
  | none => (none, s)

/-- The quadrant whose TXN_TIMEOUT applies to a master (R65). -/
def State.masterQuad (s : State) (m : Nat) : Nat :=
  if m < 252 then m / 63 else if 0x100 ≤ m ∧ m < 0x140 then (m - 0x100) / 16 else if 0x140 ≤ m ∧ m < 0x150 then (m - 0x140) / 4 else 0

/-- TXN_TIMEOUT of a quadrant in ns. -/
def State.txnNs (s : State) (q : Nat) : Nat := 1000 * clampNat 1 10000 (s.rf (.sw q) R.TXN_TIMEOUT F.TXN_TIMEOUT_US)

/-- The word a response carries: the low four bytes. -/
def TRes.word (d : List Byte) : Word := BitVec.ofNat 32 (ofLe (d.take 4))

/-- TARGET_REQUEST: the response is recorded; a request that its target cannot answer yet stays outstanding (R64, R65). -/
def State.request (s : State) (r : Req) (src : Option UnitId) (a : Nat) (k : TReq) (tag : Nat) : State :=
  match s.reqTarget r src a k with
  | (.err c, s) => s.answer (.err c)
  | (.data d _, s) => s.answer (.ok (TRes.word d))
  | (.waits, s) =>
    if s.place a = .outbound then s.answer .none
    else
      let t : Txn := { req := r, addr := a, what := k, tag := tag, quad := s.masterQuad r.master.toNat, since := s.mono }
      ({ s with sward := { s.sward with txns := s.sward.txns ++ [t] } } : State).answer .none

/-- Memory at `a` answers now: nothing holds it off, and its channel is not in self-refresh (R83). -/
def State.memReady (s : State) (a : Nat) : Bool :=
  (s.memDown a).isNone && !(s.place a == .dram && (s.chan (keyChan (s.dramKey a))).selfRef)

/-- TXN_TIMEOUT_EXPIRE: the outstanding transaction ends with TIMEOUT for its master. -/
def State.txnExpire (s : State) (m tag : Nat) : State :=
  match s.sward.txns.find? (fun t => t.req.master.toNat == m && t.tag == tag && !t.timedOut) with
  | some t =>
    if s.mono < t.since + s.txnNs t.quad then s
    else
      let l := s.sward.txns.map (fun (u : Txn) => if u = t then { u with timedOut := true } else u)
      ({ s with sward := { s.sward with txns := l } } : State).answer (.err 7)
  | none => s

/-- A target that can answer again answers the transaction: the request acts, and its response is recorded, or discarded and
counted in monitor event 9 where the transaction had timed out (R65). -/
def State.txnServe (s : State) (t : Txn) : State :=
  let s : State := { s with sward := { s.sward with txns := s.sward.txns.erase t } }
  match s.memTarget t.req t.addr t.what with
  | (.data d _, s) =>
    if t.timedOut then match s.masterRouter t.req.master.toNat with
      | some b => s.pmonCount b 4 9 1
      | none => s
    else s.answer (.ok (TRes.word d))
  | (_, s) => s

/-- LATE_RESPONSE_DISCARD: the response of a timed-out transaction arrives, once its target answers. -/
def State.lateResponse (s : State) (m tag : Nat) : State :=
  match s.sward.txns.find? (fun t => t.req.master.toNat == m && t.tag == tag && t.timedOut) with
  | some t => if s.memReady t.addr then s.txnServe t else s
  | none => s

/-- Requests that waited for a target are answered once it answers, in the order made. Those that have timed out are left to
their late responses. -/
def State.serveTxns (s : State) : State :=
  (s.sward.txns.filter (fun t => !t.timedOut)).foldl (fun (s : State) t => if s.memReady t.addr then s.txnServe t else s) s

end Sys2Proof.Machine
end

