-- ==== Sys2Proof/Machine/Cmd.lean ====
section
/-! DEFINITION. Machine/Cmd.lean: register accesses that command rows make, and what few rows of the system chapters need
beyond the operations of their chapters (R4, R29, R54, R67, R79, R83, R84). -/

namespace Sys2Proof.Machine

/-- A write of instance (i, j) of register `g` of unit `u`. -/
def State.wrTo (s : State) (r : Req) (u : UnitId) (g : Reg) (v : Word) (i : Nat := 0) (j : Nat := 0) : State :=
  s.wrReq r (regAddr u g i j) v

/-- A read of it. -/
def State.rdFrom (s : State) (r : Req) (u : UnitId) (g : Reg) (i : Nat := 0) (j : Nat := 0) : State :=
  s.rdReq r (regAddr u g i j)

/-- A doorbell write that reaches BAR2 of link `l` (R152). -/
def State.doorbellWrite (s : State) (l o : Nat) (v : Word) (whole : Bool) : State :=
  if s.barUp l then s.doorbell l o v whole else s

/-- A read at an address of the Sward map, above it in BAR0 of a link, or above that in BAR2 of a link (R27). -/
def State.anyRead (s : State) (r : Req) (a : Nat) : State :=
  if a < 2 ^ 40 then s.rdReq r a
  else if a < 2 ^ 41 then s.bar0Read ((a - 2 ^ 40) / 0x1000000 % 2) (a % 0x1000000)
  else
    let l := a / 0x800000 % 2
    if s.barUp l then s.answer (.ok (s.doorbellRead l (a % 0x800000))) else s.answer (.err 5)

/-- A write there. -/
def State.anyWrite (s : State) (r : Req) (a : Nat) (v : Word) : State :=
  if a < 2 ^ 40 then s.wrReq r a v
  else if a < 2 ^ 41 then s.bar0Write ((a - 2 ^ 40) / 0x1000000 % 2) (a % 0x1000000) v
  else s.doorbellWrite (a / 0x800000 % 2) (a % 0x800000) v true

/-- Where BAR4 offset `o` lies (R27). -/
def bar4Addr (o : Nat) : Nat := 0x0E00000000 + o

/-- A host read through BAR4: an error response completes with Completer Abort (R28). -/
def State.bar4Read (s : State) (l o : Nat) : State :=
  if s.linkUsed l ∧ (s.pf l).up then
    match s.busRead (barReq l) (bar4Addr o) with
    | (some c, _, s) => (s.answer (.err c)).send (.abort l)
    | (none, v, s) => s.answer (.ok v)
  else s

/-- A host write through BAR4: applied or discarded; the debug access port sees the host's path (R28, R385). -/
def State.bar4Write (s : State) (l o : Nat) (v : Word) : State :=
  if s.linkUsed l ∧ (s.pf l).up then (s.busWrite (barReq l) (bar4Addr o) v none (some 1)).2.answer .none else s

/-- A write of MODE_REQ with TARGET `t`. -/
def State.modeWrite (s : State) (r : Req) (v : Word) (t : Nat) : State :=
  s.wrTo r .device R.MODE_REQ (v.setFld F.MODE_REQ_TARGET t)

/-- A write of MODE_REQ that changes field `f` alone: TARGET is the mode in force. -/
def State.modeBit (s : State) (r : Req) (f : Fld) (n : Nat) : State :=
  s.modeWrite r ((s.rd .device R.MODE_REQ).setFld f n) s.mode.mode.code

/-! ### Links (R67) -/

/-- The uncorrectable errors of link direction `k` within the last 1 ms, with the one now. -/
def State.linkErrs (s : State) (k : Nat) : List Nat :=
  ((mapGet [] s.sward.linkUe k).filter (fun t => decide (s.mono < t + 1000000))) ++ [s.mono]

/-- A flit arrives at router `r` from direction `d`: 0 clean, 1 corrected, 2 uncorrectable in the header, 3 in the payload. -/
def State.linkFlit (s : State) (r d e : Nat) : State :=
  if s.linkOff r d ∨ (linkNbr r d).isNone then s
  else
    let q := routerQuad r
    if e = 0 then s
    else if e = 1 then (s.pmonCount r d 6 1).setFault (.sw q) fsCorr
    else
      let s := s.pmonCount r d 7 1
      let ts := s.linkErrs (4 * r + d)
      let s : State := { s with sward := { s.sward with linkUe := mapSet [] s.sward.linkUe (4 * r + d) ts } }
      if max 1 (s.rf (.sw q) R.SW_CTL F.SW_CTL_LINK_UE_MAX) ≤ ts.length then s.linkFail r d else s

/-! ### Channels (R79, R83, R84) -/

/-- Lines of a channel. -/
def chanLines : Nat := 25165824

/-- SCRUB_READ of channel `c`: the next line is read; a corrected or poisoned copy is written back (R79). -/
def State.scrubRead (s : State) (c : Nat) (e : Ecc) : State :=
  let u := UnitId.slice c
  let n := s.rf u R.SCRUB_CTL F.SCRUB_CTL_INTERVAL
  let x := s.chan c
  if n = 0 ∨ !s.answers u ∨ !x.initDone ∨ x.selfRef ∨ s.mono < x.scrubAt + 16 * n then s
  else
    let line := (s.rd u R.SCRUB_POS).toNat
    let a := s.dramKey (chanKey c (64 * line))      -- the exchange of R70 is its own inverse
    let s := s.setChan c { x with scrubAt := s.mono }
    let s := s.wr u R.SCRUB_POS (BitVec.ofNat 32 ((line + 1) % chanLines))
    let s := s.eccLog c a e true
    let d := s.bytes (chanKey c (64 * line)) 64
    match e with
    | .clean => s
    | .corr => s.lineStore a d (s.poisoned (chanKey c (64 * line))) false
    | .ue => s.lineStore a d true false

/-- SELF_REFRESH_ENTRY of channel `c` (R83): the slice's TARGET is RETAIN, or deeper, and SR_IDLE has passed. -/
def State.selfRefEnter (s : State) (c : Nat) : State :=
  let u := UnitId.slice c
  if (s.chan c).initDone ∧ !(s.chan c).selfRef ∧ 2 ≤ s.obeys u ∧ s.idle u ∧ s.answers u then
    let s := s.enterPower u 2
    if s.attached then s else s.setChan c { s.chan c with selfRef := true, exiting := false }
  else s

/-- SELF_REFRESH_EXIT_DONE: the channel serves what waited. -/
def State.selfRefExit (s : State) (c : Nat) : State :=
  if (s.chan c).selfRef ∧ (s.chan c).exiting then (s.setChan c { s.chan c with selfRef := false, exiting := false }).serveTxns else s

/-- REFRESH: the rate the stack standard sets for the temperature; REFX2 shows whether it exceeds the base rate. -/
def State.refresh (s : State) (c : Nat) (hot : Bool) : State :=
  if (s.chan c).selfRef then s else s.setChan c { s.chan c with refx2 := hot }

/-- CHANNEL_INIT_DONE (R84). What was lost with power reads as zero already (the zero-writing); what a reset kept stays. -/
def State.chanInit (s : State) (c : Nat) : State :=
  if s.answers (.slice c) then
    (s.setChan c { s.chan c with initDone := true, selfRef := false, exiting := false, lastReq := s.mono }).serveTxns
  else s

end Sys2Proof.Machine
end

