-- ==== Sys2Proof/Machine/CmdCoh.lean ====
section
/-! DEFINITION. Machine/CmdCoh.lean: the coherence messages as they arrive at homes and caching agents (chapter 15). A message
row delivers the oldest message of its kind in flight for its agent and line; where none is in flight the state is unchanged. -/

namespace Sys2Proof.Machine

/-! ### Messages in flight -/

/-- Take the oldest message for line `l` that `ok` accepts out of the network. -/
def State.takePkt (s : State) (ok : Pkt → Bool) : Option Pkt × State :=
  match s.mem.net.find? ok with
  | some p => (some p, { s with mem := { s.mem with net := s.mem.net.erase p } })
  | none => (none, s)

/-- A message from agent `a` to a home, for line `l`. -/
def fromAgent (a l : Nat) (ok : CohMsg → Bool) (p : Pkt) : Bool := p.src == a && p.line == l && decide (100 ≤ p.dst) && ok p.msg
/-- A message from a home, or an owner, to agent `t`, for line `l`. -/
def toAgent (t l : Nat) (ok : CohMsg → Bool) (p : Pkt) : Bool := p.dst == t && p.line == l && ok p.msg

/-- A coherence protocol error (DIR_ERR): logged where no error is, and device-fatal (R337). -/
def State.dirErr (s : State) (l code a : Nat) : State :=
  let u := UnitId.slice (lkChan (s.lineKey l))
  let w : Word := (((0 : Word).setFld F.DIR_ERR_VALID 1).setFld F.DIR_ERR_CODE code).setFld F.DIR_ERR_AGENT a
  let s := if s.rb u R.DIR_ERR F.DIR_ERR_VALID then s else s.wr u R.DIR_ERR w
  s.deviceFatal u 0x0E 0 w.toNat 0

/-! ### At the home (R320 to R323, R328 to R330) -/

/-- The home of a line serves requests while it answers. -/
def State.homeUp (s : State) (l : Nat) : Bool := s.answers (.slice (lkChan (s.lineKey l)))

/-- A request of agent `a` for line `l`; `f` reads the request and its RCOUNT from the message. -/
def State.homeTake (s : State) (a l : Nat) (e : Ecc) (f : CohMsg → Option (CohReq × Nat)) : State :=
  if !s.homeUp l then s
  else if 29 ≤ a then s.dirErr l 4 a
  else match s.takePkt (fromAgent a l (fun m => (f m).isSome)) with
    | (some p, s) => match f p.msg with
      | some (q, rc) => s.homeReq { req := q, who := a, line := l, rc := rc } e
      | none => s
    | (none, s) => s

/-- A put of agent `a` (R321, R323). -/
def State.putTake (s : State) (a l : Nat) (o : Bool) : State :=
  if !s.homeUp l then s
  else if 29 ≤ a then s.dirErr l 4 a
  else match s.takePkt (fromAgent a l (fun m => match m with
      | .put v => v.putO == o
      | _ => false)) with
    | (some p, s) => match p.msg with
      | .put v => (s.dirCount (s.lineKey l) 0).homePut a v
      | _ => s
    | (none, s) => s

/-- A request of the cacheless master `m` (R319, R322). -/
def State.clReq (s : State) (m l : Nat) (q : CohReq) (e : Ecc) : State :=
  if s.homeUp l then s.homeReq { req := q, who := 200 + m, line := l } e else s

/-- An acknowledgement at the home: the message in flight, or, where the home does not expect it, a protocol error (R320). -/
def State.ackTake (s : State) (a l : Nat) (ok : CohMsg → Bool) (f : State → CohMsg → Option Nat × State) (bare : CohMsg) : State :=
  if !s.homeUp l then s
  else if 29 ≤ a then s.dirErr l 4 a
  else match s.takePkt (fromAgent a l ok) with
    | (some p, s) => match f s p.msg with
      | (some c, s) => s.dirErr l c a
      | (none, s) => s
    | (none, s) => match f s bare with
      | (some c, _) => s.dirErr l c a
      | (none, _) => s

/-- StashAck or StashNack from agent `a` (R328). -/
def State.stashTake (s : State) (a l : Nat) (ok : Bool) : State :=
  if !s.homeUp l then s
  else if 29 ≤ a then s.dirErr l 4 a
  else match s.takePkt (fromAgent a l (fun m => m == (if ok then .stashAck else .stashNack))) with
    | (some _, s) => s.homeStashDone a l ok
    | (none, s) => s

/-- HOME_TXN_EXPIRE for line `l` (R353). -/
def State.homeTimeout (s : State) (l : Nat) : State :=
  let k := s.lineKey l
  match s.txnOf k with
  | some t => if s.homeUp l ∧ !t.expired ∧ t.since + s.txnNs (lkChan k / 8) ≤ s.mono then s.homeExpire k else s
  | none => s

/-- RETRY_HOLD_EXPIRE for the set of line `l` (R330). -/
def State.retryHoldEnd (s : State) (l : Nat) : State :=
  let k := Machine.setKey (s.lineKey l)
  match mapGet none s.mem.heldWay k with
  | some t => if t ≤ s.mono then { s with mem := { s.mem with heldWay := mapSet none s.mem.heldWay k none } } else s
  | none => s

/-! ### At a caching agent (R324, R326, R328, R330) -/

/-- A forward for agent `t`: it waits while the sub-block is held, and otherwise acts (R326). -/
def State.fwdTake (s : State) (t l : Nat) (ok : CohMsg → Bool) : State :=
  match s.takePkt (toAgent t l ok) with
  | (some p, s) => if s.inHold t l then { s with mem := { s.mem with held := s.mem.held ++ [p] } } else s.serveFwd t l p.msg
  | (none, s) => s

/-- MIN_HOLD_END: the forwards that waited are served in arrival order. -/
def State.holdEnd (s : State) (t l : Nat) : State :=
  if s.inHold t l then s
  else
    let mine := s.mem.held.filter (fun p => p.dst == t && p.line == l)
    let s : State := { s with mem := { s.mem with held := s.mem.held.filter (fun p => !(p.dst == t && p.line == l)) } }
    let x := s.sub t l
    let s := if x.hold.isSome then s.setSub t l { x with hold := none } else s
    mine.foldl (fun (s : State) p => s.serveFwd t l p.msg) s

/-- Another message for agent `t`. -/
def State.agentTake (s : State) (t l : Nat) (ok : CohMsg → Bool) (f : State → CohMsg → State) : State :=
  match s.takePkt (toAgent t l ok) with
  | (some p, s) => f s p.msg
  | (none, s) => s

/-- RETRY: the request is to be reissued after BACKOFF × RCOUNT Sward cycles (R330). -/
def State.retryTake (s : State) (t l : Nat) : State :=
  s.agentTake t l (fun m => match m with
    | .retry _ => true
    | _ => false) (fun s m => match m with
    | .retry rc => s.setSub t l { s.sub t l with rcount := rc, retryAt := some (s.mono + (s.backoff (lkChan (s.lineKey l)) * rc + 1) / 2) }
    | _ => s)

/-- RETRY_REISSUE. -/
def State.retrySend (s : State) (t l : Nat) : State :=
  let x := s.sub t l
  match x.retryAt with
  | some at_ =>
    if at_ ≤ s.mono ∧ transient x then
      let m : CohMsg := match x.st with
        | .is => .getS x.rcount
        | .im => .getM x.rcount
        | _ => .upg x.cond x.rcount
      (s.setSub t l { x with retryAt := none }).push t (s.homeOf l) l m
    else s
  | none => s

/-- PutAck or Stale frees the eviction-buffer entry; PutAck for a superseded put is a protocol error (R324, R325). -/
def State.putDone (s : State) (t l : Nat) (ok : CohMsg) : State :=
  s.agentTake t l (· == ok) (fun s m =>
    let es := s.evbOf t
    let sup := es.any (fun e => e.line == l && e.superseded)
    let s := s.setEvb t (es.filter (fun e => e.line != l))
    if m = .putAck ∧ sup then s.dirErr l 3 t else s.kickStores t)

/-! ### The commands -/

/-- R322. -/
def execGets (a : Fin 32) (l : BitVec 34) (e : Ecc) (s : State) : Out3 :=
  (s.homeTake a l.toNat e (fun m => match m with
    | .getS rc => some (.getS, rc)
    | _ => none)).done s
/-- R322. -/
def execGetm (a : Fin 32) (l : BitVec 34) (e : Ecc) (s : State) : Out3 :=
  (s.homeTake a l.toNat e (fun m => match m with
    | .getM rc => some (.getM, rc)
    | _ => none)).done s
/-- R322. -/
def execUpg (a : Fin 32) (l : BitVec 34) (e : Ecc) (s : State) : Out3 :=
  (s.homeTake a l.toNat e (fun m => match m with
    | .upg x rc => some (.upg x, rc)
    | _ => none)).done s
/-- R323. -/
def execPutm (a : Fin 32) (l : BitVec 34) (s : State) : Out3 := (s.putTake a l.toNat false).done s
/-- R323. -/
def execPuto (a : Fin 32) (l : BitVec 34) (s : State) : Out3 := (s.putTake a l.toNat true).done s
/-- R322. -/
def execRdonce (m : BitVec 12) (l : BitVec 34) (e : Ecc) (s : State) : Out3 := (s.clReq m.toNat l.toNat .rdOnce e).done s
/-- R322, R328. -/
def execWrfull (m : BitVec 12) (l : BitVec 34) (d : Vector Byte 64) (poison : Bool) (s : State) : Out3 :=
  (s.clReq m.toNat l.toNat (.wrFull d.toList poison) .clean).done s
/-- R322, R78. -/
def execWrpart (m : BitVec 12) (l : BitVec 34) (off : Fin 64) (d : List Byte) (e : Ecc) (s : State) : Out3 :=
  (s.clReq m.toNat l.toNat (.wrPart off (d.take (64 - off.val))) e).done s
/-- R322, R247. -/
def execAtom (m : BitVec 12) (l : BitVec 34) (off : Fin 16) (op : Fin 3) (x y : Word) (e : Ecc) (s : State) : Out3 :=
  (s.clReq m.toNat l.toNat (.atom (4 * off.val) op x y) e).done s
/-- R324. -/
def execFwds (t : Fin 29) (l : BitVec 34) (s : State) : Out3 :=
  (s.fwdTake t l.toNat (fun m => match m with
    | .fwdS _ => true
    | _ => false)).done s
/-- R324. -/
def execFwdm (t : Fin 29) (l : BitVec 34) (s : State) : Out3 :=
  (s.fwdTake t l.toNat (fun m => match m with
    | .fwdM _ => true
    | _ => false)).done s
/-- R324. -/
def execFwdrd (t : Fin 29) (l : BitVec 34) (s : State) : Out3 :=
  (s.fwdTake t l.toNat (fun m => match m with
    | .fwdRd _ => true
    | _ => false)).done s
/-- R324. -/
def execFwdflush (t : Fin 29) (l : BitVec 34) (s : State) : Out3 := (s.fwdTake t l.toNat (· == .fwdFlush)).done s
/-- R324. -/
def execFwdkill (t : Fin 29) (l : BitVec 34) (s : State) : Out3 := (s.fwdTake t l.toNat (· == .fwdKill)).done s
/-- R324. -/
def execInv (t : Fin 29) (l : BitVec 34) (s : State) : Out3 :=
  (s.agentTake t l.toNat (· == .inv) (fun s _ => s.serveInv t l.toNat)).done s
/-- R328. -/
def execStash (t : Fin 29) (l : BitVec 34) (s : State) : Out3 :=
  (s.agentTake t l.toNat (fun m => match m with
    | .stash _ _ => true
    | _ => false) (fun s m => match m with
    | .stash d p => s.serveStash t l.toNat d p
    | _ => s)).done s
/-- R324. -/
def execData (t : Fin 29) (l : BitVec 34) (s : State) : Out3 :=
  (s.agentTake t l.toNat (fun m => match m with
    | .data _ _ _ => true
    | _ => false) (fun s m => match m with
    | .data d q p => s.agentData t l.toNat d q p
    | _ => s)).done s
/-- R324. -/
def execCmp (t : Fin 29) (l : BitVec 34) (s : State) : Out3 :=
  (s.agentTake t l.toNat (fun m => match m with
    | .cmp _ _ => true
    | _ => false) (fun s m => match m with
    | .cmp g f => s.agentCmp t l.toNat g f
    | _ => s)).done s
/-- R330. -/
def execRetry (t : Fin 29) (l : BitVec 34) (s : State) : Out3 := (s.retryTake t l.toNat).done s
/-- R330. -/
def execRetryReissue (t : Fin 29) (l : BitVec 34) (s : State) : Out3 := (s.retrySend t l.toNat).done s
/-- R330. -/
def execRetryHoldExpire (l : BitVec 34) (s : State) : Out3 := (s.retryHoldEnd l.toNat).done s
/-- R324, R325. -/
def execPutack (t : Fin 29) (l : BitVec 34) (s : State) : Out3 := (s.putDone t l.toNat .putAck).done s
/-- R324. -/
def execStale (t : Fin 29) (l : BitVec 34) (s : State) : Out3 := (s.putDone t l.toNat .stale).done s
/-- R320. -/
def execInvack (a : Fin 32) (l : BitVec 34) (s : State) : Out3 :=
  (s.ackTake a l.toNat (· == .invAck) (fun s _ => s.homeInvAck a l.toNat) .invAck).done s
/-- R320. -/
def execFwdack (a : Fin 32) (l : BitVec 34) (s : State) : Out3 :=
  (s.ackTake a l.toNat (fun m => match m with
    | .fwdAck _ _ _ => true
    | _ => false) (fun s m => match m with
    | .fwdAck d q p => s.homeFwdAck a l.toNat d q p
    | _ => (none, s)) (.fwdAck [] 0 false)).done s
/-- R328. -/
def execStashack (a : Fin 32) (l : BitVec 34) (s : State) : Out3 := (s.stashTake a l.toNat true).done s
/-- R328. -/
def execStashnack (a : Fin 32) (l : BitVec 34) (s : State) : Out3 := (s.stashTake a l.toNat false).done s
/-- R320. -/
def execDone (a : Fin 32) (l : BitVec 34) (s : State) : Out3 :=
  (s.ackTake a l.toNat (· == .done) (fun s _ => s.homeDone a l.toNat) .done).done s
/-- R326. -/
def execMinHoldEnd (t : Fin 29) (l : BitVec 34) (s : State) : Out3 := (s.holdEnd t l.toNat).done s
/-- R353. -/
def execHomeTxnExpire (l : BitVec 34) (s : State) : Out3 := (s.homeTimeout l.toNat).done s

end Sys2Proof.Machine
end

