-- ==== Sys2Proof/Machine/CmdFault.lean ====
section
/-! DEFINITION. Machine/CmdFault.lean: the commands of faults and spares, of Gorse, of debug and trace, and of clocks, power and
reset (chapters 16 to 19). -/

namespace Sys2Proof.Machine

/-! ### Faults, re-admission, checkpoints, watchdogs (R338 to R355) -/

/-- A write of READMIT for core `p` with command `c` (R351). -/
def State.readmitCmd (s : State) (r : Req) (p c : Nat) : State :=
  let v : Word := (((0 : Word).setFld F.READMIT_CMD c).setFld F.READMIT_T (p / 9 % 7)).setFld F.READMIT_C (p % 9)
  s.wrTo r (.quad (p / 63)) R.READMIT v

/-- A write that sets field `f` of a register to `n` and keeps its other fields. -/
def State.wrFld (s : State) (r : Req) (u : UnitId) (g : Reg) (f : Fld) (n : Nat) : State := s.wrTo r u g ((s.rd u g).setFld f n)

/-- R347. -/
def execSpareResume (t : Fin 28) (s : State) : Out3 := (s.spareResume t).done s
/-- R351. -/
def execReadmitTest (r : Req) (p : Fin 252) (s : State) : Out3 := (s.readmitCmd r p 1).done s
/-- R351. -/
def execReadmitAdmit (r : Req) (p : Fin 252) (s : State) : Out3 := (s.readmitCmd r p 2).done s
/-- R351. -/
def execReadmitReject (r : Req) (p : Fin 252) (s : State) : Out3 := (s.readmitCmd r p 3).done s
/-- R346. -/
def execCkptNow (r : Req) (p : Fin 252) (banks : BitVec 4) (s : State) : Out3 :=
  (s.wrFld r (.core p) R.CKPT_CTL F.CKPT_CTL_NOW banks.toNat).done s
/-- R352. -/
def execSramBankFail (a : SramArr) (b : Nat) (s : State) : Out3 := (s.sramFail a b).done s
/-- R352. `lost` lists the words that cannot be kept. -/
def execSramRepairDone (a : SramArr) (b : Nat) (lost : List Nat) (s : State) : Out3 := ((s.sramRepair a b lost).serveTxns).done s
/-- R354. -/
def execWdExpire (p : Fin 252) (s : State) : Out3 := (s.wdExpire (.core p) 4).done s
/-- R354. -/
def execTwdExpire (t : Fin 28) (s : State) : Out3 := (s.wdExpire (.tussock t) 5).done s
/-- R355. -/
def execDwdExpire (s : State) : Out3 := s.dwdExpire.done s
/-- R354. -/
def execWdKick (r : Req) (p : Fin 252) (v : Word) (s : State) : Out3 := (s.wrTo r (.core p) R.WD_KICK v).done s
/-- R354. -/
def execTwdKick (r : Req) (t : Fin 28) (v : Word) (s : State) : Out3 := (s.wrTo r (.tussock t) R.TWD_KICK v).done s
/-- R355. -/
def execDwdKick (r : Req) (v : Word) (s : State) : Out3 := (s.wrTo r .peat R.DWD_KICK v).done s
/-- R338. -/
def execMclogPop (r : Req) (s : State) : Out3 := (s.rdFrom r .device R.MCLOG_POP).done s

/-! ### Gorse (R363 to R384) -/

/-- R370, R371. `flash` holds what the flash answers, by offset. -/
def execGorseBoot (flash : List (Nat × List Byte)) (s : State) : Out3 := (s.gorseBoot flash).done s
/-- R372. -/
def execBootHandover (s : State) : Out3 := s.handover.done s
/-- R378. -/
def execKeyReq (r : Req) (v : Word) (s : State) : Out3 := (s.wrTo r .gorse R.KEY_REQ v).done s
/-- R378. -/
def execKeyDerivationDone (s : State) : Out3 := s.keyDone.done s
/-- R378. -/
def execKeyOutRead (r : Req) (w : Fin 12) (s : State) : Out3 := (s.rdFrom r .gorse R.KEY_OUT w).done s
/-- R379. -/
def execKeyLock (r : Req) (s : State) : Out3 := (s.wrTo r .gorse R.KEY_CTL 1).done s
/-- R381. -/
def execAttestReq (r : Req) (s : State) : Out3 := (s.wrTo r .gorse R.ATTEST_REQ 0x80000000).done s
/-- R381. -/
def execAttestDone (s : State) : Out3 := s.attestDone.done s
/-- R374. -/
def execCsReload (r : Req) (e : Fin 64) (s : State) : Out3 := (s.wrTo r .gorse R.CS_RELOAD (BitVec.ofNat 32 (2 ^ 31 + e))).done s
/-- R374. -/
def execCsReloadDone (s : State) : Out3 := s.csReloaded.done s
/-- R375. `copy` is the pushed slot in host memory; `flash` what the flash answers. -/
def execPushGo (l : Fin 2) (copy flash : List (Nat × List Byte)) (s : State) : Out3 := (s.pushGo l copy flash).done s
/-- R375. -/
def execPushWaitTimeout (flash : List (Nat × List Byte)) (s : State) : Out3 := (s.pushTimeout flash).done s

/-! ### The TAP and the debug access port (R385 to R391, R400, R401) -/

/-- The TAP takes instruction `n`, and what it shifts out next is recorded. -/
def State.tapInstr (s : State) (n : Nat) (drives : Bool) (shift : Option Nat) : State :=
  let s := s.setDap { s.dap with ir := n, driving := drives }
  match shift with
  | some d => s.send (.tap d)
  | none => s

/-- Update-DR under REGXFER: an access of the DAP register at byte offset `o` (its low two bits are no part of it). -/
def State.regXfer (s : State) (o : Nat) (w : Option Word) : State :=
  let s := s.setDap { s.dap with ir := 0x21, driving := false }
  match s.tapReg (o / 4 * 4) w with
  | (some c, _, s) => (s.setDap { s.dap with drOff := o / 4 * 4, drRefused := true }).answer (.err c)
  | (none, v, s) =>
    (s.setDap { s.dap with drOff := o / 4 * 4, drRefused := false, drData := if w.isNone then v else s.dap.drData }).answer (.ok v)

/-- A write of a DAP register through the TAP, or over Sward, where a host master comes through BAR4 (R385). -/
def State.dapWrite (s : State) (r : Req) (tap : Bool) (g : Reg) (v : Word) (i : Nat := 0) : State :=
  if tap then s.regXfer (regAddr .dap g i 0 - UnitId.dap.base) (some v)
  else
    let path : Option Nat := if r.master = 0x180 ∨ r.master = 0x181 then some 1 else none
    s.wrReq r (regAddr .dap g i 0) v none path

/-- A command of request engine `k` through the path that it accepts (R385). -/
def State.dreWrite (s : State) (r : Req) (k : Nat) (v : Word) : State := s.dapWrite r (k == 0) R.DRE_CMD v k

/-- What a request engine sends (R385): master 0x1C1 at level M and epoch 0 with the debug attribute. -/
def dreReq : Req := { master := 0x1C1, priv := 3, epoch := 0, debug := true }

/-- The access of engine `k` ends: the data, the status, and the address advanced under INC (R391). -/
def State.dreFinish (s : State) (k : Nat) (x : DreAcc) (t : TRes) : State :=
  let s := s.setDre k none
  let n := if x.wide then 16 else 4
  let a := (s.rd .dap R.DRE_ADDR_LO k).toNat + 2 ^ 32 * s.rf .dap R.DRE_ADDR_HI F.DRE_ADDR_HI_ADDR k + n
  let s := if s.rb .dap R.DRE_ADDR_HI F.DRE_ADDR_HI_INC k then
      (s.wr .dap R.DRE_ADDR_LO (BitVec.ofNat 32 a) k).wf .dap R.DRE_ADDR_HI F.DRE_ADDR_HI_ADDR (a / 2 ^ 32 % 256) k
    else s
  match t with
  | .data d p =>
    let s := if x.write then s
      else (List.range (n / 4)).foldl (fun (s : State) j =>
        s.wr .dap R.DRE_DATA (BitVec.ofNat 32 (ofLe ((d.drop (4 * j)).take 4))) k j) s
    s.dreEnd k none p
  | .err c => s.dreEnd k (some c) false
  | .waits => s.dreEnd k (some 7) false

/-- DRE_RESPONSE of engine `k`: the access acts at its target and the response arrives; a target that cannot answer leaves it
BUSY until TXN_TIMEOUT of Q0 (R391). -/
def State.dreResponse (s : State) (k : Nat) : State :=
  match s.dreAcc k with
  | none => s
  | some x =>
    let late := decide (x.since + s.txnNs 0 ≤ s.mono)
    let what : TReq := if x.write then .write x.data false else .read (if x.wide then 16 else 4)
    if x.issued then
      match s.takeOutbound 0x1C1 x.addr with
      | (some t, s) => s.dreFinish k x t
      | (none, s) => if late then s.dreFinish k x .waits else s
    else match s.reqTarget dreReq (some .dap) x.addr what with
    | (.waits, s) =>
      if s.place x.addr = .outbound then s.setDre k (some { x with issued := true })
      else if late then s.dreFinish k x .waits
      else s
    | (t, s) => s.dreFinish k x t

/-- R386. -/
def execBypass (s : State) : Out3 := (s.tapInstr 0xFF false none).done s
/-- R386. -/
def execIdcode (s : State) : Out3 := (s.tapInstr 0x01 false (some 0x17240A3B)).done s
/-- R386. What the balls carry is the outside's: the sampled content is a free value; `d` is preloaded. -/
def execSamplePreload (d : Nat) (s : State) : Out3 :=
  ((s.free.2.tapInstr 0x02 false (some s.free.1.toNat)).setDap { s.free.2.dap with ir := 0x02, driving := false, bsr := d }).done s
/-- R386. The balls take the content of the boundary scan. -/
def execExtest (d : Nat) (s : State) : Out3 := ((s.setDap { s.dap with bsr := d }).tapInstr 0x03 true none).done s
/-- R386. -/
def execRegxfer (o : BitVec 16) (w : Option Word) (s : State) : Out3 := (s.regXfer o.toNat w).done s
/-- R388. -/
def execAuthReq (r : Req) (tap : Bool) (v : Word) (s : State) : Out3 := (s.dapWrite r tap R.AUTH_REQ v).done s
/-- R388. -/
def execAuthDone (s : State) : Out3 := s.authDone.done s
/-- R391. -/
def execDreRead (r : Req) (k : Fin 2) (wide : Bool) (s : State) : Out3 := (s.dreWrite r k (BitVec.ofNat 32 (2 * b2n wide))).done s
/-- R391. -/
def execDreWrite (r : Req) (k : Fin 2) (wide : Bool) (s : State) : Out3 :=
  (s.dreWrite r k (BitVec.ofNat 32 (2 * b2n wide + 1))).done s
/-- R391. -/
def execDreResponse (k : Fin 2) (s : State) : Out3 := (s.dreResponse k).done s
/-- R401. -/
def execDbgAttach (r : Req) (tap : Bool) (s : State) : Out3 :=
  (s.dapWrite r tap R.DAP_CTL ((s.rd .dap R.DAP_CTL).setFld F.DAP_CTL_DBG_ATTACHED 1)).done s
/-- R403. -/
def execDbgDetach (r : Req) (tap : Bool) (s : State) : Out3 :=
  (s.dapWrite r tap R.DAP_CTL ((s.rd .dap R.DAP_CTL).setFld F.DAP_CTL_DBG_ATTACHED 0)).done s
/-- R400. -/
def execFreezeWrite (r : Req) (tap on : Bool) (s : State) : Out3 :=
  (s.dapWrite r tap R.DAP_CTL ((s.rd .dap R.DAP_CTL).setFld F.DAP_CTL_FREEZE (b2n on))).done s
/-- R394. -/
def execHalt (r : Req) (p : Fin 252) (banks : BitVec 4) (s : State) : Out3 :=
  (s.wrFld r (.core p) R.DBG_CTL F.DBG_CTL_HALT banks.toNat).done s
/-- R396. -/
def execStep (r : Req) (p : Fin 252) (banks : BitVec 4) (s : State) : Out3 :=
  (s.wrFld r (.core p) R.DBG_CTL F.DBG_CTL_STEP banks.toNat).done s

/-! ### Trace (R404 to R416) -/

/-- R404. -/
def execTraceFlitTimeout (k : BitVec 12) (s : State) : Out3 := (s.trTimeout k.toNat).done s
/-- R408. -/
def execTraceTsTimer (k : BitVec 12) (s : State) : Out3 := (s.trTick k.toNat).done s
/-- R414. -/
def execRingLineTimeout (s : State) : Out3 := s.ringTimeout.done s
/-- R415. -/
def execFrTrig (r : Req) (t : Fin 28) (s : State) : Out3 := (s.wrTo r (.tussock t) R.FR_TRIG 1).done s
/-- R415. -/
def execFrStop (t : Fin 29) (s : State) : Out3 := (s.frStop t).done s

/-! ### Clocks, power and reset (R417 to R432, R444) -/

/-- R419. -/
def execPllLock (n : Fin 7) (s : State) : Out3 := (s.pllLockOn n).done s
/-- R419. -/
def execPllLockLost (n : Fin 7) (s : State) : Out3 := (s.pllLoss n).done s
/-- R420. -/
def execPeatDiscipline (within : Bool) (s : State) : Out3 := (s.discipline within).done s
/-- R420. -/
def execRefclkLoss (s : State) : Out3 := s.refLost.done s
/-- R420. -/
def execRefclkReturn (s : State) : Out3 := s.refBack.done s
/-- R420. -/
def execPeatClkinFail (s : State) : Out3 := s.clkinFail.done s
/-- R426. -/
def execWakeAlarm (s : State) : Out3 := s.wakeAlarm.done s
/-- R426. -/
def execWakeNLow (s : State) : Out3 := (s.wake 3).done s
/-- R429. -/
def execPerstAssert (l : Fin 2) (s : State) : Out3 := (s.perstOn l).done s
/-- R426, R429. -/
def execPerstDeassert (l : Fin 2) (s : State) : Out3 := (s.perstOff l).done s
/-- R427. -/
def execPeatTripWindow (k : Fin 8) (ones : Nat) (s : State) : Out3 := (s.ptripWindow k ones).done s
/-- R36. -/
def execMainPgRise (s : State) : Out3 := s.pgRise.done s
/-- R428. -/
def execPgLate (s : State) : Out3 := s.pgIsLate.done s
/-- R429, R432. -/
def execColdReset (straps : BitVec 8) (io33 : Bool) (s : State) : Out3 := (s.coldReset straps.toNat io33).done s
/-- R17, R429. -/
def execWarmReset (r : Req) (s : State) : Out3 := (s.wrTo r .device R.RESET_CTL 1).done s
/-- R444. -/
def execSupplyUndervoltage (k : Fin 4) (s : State) : Out3 := (s.underVolt k).done s
/-- R444. -/
def execSupplyRecovery (straps : BitVec 8) (io33 : Bool) (s : State) : Out3 := (s.supplyBack straps.toNat io33).done s
/-- R36, R411. -/
def execDormantEntryComplete (s : State) : Out3 := ((if s.mode.dormEntry then s.traceFlush else s).dormComplete).done s
/-- R4. -/
def execRcRead (r : Req) (a : BitVec 48) (s : State) : Out3 := (s.anyRead r a.toNat).done s

end Sys2Proof.Machine
end

