-- ==== Sys2Proof/Machine/CmdMeas.lean ====
section
/-! DEFINITION. Machine/CmdMeas.lean: the commands of the measurement front-end, the actuator block, the forecast unit and the
telemetry coder (chapters 8 to 10). -/

namespace Sys2Proof.Machine

/-! ### What these rows add to the operations of their chapters -/

/-- CHANNEL_OUTPUT: the output, where there is one, goes to the streams that take it (R167, R210). -/
def State.channelOut (s : State) (n : Nat) (bits : List Bool) : State :=
  match s.chanOutput n bits with
  | (some o, s) => s.telChannel n o
  | (none, s) => s

/-- The oldest flit of set `n` is the last of its delivery: the next one of the set does not lie above it. -/
def State.flitLast (s : State) (n : Nat) : Bool :=
  match s.meas.flits.filter (fun f => f.set == n) with
  | f :: g :: _ => decide (g.addr ≤ f.addr)
  | [_] => true
  | [] => false

/-- SAMPLE_FLIT_WRITE: a delivery whose last flit is written shows in the trace as SSET (R190, R409). -/
def State.flitArrive (s : State) (n : Nat) : State :=
  let last := s.flitLast n
  let errs := s.rd .mfe R.DELIV_CNT
  let s := s.flitWrite n
  if last ∧ s.rd .mfe R.DELIV_CNT = errs then s.trEmit 0x1C5 (0x35 :: leBytes 1 n) else s

/-- FORECAST_EVENT: the event taken shows in the trace as FCAST (R203, R409). -/
def State.forecastTake (s : State) (g : Nat) : State :=
  match mapGet [] s.act.fcq g with
  | [] => s
  | (e, _, _) :: _ => (s.forecast g).trEmit 0x1C4 (0x34 :: leBytes 8 e.toNat)

/-- EVI_SAMPLE: a sample of an event input; in DORMANT an accepted edge may have started the exit (R179, R426). -/
def State.eviTake (s : State) (n : Nat) (raw : Bool) : State := (s.eviSample n raw).exitGo

/-! ### Modulator clocks and channels (R165 to R170, R185) -/

/-- R165. -/
def execGrpCtlWrite (r : Req) (g : Fin 8) (v : Word) (s : State) : Out3 := (s.wrTo r (.chGroup g) R.GRP_CTL v).done s
/-- R165. -/
def execMclkFault (g : Fin 8) (s : State) : Out3 := (s.mclkFault g).done s
/-- R165. -/
def execMclkQualified (g : Fin 8) (s : State) : Out3 := (s.mclkQualified g).done s
/-- R165. -/
def execModulatorClockFirstEdge (g : Fin 8) (s : State) : Out3 := (s.mclkEdge g).done s
/-- R167. `bits` are the D bits of the modulator since the last output. -/
def execChannelOutput (n : Fin 128) (bits : List Bool) (s : State) : Out3 := (s.channelOut n bits).done s
/-- R169. -/
def execChCfgWrite (r : Req) (n : Fin 128) (v : Word) (s : State) : Out3 := (s.wrTo r (chUnit n) R.CH_CFG v (n % 16)).done s
/-- R185. -/
def execChLastRead (r : Req) (n : Fin 128) (s : State) : Out3 := (s.rdFrom r (chUnit n) R.CH_LAST (n % 16)).done s

/-! ### Sample sets (R171 to R174, R190) -/

/-- R171. -/
def execSsetTrig (r : Req) (n : Fin 64) (s : State) : Out3 :=
  (s.wrTo r .mfe R.SSET_TRIG ((0 : Word).setFld F.SSET_TRIG_SET n)).done s
/-- R171. -/
def execSsetCfgWrite (r : Req) (n : Fin 64) (v : Word) (s : State) : Out3 := (s.wrTo r .mfe R.SSET_CFG v n).done s
/-- R190. -/
def execSampleFlitWrite (n : Fin 64) (s : State) : Out3 := (s.flitArrive n).done s
/-- R174. -/
def execSampleFlitError (n : Fin 64) (code : Fin 8) (s : State) : Out3 := (s.flitLost n code).done s

/-! ### Trips (R175 to R178) -/

/-- R175. -/
def execTripOutput (k : Fin 32) (bits : List Bool) (s : State) : Out3 := (s.tripOutput k bits).done s
/-- R176. -/
def execTrippedClear (r : Req) (k : Fin 32) (s : State) : Out3 :=
  (s.wrTo r .tripUnit R.TRIP_STATUS ((0 : Word).setFld F.TRIP_STATUS_TRIPPED 1) k).done s
/-- R175. -/
def execTripCfgWrite (r : Req) (k : Fin 32) (v : Word) (s : State) : Out3 := (s.wrTo r .tripUnit R.TRIP_CFG v k).done s

/-! ### Event inputs (R179 to R185) -/

/-- R179. -/
def execEviSample (n : Fin 48) (raw : Bool) (s : State) : Out3 := (s.eviTake n raw).done s
/-- R179. -/
def execEviLevelAccept (n : Fin 48) (s : State) : Out3 := ((s.eviAccept n).exitGo).done s
/-- R180. -/
def execEviFreqWindow (s : State) : Out3 := s.eviWindow.done s
/-- R180. -/
def execEviFreqWinWrite (r : Req) (v : Word) (s : State) : Out3 := (s.wrTo r .eviUnit R.EVI_FREQ_WIN v).done s
/-- R181. -/
def execEviStuck (n : Fin 48) (s : State) : Out3 := ((s.eviStuck n).exitGo).done s
/-- R183. -/
def execEviIrqGapEnd (n : Fin 48) (s : State) : Out3 := (s.eviGapEnd n).done s
/-- R184. -/
def execEviEnable (r : Req) (n : Fin 48) (v : Word) (s : State) : Out3 :=
  (s.wrTo r .eviUnit R.EVI_CFG (v.setFld F.EVI_CFG_EN 1) n).done s
/-- R185. -/
def execEviCountRead (r : Req) (n : Fin 48) (s : State) : Out3 := (s.rdFrom r .eviUnit R.EVI_COUNT n).done s

/-! ### Loops (R188 to R193) -/

/-- R188. -/
def execSampleInstant (n : Fin 64) (s : State) : Out3 := (s.sampleInstant n).done s
/-- R189. -/
def execLoopEnable (r : Req) (n : Fin 64) (v : Word) (s : State) : Out3 :=
  (s.wrTo r .act R.LOOP_CFG (v.setFld F.LOOP_CFG_EN 1) n).done s
/-- R189. The other fields are written as they stand. -/
def execLoopDisable (r : Req) (n : Fin 64) (s : State) : Out3 :=
  (s.wrTo r .act R.LOOP_CFG ((s.rd .act R.LOOP_CFG n).setFld F.LOOP_CFG_EN 0) n).done s
/-- R191. -/
def execLoopArm (r : Req) (n : Fin 64) (s : State) : Out3 :=
  (s.wrTo r .act R.LOOP_ARM ((0 : Word).setFld F.LOOP_ARM_LOOP n)).done s
/-- R192. -/
def execLoopDeadline (n : Fin 64) (s : State) : Out3 := (s.loopDeadline n).done s

/-! ### PWM outputs and brakes (R196 to R199) -/

/-- R197. -/
def execPwmShadowWrite (r : Req) (m : Fin 64) (per : Bool) (v : Word) (s : State) : Out3 :=
  (s.wrTo r .act (if per then R.PWM_PER else R.PWM_DUTY) v m).done s
/-- R196. -/
def execPwmEnable (r : Req) (m : Fin 64) (v : Word) (s : State) : Out3 :=
  (s.wrTo r .act R.PWM_CFG (v.setFld F.PWM_CFG_EN 1) m).done s
/-- R197. -/
def execPwmPeriodBoundary (m : Fin 64) (s : State) : Out3 := (s.pwmBoundary m).done s
/-- R198. -/
def execBrkSet (r : Req) (v : BitVec 16) (s : State) : Out3 := (s.wrTo r .act R.BRK_SET (v.setWidth 32)).done s
/-- R199. -/
def execBrkRel (r : Req) (v : BitVec 16) (s : State) : Out3 := (s.wrTo r .act R.BRK_REL (v.setWidth 32)).done s
/-- R199. -/
def execBrakeAutoRelease (b : Fin 16) (s : State) : Out3 := (s.brkAuto b).done s

/-! ### Forecast events and the power-intent sender (R203, R206) -/

/-- R203. -/
def execForecastEvent (g : Fin 16) (s : State) : Out3 := (s.forecastTake g).done s
/-- R206. -/
def execPintPeriodic (s : State) : Out3 := s.pintPeriodic.done s
/-- R206. -/
def execPintGapExpire (s : State) : Out3 := s.pintGap.done s
/-- R206. The other fields are written as they stand. -/
def execPintDisable (r : Req) (s : State) : Out3 :=
  (s.wrTo r .act R.PINT_CTL ((s.rd .act R.PINT_CTL).setFld F.PINT_CTL_EN 0)).done s

/-! ### Telemetry (R210 to R222) -/

/-- R210. -/
def execTelPeriodicSample (n : Fin 256) (s : State) : Out3 := (s.telPeriodic n).done s
/-- R212. -/
def execBlockFlushTimeout (n : Fin 256) (s : State) : Out3 := (s.flushTimeout n).done s
/-- R212: `k` is 0 for STR_CFG, 1 for STR_SRC, 2 for STR_ARG. -/
def execStrCfgWrite (r : Req) (n : Fin 256) (k : Fin 3) (v : Word) (s : State) : Out3 :=
  (s.wrTo r .telCoder ([R.STR_CFG, R.STR_SRC, R.STR_ARG].getD k R.STR_ARG) v n).done s
/-- R220. -/
def execRecordSend (t : Fin 8) (s : State) : Out3 := (s.recordSend t).done s
/-- R221. -/
def execTelFrameHoldExpire (t : Fin 8) (s : State) : Out3 := (s.holdExpire t).done s

end Sys2Proof.Machine
end

