-- ==== Sys2Proof/Machine/CmdNet.lean ====
section
/-! DEFINITION. Machine/CmdNet.lean: the commands of the Sedge engines but for their operations, the packet path, the tenant
interfaces and the PCIe complex (chapters 5 to 7 and 19). -/

namespace Sys2Proof.Machine

/-! ### What these rows add to the operations of their chapters -/

/-- A write of ENG_CTL with command `c` (R105). -/
def State.engWrite (s : State) (r : Req) (e c : Nat) : State :=
  s.wrTo r (.engine e) R.ENG_CTL ((0 : Word).setFld F.ENG_CTL_CMD c)

/-- A write into the windows of engine `e` at byte offset `o` (R86, R87). -/
def State.winWrite (s : State) (r : Req) (e o : Nat) (d : List Byte) (poison : Bool) : State :=
  s.request r none (0xD00000000 + e * 0x100000 + o) (.write d poison) 0

/-- TI_RESET_THREAD_TIMEOUT: thread `t` holds a packet of a TI whose reset has squashed, 100 µs after it began (R160). -/
def State.tiThreadEnd (s : State) (t : Nat) : State :=
  match (s.thread t).pkt with
  | none => s
  | some f => match (s.ti (s.frame f).ti).rst with
    | none => s
    | some r => if (s.thread t).st ≠ 0 ∧ r.squash ∧ r.since + 100000 ≤ s.mono then s.threadKill t else s

/-- PORT_LINK_DOWN: the port goes down, and where links are allowed it negotiates again (R109, R125, R135). -/
def State.linkLost (s : State) (p : Nat) : State :=
  let may := s.mode.mode != .boot && s.mode.mode != .dormant && !s.mode.safe && !s.mode.dormEntry
  if may then (s.portDown p).portStart p else s.portDown p

/-- PCIE_LINK_UP of link `l`: its data link layer enters DL_Active (R29). -/
def State.linkRise (s : State) (l : Nat) : State :=
  if s.linkUsed l ∧ !s.peat.perst.contains l ∧ s.peat.pcieRef.contains l ∧ s.answers .pcie then s.setPf l { s.pf l with up := true }
  else s

/-- CONFIG_SPACE_WRITE: the enables of link `l`'s function (R29, R144, R153, R155). -/
def State.cfgSpace (s : State) (l : Nat) (bme msixEn pasidEn atsEn : Bool) : State :=
  if s.barUp l then s.setPf l { s.pf l with bme := bme, msixEn := msixEn, pasidEn := pasidEn, atsEn := atsEn } else s

/-! ### Sedge engines (R86, R87, R97, R98, R102, R105 to R107) -/

/-- R98. -/
def execWaitTimeout (t : Fin 1024) (s : State) : Out3 := (s.waitTimeout t).done s
/-- R97. -/
def execWaitTimeReached (t : Fin 1024) (s : State) : Out3 := (s.timeReached t).done s
/-- R102. -/
def execPacketDispatch (e : Fin 64) (s : State) : Out3 := (s.packetDispatch e).done s
/-- R105. -/
def execEngRun (r : Req) (e : Fin 64) (s : State) : Out3 := (s.engWrite r e 1).done s
/-- R105. -/
def execEngStop (r : Req) (e : Fin 64) (s : State) : Out3 := (s.engWrite r e 2).done s
/-- R105. -/
def execEngTest (r : Req) (e : Fin 64) (s : State) : Out3 := (s.engWrite r e 3).done s
/-- R107. -/
def execEngReadmit (r : Req) (e : Fin 64) (s : State) : Out3 := (s.engWrite r e 4).done s
/-- R105. -/
def execEngineHaltDone (e : Fin 64) (s : State) : Out3 := (s.haltDone e).done s
/-- R105. -/
def execEngineHaltTimeout (e : Fin 64) (s : State) : Out3 := (s.haltTimeout e).done s
/-- R105. -/
def execEngineReturnDone (e : Fin 64) (s : State) : Out3 := (s.returnDone e).done s
/-- R105. -/
def execEngineReturnTimeout (e : Fin 64) (s : State) : Out3 := (s.returnTimeout e).done s
/-- R106. -/
def execCsParityError (e : Fin 64) (s : State) : Out3 := (s.csParity e).done s
/-- R86. -/
def execCsWindowWrite (r : Req) (e : Fin 64) (o : BitVec 18) (d : List Byte) (s : State) : Out3 :=
  (s.winWrite r e o.toNat d false).done s
/-- R87. -/
def execCtxWindowWrite (r : Req) (e : Fin 64) (o : BitVec 17) (d : List Byte) (poison : Bool) (s : State) : Out3 :=
  (s.winWrite r e (0x40000 + o.toNat) d poison).done s
/-- R86. -/
def execCsImageWrite (r : Req) (e : Fin 64) (v : Word) (s : State) : Out3 := (s.wrTo r (.engine e) R.CS_IMAGE v).done s
/-- R106. -/
def execCsErrInj (r : Req) (e : Fin 64) (v : Word) (s : State) : Out3 := (s.wrTo r (.engine e) R.CS_ERR_INJ v).done s

/-! ### The packet path (R109 to R136, R231) -/

/-- R109. -/
def execPortModeChange (r : Req) (v : Word) (s : State) : Out3 := (s.wrTo r .eth R.ETH_CFG v).done s
/-- R110. -/
def execLaneFail (n : Fin 8) (s : State) : Out3 := (s.laneFail n).done s
/-- R109. -/
def execPortLinkUp (p : Fin 8) (s : State) : Out3 := (s.portUp p).done s
/-- R125. -/
def execPortLinkDown (p : Fin 8) (s : State) : Out3 := (s.linkLost p).done s
/-- R111. -/
def execFrameReceive (p : Fin 8) (d : List Byte) (s : State) : Out3 := (s.frameRx p d).done s
/-- R118. -/
def execFlowCacheMissFill (k : Nat) (s : State) : Out3 := (s.lookDone k).done s
/-- R123. -/
def execCutThroughDispatch (p : Fin 8) (d : List Byte) (s : State) : Out3 := (s.cutRx p d).done s
/-- R123. -/
def execFrameTailArrival (p : Fin 8) (d : List Byte) (s : State) : Out3 := (s.tailRx p d).done s
/-- R118. -/
def execFcInv (r : Req) (v : Word) (s : State) : Out3 := (s.wrTo r .eth R.FC_INV v).done s
/-- R122. -/
def execPfcRefresh (p c : Fin 8) (s : State) : Out3 := (s.pfcRefresh (8 * p.val + c.val)).done s
/-- R122. -/
def execPfcFrameReceive (p : Fin 8) (en : BitVec 8) (quanta : List (BitVec 16)) (s : State) : Out3 :=
  (s.pfcRx p en.toNat (quanta.map (·.toNat))).done s
/-- R122. -/
def execPfcPauseExpire (p c : Fin 8) (s : State) : Out3 := (s.pauseEnd (8 * p.val + c.val)).done s
/-- R124. -/
def execSendFetch (s : State) : Out3 := s.sendFetch.done s
/-- R124. -/
def execShapeApply (s : State) : Out3 := s.shapeApply.done s
/-- R125. -/
def execFrameTransmit (p : Fin 8) (s : State) : Out3 := (s.transmit p).done s
/-- R231. -/
def execTxtsPop (r : Req) (p : Fin 8) (s : State) : Out3 := (s.rdFrom r .eth R.TXTS_POP p).done s
/-- R130. -/
def execInjProdWrite (r : Req) (n : Fin 16) (v : Word) (s : State) : Out3 := (s.wrTo r .eth R.INJ_PROD v n).done s
/-- R130. -/
def execInjectionConsume (n : Fin 16) (s : State) : Out3 := (s.inject n).done s
/-- R127. -/
def execKeyCommit (r : Req) (s : State) : Out3 := (s.wrTo r .eth R.KEY_COMMIT 1).done s

/-! ### Admin rings (R140 to R162) -/

/-- R140. -/
def execAdmSqTailWrite (l : Fin 2) (v : Word) (s : State) : Out3 := (s.bar0Write l R.ADM_SQ_TAIL.off v).done s
/-- R140. -/
def execAdmCqHeadWrite (l : Fin 2) (v : Word) (s : State) : Out3 := (s.bar0Write l R.ADM_CQ_HEAD.off v).done s
/-- R140. -/
def execAdmCtlWrite (l : Fin 2) (v : Word) (s : State) : Out3 := (s.bar0Write l R.ADM_CTL.off v).done s
/-- R141. -/
def execAdminCommandFetch (l : Fin 2) (s : State) : Out3 := (s.admFetch l).done s
/-- R144. -/
def execTiCreate (l : Fin 2) (s : State) : Out3 := (s.tiCreate l).done s
/-- R162. -/
def execTiDestroy (l : Fin 2) (s : State) : Out3 := (s.tiDestroy l).done s
/-- R160. -/
def execTiReset (l : Fin 2) (s : State) : Out3 := (s.tiReset l).done s
/-- R144. -/
def execBindPasid (l : Fin 2) (s : State) : Out3 := (s.bindPasid l).done s
/-- R157. -/
def execSetQpCount (l : Fin 2) (s : State) : Out3 := (s.setQpCount l).done s
/-- R146. -/
def execQpConfig (l : Fin 2) (s : State) : Out3 := (s.qpConfig l).done s
/-- R147. -/
def execQpDisable (l : Fin 2) (s : State) : Out3 := (s.qpDisable l).done s
/-- R159. -/
def execSetCtxQuota (l : Fin 2) (s : State) : Out3 := (s.setCtxQuota l).done s
/-- R144. -/
def execSetBw (l : Fin 2) (s : State) : Out3 := (s.setBw l).done s
/-- R157. -/
def execSetBufQuota (l : Fin 2) (s : State) : Out3 := (s.setBufQuota l).done s
/-- R157. -/
def execSetVectors (l : Fin 2) (s : State) : Out3 := (s.setVectors l).done s
/-- R144. -/
def execSetTelem (l : Fin 2) (s : State) : Out3 := (s.setTelem l).done s
/-- R144. -/
def execSetFcast (l : Fin 2) (s : State) : Out3 := (s.setFcast l).done s
/-- R144. -/
def execKeyWrite (l : Fin 2) (s : State) : Out3 := (s.keyWrite l).done s
/-- R144. -/
def execKeyClear (l : Fin 2) (s : State) : Out3 := (s.keyClear l).done s
/-- R157. -/
def execResizeApply (l : Fin 2) (s : State) : Out3 := (s.resizeApply l).done s
/-- R159. -/
def execContextDrain (l : Fin 2) (s : State) : Out3 := (s.contextDrain l).done s
/-- R160. -/
def execDrainTimeout (n : Fin 2048) (s : State) : Out3 := (s.drainTimeout n).done s
/-- R160. -/
def execTiResetThreadTimeout (t : Fin 1024) (s : State) : Out3 := (s.tiThreadEnd t).done s
/-- R161. -/
def execTiResetComplete (n : Fin 2048) (s : State) : Out3 := (s.resetComplete n).done s
/-- R162. -/
def execTiDestroyComplete (n : Fin 2048) (s : State) : Out3 := (s.destroyComplete n).done s

/-! ### Doorbells and moderation (R152, R154) -/

/-- R152. -/
def execSqTailDoorbell (l : Fin 2) (n : Fin 2048) (q : Fin 16) (v : Word) (whole : Bool) (s : State) : Out3 :=
  (s.doorbellWrite l (0x1000 * n.val + 8 * q.val) v whole).done s
/-- R152. -/
def execCqHeadDoorbell (l : Fin 2) (n : Fin 2048) (q : Fin 16) (v : Word) (whole : Bool) (s : State) : Out3 :=
  (s.doorbellWrite l (0x1000 * n.val + 8 * q.val + 4) v whole).done s
/-- R152. -/
def execRqTailDoorbell (l : Fin 2) (n : Fin 2048) (q : Fin 16) (v : Word) (whole : Bool) (s : State) : Out3 :=
  (s.doorbellWrite l (0x1000 * n.val + 0x80 + 4 * q.val) v whole).done s
/-- R154. -/
def execCqModTimeout (n : Fin 2048) (q : Fin 16) (s : State) : Out3 := (s.cqCheck (n.val + 2048 * q.val)).done s

/-! ### Address translation and completions (R155, R156, R160, R65) -/

/-- R155: `x` holds the page size (log2), the translated address and the read and write permissions; none where it failed. -/
def execAtsTranslationCompletion (tag : Nat) (x : Option (Nat × Nat × Bool × Bool)) (s : State) : Out3 :=
  (s.atsArrive tag x).done s
/-- R155. -/
def execPriResponse (j : Nat) (s : State) : Out3 := (s.priArrive j).done s
/-- R156. -/
def execAtsInvalidationRequest (l : Fin 2) (itag : Fin 32) (pasid : Option (BitVec 20)) (base size : BitVec 64) (s : State) : Out3 :=
  (s.atsInval l itag (pasid.map (·.toNat)) base.toNat size.toNat).done s
/-- R156. -/
def execAtsInvalidationComplete (l : Fin 2) (itag : Fin 32) (s : State) : Out3 := (s.invalDone l itag).done s
/-- R158. -/
def execCtxoDataWrite (r : Req) (v : Word) (s : State) : Out3 := (s.wrTo r .pcie R.CTXO_DATA v).done s
/-- R160. -/
def execPcieCompletionArrival (tag : Nat) (d : Option (List Byte)) (poison : Bool) (s : State) : Out3 :=
  (s.completion tag d poison).done s
/-- R65. -/
def execPcieCompletionTimeout (tag : Nat) (s : State) : Out3 := (s.completion tag none false).done s

/-! ### Links of the PCIe complex (R29, R139, R429) -/

/-- R29. -/
def execPcieLinkUp (l : Fin 2) (s : State) : Out3 := (s.linkRise l).done s
/-- R139. -/
def execPcieLinkDown (l : Fin 2) (s : State) : Out3 := (s.linkDown l).done s
/-- R429. -/
def execFunctionLevelReset (l : Fin 2) (s : State) : Out3 := (s.linkReset l).done s
/-- R29. -/
def execConfigSpaceWrite (l : Fin 2) (bme msixEn pasidEn atsEn : Bool) (s : State) : Out3 :=
  (s.cfgSpace l bme msixEn pasidEn atsEn).done s

end Sys2Proof.Machine
end

