-- ==== Sys2Proof/Machine/CmdSys.lean ====
section
/-! DEFINITION. Machine/CmdSys.lean: the commands of the unit tree, the modes, Sward, the stacked memory, global time and the L2
way split (chapters 1 to 4, 10, 14 and 19). -/

namespace Sys2Proof.Machine

/-! ### Registers (R4, R17, R20, R25) -/

/-- R4. -/
def execRegisterWrite (r : Req) (a : BitVec 48) (v : Word) (s : State) : Out3 := (s.anyWrite r a.toNat v).done s
/-- R25. -/
def execLoReadLatch (r : Req) (a : BitVec 48) (s : State) : Out3 := (s.anyRead r a.toNat).done s
/-- R25. -/
def execHiReadLatched (r : Req) (a : BitVec 48) (s : State) : Out3 := (s.anyRead r a.toNat).done s
/-- R20. -/
def execCfgDigestRead (r : Req) (u : UnitId) (s : State) : Out3 := (s.rdFrom r u R.CFG_DIGEST_LO).done s
/-- R17. -/
def execUnitReset (r : Req) (u : UnitId) (hold : Bool) (s : State) : Out3 :=
  (s.wrTo r u R.RESET_CTL (BitVec.ofNat 32 (1 + 2 * b2n hold))).done s
/-- R17. -/
def execHoldWrite (r : Req) (u : UnitId) (on : Bool) (s : State) : Out3 :=
  (s.wrTo r u R.RESET_CTL (BitVec.ofNat 32 (2 * b2n on))).done s

/-! ### Power and health (R342, R343, R421, R422, R424) -/

/-- R421. -/
def execUnitEnterIdle (u : UnitId) (s : State) : Out3 := (s.enterPower u 1).done s
/-- R421. -/
def execUnitEnterRetain (u : UnitId) (s : State) : Out3 := (s.enterPower u 2).done s
/-- R421. -/
def execUnitEnterOff (u : UnitId) (s : State) : Out3 := (s.enterPower u 3).done s
/-- R422. -/
def execUnitPowerUpDone (u : UnitId) (s : State) : Out3 := (s.powerUp u).done s
/-- R424. -/
def execEnergyUpdate (s : State) : Out3 := s.energyTick.done s
/-- R342. `silent` lists the units whose logic does not answer. -/
def execHealthTick (silent : List UnitId) (s : State) : Out3 := (s.healthTick silent).done s
/-- R343. -/
def execUnitDeclaredDead (u : UnitId) (s : State) : Out3 := (s.declareDead u).done s

/-! ### The outbound window and BAR4 (R28, R29) -/

/-- R29. -/
def execObBaseApply (r : Req) (v : Word) (s : State) : Out3 := (s.wrTo r .pcie R.OB_BASE_HI v).done s
/-- R29. -/
def execOutboundAccess (r : Req) (a : BitVec 40) (n : Fin 65) (w : Option (List Byte)) (poison : Bool) (s : State) : Out3 :=
  (s.outbound r a.toNat n w poison).done s
/-- R28. -/
def execBar4Read (l : Fin 2) (o : BitVec 26) (s : State) : Out3 := (s.bar4Read l o.toNat).done s
/-- R28. -/
def execBar4Write (l : Fin 2) (o : BitVec 26) (v : Word) (s : State) : Out3 := (s.bar4Write l o.toNat v).done s

/-! ### Modes (R30 to R40, R135) -/

/-- R36. -/
def execModeReqDormant (r : Req) (v : Word) (s : State) : Out3 := (s.modeWrite r v 0).done s
/-- R33, R36, R37. -/
def execModeReqSteady (r : Req) (v : Word) (s : State) : Out3 := (s.modeWrite r v 2).done s
/-- R33, R34. -/
def execModeReqSurge (r : Req) (v : Word) (s : State) : Out3 := (s.modeWrite r v 3).done s
/-- R33. -/
def execModeReqMaintenance (r : Req) (v : Word) (s : State) : Out3 := (s.modeWrite r v 5).done s
/-- R36: TARGET 1, 4, 6 or 7, as `k` is 0 to 3. -/
def execModeReqUnrequestable (r : Req) (v : Word) (k : Fin 4) (s : State) : Out3 :=
  (s.modeWrite r v ([1, 4, 6, 7].getD k 1)).done s
/-- R38. -/
def execModeReqPlanConfirm (r : Req) (v : Word) (s : State) : Out3 :=
  (s.modeWrite r (v.setFld F.MODE_REQ_PLAN_CONFIRM 1) s.mode.mode.code).done s
/-- R30. -/
def execLoopEnWrite (r : Req) (on : Bool) (s : State) : Out3 := (s.modeBit r F.MODE_REQ_LOOP_EN (b2n on)).done s
/-- R135. -/
def execDpEnClear (r : Req) (s : State) : Out3 := (s.modeBit r F.MODE_REQ_DP_EN 0).done s
/-- R135. -/
def execDpEnSet (r : Req) (s : State) : Out3 := (s.modeBit r F.MODE_REQ_DP_EN 1).done s
/-- R135. -/
def execPathQuiesced (s : State) : Out3 :=
  (if !s.dpOn ∧ s.pathEmpty then s.wf .eth R.ETH_STATUS F.ETH_STATUS_QUIESCED 1 else s).done s
/-- R33. -/
def execPlanLoadDone (s : State) : Out3 := s.planLoaded.done s
/-- R33. -/
def execModeSwap (s : State) : Out3 := s.modeSwap.done s
/-- R36. -/
def execRecoveryEntry (s : State) : Out3 := s.recoveryEntry.done s
/-- R31. -/
def execPredictorClearDone (p : Fin 252) (s : State) : Out3 := (s.predDone p).done s
/-- R33, R38. -/
def execPlanVReloadDone (s : State) : Out3 := s.vReloaded.done s
/-- R34. -/
def execServiceClockSwitch (s : State) : Out3 := s.clockSwitch.done s
/-- R36. -/
def execTussockPowerUpDone (t : Fin 28) (s : State) : Out3 := (s.tussockUp t).done s

/-! ### Sward (R54, R57, R60 to R62, R65, R67, R68) -/

/-- R67. -/
def execLinkFlitReceive (k : Fin 64) (d : Fin 4) (e : Fin 4) (s : State) : Out3 := (s.linkFlit k d e).done s
/-- R67. -/
def execLinkDisWrite (r : Req) (q : Fin 4) (hi : Bool) (v : Word) (s : State) : Out3 :=
  (s.wrTo r (.sw q) (if hi then R.LINK_DIS_HI else R.LINK_DIS_LO) v).done s
/-- R60. `src` is the core that makes the request, where one does. -/
def execTargetRequest (r : Req) (src : Option (Fin 252)) (a : BitVec 40) (k : TReq) (tag : Nat) (s : State) : Out3 :=
  (s.request r (src.map (fun p => .core p)) a.toNat k tag).done s
/-- R62. -/
def execAtabWrite (r : Req) (q : Fin 4) (v : Word) (s : State) : Out3 := (s.wrTo r (.sw q) R.ATAB_WRITE v).done s
/-- R54. -/
def execMgmtBroadcast (s : State) : Out3 := s.mgmtBroadcast.done s
/-- R61. -/
def execViolPop (r : Req) (q : Fin 4) (s : State) : Out3 := (s.rdFrom r (.sw q) R.VIOL_POP).done s
/-- R57. -/
def execSemAcquire (r : Req) (q : Fin 4) (n : Fin 32) (s : State) : Out3 := (s.rdFrom r (.sw q) R.SEM n).done s
/-- R57. -/
def execSemRel (r : Req) (q : Fin 4) (n : Fin 32) (s : State) : Out3 :=
  (s.wrTo r (.sw q) R.SEM_REL (BitVec.ofNat 32 n)).done s
/-- R65. -/
def execTxnTimeoutExpire (m : BitVec 12) (tag : Nat) (s : State) : Out3 := (s.txnExpire m.toNat tag).done s
/-- R65. -/
def execLateResponseDiscard (m : BitVec 12) (tag : Nat) (s : State) : Out3 := (s.lateResponse m.toNat tag).done s
/-- R68. -/
def execPmonClr (r : Req) (q : Fin 4) (m : Fin 8) (v : Word) (s : State) : Out3 :=
  (s.wrTo r (.sw q) R.PMON_CTL (v.setFld F.PMON_CTL_CLR 1) m).done s
/-- R68. -/
def execPmonTraceEmit (q : Fin 4) (m : Fin 8) (s : State) : Out3 := (s.pmonTrace q m).done s

/-! ### Stacked memory (R72, R74, R79, R83, R84) -/

/-- R72: `k` is 0 for REG_BASE, 1 for REG_SIZE, 2 for REG_ATTR. -/
def execRegionEntryWrite (r : Req) (n : Fin 256) (k : Fin 3) (v : Word) (s : State) : Out3 :=
  (s.wrTo r homeUnit0 ([R.REG_BASE, R.REG_SIZE, R.REG_ATTR].getD k R.REG_ATTR) v n).done s
/-- R74. -/
def execRegionLock (r : Req) (n : Fin 256) (v : Word) (s : State) : Out3 :=
  (s.wrTo r homeUnit0 R.REG_ATTR (v.setFld F.REG_ATTR_LOCKED 1) n).done s
/-- R79. -/
def execScrubRead (c : Fin 32) (e : Ecc) (s : State) : Out3 := (s.scrubRead c e).done s
/-- R83. -/
def execSelfRefreshEntry (c : Fin 32) (s : State) : Out3 := (s.selfRefEnter c).done s
/-- R83. -/
def execSelfRefreshExitDone (c : Fin 32) (s : State) : Out3 := (s.selfRefExit c).done s
/-- R83. -/
def execRefresh (c : Fin 32) (hot : Bool) (s : State) : Out3 := (s.refresh c hot).done s
/-- R84. -/
def execChannelInitDone (c : Fin 32) (s : State) : Out3 := (s.chanInit c).done s

/-! ### Global time (R225 to R228) -/

/-- R227. -/
def execGtStepWrite (r : Req) (v : Word) (s : State) : Out3 := (s.wrTo r .peat R.GT_STEP v).done s
/-- R227. -/
def execGtStepApply (s : State) : Out3 := s.gtStepApply.done s
/-- R226. -/
def execGtRateWrite (r : Req) (v : Word) (s : State) : Out3 := (s.wrTo r .peat R.GT_RATE v).done s
/-- R228. -/
def execGtSetHiWrite (r : Req) (v : Word) (s : State) : Out3 := (s.wrTo r .peat R.GT_SET_HI v).done s
/-- R228. -/
def execGtSetApply (s : State) : Out3 := s.gtSetApply.done s

/-! ### The L2 way split (R310, R311) -/

/-- R310. -/
def execL2WaysWrite (r : Req) (t : Fin 28) (v : Word) (s : State) : Out3 := (s.wrTo r (.tussock t) R.L2_WAYS v).done s
/-- R311. -/
def execWayConversionDone (t : Fin 28) (s : State) : Out3 := ((s.waysDone t).serveTxns).done s

end Sys2Proof.Machine
end

