-- ==== Sys2Proof/Machine/Flags.lean ====
section
/-! DEFINITION. Machine/Flags.lean: what the arithmetic of HFA-32 and of Sedge operation A computes, and Sedge's flags (R94, R242,
R243, R252). -/

namespace Sys2Proof.Machine

/-- Leading zeros, 0 to 32. -/
def clz (a : Word) : Word := BitVec.ofNat 32 (((List.range 32).find? (fun i => a.bit (31 - i))).getD 32)
/-- Ones. -/
def popc (a : Word) : Word := BitVec.ofNat 32 ((List.range 32).foldl (fun n i => n + b2n (a.bit i)) 0)
/-- The bytes in reverse order. -/
def bswap (a : Word) : Word := BitVec.ofNat 32 (ofBe (leBytes 4 a.toNat))
/-- p and w of EXTR and INS. -/
def fieldOf (b : Word) : Nat × Nat := (b.toNat % 32, b.toNat / 32 % 32 + 1)
/-- `(a >> p) and (2^w - 1)`. -/
def extr (a b : Word) : Word := BitVec.ofNat 32 (a.toNat / 2 ^ (fieldOf b).1 % 2 ^ (fieldOf b).2)
/-- `d` with bits `[min(p+w-1, 31):p]` replaced by the low bits of `a`. -/
def ins (d a b : Word) : Word := d.setFld ⟨min ((fieldOf b).1 + (fieldOf b).2 - 1) 31, (fieldOf b).1⟩ a.toNat
def shl (a b : Word) : Word := a <<< (b.toNat % 32)
def shr (a b : Word) : Word := a >>> (b.toNat % 32)
def sar (a b : Word) : Word := a.sshiftRight (b.toNat % 32)
def rol (a b : Word) : Word := a.rotateLeft (b.toNat % 32)
def wordB (b : Bool) : Word := if b then 1 else 0

/-! ### HFA-32 (R242, R243) -/

/-- Bits [63:32] of the signed product. -/
def mulh (a b : Word) : Word := BitVec.ofInt 32 ((a.toInt * b.toInt) / 2 ^ 32)
def mulhu (a b : Word) : Word := BitVec.ofNat 32 (a.toNat * b.toNat / 2 ^ 32)
/-- Division by zero gives a quotient of 0xFFFF_FFFF and a remainder equal to the dividend. -/
def divS (a b : Word) : Word := if b = 0 then 0xFFFFFFFF else BitVec.ofInt 32 (Int.tdiv a.toInt b.toInt)
def divU (a b : Word) : Word := if b = 0 then 0xFFFFFFFF else BitVec.ofNat 32 (a.toNat / b.toNat)
def remS (a b : Word) : Word := if b = 0 then a else BitVec.ofInt 32 (Int.tmod a.toInt b.toInt)
def remU (a b : Word) : Word := if b = 0 then a else BitVec.ofNat 32 (a.toNat % b.toNat)
def sltS (a b : Word) : Word := wordB (decide (a.toInt < b.toInt))
def sltU (a b : Word) : Word := wordB (decide (a.toNat < b.toNat))
def minS (a b : Word) : Word := if a.toInt ≤ b.toInt then a else b
def maxS (a b : Word) : Word := if a.toInt ≤ b.toInt then b else a
def minU (a b : Word) : Word := if a.toNat ≤ b.toNat then a else b
def maxU (a b : Word) : Word := if a.toNat ≤ b.toNat then b else a
def sextB (a : Word) : Word := Word.ofInt (sext 8 a.toNat)
def sextH (a : Word) : Word := Word.ofInt (sext 16 a.toNat)

/-- The conditions of BCC on the value of RA (R252); BDNZ is decided on the decremented value. -/
inductive Cond where
  | eq | ne | lt | ge | le | gt | nz | always
  deriving DecidableEq, Repr

def Cond.holds : Cond → Word → Bool
  | .eq, a => a == 0
  | .ne, a => a != 0
  | .lt, a => decide (a.toInt < 0)
  | .ge, a => decide (0 ≤ a.toInt)
  | .le, a => decide (a.toInt ≤ 0)
  | .gt, a => decide (0 < a.toInt)
  | .nz, a => a != 0
  | .always, _ => true

/-! ### The MAC unit (R244) -/

/-- An exact sum as the accumulator holds it, and whether it lies outside the 64-bit signed range. -/
def accOf (satd : Bool) (v : Int) : DWord × Bool :=
  let out := decide (v < -2 ^ 63 ∨ 2 ^ 63 - 1 < v)
  (if satd then BitVec.ofInt 64 (max (-2 ^ 63) (min (2 ^ 63 - 1) v)) else BitVec.ofInt 64 v, out)

/-- MRD's result, and whether the clamp changed it. -/
def mrdOf (rnd : Bool) (acc : DWord) (sh : Nat) : Word × Bool :=
  let v : Int := if rnd ∧ 1 ≤ sh then (acc.toInt + 2 ^ (sh - 1)) / 2 ^ sh else acc.toInt / 2 ^ sh
  let c := max (-2 ^ 31) (min (2 ^ 31 - 1) v)
  (BitVec.ofInt 32 c, decide (c ≠ v))

/-- The signed product of the halves `h` (0 low, 1 high) of two words. -/
def halfProd (a b : Word) (h : Nat) : Int := sext 16 (a.toNat / 2 ^ (16 * h)) * sext 16 (b.toNat / 2 ^ (16 * h))

/-! ### Sedge operation A (R94) -/

/-- The result of operation A `opa` on s1, s2, the destination's value and flag C. -/
def opaResult (opa : Nat) (a b d : Word) (c : Bool) : Word :=
  match opa with
  | 0x01 => a
  | 0x02 => a + b
  | 0x03 => a - b
  | 0x04 => a &&& b
  | 0x05 => a ||| b
  | 0x06 => a ^^^ b
  | 0x07 => a &&& ~~~b
  | 0x08 => shl a b
  | 0x09 => shr a b
  | 0x0A => sar a b
  | 0x0B => rol a b
  | 0x0C => extr a b
  | 0x0D => ins d a b
  | 0x0E => bswap a
  | 0x0F => clz a
  | 0x10 => popc a
  | 0x11 => minU a b
  | 0x12 => maxU a b
  | 0x13 => if c then a else b
  | 0x14 => BitVec.ofNat 32 (a.toNat % 65536 * (b.toNat % 65536))
  | 0x15 => BitVec.ofNat 32 (crc32c b.toNat (leBytes 4 a.toNat))
  | _ => 0

/-- Flag C with SETC. -/
def opaCarry (opa : Nat) (a b : Word) : Bool :=
  match opa with
  | 0x02 => decide (2 ^ 32 ≤ a.toNat + b.toNat)
  | 0x03 => decide (b.toNat ≤ a.toNat)
  | _ => false

/-- Flag V with SETC. -/
def opaOver (opa : Nat) (a b : Word) : Bool :=
  match opa with
  | 0x02 => decide ((a + b).toInt ≠ a.toInt + b.toInt)
  | 0x03 => decide ((a - b).toInt ≠ a.toInt - b.toInt)
  | _ => false

end Sys2Proof.Machine
end

