-- ==== Sys2Proof/Machine/Operands.lean ====
section
/-! DEFINITION. Machine/Operands.lean: the contexts of a Ling core, their registers, and how a virtual address of a context reaches
memory: translation, the TLB, and the accesses a core makes through its L1s and the L2 (R235, R282 to R292, R299 to R312, R361). -/

namespace Sys2Proof.Machine

/-! ### Contexts -/

/-- The unit and the caching agent of core `p`. -/
def coreAgent (p : Nat) : Nat := if p = 252 then 28 else p / 9

/-- The level a context runs at; the machine-check context and Gorse run at M (R277, R360). -/
def State.level (s : State) (p b : Nat) : Nat := if b = 4 ∨ p = 252 then 3 else (s.bank p b).pl

/-- The bank whose registers of the core block a context uses: the machine-check context uses those of the bank it interrupted. -/
def State.ctxBank (s : State) (p b : Nat) : Nat := if b = 4 then (s.core p).mcBank else b

/-- The context issues: its core answers and has not stopped, and it is the RUNNING bank or the machine-check context. -/
def State.issues (s : State) (p b : Nat) : Bool :=
  s.answers (coreUnit p) && !(s.core p).stopped && !(s.core p).switching &&
    (if b = 4 then (s.core p).mcActive else (s.bank p b).st == .running && !(s.core p).mcActive)

/-- What a core presents at level `pl` (R15). -/
def State.coreReq (s : State) (p pl : Nat) : Req :=
  { master := BitVec.ofNat 12 (s.masterId (coreUnit p)), priv := BitVec.ofNat 2 pl, epoch := BitVec.ofNat 4 (s.epochOf (coreUnit p)) }

/-- The exception registers MFS and MTS reach: those of the current level, or of the machine-check context (R238, R277). -/
def State.excSet (s : State) (p b : Nat) : ESet := if b = 4 then (s.core p).mcSet else (s.bank p b).es (s.level p b)
def State.setExcSet (s : State) (p b : Nat) (e : ESet) : State :=
  if b = 4 then s.setCore p { s.core p with mcSet := e } else s.setBank p b ((s.bank p b).setEs (s.level p b) e)

/-- Register operands. -/
def State.gpr (s : State) (p b : Nat) (r : BitVec 5) : Word := (s.bank p b).reg r.toNat
def State.setGpr (s : State) (p b : Nat) (r : BitVec 5) (v : Word) : State := s.setBank p b ((s.bank p b).setReg r.toNat v)

/-- A load still has to write one of these registers. -/
def Bank.busy (x : Bank) (rs : List (BitVec 5)) : Bool := rs.any (fun r => r != 0 && x.pend.any (fun l => l.rd == x.idx r.toNat))

/-- The registers of an addressing form: RD, RA, and all it reads or writes (R242, R243). -/
def formRd : MemForm → BitVec 5
  | .imm rd _ _ => rd
  | .memx _ rd _ _ => rd
def formRa : MemForm → BitVec 5
  | .imm _ ra _ => ra
  | .memx _ _ ra _ => ra
def formRegs : MemForm → List (BitVec 5)
  | .imm rd ra _ => [rd, ra]
  | .memx _ rd ra rb => [rd, ra, rb]
/-- MEMX with PI and RA 0, or a load with PI and RD equal to RA, is ILLEGAL. -/
def formIll (load : Bool) : MemForm → Bool
  | .imm _ _ _ => false
  | .memx pi rd ra _ => pi && (ra == 0 || (load && rd == ra))
/-- The address. -/
def State.formAddr (s : State) (p b : Nat) : MemForm → Word
  | .imm _ ra imm => s.gpr p b ra + imm.signExtend 32
  | .memx pi _ ra rb => if pi then s.gpr p b ra else s.gpr p b ra + s.gpr p b rb
/-- The post-increment. -/
def State.formPost (s : State) (p b : Nat) : MemForm → State
  | .imm _ _ _ => s
  | .memx pi _ ra rb => if pi then s.setGpr p b ra (s.gpr p b ra + s.gpr p b rb) else s

/-! ### Translation registers (R282 to R284) -/

/-- Regime of a level: 0 guest, 1 H, 2 M. -/
def regimeOf (pl : Nat) : Nat := if pl < 2 then 0 else pl - 1

/-- The stage-1 base register and control register of a regime. -/
def State.ttb (s : State) (p k g : Nat) : Word :=
  if p = 252 then 0 else s.rd (.core p) (if g = 0 then R.S_TTB else if g = 1 then R.H_TTB else R.M_TTB) k
def State.tctl (s : State) (p k g : Nat) : Word :=
  if p = 252 then 0 else s.rd (.core p) (if g = 0 then R.S_CTL else if g = 1 then R.H_CTL else R.M_CTL) k
/-- Stage 2 is on. -/
def State.s2On (s : State) (p k g : Nat) : Bool := p != 252 && g == 0 && s.rb (.core p) R.S2_TTB F.S2_TTB_EN k
def State.vmid (s : State) (p k : Nat) : Nat := s.rf (.core p) R.S2_CTL F.S2_CTL_VMID k
def State.asid (s : State) (p k g : Nat) : Nat := if g = 0 then (s.tctl p k 0).fld F.S_CTL_ASID else 0

/-! ### Permissions (R288) -/

/-- Kinds of access: 0 read, 1 write, 2 fetch, 3 stage-1 walk read. Does a stage-1 leaf forbid it at level `pl`? -/
def s1Fails (pl : Nat) (nf ro u dev : Bool) : Nat → Bool
  | 0 => pl == 0 && !u
  | 1 => ro || (pl == 0 && !u)
  | 2 => nf || dev || (if pl = 0 then !u else u && regimeOf pl == 0)
  | _ => false
/-- A stage-2 leaf. -/
def s2Fails (xn wn rn dev : Bool) : Nat → Bool
  | 0 => rn
  | 1 => wn
  | 2 => xn || rn || dev
  | _ => rn

/-- ECAUSE DETAIL of a translation fault (R291). -/
def trDetail (s2 : Bool) (level kind acc : Nat) : Nat := 128 * b2n s2 + 32 * (level % 4) + 4 * kind + acc

/-- Attributes of a translated access (R289). -/
structure TAttr where
  dev : Bool := false
  stash : Bool := false
  cmph : Bool := false
  lock : Bool := false
  deriving DecidableEq, Repr

/-- What a translation gives: a physical address, a walk to wait for, or a fault with DETAIL and the IPA page of a stage-2 fault. -/
inductive TrRes where
  | ok (pa : Nat) (a : TAttr)
  | walk
  | fault (detail : Nat) (fipa : Option Nat)
  deriving DecidableEq, Repr

/-! ### The TLB (R292) -/

/-- The entry covers `va` under the tag. -/
def Tlb.covers (e : Tlb) (g : Nat) (s2 : Bool) (vmid asid va : Nat) : Bool :=
  e.regime == g && e.s2 == s2 && (!s2 || e.vmid == vmid) && (e.glob || e.asid == asid) && e.va == va / 2 ^ e.lg

/-- Look `va` up for a context that uses registers `k` at level `pl`. -/
def State.tlbFind (s : State) (p k pl va : Nat) : Option Tlb :=
  let g := regimeOf pl
  (s.core p).tlb.find? (fun e => e.covers g (s.s2On p k g) (s.vmid p k) (s.asid p k g) va)

/-- The set and size class of an entry: sets of the three sizes are disjoint only by index. -/
def Tlb.set (e : Tlb) : Nat := e.va % 256

/-- Two entries with the same tag overlap. -/
def Tlb.clash (e f : Tlb) : Bool :=
  let m := max e.lg f.lg
  e.regime == f.regime && e.s2 == f.s2 && (!e.s2 || e.vmid == f.vmid) && e.glob == f.glob && (e.glob || e.asid == f.asid) &&
    e.va * 2 ^ e.lg / 2 ^ m == f.va * 2 ^ f.lg / 2 ^ m

/-- Insert: entries of the same tag that overlap go, and the way at the set's pointer is replaced. -/
def State.tlbInsert (s : State) (p : Nat) (e : Tlb) : State :=
  let c := s.core p
  let w := mapGet 0 c.tlbPtr e.set
  let rest := c.tlb.filter (fun f => !e.clash f && !(f.set == e.set && f.way == w))
  s.setCore p { c with tlb := { e with way := w } :: rest, tlbPtr := mapSet 0 c.tlbPtr e.set ((w + 1) % 4) }

/-- Memory that a cache may hold: DRAM and scratch. -/
def State.cacheable (s : State) (pa : Nat) : Bool := match s.place pa with
  | .dram | .scratch _ _ => true
  | _ => false

/-- Register space is never fetched from (R23). -/
def State.noFetch (s : State) (pa : Nat) : Bool := match s.place pa with
  | .reg | .peat => true
  | _ => false

/-- Translate `va` for the kinds `accs` at level `pl` with the registers of bank `k` (R284, R288, R289, R361). LEVEL of a fault
where no table is used is not stated: it is a free value. -/
def State.translate (s : State) (p k pl va : Nat) (accs : List Nat) : TrRes :=
  let free := Config.freeNat s.freeCtr % 4
  if p = 252 then
    let pa := if accs.contains 2 ∨ va < 2 ^ 31 then 0xF00000000 + va else s.gorse.dseg * 2 ^ 31 + va % 2 ^ 31
    let code : Bool := match s.place pa with
      | .rom | .sram _ => true
      | _ => false
    if accs.contains 2 ∧ !code then .fault (Config.freeNat s.freeCtr % 256) none
    else .ok pa { dev := !s.cacheable pa }
  else
    let g := regimeOf pl
    if !(s.ttb p k g).bit 0 ∧ !s.s2On p k g then
      let pa := (s.tctl p k g).fld F.S_CTL_SEG * 2 ^ 32 + va
      if accs.contains 2 ∧ !s.cacheable pa then .fault (trDetail false free 2 2) none
      else .ok pa { dev := !s.cacheable pa }
    else match s.tlbFind p k pl va with
      | none => .walk
      | some e =>
        let pa := e.pa * 2 ^ e.lg + va % 2 ^ e.lg
        match accs.find? (fun a => (e.lv1 != 0 && s1Fails pl e.nf e.ro e.u e.dev a) || (a == 2 && (s.noFetch pa || (e.lv1 == 0 && !s.cacheable pa)))) with
        | some a => .fault (trDetail false e.lv1 2 a) none
        | none => match accs.find? (s2Fails e.xn2 e.wn2 e.rn2 e.dev2) with
          | some a => .fault (trDetail true e.lv2 2 a) (some (e.ipa * 2 ^ e.lg / 4096 + va % 2 ^ e.lg / 4096))
          | none => .ok pa { dev := e.dev || e.dev2 || (e.lv1 == 0 && !s.cacheable pa), stash := e.stash, cmph := e.cmph, lock := e.lock }

/-! ### A core's accesses -/

/-- What an access comes to: data with poison; a line requested but not there; a target that has not answered; or an error. -/
inductive MRes where
  | ok (d : List Byte) (poison : Bool)
  | miss
  | stall
  | err (code : Nat)
  deriving DecidableEq, Repr

/-- A core in TESTING reaches only its own Tussock's scratch (R351). -/
def State.testOut (s : State) (p pa : Nat) : Bool :=
  p < 252 && s.health p == .testing && (match s.place pa with
    | .scratch t _ => t != p / 9
    | _ => true)

/-- The attributes an L2 request carries. -/
def TAttr.l2 (a : TAttr) (p : Nat) : Attr :=
  { lock := a.lock, stash := a.stash, cmph := a.cmph, cls := if p = 252 then 5 else 0 }

/-- Train core `p`'s stride detector on an L1 data miss of bank `b` at line `l`, and prefetch (R312). -/
def State.prefetch (s : State) (p b l : Nat) (a : TAttr) : State :=
  if p = 252 then s
  else
    let c := s.core p
    let t := p / 9
    match (List.range 16).find? (fun i => match mapGet none c.strides i with
        | some e => e.bank == b && e.page == l / 64
        | none => false) with
    | none =>
      let e : Stride := { bank := b, page := l / 64, last := l, stride := none, conf := 0, furthest := l }
      s.setCore p { c with strides := mapSet none c.strides c.stridePtr (some e), stridePtr := (c.stridePtr + 1) % 16 }
    | some i =>
      match mapGet none c.strides i with
      | none => s
      | some e =>
        let n : Int := (l : Int) - e.last
        let e : Stride := if e.stride = some n then { e with conf := min (e.conf + 1) 3 }
          else if n ≠ 0 then { e with stride := some n, conf := 1, furthest := l } else e
        let e : Stride := { e with last := l }
        let put (s : State) (e : Stride) : State := s.setCore p { s.core p with strides := mapSet none (s.core p).strides i (some e) }
        let d := e.stride.getD 0
        if 2 ≤ e.conf ∧ s.rb (.tussock t) R.L2_CTL F.L2_CTL_PF_EN ∧ d ≠ 0 then
          let (e, s) := (List.range (s.rf (.tussock t) R.L2_CTL F.L2_CTL_PF_DEPTH)).foldl (fun (x : Stride × State) j =>
            let (e, s) := x
            let li : Int := (l : Int) + (j + 1) * d
            let beyond := if 0 < d then decide ((e.furthest : Int) < li) else decide (li < e.furthest)
            if 0 ≤ li ∧ li.toNat / 64 = l / 64 ∧ beyond then
              let k := li.toNat
              let e : Stride := { e with furthest := k }
              if 48 ≤ s.l2Out t ∨ (s.sub t k).st ≠ .i ∨ (s.evbOf t).any (fun v => v.line == k) then (e, s)
              else match s.ensureSector t k (a.l2 p) with
                | (false, s) => (e, s)
                | (true, s) => (e, ((s.setSub t k { st := .is, pref := true }).push t (s.homeOf k) k (.getS 0)).l2Count t 4)
            else (e, s)) (e, s)
          put s e
        else put s e

/-- A request to a target that answers within the command or later: scratch, DEV accesses and everything outside memory. A request
without an answer is repeated until its target answers or TXN_TIMEOUT passes (R65). -/
def State.coreSend (s : State) (p b pl pa : Nat) (k : TReq) : MRes × State :=
  let r := s.coreReq p pl
  let x := s.bank p b
  let clear (s : State) : State := s.setBank p b { s.bank p b with dev := none }
  let since : Option Nat := match x.dev with
    | some (a, t) => if a = pa then some t else none
    | none => none
  let again : Bool := decide (s.place pa = .outbound) && since.isSome
  let (res, s) : Option TRes × State :=
    if again then s.takeOutbound r.master.toNat pa
    else match s.reqTarget r (some (coreUnit p)) pa k with
      | (.waits, s) => (none, s)
      | (q, s) => (some q, s)
  match res with
  | some (.data d po) => (.ok d po, clear s)
  | some (.err c) => (.err c, clear s)
  | _ =>
    let t0 := since.getD s.mono
    if s.place pa ≠ .outbound ∧ t0 + s.txnNs (s.masterQuad r.master.toNat) ≤ s.mono then (.err 7, clear s)
    else (.stall, s.setBank p b { s.bank p b with dev := some (pa, t0) })

/-- The stores of core `p` that wait for a line, laid over its bytes in order (R234, R334). -/
def State.overlay (s : State) (p l : Nat) (d : List Byte) : List Byte :=
  (s.stq (coreAgent p)).foldl (fun d e => if e.core = p ∧ e.pa / 64 = l then spliceBytes d (e.pa % 64) e.bytes else d) d

/-- A store of the core to the line waits for ownership. -/
def State.ownStores (s : State) (p l : Nat) : Bool := (s.stq (coreAgent p)).any (fun e => e.core == p && e.pa / 64 == l)

/-- Read `n` bytes at `pa`, within one line. `l1`: the access uses and fills the L1 data cache; `fetch` uses the instruction cache. -/
def State.coreRead (s : State) (p b pl pa n : Nat) (a : TAttr) (op : AccOp) (l1 : Bool) : MRes × State :=
  let t := coreAgent p
  let l := pa / 64
  let cut (d : List Byte) : List Byte := (d.drop (pa % 64)).take n
  if s.testOut p pa then (.err 5, s)
  else if s.place pa = .dram ∧ !a.dev then
    let x := s.sub t l
    let inL1 := x.data ≠ [] ∧ (if op = .fetch then l1Has s.ling.l1i p l else l1 && l1Has s.ling.l1d p l)
    if inL1 then (.ok (cut (s.overlay p l x.data)) x.poison, s)
    else if op ≠ .fetch ∧ s.ownStores p l then (.stall, s)
    else
      let s := if l1 ∧ op ≠ .fetch then s.prefetch p b l a else s
      let ask : Option Nat × State := if (s.sub t l).st = .i then s.guardAcc pa (s.coreReq p pl) op (some (coreUnit p)) else (none, s)
      match ask with
      | (some c, s) => (.err c, s)
      | (none, s) => match s.l2Read t l (a.l2 p) with
        | (none, s) => (.miss, s)
        | (some (d, po), s) =>
          let s : State := if op = .fetch then { s with ling := { s.ling with l1i := l1Fill s.ling.l1i p l } }
            else if l1 then { s with ling := { s.ling with l1d := l1Fill s.ling.l1d p l } } else s
          (.ok (cut d) po, s)
  else
    let (r, s) := s.coreSend p b pl pa (if op = .fetch then .fetch n else .read n)
    let s : State := match r, s.place pa with
      | .ok _ _, .scratch _ _ => if op = .fetch then { s with ling := { s.ling with l1i := l1Fill s.ling.l1i p l } } else s
      | _, _ => s
    (r, s)

/-- Write bytes at `pa`, within one line: a store waits for ownership in the L2 after the instruction has gone on (R300, R324). -/
def State.coreWrite (s : State) (p b pl : Nat) (va : Word) (pa : Nat) (d : List Byte) (a : TAttr) : MRes × State :=
  let t := coreAgent p
  let l := pa / 64
  if s.testOut p pa then (.err 5, s)
  else if s.place pa = .dram ∧ !a.dev then
    let x := s.sub t l
    if x.st = .m ∧ !s.ownStores p l then (.ok [] false, ((s.l2Own t l (a.l2 p) false).2).subStore t pa d (some (p, b)))
    else
      let ask : Option Nat × State := if x.st = .i ∨ x.st = .s ∨ x.st = .o then
        s.guardAcc pa (s.coreReq p pl) .own (some (coreUnit p)) else (none, s)
      match ask with
      | (some c, s) => (.err c, s)
      | (none, s) =>
        let s := (s.l2Own t l (a.l2 p) false).2
        let s := s.setStq t (s.stq t ++ [{ core := p, bank := b, pa := pa, va := va, bytes := d }])
        (.ok [] false, s.setBank p b { s.bank p b with storesOut := (s.bank p b).storesOut + 1 })
  else
    let keep := (s.bank p b).ldxGran
    match s.coreSend p b pl pa (.write d false) with
    | (.ok _ _, s) => (.ok [] false, s.setBank p b { s.bank p b with ldxGran := keep })
    | r => r

end Sys2Proof.Machine
end

