-- ==== Sys2Proof/Machine/LingExc.lean ====
section
/-! DEFINITION. Machine/LingExc.lean: table walks, the spill engine, lazy MAC state, exception entry, the machine-check context and
ERET (R271 to R279, R285 to R292, R394 to R396). -/

namespace Sys2Proof.Machine

/-! ### Table walks (R285 to R291) -/

/-- A walk ends with a leaf, must go on later, or fails. -/
inductive WalkRes (α : Type) where
  | leaf (x : α)
  | later
  | fault (e : PendExc)
  deriving DecidableEq, Repr

/-- One 8-byte read of a table entry at level `pl`, cacheable whatever the tables say. `e` becomes the fault, with the code of an
error response; poison raises MACHINE_CHECK. -/
def State.walkRead (s : State) (p b pl pa : Nat) (e : PendExc) : WalkRes Nat × State :=
  match s.coreRead p b pl (pa / 8 * 8) 8 {} .read false with
  | (.ok d po, s) => if po then (.fault { cause := 0x10, eaddr := e.eaddr, pa := pa }, s) else (.leaf (ofLe d), s)
  | (.err c, s) => (.fault { e with resp := c }, s)
  | (_, s) => (.later, s)

/-- A stage-2 leaf: the physical address of the IPA, page size, level, XN, WN, RN, DEV. -/
structure Leaf2 where
  pa : Nat
  lg : Nat := 20
  lv : Nat := 0
  xn : Bool := false
  wn : Bool := false
  rn : Bool := false
  dev : Bool := false
  deriving DecidableEq, Repr

/-- Walk stage 2 from the table at `tbl` of level `lv`, `n` levels at most (R287). -/
def State.walk2 (s : State) (p b : Nat) (va : Word) (ipa acc : Nat) : Nat → Nat → Nat → WalkRes Leaf2 × State
  | 0, _, _ => (.later, s)
  | n + 1, lv, tbl =>
    let lg := 39 - 9 * lv
    let idx := ipa / 2 ^ lg % (if lv = 1 then 1024 else 512)
    let bad (kind : Nat) : PendExc :=
      { cause := if acc = 2 then 5 else 6, eaddr := va, detail := trDetail true lv kind acc, fipa := some (ipa / 4096) }
    match s.walkRead p b 2 (tbl + 8 * idx) (bad 3) with
    | (.leaf w, s) =>
      let ty := w % 4
      let rsvd := natBits w 60 60 ≠ 0 ∨ natBits w 58 40 ≠ 0 ∨ natBits w 11 2 ≠ 0
      if ty = 0 then (.fault (bad 0), s)
      else if ty = 3 ∨ rsvd ∨ (ty = 1 ∧ (lv = 3 ∨ natBits w 63 59 ≠ 0)) ∨ (ty = 2 ∧ natBits w (lg - 1) 12 ≠ 0 ∧ lv < 3) then
        (.fault (bad 1), s)
      else if ty = 1 then s.walk2 p b va ipa acc n (lv + 1) (natBits w 39 12 * 4096)
      else
        (.leaf { pa := natBits w 39 12 * 4096 / 2 ^ lg * 2 ^ lg + ipa % 2 ^ lg, lg := lg, lv := lv, xn := w.testBit 63, wn := w.testBit 62, rn := w.testBit 61, dev := w.testBit 59 }, s)
    | (.later, s) => (.later, s)
    | (.fault e, s) => (.fault e, s)

/-- An IPA through stage 2, if it is on. -/
def State.stage2 (s : State) (p b k g : Nat) (va : Word) (ipa acc : Nat) : WalkRes Leaf2 × State :=
  if s.s2On p k g then s.walk2 p b va ipa acc 3 1 (s.rf (.core p) R.S2_TTB F.S2_TTB_BASE k * 2 ^ 13) else (.leaf { pa := ipa }, s)

/-- A stage-1 leaf: the output address, page size, level (0 where no table is used) and the entry's bits [63:56]. -/
structure Leaf1 where
  out : Nat
  lg : Nat := 20
  lv : Nat := 0
  bits : Nat := 0
  deriving DecidableEq, Repr

/-- Read a stage-1 entry at table address `a`, an IPA in regime G, checked for stage-2 read permission (R288). -/
def State.walk1Read (s : State) (p b k g : Nat) (va : Word) (a lv acc : Nat) : WalkRes Nat × State :=
  match s.stage2 p b k g va a 3 with
  | (.leaf l, s) =>
    if s2Fails l.xn l.wn l.rn l.dev 3 then
      (.fault { cause := if acc = 2 then 5 else 6, eaddr := va, detail := trDetail true l.lv 2 3, fipa := some (a / 4096) }, s)
    else s.walkRead p b (if g = 0 then 1 else g + 1) l.pa
      { cause := if acc = 2 then 5 else 6, eaddr := va, detail := trDetail false lv 3 acc }
  | (.later, s) => (.later, s)
  | (.fault e, s) => (.fault { e with cause := if e.cause = 0x10 then 0x10 else if acc = 2 then 5 else 6 }, s)

/-- The stage-1 walk (R285). -/
def State.walk1 (s : State) (p b k g : Nat) (va : Word) (acc : Nat) : WalkRes Leaf1 × State :=
  let ttb := s.ttb p k g
  if !ttb.bit 0 then (.leaf { out := (s.tctl p k g).fld F.S_CTL_SEG * 2 ^ 32 + va.toNat }, s)
  else
    let bad (lv kind : Nat) : PendExc := { cause := if acc = 2 then 5 else 6, eaddr := va, detail := trDetail false lv kind acc }
    let zero (w : Nat) : Bool := natBits w 55 40 == 0 && natBits w 10 2 == 0
    let leaf (w lg lv : Nat) : Leaf1 :=
      { out := natBits w 39 11 * 2048 / 2 ^ lg * 2 ^ lg + va.toNat % 2 ^ lg, lg := lg, lv := lv, bits := natBits w 63 56 }
    match s.walk1Read p b k g va (ttb.fld F.S_TTB_BASE * 2 ^ 15 + 8 * (va.toNat / 2 ^ 20)) 1 acc with
    | (.leaf w, s) =>
      if w % 4 = 0 then (.fault (bad 1 0), s)
      else if w % 4 = 3 ∨ !zero w then (.fault (bad 1 1), s)
      else if w % 4 = 2 then
        (if natBits w 19 11 ≠ 0 ∨ (g ≠ 0 ∧ w.testBit 61) then .fault (bad 1 1) else .leaf (leaf w 20 1), s)
      else if natBits w 63 56 ≠ 0 then (.fault (bad 1 1), s)
      else match s.walk1Read p b k g va (natBits w 39 11 * 2048 + 8 * (va.toNat / 4096 % 256)) 2 acc with
        | (.leaf w, s) =>
          if w % 4 = 0 then (.fault (bad 2 0), s)
          else
            let lg := if w % 4 = 3 then 16 else 12
            (if w % 4 = 1 ∨ !zero w ∨ natBits w (lg - 1) 11 ≠ 0 ∨ (g ≠ 0 ∧ w.testBit 61) then .fault (bad 2 1) else .leaf (leaf w lg 2), s)
        | (.later, s) => (.later, s)
        | (.fault e, s) => (.fault e, s)
    | (.later, s) => (.later, s)
    | (.fault e, s) => (.fault e, s)

/-- The walk for `va` and its TLB entry (R288, R290, R292). `acc` is the kind of access. -/
def State.walk (s : State) (p b pl : Nat) (va : Word) (acc : Nat) : WalkRes Tlb × State :=
  let k := s.ctxBank p b
  let g := regimeOf pl
  match s.walk1 p b k g va acc with
  | (.leaf l, s) =>
    let on := (s.ttb p k g).bit 0
    let bit (i : Nat) : Bool := l.bits.testBit i
    let bad (s2 : Bool) (lv : Nat) (f : Option Nat) : PendExc :=
      { cause := if acc = 2 then 5 else 6, eaddr := va, detail := trDetail s2 lv 2 acc, fipa := f }
    let u := bit 5
    if on ∧ s1Fails pl (bit 7) (bit 6) u (bit 3) acc then (.fault (bad false l.lv none), s)
    else match s.stage2 p b k g va l.out acc with
      | (.leaf m, s) =>
        if s2Fails m.xn m.wn m.rn m.dev acc then (.fault (bad true m.lv (some (l.out / 4096))), s)
        else
          let lg := min (min l.lg m.lg) 20
          (.leaf { lg := lg, va := va.toNat / 2 ^ lg, pa := m.pa / 2 ^ lg, ipa := l.out / 2 ^ lg, regime := g, s2 := s.s2On p k g,
                   vmid := if s.s2On p k g then s.vmid p k else 0, asid := s.asid p k g, glob := on && bit 4, nf := on && bit 7,
                   ro := on && bit 6, u := on && u, xn2 := m.xn, wn2 := m.wn, rn2 := m.rn, dev := on && bit 3,
                   dev2 := m.dev, lv1 := l.lv, lv2 := m.lv, stash := on && bit 2, cmph := on && bit 1, lock := on && bit 0,
                   way := 0 }, s)
      | (.later, s) => (.later, s)
      | (.fault e, s) => (.fault e, s)
  | (.later, s) => (.later, s)
  | (.fault e, s) => (.fault e, s)

/-! ### What an access of a context comes to -/

/-- An access by virtual address: done, to be repeated later, or an exception. -/
inductive AccRes where
  | ok (d : List Byte) (poison : Bool) (pa : Nat)
  | miss (pa : Nat)
  | later
  | raise (e : PendExc)
  deriving DecidableEq, Repr

/-- Ask for the walk an access waits for. -/
def State.askWalk (s : State) (p b : Nat) (va : Word) (acc pl : Nat) (engine : Bool) : State :=
  s.setBank p b { s.bank p b with walk := some { va := va, acc := acc, pl := pl, engine := engine } }

/-- The exception of a translation fault. -/
def trExcept (va : Word) (fetch : Bool) (d : Nat) (f : Option Nat) : PendExc :=
  { cause := if fetch then 5 else 6, eaddr := va, detail := d, fipa := f }

/-- Translate for an access: a physical address, or what stops it: a walk to wait for, the fault its walk ended in, or a fault of
the entry found. Each such fault takes one free value (LEVEL where no table is used). -/
def State.reach (s : State) (p b pl : Nat) (va : Word) (accs : List Nat) (engine : Bool) :
    Except AccRes (Nat × TAttr) × State :=
  match s.translate p (s.ctxBank p b) pl va.toNat accs with
  | .ok pa a => (.ok (pa, a), s)
  | .walk =>
    let x := s.bank p b
    match x.walkErr with
    | some (v, k, e) =>
      if v.toNat / 4096 = va.toNat / 4096 ∧ k = accs.headD 0 then (.error (.raise e), s.setBank p b { x with walkErr := none })
      else (.error .later, s.askWalk p b va (accs.headD 0) pl engine)
    | none => (.error .later, s.askWalk p b va (accs.headD 0) pl engine)
  | .fault d f => (.error (.raise (trExcept va (accs.contains 2) d f)), { s with freeCtr := s.freeCtr + 1 })

/-- Read within a line by virtual address. -/
def State.loadVa (s : State) (p b pl : Nat) (va : Word) (n : Nat) (op : AccOp) (l1 : Bool) (engine : Bool := false) : AccRes × State :=
  match s.reach p b pl va [if op = .fetch then 2 else 0] engine with
  | (.error r, s) => (r, s)
  | (.ok (pa, a), s) => match s.coreRead p b pl pa n a op l1 with
    | (.ok d po, s) => (.ok d po pa, s)
    | (.miss, s) => (.miss pa, s)
    | (.stall, s) => (.later, s)
    | (.err c, s) => (.raise { cause := 7, eaddr := va, resp := c }, s)

/-- Write within a line by virtual address. An error response is the caller's to report. -/
def State.storeVa (s : State) (p b pl : Nat) (va : Word) (d : List Byte) (engine : Bool := false) : AccRes × State :=
  match s.reach p b pl va [1] engine with
  | (.error r, s) => (r, s)
  | (.ok (pa, a), s) => match s.coreWrite p b pl va pa d a with
    | (.ok _ _, s) => (.ok [] false pa, s)
    | (.err c, s) => (.raise { cause := 7, eaddr := va, resp := c, pa := pa }, s)
    | (_, s) => (.later, s)

/-! ### The spill engine (R271, R272) -/

/-- The words of rotating window `k`. -/
def Bank.window (x : Bank) (k : Nat) : List Word := (List.range 12).map (fun i => x.cell (16 + (12 * k + i) % 84))
def Bank.setWindow (x : Bank) (k : Nat) (ws : List Word) : Bank :=
  (List.range 12).foldl (fun x i => x.setCell (16 + (12 * k + i) % 84) (ws.getD i 0)) x

/-- WINDOW_FAULT for a frame. -/
def frameFault (a : Word) (e : PendExc) : PendExc := { e with cause := 8, eaddr := a }

/-- Free the oldest resident window: true when it is done. A fault leaves it resident and is pending for the next boundary. -/
def State.spill (s : State) (p b : Nat) : Bool × State :=
  let x := s.bank p b
  if x.resident = 0 ∨ x.exc.any (fun e => e.cause == 8) then (false, s)
  else
    let frame := (x.window ((x.cwp + 7 - x.resident) % 7)).flatMap (fun w => leBytes 4 w.toNat) ++ List.replicate 16 0
    match s.storeVa p b (s.level p b) x.wsp frame true with
    | (.ok _ _ _, s) =>
      let x := s.bank p b
      (true, s.setBank p b { x with wsp := x.wsp + 64, resident := x.resident - 1 })
    | (.raise e, s) =>
      let x := s.bank p b
      (false, s.setBank p b { x with exc := x.exc ++ [frameFault x.wsp e] })
    | (_, s) => (false, s)

/-- Read back the window below the current one: done, later, or a fault for the instruction that waits. -/
def State.fill (s : State) (p b : Nat) : AccRes × State :=
  let x := s.bank p b
  let a := x.wsp - 64
  match s.loadVa p b (s.level p b) a 64 .read true true with
  | (.ok d po pa, s) =>
    if po then (.raise { cause := 0x10, eaddr := a, pa := pa }, s)
    else
      let x := (s.bank p b).setWindow ((x.cwp + 6) % 7) (bytesWords (d.take 48))
      (.ok [] false pa, s.setBank p b { x with wsp := a, resident := 1 })
  | (.raise e, s) => (.raise (frameFault a e), s)
  | (r, s) => (r, s)

/-- The current window rotates up: w4 to w15 of the new one read 0 (R236). -/
def Bank.rotUp (x : Bank) : Bank :=
  let x : Bank := { x with cwp := (x.cwp + 1) % 7, depth := x.depth + 1, resident := x.resident + 1 }
  (List.range 12).foldl (fun x i => x.setCell (16 + (12 * x.cwp + 4 + i) % 84) 0) x
/-- And down. -/
def Bank.rotDown (x : Bank) : Bank := { x with cwp := (x.cwp + 6) % 7, depth := x.depth - 1, resident := x.resident - 1 }

/-- A rotation that waits for the spill engine counts a stall (R271). -/
def State.spillStall (s : State) (p : Nat) : State := s.perf p 5

/-- Make room for a rotation up: at most five windows below the current one stay in registers. -/
def State.roomUp (s : State) (p b : Nat) : Bool × State :=
  if (s.bank p b).resident < 5 then (true, s)
  else match s.spill p b with
    | (true, s) => (true, s)
    | (false, s) => (false, s.spillStall p)

/-! ### The machine-check context (R277) -/

/-- The core stops. -/
def State.coreStop (s : State) (p detail : Nat) : State :=
  if (s.core p).stopped then s
  else (s.setCore p { s.core p with stopped := true }).record (coreUnit p) 2 0x02 0 detail (s.ctxBank p 4)

/-- EPROG of what a context has under way (R245, R246). -/
def Bank.progress (x : Bank) : Word :=
  if x.hidden ≠ 0 then BitVec.ofNat 32 (2 ^ 31 + x.hidden) else match x.lsm with
    | some m => BitVec.ofNat 32 (2 ^ 30 + m)
    | none => 0

/-- Level base address: VEC registers of the core; those of Gorse are private to it, and free values. -/
def State.vecBase (s : State) (p l : Nat) : Word × State :=
  if p = 252 then
    let (w, s) := s.free
    (w &&& 0xFFFFF000, s)
  else (s.rd (.core p) (match l with
    | 1 => R.VEC_S
    | 2 => R.VEC_H
    | 3 => R.VEC_M
    | _ => R.VEC_MC), s)

/-- Bank `b` is interrupted by a machine check (R277): `cause` made it double, or is 0 for poison. -/
def State.mcEnter (s : State) (p b : Nat) (double : Bool) (e : PendExc) (epc enpc : Word) : State :=
  let x := s.bank p b
  let detail := 64 * (b % 4) + 32 * b2n double + 16 * b2n (e.cause = 0x10) + (if double then e.cause % 16 else 0)
  let ecause : Word := BitVec.ofNat 32 (2 ^ 24 * detail + 0x10)
  let set : ESet := { epc := epc, enpc := enpc, ecause := ecause, eaddr := e.eaddr, estat := BitVec.ofNat 32 x.pl, eprog := x.progress }
  let s := s.setBank p b { x with ldxGran := none, hidden := 0, lsm := none, slot := false }
  let c := s.core p
  let s := s.setCore p { c with mcActive := true, mcBank := b, mcSet := set, mcOwner := c.macOwner, mcPl := c.macPl }
  let (v, s) := s.vecBase p 4
  let y := s.bank p 4
  let s := s.setBank p 4 { y with pc := v, npc := v + 4, hidden := 0, lsm := none, slot := false, wait := .none, walk := none }
  let s := s.record (coreUnit p) 1 (if double then 0x02 else 0x01) e.pa (if double then detail else ecause.toNat) b
  s.trExc p 4 0x10 epc v

/-! ### Exception entry (R273, R274) -/

/-- The level a cause is taken at, before the bank's own (R273). -/
def excLevel (e : PendExc) : Nat :=
  if e.cause = 0x0B then 3
  else if e.cause = 5 ∨ e.cause = 6 then (if e.detail.testBit 7 then 2 else 1)
  else if e.cause = 0x0A then (if e.code < 16 then 1 else if e.code < 28 then 2 else 3) else 1

/-- A BREAK is in: the bank is halted in its monitor (R395). -/
def State.monEnter (s : State) (p b : Nat) : State :=
  let x := s.bank p b
  let s := s.setBank p b { x with mon := true, monAt := x.edepth, epri := if p = 252 then 0 else s.rf (.core p) R.DBG_CTL F.DBG_CTL_MON_PRI }
  (s.wdSync (coreUnit p)).resched p

/-- Enter exception `e` of context `b` of core `p`, to resume at `epc` and then `enpc` (R274, R277). An entry whose rotation
must wait for the spill engine leaves the bank where it is, to be tried again: false. -/
def State.enter (s : State) (p b : Nat) (e : PendExc) (epc enpc : Word) : Bool × State :=
  let x := s.bank p b
  let s : State := match e.fipa with
    | some f => if p < 252 then s.wr (.core p) R.S2_FIPA (BitVec.ofNat 32 (f % 2 ^ 28)) (s.ctxBank p b) else s
    | none => s
  if b = 4 then (true, s.coreStop p (natBits (s.core p).mcSet.ecause.toNat 31 24))
  else if e.cause = 0x10 then (true, s.mcEnter p b false e epc enpc)
  else if x.trap ∨ x.edepth = 15 ∨ (e.cause ≠ 8 ∧ x.depth = 65535) then (true, s.mcEnter p b true e epc enpc)
  else
    let (room, s) := if e.cause = 8 then (true, s) else s.roomUp p b
    if !room then (false, s)
    else
      let x := s.bank p b
      let l := if p = 252 then 3 else max x.pl (excLevel e)
      let own := s.macOwn p b
      let cause : Word := BitVec.ofNat 32 (2 ^ 24 * (e.detail % 256) + 2 ^ 12 * (e.code % 32) + 2 ^ 8 * (e.resp % 8) + e.cause % 256)
      let set : ESet := { epc := epc, enpc := enpc, ecause := cause, eaddr := e.eaddr, estat := BitVec.ofNat 32 x.pl, eprog := x.progress }
      let (v, s) := s.vecBase p l
      let vec := v + BitVec.ofNat 32 (0x40 * (e.cause % 256))
      let d := x.edepth + 1
      let y : Bank := (x.setEs l set).spAdd (-112)
      let y : Bank := { y with edepth := d, filled := y.filled.filter (fun n => n != d), ldxGran := none, hidden := 0, lsm := none, slot := false, walk := none, walkErr := none }
      let y : Bank := if e.cause = 8 then { y with trap := true } else y.rotUp
      let s := s.setBank p b { y with pl := l, pc := vec, npc := vec + 4 }
      let s := if own then s.setCore p { s.core p with oframe := y.reg 13 } else s
      let s := s.trExc p b e.cause epc vec
      let s := if e.cause = 0x0B then s.monEnter p b else s
      let z := s.bank p b
      (true, if z.stepping then s.setBank p b { z with stepping := false, stepHit := true } else s)

/-! ### Lazy MAC state (R278, R279) -/

/-- A step of an instruction: done, to be repeated later, an exception, or a fault that makes a double fault (R277). -/
inductive LRes where
  | done
  | later
  | raise (e : PendExc)
  | double (e : PendExc)
  deriving DecidableEq, Repr

/-- Store words upward from `a` at level `pl`, splitting no access across a line. -/
def State.macPut (s : State) (p b pl : Nat) : Word → List Word → LRes × State
  | _, [] => (.done, s)
  | a, w :: r => if a.toNat % 4 ≠ 0 then (.double { cause := 4, eaddr := a }, s) else match s.storeVa p b pl a (leBytes 4 w.toNat) true with
    | (.ok _ _ _, s) => s.macPut p b pl (a + 4) r
    | (.raise e, s) => (.double e, s)
    | (_, s) => (.later, s)

/-- Load `n` words upward from `a`. -/
def State.macGet (s : State) (p b pl : Nat) : Word → Nat → List Word → LRes × List Word × State
  | _, 0, l => (.done, l, s)
  | a, n + 1, l => if a.toNat % 4 ≠ 0 then (.double { cause := 4, eaddr := a }, l, s) else match s.loadVa p b pl a 4 .read true true with
    | (.ok d po pa, s) =>
      if po then (.double { cause := 0x10, eaddr := a, pa := pa }, l, s)
      else s.macGet p b pl (a + 4) n (l ++ [TRes.word d])
    | (.raise e, s) => (.double e, l, s)
    | (_, s) => (.later, l, s)

/-- Save the owner's state to OFRAME and mark that frame filled. -/
def State.macSave (s : State) (p : Nat) : LRes × State :=
  let c := s.core p
  match c.macOwner with
  | none => (.done, s)
  | some (bo, eo) =>
    match s.macPut p bo c.macPl c.oframe c.mac.words with
    | (.done, s) =>
      let x := s.bank p bo
      let x : Bank := if x.resv ∧ eo = x.edepth then { x with resvFilled := true } else { x with filled := (eo + 1) :: x.filled }
      (.done, (s.setBank p bo x).setCore p { s.core p with macOwner := none })
    | r => r

/-- Reload the state of context (`b`, `d`) from `a` at level `pl` and make it the owner. Another live owner's state is saved first;
that of the context `gone`, which has ended, is not. -/
def State.macReload (s : State) (p b d pl : Nat) (a : Word) (gone : Option (Nat × Nat)) : LRes × State :=
  let (r, s) := if (s.core p).macOwner = gone then (LRes.done, s) else s.macSave p
  match r with
  | .done => match s.macGet p b pl a 26 [] with
    | (.done, ws, s) => (.done, s.setCore p { s.core p with mac := macOf ws, macOwner := some (b, d), macPl := pl })
    | (r, _, s) => (r, s)
  | r => (r, s)

/-- A MAC instruction of context `b`: it owns the MAC state, taking it if need be. -/
def State.macTake (s : State) (p b : Nat) : LRes × State :=
  let d := (s.bank p b).edepth
  if s.macOwn p b then (.done, s)
  else match s.macSave p with
    | (.done, s) => (.done, s.setCore p { s.core p with mac := {}, macOwner := some (b, d), macPl := s.level p b })
    | r => r

/-- Before a bank's first issue after a switch-out reservation: the reservation goes, and a filled frame is reloaded. -/
def State.unreserve (s : State) (p b : Nat) : LRes × State :=
  let x := s.bank p b
  if !x.resv then (.done, s)
  else
    let drop (s : State) : State :=
      let x := s.bank p b
      s.setBank p b { x.spAdd 112 with resv := false, resvFilled := false }
    if x.resvFilled then match s.macReload p b x.edepth x.pl (x.reg 13) none with
      | (.done, s) => (.done, drop s)
      | r => r
    else (.done, drop s)

/-! ### ERET (R250, R275, R277, R279, R395, R396) -/

/-- A bank goes on where an exception set says: EPC, ENPC, and the progress of EPROG (R245, R246, R250). -/
def Bank.resume (x : Bank) (e : ESet) : Bank :=
  { x with pc := e.epc, npc := e.enpc,
           hidden := if e.eprog.bit 31 then e.eprog.toNat % 65536 else 0,
           lsm := if e.eprog.bit 30 then some (e.eprog.toNat % 65536) else none,
           slot := decide (e.enpc ≠ e.epc + 4) }

/-- ERET of a machine check: the interrupted bank goes on as it was, the MAC owner it found is the owner again, and the scheduler
chooses anew. -/
def State.mcReturn (s : State) (p : Nat) : LRes × State :=
  let c := s.core p
  let b := c.mcBank
  let (r, s) : LRes × State :=
    if c.macOwner = c.mcOwner then (.done, s)
    else match c.mcOwner with
      | some (bo, eo) => s.macReload p bo eo c.mcPl c.oframe c.macOwner
      | none => (.done, s.setCore p { c with macOwner := none })
  match r with
  | .done =>
    let e := (s.core p).mcSet
    let x := s.bank p b
    let own := (s.core p).mcOwner
    let unmark : List Nat := match own with
      | some (bo, eo) => if c.macOwner ≠ c.mcOwner ∧ bo = b then x.filled.filter (fun n => n != eo + 1) else x.filled
      | none => x.filled
    let x : Bank := { x.resume e with pl := e.estat.toNat % 4, filled := unmark }
    let s := s.setBank p b x
    let s := s.setCore p { s.core p with mcActive := false, mcOwner := none }
    (.done, (s.trEret p b e.epc).resched p)
  | r => (r, s)

/-- The window an exception entered goes: the trap window is left, or the window rotates down. There is nothing to reverse at
EDEPTH 0, nor without a window below. -/
def State.leaveWindow (s : State) (p b : Nat) : LRes × State :=
  let x := s.bank p b
  if x.trap then (.done, s.setBank p b { x with trap := false })
  else if x.edepth = 0 ∨ x.depth = 0 then (.done, s)
  else
    let (r, s) := if x.resident = 0 then s.fill p b else (.ok [] false 0, s)
    match r with
    | .ok _ _ _ => (.done, s.setBank p b (s.bank p b).rotDown)
    | .raise e => (.raise e, s)
    | _ => (.later, s.spillStall p)

/-- The MAC rule of ERET: a filled frame is reloaded; the state of the context that ends is gone. -/
def State.leaveMac (s : State) (p b ppl : Nat) : LRes × State :=
  let x := s.bank p b
  let d := x.edepth
  if d = 0 then (.done, s)
  else if x.filled.contains d then s.macReload p b (d - 1) ppl (x.reg 13) (some (b, d))
  else (.done, if (s.core p).macOwner = some (b, d) then s.setCore p { s.core p with macOwner := none } else s)

/-- ERET of an exception of bank `b`. Where it must wait, the bank stays as it was. -/
def State.eret (s : State) (p b : Nat) : LRes × State :=
  let x := s.bank p b
  let e := x.es (s.level p b)
  let ppl := e.estat.toNat % 4
  let d := x.edepth
  let undo (s1 : State) : State :=
    let y := s1.bank p b
    s1.setBank p b { x with walk := y.walk, dev := y.dev, storesOut := y.storesOut, filled := y.filled, exc := y.exc }
  match s.leaveWindow p b with
  | (.done, s1) => match s1.leaveMac p b ppl with
    | (.done, s1) =>
      let y := s1.bank p b
      let y : Bank := if d = 0 then y else { y.spAdd 112 with edepth := d - 1, filled := y.filled.filter (fun n => n != d) }
      let back := x.mon && x.monAt == d
      let step := back && p != 252 && (s.rf (.core p) R.DBG_CTL F.DBG_CTL_STEP).testBit b
      let y : Bank := y.resume e
      let y : Bank := { y with pl := ppl, ldxGran := none, mon := y.mon && !back, stepping := step, stepHit := x.stepping }
      let s1 := s1.setBank p b y
      let s1 := if back then s1.wdSync (coreUnit p) else s1
      (.done, s1.trEret p b e.epc)
    | (r, s1) => (r, undo s1)
  | (r, s1) => (r, undo s1)

end Sys2Proof.Machine
end

