-- ==== Sys2Proof/Machine/LingIns.lean ====
section
/-! DEFINITION. Machine/LingIns.lean: what surrounds every HFA-32 instruction (instruction boundary, fetch, the checks of R250 and
R251, pc and npc, repeats), and the shared bodies of the instruction groups (R233 to R253, R294 to R296, R313). -/

namespace Sys2Proof.Machine

/-! ### The frame of an instruction -/

/-- Where a completed instruction goes (R240). -/
inductive GoTo where
  | next
  | jump (t : Word)
  | annul
  | set
  deriving DecidableEq, Repr

/-- What the body of an instruction comes to. `call` is TRAP, whose EPC is the next instruction. -/
inductive InsRes where
  | done (f : GoTo)
  | later
  | raise (e : PendExc)
  | double (e : PendExc)
  | call (e : PendExc)
  deriving DecidableEq, Repr

/-- What an instruction is to its frame: I of R246, allowed in a delay slot, ILLEGAL as encoded, the least level, the registers it
reads or writes, and whether it is a control transfer. -/
structure Ins where
  rep : Bool := false
  slotOk : Bool := true
  ill : Bool := false
  priv : Nat := 0
  regs : List (BitVec 5) := []
  cf : Bool := false
  deriving DecidableEq, Repr

/-- Debug events of a bank are taken (R394). -/
def State.dbgOn (s : State) (p b : Nat) : Bool :=
  decide (p < 252) && b != 4 && s.rb (.core p) R.DBG_CTL F.DBG_CTL_DBG_EN && !(s.bank p b).mon

/-- The exception that is taken first of those pending: a machine check, then WINDOW_FAULT, then in order of arrival (R251). -/
def Bank.nextExc (x : Bank) : Option PendExc :=
  ((x.exc.find? (fun e => e.cause == 0x10)).or (x.exc.find? (fun e => e.cause == 8))).or x.exc.head?

/-- Pend an exception for the next boundary (R272, R276). -/
def State.pendExc (s : State) (p b : Nat) (e : PendExc) : State :=
  s.setBank p b { s.bank p b with exc := (s.bank p b).exc ++ [e] }

/-- What happens at the boundary instead of the instruction: a pending exception, a completed step, a halt (R276, R394, R396). -/
def State.boundary (s : State) (p b : Nat) : Option State :=
  let x := s.bank p b
  match x.nextExc with
  | some e => match s.enter p b e x.pc x.npc with
    | (true, s) => some (s.setBank p b { s.bank p b with exc := (s.bank p b).exc.erase e })
    | (false, s) => some s
  | none =>
    if s.dbgOn p b ∧ (x.stepHit ∨ x.halt) then
      let step := x.stepHit
      match s.enter p b { cause := 0x0B, code := if step then 4 else 3 } x.pc x.npc with
      | (true, s) =>
        let f : Nat := s.rf (.core p) R.DBG_CTL F.DBG_CTL_STEP
        let s := if step ∧ f.testBit b then s.wf (.core p) R.DBG_CTL F.DBG_CTL_STEP (f - 2 ^ b) else s
        some (s.setBank p b { s.bank p b with halt := false, stepHit := false })
      | (false, s) => some s
    else none

/-- The fetch of the instruction at pc: what stops it, if anything does. A line that is not in the L2 is asked for; the command
names the instruction, so it does not wait for the line. -/
def State.fetchPc (s : State) (p b : Nat) : Option InsRes × State :=
  let pc := (s.bank p b).pc
  match s.loadVa p b (s.level p b) pc 4 .fetch false with
  | (.ok _ po pa, s) => (if po then some (.raise { cause := 0x10, eaddr := pc, pa := pa }) else none, s)
  | (.miss _, s) => (none, s)
  | (.later, s) => (some .later, s)
  | (.raise e, s) => (some (.raise e), s)

/-- The instruction is done: pc and npc (R240), the repeat counter (R246), the delay slot that follows (R241), the counters, a step
that it completes (R396) and its trace. `h` is the repeat counter before it. -/
def State.retire (s : State) (p b : Nat) (i : Ins) (h : Nat) (f : GoTo) : State :=
  let x := s.bank p b
  let (pc, npc) : Word × Word :=
    if 1 < h then (x.pc, x.npc)
    else match f with
      | .next => (x.npc, x.npc + 4)
      | .jump t => (x.npc, t)
      | .annul => (x.npc + 4, x.npc + 8)
      | .set => (x.pc, x.npc)
  let left := if h = 0 then x.hidden else h - 1
  let fin := x.stepping && left == 0 && f != .set
  let slot := if f = .set then x.slot else i.cf && f != .annul && left == 0
  let lsm := if f = .set then x.lsm else none
  let y : Bank := { x with pc := pc, npc := npc, hidden := left, slot := slot, lsm := lsm, stepping := x.stepping && !fin, stepHit := x.stepHit || fin }
  let (n, s) := (s.setBank p b y).freeN
  (((s.perf p 1).perf p 0 n).trAfter p).resched p

/-- Take an exception of the instruction at pc. -/
def State.raiseAt (s : State) (p b : Nat) (e : PendExc) : State :=
  let x := s.bank p b
  (s.enter p b e x.pc x.npc).2

/-- Take what the body came to. `again` is the state of a body that must be repeated later. -/
def State.finish (s : State) (p b : Nat) (i : Ins) (h : Nat) (again : State) : InsRes → State
  | .done f => s.retire p b i h f
  | .later => again
  | .raise e => s.raiseAt p b e
  | .double e => s.mcEnter p b true e (s.bank p b).pc (s.bank p b).npc
  | .call e => (s.enter p b e ((s.bank p b).pc + 4) ((s.bank p b).pc + 8)).2

/-- The checks before the body (R241, R246, R250, R251) and the body. -/
def State.checked1 (s : State) (p b : Nat) (i : Ins) (body : State → InsRes × State) : State :=
  let x := s.bank p b
  if x.hidden ≠ 0 ∧ !i.rep then
    match (s.setBank p b { x with hidden := 0 }).enter p b { cause := 3 } (x.pc - 4) x.pc with
    | (true, s) => s
    | (false, s) => s.setBank p b { s.bank p b with hidden := x.hidden }
  else if i.ill ∨ (x.slot ∧ !i.slotOk) then s.raiseAt p b { cause := 1 }
  else if s.level p b < i.priv then s.raiseAt p b { cause := 2 }
  else if x.busy i.regs then s
  else
    let (r, s1) := body (s.trBefore p b)
    s1.finish p b i x.hidden (if r = .later then (body s).2 else s1) r

/-- An HFA-32 instruction of context `b` of core `p`. The command acts while the context issues. At the boundary a pending event is
taken in its place; then the switch-out reservation goes, the instruction is fetched, breakpoints are met, and it executes. -/
def State.ins (s : State) (p : Fin 253) (b : Fin 5) (i : Ins) (body : State → InsRes × State) : State :=
  if !s.issues p b then s
  else match s.boundary p b with
    | some s => s
    | none => match s.unreserve p b with
      | (.done, s) => match s.fetchPc p b with
        | (some r, s) => s.finish p b i 0 s r
        | (none, s) =>
          let pc := (s.bank p b).pc
          let brk := if s.dbgOn p b then (s.coreHits p b [0] pc.toNat 1).filter (fun n => (s.cmp (coreUnit p) n).1.bit 8) else []
          match brk.head? with
          | some n => s.raiseAt p b { cause := 0x0B, code := 1, detail := n }
          | none => s.checked1 p b i body
      | (.double e, s) => s.finish p b i 0 s (.double e)
      | (_, s) => s

/-! ### Bodies: register operations -/

/-- Write a register and go on. -/
def State.setDone (s : State) (p b : Nat) (rd : BitVec 5) (v : Word) : InsRes × State := (.done .next, s.setGpr p b rd v)

/-- A register-to-register operation (R243). -/
def aluIns (rd ra rb : BitVec 5) (ill : Bool := false) : Ins := { rep := true, ill := ill, regs := [rd, ra, rb] }
def State.alu (s : State) (p : Fin 253) (b : Fin 5) (rd ra rb : BitVec 5) (f : Word → Word → Word) (unary : Bool := false) : State :=
  s.ins p b (aluIns rd ra rb (unary && rb != 0)) (fun s => s.setDone p b rd (f (s.gpr p b ra) (s.gpr p b rb)))
/-- A register-to-immediate operation (R242). -/
def State.aluImm (s : State) (p : Fin 253) (b : Fin 5) (rd ra : BitVec 5) (f : Word → Word) (ill : Bool := false) : State :=
  s.ins p b { rep := true, ill := ill, regs := [rd, ra] } (fun s => s.setDone p b rd (f (s.gpr p b ra)))

/-! ### Bodies: loads and stores -/

/-- A watchpoint (R394): BREAK before the access, with DBG_WADDR. -/
def State.watch (s : State) (p b : Nat) (kinds : List Nat) (va : Word) (n : Nat) : Option PendExc × State :=
  if s.dbgOn p b then
    match ((s.coreHits p b kinds va.toNat n).filter (fun k => (s.cmp (coreUnit p) k).1.bit 8)).head? with
    | some k => (some { cause := 0x0B, code := 2, detail := k }, s.wr (coreUnit p) R.DBG_WADDR va)
    | none => (none, s.trData p b kinds va.toNat n)
  else (none, s.trData p b kinds va.toNat n)

/-- The value a load of `n` bytes writes. -/
def loadValue (d : List Byte) (n : Nat) (sg : Bool) : Word :=
  if sg then Word.ofInt (sext (8 * n) (ofLe (d.take n))) else BitVec.ofNat 32 (ofLe (d.take n))

/-- Poisoned load data is not written (R276). -/
def State.poisoned1 (s : State) (p b : Nat) (va : Word) (pa : Nat) : State := s.pendExc p b { cause := 0x10, eaddr := va, pa := pa }

/-- A load of `n` bytes (R233, R276, R304). One that misses goes on, and LOAD_RESPONSE writes its register. -/
def State.loadIns (s : State) (p : Fin 253) (b : Fin 5) (m : MemForm) (n : Nat) (sg : Bool) : State :=
  s.ins p b { rep := true, ill := formIll true m, regs := formRegs m } (fun s =>
    let va := s.formAddr p b m
    if va.toNat % n ≠ 0 then (.raise { cause := 4, eaddr := va }, s)
    else match s.watch p b [1, 3] va n with
      | (some e, s) => (.raise e, s)
      | (none, s) => match s.loadVa p b (s.level p b) va n .read true with
        | (.ok d po pa, s) =>
          let s := s.formPost p b m
          (.done .next, if po then s.poisoned1 p b va pa else s.setGpr p b (formRd m) (loadValue d n sg))
        | (.miss pa, s) =>
          let x := s.bank p b
          let l : PendLoad := { va := va, pa := pa, rd := x.idx (formRd m).toNat, size := n, signed := sg }
          (.done .next, (s.setBank p b { x with pend := x.pend ++ [l] }).formPost p b m)
        | (.later, s) => (.later, s)
        | (.raise e, s) => (.raise e, s))

/-- A store of the low `n` bytes of RD (R233). An error response arrives after it has completed (R276). -/
def State.storeIns (s : State) (p : Fin 253) (b : Fin 5) (m : MemForm) (n : Nat) : State :=
  s.ins p b { rep := true, ill := formIll false m, regs := formRegs m } (fun s =>
    let va := s.formAddr p b m
    if va.toNat % n ≠ 0 then (.raise { cause := 4, eaddr := va }, s)
    else match s.watch p b [2, 3] va n with
      | (some e, s) => (.raise e, s)
      | (none, s) => match s.storeVa p b (s.level p b) va (leBytes n (s.gpr p b (formRd m)).toNat) with
        | (.ok _ _ _, s) => (.done .next, s.formPost p b m)
        | (.raise e, s) => if e.cause = 7 then (.done .next, (s.formPost p b m).pendExc p b e) else (.raise e, s)
        | (_, s) => (.later, s))

/-- The set and registers of LDM and STM (R245): specifier of member `r`. -/
def lsmReg (rd : BitVec 5) (r : Nat) : BitVec 5 := if rd.toNat / 16 = 0 then BitVec.ofNat 5 (16 + r) else BitVec.ofNat 5 r
def lsmRegs (rd : BitVec 5) (mask : BitVec 16) : List (BitVec 5) :=
  ((List.range 16).filter (fun r => mask.toNat.testBit r)).map (lsmReg rd)
def lsmIll (load : Bool) (rd ra : BitVec 5) (mask : BitVec 16) : Bool :=
  rd.toNat % 16 != 0 || mask == 0 || (rd.toNat / 16 == 1 && mask.toNat.testBit 0) || (load && (lsmRegs rd mask).contains ra)

/-- Transfer the members of `rs` that `todo` still names; what is left when it stops. -/
def State.lsm (s : State) (p b : Nat) (load : Bool) (rd : BitVec 5) (base : Word) (mask : Nat) : List Nat → Nat → LRes × Nat × State
  | [], todo => (.done, todo, s)
  | r :: rest, todo =>
    if !(mask.testBit r && todo.testBit r) then s.lsm p b load rd base mask rest todo
    else
      let va := base + BitVec.ofNat 32 (4 * (popc (BitVec.ofNat 32 (mask % 2 ^ r))).toNat)
      match s.watch p b (if load then [1, 3] else [2, 3]) va 4 with
      | (some e, s) => (.raise e, todo, s)
      | (none, s) =>
        if load then match s.loadVa p b (s.level p b) va 4 .read true with
          | (.ok d po pa, s) =>
            let s := if po then s.poisoned1 p b va pa else s.setGpr p b (lsmReg rd r) (loadValue d 4 false)
            s.lsm p b load rd base mask rest (todo - 2 ^ r)
          | (.raise e, s) => (.raise e, todo, s)
          | (_, s) => (.later, todo, s)
        else match s.storeVa p b (s.level p b) va (leBytes 4 (s.gpr p b (lsmReg rd r)).toNat) with
          | (.ok _ _ _, s) => s.lsm p b load rd base mask rest (todo - 2 ^ r)
          | (.raise e, s) => if e.cause = 7 then (s.pendExc p b e).lsm p b load rd base mask rest (todo - 2 ^ r) else (.raise e, todo, s)
          | (_, s) => (.later, todo, s)

/-- LDM and STM (R245). The mask still to transfer is kept while the instruction waits, and enters EPROG at a fault. -/
def State.lsmIns (s : State) (p : Fin 253) (b : Fin 5) (load : Bool) (rd ra : BitVec 5) (mask : BitVec 16) : State :=
  s.ins p b { ill := lsmIll load rd ra mask, regs := ra :: lsmRegs rd mask } (fun s =>
    let base := s.gpr p b ra
    if base.toNat % 4 ≠ 0 then (.raise { cause := 4, eaddr := base }, s)
    else
      match s.lsm p b load rd base mask.toNat (List.range 16) ((s.bank p b).lsm.getD mask.toNat) with
      | (.done, _, s) => (.done .next, s)
      | (.raise e, todo, s) => (.raise e, s.setBank p b { s.bank p b with lsm := some todo })
      | (_, todo, s) => (.later, s.setBank p b { s.bank p b with lsm := some todo }))

/-- Memory that LDX, STX and the atomics reach (R247). -/
def State.loadVaPhys (s : State) (p b : Nat) (va : Word) (accs : List Nat) (kinds : List Nat) : Except InsRes (Nat × TAttr) × State :=
  if va.toNat % 4 ≠ 0 then (.error (.raise { cause := 4, eaddr := va }), s)
  else match s.watch p b kinds va 4 with
    | (some e, s) => (.error (.raise e), s)
    | (none, s) => match s.reach p b (s.level p b) va accs false with
      | (.error (.raise e), s) => (.error (.raise e), s)
      | (.error _, s) => (.error .later, s)
      | (.ok (pa, a), s) =>
        if s.testOut p pa then (.error (.raise { cause := 7, eaddr := va, resp := 5 }), s)
        else if s.cacheable pa then (.ok (pa, a), s) else (.error (.raise { cause := 7, eaddr := va, resp := 4 }), s)

/-- The line of the issuing core's L1 data cache goes (R300). -/
def State.l1dInv (s : State) (p pa : Nat) : State := { s with ling := { s.ling with l1d := l1Inv s.ling.l1d p (pa / 64) } }

/-- AADD, ASWP and ACAS (R243, R247): performed at the home or at the scratch array. -/
def State.atomIns (s : State) (p : Fin 253) (b : Fin 5) (rd ra rb : BitVec 5) (op : Nat) : State :=
  s.ins p b { rep := true, regs := [rd, ra, rb] } (fun s =>
    let va := s.gpr p b ra
    match s.loadVaPhys p b va [0, 1] [1, 2, 3] with
    | (.error r, s) => (r, s)
    | (.ok (pa, _), s) =>
      let keep := (s.bank p b).ldxGran
      if s.ownStores p (pa / 64) then (.later, s)
      else match s.coreSend p b (s.level p b) pa (.atomic op (s.gpr p b rb) (s.gpr p b rd)) with
        | (.ok d po, s) =>
          let s := s.l1dInv p pa
          let s := if s.place pa = .dram then s else s.setBank p b { s.bank p b with ldxGran := keep }
          (.done .next, if po then s.poisoned1 p b va pa else s.setGpr p b rd (TRes.word d))
        | (.err c, s) => (.raise { cause := 7, eaddr := va, resp := c }, s)
        | (_, s) => (.later, s))

/-- LDX (R247, R331). -/
def State.ldxIns (s : State) (p : Fin 253) (b : Fin 5) (rd ra rb : BitVec 5) : State :=
  s.ins p b { ill := rb != 0, regs := [rd, ra] } (fun s =>
    let va := s.gpr p b ra
    match s.loadVaPhys p b va [0] [1, 3] with
    | (.error r, s) => (r, s)
    | (.ok (pa, a), s) => match s.coreRead p b (s.level p b) pa 4 a .read false with
      | (.ok d po, s) =>
        let s := s.setBank p b { s.bank p b with ldxGran := some (pa / 64) }
        (.done .next, if po then s.poisoned1 p b va pa else s.setGpr p b rd (TRes.word d))
      | (.err c, s) => (.raise { cause := 7, eaddr := va, resp := c }, s)
      | (_, s) => (.later, s))

/-- STX ends with 0 or 1 in RD, and without a reservation. -/
def State.stxEnd (s : State) (p b : Nat) (rd : BitVec 5) (fail : Bool) : InsRes × State :=
  (s.setBank p b { s.bank p b with ldxGran := none }).setDone p b rd (wordB fail)

/-- STX (R247, R331). It waits for the ownership it asks for with X = 1; what takes the granule meanwhile clears the reservation. -/
def State.stxIns (s : State) (p : Fin 253) (b : Fin 5) (rd ra rb : BitVec 5) : State :=
  s.ins p b { regs := [rd, ra, rb] } (fun s =>
    let va := s.gpr p b ra
    match s.loadVaPhys p b va [0, 1] [2, 3] with
    | (.error r, s) => (r, s)
    | (.ok (pa, a), s) =>
      let l := pa / 64
      let t := coreAgent p
      let d := leBytes 4 (s.gpr p b rb).toNat
      if (s.bank p b).ldxGran ≠ some l then s.stxEnd p b rd true
      else if s.place pa = .dram ∧ !a.dev then
        match (s.sub t l).st with
        | .m => if s.ownStores p l then (.later, s) else (((s.l2Own t l (a.l2 p) true).2.subStore t pa d (some (p.val, b.val))).l1dInv p pa).stxEnd p b rd false
        | .s | .o => match s.guardAcc pa (s.coreReq p (s.level p b)) .own (some (coreUnit p)) with
          | (some c, s) => (.raise { cause := 7, eaddr := va, resp := c }, s)
          | (none, s) => (.later, (s.l2Own t l (a.l2 p) true).2)
        | .i => s.stxEnd p b rd true
        | _ => (.later, s)
      else match s.coreWrite p b (s.level p b) va pa d a with
        | (.ok _ _, s) => (s.l1dInv p pa).stxEnd p b rd false
        | (.err c, s) => (.raise { cause := 7, eaddr := va, resp := c }, s)
        | (_, s) => (.later, s))

/-! ### Bodies: control transfers -/

/-- A transfer whose predicted direction or target was wrong (PERF counters 2 and 3): how much was fetched is a free value. -/
def State.mispredict (s : State) (p : Nat) (wrong : Bool) : State :=
  if wrong then
    let (n, s) := s.freeN
    (s.perf p 3).perf p 2 n
  else s

/-- The prediction fails: by the hint in hint mode, and as a free value under the tagged predictor (R257, R259). -/
def State.bccWrong (s : State) (p : Nat) (predT taken : Bool) : Bool × State :=
  if (s.core p).tagged && !(s.core p).clearing then s.freeB else (predT != taken, s)

def cfIns (ill : Bool) (regs : List (BitVec 5)) : Ins := { slotOk := false, ill := ill, regs := regs, cf := true }

/-- BCC (R240, R252). BDNZ decrements its register first. -/
def State.bcc (s : State) (p : Fin 253) (b : Fin 5) (c : Cond) (annul predT : Bool) (ra : BitVec 5) (disp : BitVec 16) : State :=
  s.ins p b (cfIns ((c == .always && ra != 0) || (c == .nz && ra == 0)) [ra]) (fun s =>
    let pc := (s.bank p b).pc
    let v := s.gpr p b ra - (if c = .nz then 1 else 0)
    let s := if c = .nz then s.setGpr p b ra v else s
    let taken := c.holds v
    let (w, s) := s.bccWrong p predT taken
    let s := (s.mispredict p w).trBranch p taken
    (.done (if taken then .jump (pc + 4 * disp.signExtend 32) else if annul then .annul else .next), s))

/-- J and CALL (R240). -/
def State.jump (s : State) (p : Fin 253) (b : Fin 5) (link : Bool) (disp : BitVec 26) : State :=
  s.ins p b (cfIns false (if link then [14] else [])) (fun s =>
    let pc := (s.bank p b).pc
    (.done (.jump (pc + 4 * disp.signExtend 32)), if link then s.setGpr p b 14 (pc + 8) else s))

/-- JR and CALLR (R240): RA is read before lk is written. What the target buffer held is a free value. -/
def State.jumpReg (s : State) (p : Fin 253) (b : Fin 5) (link : Bool) (rd ra rb : BitVec 5) : State :=
  s.ins p b (cfIns (rd != 0 || rb != 0) (if link then [ra, 14] else [ra])) (fun s =>
    let pc := (s.bank p b).pc
    let t := s.gpr p b ra
    if t.toNat % 4 ≠ 0 then (.raise { cause := 4, eaddr := t }, s)
    else
      let (w, s) := s.freeB
      let s := (s.mispredict p w).trJump p pc t
      (.done (.jump t), if link then s.setGpr p b 14 (pc + 8) else s))

/-- RPT and RPTR (R246): with a count of 0 the next instruction is skipped. -/
def State.rpt (s : State) (p : Fin 253) (b : Fin 5) (ill : Bool) (count : State → Nat) : State :=
  s.ins p b { slotOk := false, ill := ill } (fun s =>
    let n := count s
    if n = 0 then (.done .annul, s) else (.done .next, s.setBank p b { s.bank p b with hidden := n }))

/-! ### Bodies: special registers (R238) -/

/-- Least level to read and to write a special register. -/
def srAccess (n : Nat) : Option (Nat × Option Nat) :=
  if n = 0 then some (0, some 0)
  else if n = 1 ∨ n = 2 then some (0, some 1)
  else if n = 3 ∨ (8 ≤ n ∧ n ≤ 11) ∨ n = 0x28 ∨ n = 0x29 then some (0, none)
  else if 0x10 ≤ n ∧ n ≤ 0x15 then some (1, some 1)
  else if 0x20 ≤ n ∧ n ≤ 0x24 then some (0, some 0)
  else if n = 0x30 ∨ n = 0x31 then some (0, some 0)
  else if n = 0x38 then some (2, some 2) else none

/-- Read a special register. A read of TIME_LO latches TIME_HI. -/
def State.srRead (s : State) (p b n : Nat) : Word × State :=
  let x := s.bank p b
  let e := s.excSet p b
  let m := (s.core p).mac
  match n with
  | 0x00 => (x.rc, s)
  | 0x01 => (x.wst, s)
  | 0x02 => (x.wsp, s)
  | 0x03 => (BitVec.ofNat 32 (s.ctxBank p b % 4 * 16 + s.level p b % 4), s)
  | 0x08 | 0x09 | 0x0A | 0x0B => (feat (n - 8), s)
  | 0x10 => (e.epc, s)
  | 0x11 => (e.enpc, s)
  | 0x12 => (e.ecause, s)
  | 0x13 => (e.eaddr, s)
  | 0x14 => (e.estat, s)
  | 0x15 => (e.eprog, s)
  | 0x20 | 0x21 | 0x22 | 0x23 => (x.tcmpAt (n - 0x20), s)
  | 0x24 => (x.tctl, s)
  | 0x28 => (lo32 s.now, s.setBank p b { x with timeLatch := hi32 s.now })
  | 0x29 => (x.timeLatch, s)
  | 0x30 => (m.mctl, s)
  | 0x31 => (m.mstat, s)
  | 0x38 => (x.bwin, s)
  | _ => (0, s)

/-- Write a special register. ESTAT takes the lower of the value and the current level (R283). -/
def State.srWrite (s : State) (p b n : Nat) (v : Word) : State :=
  let x := s.bank p b
  let e := s.excSet p b
  let c := s.core p
  match n with
  | 0x00 => s.setBank p b { x with rc := v }
  | 0x01 => s.setBank p b (x.setWst v)
  | 0x02 => s.setBank p b { x with wsp := v &&& mskWSP }
  | 0x10 => s.setExcSet p b { e with epc := v }
  | 0x11 => s.setExcSet p b { e with enpc := v }
  | 0x12 => s.setExcSet p b { e with ecause := v &&& mskECAUSE }
  | 0x13 => s.setExcSet p b { e with eaddr := v }
  | 0x14 => s.setExcSet p b { e with estat := BitVec.ofNat 32 (min (v.toNat % 4) (s.level p b)) }
  | 0x15 => s.setExcSet p b { e with eprog := v &&& mskEPROG }
  | 0x20 | 0x21 | 0x22 | 0x23 => s.setBank p b (x.setTcmp (n - 0x20) v)
  | 0x24 => s.setBank p b { x with tctl := v &&& mskTCTL }
  | 0x30 => s.setCore p { c with mac := { c.mac with mctl := v &&& mskMCTL } }
  | 0x31 => s.setCore p { c with mac := { c.mac with mstat := v &&& mskMSTAT } }
  | 0x38 => s.setBank p b { x with bwin := v &&& mskBWIN }
  | _ => s

/-- Run `f` once the context owns the MAC state (R279). -/
def State.macDo (s : State) (p b : Nat) (f : State → InsRes × State) : InsRes × State :=
  match s.macTake p b with
  | (.done, s) => f s
  | (.double e, s) => (.double e, s)
  | (.raise e, s) => (.raise e, s)
  | (.later, s) => (.later, s)

def srMac (n : Nat) : Bool := n == 0x30 || n == 0x31

/-- MFS. -/
def State.mfs (s : State) (p : Fin 253) (b : Fin 5) (rd ra : BitVec 5) (sr : BitVec 16) : State :=
  let a := srAccess sr.toNat
  s.ins p b { rep := true, ill := ra != 0 || a.isNone, priv := (a.map (·.1)).getD 0, regs := [rd] } (fun s =>
    let rd1 (s : State) : InsRes × State :=
      let (v, s) := s.srRead p b sr.toNat
      s.setDone p b rd v
    if srMac sr.toNat then s.macDo p b rd1 else rd1 s)

/-- MTS: RC and EPROG may not be repeated (R246). -/
def State.mts (s : State) (p : Fin 253) (b : Fin 5) (rd ra : BitVec 5) (sr : BitVec 16) : State :=
  let w := (srAccess sr.toNat).bind (·.2)
  s.ins p b { rep := sr != 0 && sr != 0x15, ill := rd != 0 || w.isNone, priv := w.getD 0, regs := [ra] } (fun s =>
    let wr1 (s : State) : InsRes × State := (.done .next, s.srWrite p b sr.toNat (s.gpr p b ra))
    if srMac sr.toNat then s.macDo p b wr1 else wr1 s)

/-! ### Bodies: the MAC unit (R243, R244) -/

def State.setMac (s : State) (p : Nat) (m : Mac) : State := s.setCore p { s.core p with mac := m }

/-- Accumulate an exact amount. -/
def State.macAdd (s : State) (p a : Nat) (v : Int) : State :=
  let m := (s.core p).mac
  let (r, ov) := accOf (m.mctl.bit 0) ((m.accAt a).toInt + v)
  s.setMac p { m.setAcc a r with mstat := if ov then m.mstat ||| 1 else m.mstat }

def macIns (ill : Bool) (regs : List (BitVec 5)) : Ins := { rep := true, ill := ill, regs := regs }

/-- MACC, MSUB, MACU and MDOT2. -/
def State.macOp (s : State) (p : Fin 253) (b : Fin 5) (a ra rb : BitVec 5) (f : Word → Word → Int) : State :=
  s.ins p b (macIns (decide (4 ≤ a.toNat)) [ra, rb]) (fun s => s.macDo p b (fun s =>
    (.done .next, s.macAdd p a.toNat (f (s.gpr p b ra) (s.gpr p b rb)))))
/-- MACK. -/
def State.mack (s : State) (p : Fin 253) (b : Fin 5) (a ra k : BitVec 5) : State :=
  s.ins p b (macIns (decide (4 ≤ a.toNat ∨ 16 ≤ k.toNat)) [ra]) (fun s => s.macDo p b (fun s =>
    (.done .next, s.macAdd p a.toNat ((s.gpr p b ra).toInt * ((s.core p).mac.kAt k.toNat).toInt))))
/-- MACL. -/
def State.macl (s : State) (p : Fin 253) (b : Fin 5) (a ra rb : BitVec 5) : State :=
  s.ins p b (macIns (decide (4 ≤ a.toNat) || rb != 0) [ra]) (fun s =>
    let va := s.gpr p b ra
    if va.toNat % 4 ≠ 0 then (.raise { cause := 4, eaddr := va }, s)
    else match s.watch p b [1, 3] va 4 with
      | (some e, s) => (.raise e, s)
      | (none, s) => match s.loadVa p b (s.level p b) va 4 .read true with
        | (.ok d po pa, s) => s.macDo p b (fun s =>
            let m := (s.core p).mac
            let k := m.mctl.fld ⟨11, 8⟩
            let s := if po then s.poisoned1 p b va pa
              else s.macAdd p a.toNat ((TRes.word d).toInt * (m.kAt k).toInt)
            let m := (s.core p).mac
            (.done .next, (s.setMac p { m with mctl := m.mctl.setFld ⟨11, 8⟩ (k + 1) }).setGpr p b ra (va + 4)))
        | (.raise e, s) => (.raise e, s)
        | (_, s) => (.later, s))
/-- An instruction that reads the MAC state into RD. -/
def State.macRead (s : State) (p : Fin 253) (b : Fin 5) (ill : Bool) (rd : BitVec 5) (f : Mac → Word × Mac) : State :=
  s.ins p b (macIns ill [rd]) (fun s => s.macDo p b (fun s =>
    let (v, m) := f (s.core p).mac
    (s.setMac p m).setDone p b rd v))
/-- An instruction that writes the MAC state from RA. -/
def State.macWrite (s : State) (p : Fin 253) (b : Fin 5) (ill : Bool) (ra : BitVec 5) (f : Word → Mac → Mac) : State :=
  s.ins p b (macIns ill [ra]) (fun s => s.macDo p b (fun s =>
    (.done .next, s.setMac p (f (s.gpr p b ra) (s.core p).mac))))

/-! ### Bodies: system instructions -/

/-- A system instruction: not repeatable; `ill` where a field it does not name is not zero. -/
def sysIns (ill : Bool) (regs : List (BitVec 5)) (priv : Nat := 0) : Ins := { ill := ill, regs := regs, priv := priv }

/-- The bank yields (R248, R263): EPRI returns to BPRI, and a checkpoint may follow (R346). -/
def State.yield (s : State) (p b : Nat) (w : WaitKind) : State :=
  let x := s.bank p b
  let s := s.setBank p b { x with st := .waiting, wait := w, epri := s.bpri p b }
  (s.ckptYield p b).resched p

/-- WFE (R248). The machine-check context has no event flag and does not yield. -/
def State.wfe (s : State) (p : Fin 253) (b : Fin 5) (ill : Bool) : State :=
  s.ins p b (sysIns ill []) (fun s =>
    let x := s.bank p b
    if x.flag ∨ b.val = 4 then (.done .next, s.setBank p b { x with flag := false, wait := .none }) else (.later, s.yield p b .wfe))

/-- WAITT (R248). -/
def State.waitt (s : State) (p : Fin 253) (b : Fin 5) (rd ra rb : BitVec 5) : State :=
  s.ins p b (sysIns (rd != 0 || rb != 0) [ra]) (fun s =>
    let t := s.gpr p b ra
    if 0 ≤ (lo32 s.now - t).toInt ∨ b.val = 4 then (.done .next, s.setBank p b { s.bank p b with wait := .none })
    else (.later, s.yield p b (.waitt t)))

/-- The banks an SEV names (R248). -/
def State.sevTo (s : State) (p : Nat) (v : Word) : State :=
  let b := v.fld ⟨29, 28⟩
  match v.fld ⟨31, 30⟩ with
  | 0 => match s.coreOf (v.fld ⟨11, 0⟩) with
    | some q => s.sevBank q b
    | none => s
  | 1 =>
    let t := v.fld ⟨4, 0⟩
    if 28 ≤ t then s
    else ((List.range 9).map (fun c => 9 * t + c)).foldl (fun (s : State) q => if s.health q = .active then s.sevBank q b else s) s
  | 2 => s.bsetEvent (routerQuad (coreUnit p).router) (v.fld ⟨3, 0⟩) b none
  | _ => s

/-- ROT (R236). In the machine-check context it stops the core (R277). -/
def State.rotIns (s : State) (p : Fin 253) (b : Fin 5) (ill up : Bool) : State :=
  s.ins p b (sysIns ill []) (fun s =>
    let x := s.bank p b
    if b.val = 4 then (.raise { cause := 9 }, s)
    else if x.trap ∨ (up ∧ x.depth = 65535) ∨ (!up ∧ x.depth = 0) then (.raise { cause := 9 }, s)
    else if up then match s.roomUp p b with
      | (true, s) => (.done .next, s.setBank p b (s.bank p b).rotUp)
      | (false, s) => (.later, s)
    else match (if x.resident = 0 then s.fill p b else (.ok [] false 0, s)) with
      | (.ok _ _ _, s) => (.done .next, s.setBank p b (s.bank p b).rotDown)
      | (.raise e, s) => (.raise e, s)
      | (_, s) => (.later, s.spillStall p))

/-- ERET (R275, R277). -/
def State.eretIns (s : State) (p : Fin 253) (b : Fin 5) (ill : Bool) : State :=
  s.ins p b { slotOk := false, ill := ill, priv := 1 } (fun s =>
    match (if b.val = 4 then s.mcReturn p else s.eret p b) with
    | (.done, s) => (.done .set, s)
    | (.later, s) => (.later, s)
    | (.raise e, s) => (.raise e, s)
    | (.double e, s) => (.double e, s))

/-- What a FENCE of the bank still waits for (R294): 0 FULL, 1 STORE, 2 LOAD. -/
def State.fenceBusy (s : State) (p b kind : Nat) : Bool :=
  let x := s.bank p b
  let loads := kind != 1 && !x.pend.isEmpty
  let stores := x.storesOut != 0
  let puts := kind == 0 && x.puts.any (fun l => (s.evbOf (coreAgent p)).any (fun e => e.line == l))
  loads || stores || puts || (kind == 0 && x.walk.isSome)

/-- FENCE (R294). -/
def State.fence (s : State) (p : Fin 253) (b : Fin 5) (ill : Bool) (kind : Nat) : State :=
  s.ins p b (sysIns ill []) (fun s =>
    if s.fenceBusy p b kind then (.later, s)
    else (.done .next, s.setBank p b { s.bank p b with puts := if kind = 0 then [] else (s.bank p b).puts }))

/-- FENCE.I (R295): then the core's L1 instruction cache is empty. -/
def State.fenceI (s : State) (p : Fin 253) (b : Fin 5) (ill : Bool) : State :=
  s.ins p b (sysIns ill []) (fun s =>
    if s.fenceBusy p b 1 then (.later, s)
    else (.done .next, { s with ling := { s.ling with l1i := mapDrop (fun k => k / 128 == p.val) s.ling.l1i } }))

/-- TLBI (R296): `ok` says which entries go. -/
def State.tlbi (s : State) (p : Nat) (go : Tlb → Bool) : State :=
  s.setCore p { s.core p with tlb := (s.core p).tlb.filter (fun e => !go e) }

/-- An entry of regime G with the bank's current S2 and VMID. -/
def State.curG (s : State) (p b : Nat) (e : Tlb) : Bool :=
  let k := s.ctxBank p b
  e.regime == 0 && e.s2 == s.s2On p k 0 && (!e.s2 || e.vmid == s.vmid p k)

/-- The page of an entry holds a virtual address. -/
def Tlb.holds (e : Tlb) (va : Word) : Bool := e.va == va.toNat / 2 ^ e.lg

def State.tlbiIns (s : State) (p : Fin 253) (b : Fin 5) (ill : Bool) (priv : Nat) (regs : List (BitVec 5)) (go : State → Tlb → Bool) : State :=
  s.ins p b (sysIns ill regs priv) (fun s => (.done .next, s.tlbi p (go s)))

/-! ### Range operations (R313) -/

/-- One sub-block: false where it must wait for the eviction buffer or for a transaction. `op` is 0 CLEAN, 1 INV, 2 CLEAN_INV. -/
def State.crangeLine (s : State) (p b op l : Nat) : Bool × State :=
  let t := coreAgent p
  match s.sector t l with
  | none => (true, s)
  | some sec =>
    let x := s.sub t l
    let owned := x.st == .m || x.st == .o
    let drop := op == 1 && x.st == .m && !sec.locked
    if transient x then (false, s)
    else if owned ∧ 16 ≤ (s.evbOf t).length then (false, s)
    else
      let s := if !owned then s
        else if drop then
          -- memory keeps its value: the put carries nothing, and tells the home that there is no owner
          let s := s.setSub t l { x with dirty := 0 }
          (s.setSector t l (some { sec with cmph := false })).putBack t l
        else s.putBack t l (op == 0)
      let s := if owned then s.setBank p b { s.bank p b with puts := (s.bank p b).puts ++ [l] } else s
      let s := if op = 0 then (if owned then s.setSub t l { st := .s, data := x.data, poison := x.poison } else s)
        else if x.st = .i then s else s.setSector t l (some sec) |>.toI t l
      if op ≠ 0 ∧ sec.locked ∧ t < 28 then
        let u := UnitId.tussock t
        let s := match s.sector t l with
          | some c => (s.setSector t l (some { c with locked := false })).trimSector t l
          | none => s
        let a := 64 * l / 256 * 256
        let s := if s.rb u R.L2_STATUS F.L2_STATUS_LOCKLOST then s
          else (s.wr u R.LOCK_LOG_LO (lo32 a)).wr u R.LOCK_LOG_HI (hi32 a)
        (true, s.wf u R.L2_STATUS F.L2_STATUS_LOCKLOST 1)
      else (true, s)

/-- The lines of a list. -/
def State.crangeLines (s : State) (p b op : Nat) : List Nat → Bool × State
  | [] => (true, s)
  | l :: r => match s.crangeLine p b op l with
    | (true, s) => s.crangeLines p b op r
    | (false, s) => (false, s)

/-- The pages of `[a, e)`, from address `a` on. -/
def State.crangePages (s : State) (p b op e : Nat) : Nat → Nat → LRes × State
  | 0, _ => (.done, s)
  | n + 1, a =>
    if e ≤ a then (.done, s)
    else
      let stop := min e (a / 4096 * 4096 + 4096)
      match s.reach p b (s.level p b) (BitVec.ofNat 32 a) [if op = 0 then 0 else 1] false with
      | (.error (.raise x), s) => (.raise x, s)
      | (.error _, s) => (.later, s)
      | (.ok (pa, at_), s) =>
        if s.place pa = .dram ∧ !at_.dev then
          match s.crangeLines p b op ((List.range ((stop - a) / 64)).map (fun i => pa / 64 + i)) with
          | (true, s) => s.crangePages p b op e n stop
          | (false, s) => (.later, s)
        else s.crangePages p b op e n stop

/-- CRANGE over `[ra, rb)`, widened to sub-blocks. -/
def State.crange (s : State) (p : Fin 253) (b : Fin 5) (op : Nat) (ra rb : BitVec 5) : State :=
  s.ins p b (sysIns false [ra, rb] (if op = 0 then 0 else 1)) (fun s =>
    let a := (s.gpr p b ra).toNat
    let e := (s.gpr p b rb).toNat
    if e ≤ a then (.done .next, s)
    else match s.crangePages p b op (ceilTo 64 e) ((e - a) / 4096 + 2) (a / 64 * 64) with
      | (.done, s) => (.done .next, s)
      | (.raise x, s) => (.raise x, s)
      | (_, s) => (.later, s))

/-! ### MFB and MTB (R249, R280) -/

/-- The bank, and the storage of it, that BWIN selects. -/
def bwinSel (w : Word) : Nat × Nat :=
  let r := w.fld ⟨9, 5⟩
  let win := w.fld ⟨4, 2⟩
  (w.fld ⟨1, 0⟩, if r < 16 then r else 16 + (if win = 7 then 84 + (r - 16) else (12 * win + (r - 16)) % 84))

/-- Another bank is reached once nothing of it is outstanding. -/
def State.bwinDo (s : State) (p b : Nat) (f : Nat → Nat → InsRes × State) : InsRes × State :=
  let (k, c) := bwinSel (s.bank p b).bwin
  if k ≠ b ∧ (s.bank p k).pend ≠ [] then (.later, s) else f k c

end Sys2Proof.Machine
end

