-- ==== Sys2Proof/Machine/LingOp.lean ====
section
/-! DEFINITION. Machine/LingOp.lean: the HFA-32 instructions, and the events of a core's own engines, schedulers and routers. -/

namespace Sys2Proof.Machine

/-- SHI (R242). -/
def shiftImm (imm : BitVec 16) (a : Word) : Word :=
  let n : Word := BitVec.ofNat 32 (imm.toNat % 32)
  match imm.toNat / 32 % 4 with
  | 0 => shl a n
  | 1 => shr a n
  | 2 => sar a n
  | _ => rol a n

/-- MRD: the result, and OV32 where the clamp changed it (R244). -/
def macRound (a sh : Nat) (m : Mac) : Word × Mac :=
  let (v, ov) := mrdOf (m.mctl.bit 1) (m.accAt a) sh
  (v, if ov then { m with mstat := m.mstat ||| 2 } else m)

/-- TLBI VA (R296): with OWN at H or M the level's own regime. -/
def tlbiVa (p b : Nat) (ra rb : BitVec 5) (s : State) (e : Tlb) : Bool :=
  let v := s.gpr p b rb
  e.holds (s.gpr p b ra) && (if v.bit 31 then e.regime == regimeOf (s.level p b)
    else s.curG p b e && (e.glob || e.asid == v.toNat % 4096))

/-- Data for the oldest load of physical address `pa` arrives (R276, R304): the register is written, or poison or an error of the
request is pending. Data not yet in the L2 is still waited for. -/
def State.loadResponse (s : State) (p b pa : Nat) (poison : Bool) : State :=
  match (s.bank p b).pend.find? (fun l => l.pa == pa) with
  | none => s
  | some l =>
    let k := s.ctxBank p b
    let a : TAttr := match s.translate p k (s.level p b) l.va.toNat [0] with
      | .ok _ a => { a with dev := false }
      | _ => {}
    let drop (s : State) : State := s.setBank p b { s.bank p b with pend := (s.bank p b).pend.erase l }
    match s.coreRead p b (s.level p b) pa l.size a .read true with
    | (.ok d po, s) =>
      let s := drop s
      if po || poison then s.pendExc p b { cause := 0x10, eaddr := l.va, pa := pa }
      else s.setBank p b ((s.bank p b).setCell l.rd (loadValue d l.size l.signed))
    | (.err c, s) => (drop s).pendExc p b { cause := 7, eaddr := l.va, resp := c }
    | (_, s) => s

/-- WAITT_DUE: the time of a waiting WAITT is reached; the bank is READY, at no less than its base priority (R248, R263). -/
def State.waittDue (s : State) (p b : Nat) : State :=
  let x := s.bank p b
  match x.st, x.wait with
  | .waiting, .waitt t =>
    if 0 ≤ (lo32 s.now - t).toInt ∧ s.answers (coreUnit p) then
      (s.setBank p b { x with st := .ready, wait := .none, flag := true, epri := max x.epri (s.bpri p b) }).resched p
    else s
  | _, _ => s

/-- TCMP_FIRE: a comparator that is due fires (R238, R263). -/
def State.tcmpFire (s : State) (p b n : Nat) : State :=
  let x := s.bank p b
  if b ≠ 4 ∧ x.st ≠ .off ∧ tcmpDue s.now x n ∧ s.answers (coreUnit p) then
    let t := ((x.tctl.setFld ⟨4 + n, 4 + n⟩ 1).setFld ⟨n, n⟩ 0)
    (s.setBank p b { x with tctl := t }).sevBank p b
  else s

/-- QUANT in ns at the clock of the core (R30): 1.8 GHz, and at most 2.2 GHz in a service Tussock in SURGE. -/
def State.quantNs (s : State) (p q : Nat) : Nat :=
  if s.mode.mode = .surge ∧ p < 252 ∧ p / 9 % 7 ≠ 6 then (q * 5 + 10) / 11 else (q * 5 + 8) / 9

/-- QUANTUM_EXPIRE (R264): the core passes to the next READY bank of the running bank's priority. -/
def State.quantumOver (s : State) (p : Nat) : State :=
  let q := if p = 252 then 0 else s.rf (.core p) R.SCHED_CFG F.SCHED_CFG_QUANT
  match s.running p with
  | some r =>
    if q = 0 ∨ !s.schedulable p ∨ s.mono < (s.core p).runStart + s.quantNs p q then s
    else match ([1, 2, 3].map (fun d => (r + d) % 4)).find? (fun b => (s.bank p b).st == .ready && (s.bank p b).epri == (s.bank p r).epri) with
      | some b => s.switchTo p b
      | none => s
  | none => s

/-- WINDOW_SPILL: the engine keeps two windows free (R271). -/
def State.spillEngine (s : State) (p b : Nat) : State :=
  let x := s.bank p b
  if s.answers (coreUnit p) ∧ x.st ≠ .off ∧ 5 ≤ x.resident then (s.spill p b).2 else s

/-- WINDOW_FILL: the engine keeps the window below the current one in registers (R271). A fault is raised by the ROT or ERET that
needs the window (R272). -/
def State.fillEngine (s : State) (p b : Nat) : State :=
  let x := s.bank p b
  if s.answers (coreUnit p) ∧ x.st ≠ .off ∧ 1 ≤ x.depth ∧ x.resident = 0 ∧ x.exc = [] then (s.fill p b).2 else s

/-- TABLE_WALK (R290 to R292): the walk an access waits for. It inserts an entry; a fault of an instruction's access is raised, and
one of an engine's access is reported to it. A walk whose reads miss goes on later. -/
def State.tableWalk (s : State) (p b : Nat) (va : Word) (acc : Nat) : State :=
  match (s.bank p b).walk with
  | none => s
  | some q =>
    if q.va.toNat / 4096 ≠ va.toNat / 4096 ∨ q.acc ≠ acc ∨ p = 252 then s
    else match s.walk p b q.pl q.va q.acc with
      | (.leaf e, s) => (s.tlbInsert p e).setBank p b { (s.tlbInsert p e).bank p b with walk := none }
      | (.later, s) => s
      | (.fault e, s) =>
        let keep (s : State) : State := s.setBank p b { s.bank p b with walk := none, walkErr := some (q.va, q.acc, e) }
        if q.engine ∨ !s.issues p b then keep s
        else
          let x := s.bank p b
          match s.enter p b e x.pc x.npc with
          | (true, s) => s
          | (false, s) => keep s

/-! ### Arithmetic and logic (R242, R243) -/

/-- R243. -/
def execAdd (p : Fin 253) (b : Fin 5) (rd ra rb : BitVec 5) (s : State) : Out3 :=
  (s.alu p b rd ra rb (· + ·)).done s

/-- R243. -/
def execSub (p : Fin 253) (b : Fin 5) (rd ra rb : BitVec 5) (s : State) : Out3 :=
  (s.alu p b rd ra rb (· - ·)).done s

/-- R243. -/
def execAnd (p : Fin 253) (b : Fin 5) (rd ra rb : BitVec 5) (s : State) : Out3 :=
  (s.alu p b rd ra rb (· &&& ·)).done s

/-- R243. -/
def execOr (p : Fin 253) (b : Fin 5) (rd ra rb : BitVec 5) (s : State) : Out3 :=
  (s.alu p b rd ra rb (· ||| ·)).done s

/-- R243. -/
def execXor (p : Fin 253) (b : Fin 5) (rd ra rb : BitVec 5) (s : State) : Out3 :=
  (s.alu p b rd ra rb (· ^^^ ·)).done s

/-- R243. -/
def execAndn (p : Fin 253) (b : Fin 5) (rd ra rb : BitVec 5) (s : State) : Out3 :=
  (s.alu p b rd ra rb (fun x y => x &&& ~~~y)).done s

/-- R243. -/
def execShl (p : Fin 253) (b : Fin 5) (rd ra rb : BitVec 5) (s : State) : Out3 :=
  (s.alu p b rd ra rb shl).done s

/-- R243. -/
def execShr (p : Fin 253) (b : Fin 5) (rd ra rb : BitVec 5) (s : State) : Out3 :=
  (s.alu p b rd ra rb shr).done s

/-- R243. -/
def execSar (p : Fin 253) (b : Fin 5) (rd ra rb : BitVec 5) (s : State) : Out3 :=
  (s.alu p b rd ra rb sar).done s

/-- R243. -/
def execRol (p : Fin 253) (b : Fin 5) (rd ra rb : BitVec 5) (s : State) : Out3 :=
  (s.alu p b rd ra rb rol).done s

/-- R243. -/
def execSlt (p : Fin 253) (b : Fin 5) (rd ra rb : BitVec 5) (s : State) : Out3 :=
  (s.alu p b rd ra rb sltS).done s

/-- R243. -/
def execSltu (p : Fin 253) (b : Fin 5) (rd ra rb : BitVec 5) (s : State) : Out3 :=
  (s.alu p b rd ra rb sltU).done s

/-- R243. -/
def execMul (p : Fin 253) (b : Fin 5) (rd ra rb : BitVec 5) (s : State) : Out3 :=
  (s.alu p b rd ra rb (· * ·)).done s

/-- R243. -/
def execMulh (p : Fin 253) (b : Fin 5) (rd ra rb : BitVec 5) (s : State) : Out3 :=
  (s.alu p b rd ra rb mulh).done s

/-- R243. -/
def execMulhu (p : Fin 253) (b : Fin 5) (rd ra rb : BitVec 5) (s : State) : Out3 :=
  (s.alu p b rd ra rb mulhu).done s

/-- R243. -/
def execDiv (p : Fin 253) (b : Fin 5) (rd ra rb : BitVec 5) (s : State) : Out3 :=
  (s.alu p b rd ra rb divS).done s

/-- R243. -/
def execDivu (p : Fin 253) (b : Fin 5) (rd ra rb : BitVec 5) (s : State) : Out3 :=
  (s.alu p b rd ra rb divU).done s

/-- R243. -/
def execRem (p : Fin 253) (b : Fin 5) (rd ra rb : BitVec 5) (s : State) : Out3 :=
  (s.alu p b rd ra rb remS).done s

/-- R243. -/
def execRemu (p : Fin 253) (b : Fin 5) (rd ra rb : BitVec 5) (s : State) : Out3 :=
  (s.alu p b rd ra rb remU).done s

/-- R243. -/
def execMin (p : Fin 253) (b : Fin 5) (rd ra rb : BitVec 5) (s : State) : Out3 :=
  (s.alu p b rd ra rb minS).done s

/-- R243. -/
def execMax (p : Fin 253) (b : Fin 5) (rd ra rb : BitVec 5) (s : State) : Out3 :=
  (s.alu p b rd ra rb maxS).done s

/-- R243. -/
def execMinu (p : Fin 253) (b : Fin 5) (rd ra rb : BitVec 5) (s : State) : Out3 :=
  (s.alu p b rd ra rb minU).done s

/-- R243. -/
def execMaxu (p : Fin 253) (b : Fin 5) (rd ra rb : BitVec 5) (s : State) : Out3 :=
  (s.alu p b rd ra rb maxU).done s

/-- R243. -/
def execClz (p : Fin 253) (b : Fin 5) (rd ra rb : BitVec 5) (s : State) : Out3 :=
  (s.alu p b rd ra rb (fun x _ => clz x) true).done s

/-- R243. -/
def execPopc (p : Fin 253) (b : Fin 5) (rd ra rb : BitVec 5) (s : State) : Out3 :=
  (s.alu p b rd ra rb (fun x _ => popc x) true).done s

/-- R243. -/
def execBswap (p : Fin 253) (b : Fin 5) (rd ra rb : BitVec 5) (s : State) : Out3 :=
  (s.alu p b rd ra rb (fun x _ => bswap x) true).done s

/-- R243. -/
def execSextb (p : Fin 253) (b : Fin 5) (rd ra rb : BitVec 5) (s : State) : Out3 :=
  (s.alu p b rd ra rb (fun x _ => sextB x) true).done s

/-- R243. -/
def execSexth (p : Fin 253) (b : Fin 5) (rd ra rb : BitVec 5) (s : State) : Out3 :=
  (s.alu p b rd ra rb (fun x _ => sextH x) true).done s

/-- R243. -/
def execExtr (p : Fin 253) (b : Fin 5) (rd ra rb : BitVec 5) (s : State) : Out3 :=
  (s.alu p b rd ra rb extr).done s

/-- R243. -/
def execIns (p : Fin 253) (b : Fin 5) (rd ra rb : BitVec 5) (s : State) : Out3 :=
  (s.alu p b rd ra rb (fun x y => ins (s.gpr p b rd) x y)).done s

/-- R242. -/
def execAddi (p : Fin 253) (b : Fin 5) (rd ra : BitVec 5) (imm : BitVec 16) (s : State) : Out3 :=
  (s.aluImm p b rd ra (· + imm.signExtend 32)).done s

/-- R242. -/
def execAndi (p : Fin 253) (b : Fin 5) (rd ra : BitVec 5) (imm : BitVec 16) (s : State) : Out3 :=
  (s.aluImm p b rd ra (· &&& imm.zeroExtend 32)).done s

/-- R242. -/
def execOri (p : Fin 253) (b : Fin 5) (rd ra : BitVec 5) (imm : BitVec 16) (s : State) : Out3 :=
  (s.aluImm p b rd ra (· ||| imm.zeroExtend 32)).done s

/-- R242. -/
def execXori (p : Fin 253) (b : Fin 5) (rd ra : BitVec 5) (imm : BitVec 16) (s : State) : Out3 :=
  (s.aluImm p b rd ra (· ^^^ imm.zeroExtend 32)).done s

/-- R242. -/
def execSlti (p : Fin 253) (b : Fin 5) (rd ra : BitVec 5) (imm : BitVec 16) (s : State) : Out3 :=
  (s.aluImm p b rd ra (fun x => sltS x (imm.signExtend 32))).done s

/-- R242. -/
def execSltiu (p : Fin 253) (b : Fin 5) (rd ra : BitVec 5) (imm : BitVec 16) (s : State) : Out3 :=
  (s.aluImm p b rd ra (fun x => sltU x (imm.signExtend 32))).done s

/-- R242. -/
def execLui (p : Fin 253) (b : Fin 5) (rd ra : BitVec 5) (imm : BitVec 16) (s : State) : Out3 :=
  (s.aluImm p b rd ra (fun _ => imm.zeroExtend 32 <<< 16) (ra != 0)).done s

/-- R242. -/
def execShi (p : Fin 253) (b : Fin 5) (rd ra : BitVec 5) (imm : BitVec 16) (s : State) : Out3 :=
  (s.aluImm p b rd ra (shiftImm imm) (decide (128 ≤ imm.toNat))).done s

/-! ### Loads and stores (R233, R245, R276) -/

/-- R233. -/
def execLdb (p : Fin 253) (b : Fin 5) (m : MemForm) (s : State) : Out3 :=
  (s.loadIns p b m 1 true).done s

/-- R233. -/
def execLdbu (p : Fin 253) (b : Fin 5) (m : MemForm) (s : State) : Out3 :=
  (s.loadIns p b m 1 false).done s

/-- R233. -/
def execLdh (p : Fin 253) (b : Fin 5) (m : MemForm) (s : State) : Out3 :=
  (s.loadIns p b m 2 true).done s

/-- R233. -/
def execLdhu (p : Fin 253) (b : Fin 5) (m : MemForm) (s : State) : Out3 :=
  (s.loadIns p b m 2 false).done s

/-- R233. -/
def execLdw (p : Fin 253) (b : Fin 5) (m : MemForm) (s : State) : Out3 :=
  (s.loadIns p b m 4 false).done s

/-- R233. -/
def execStb (p : Fin 253) (b : Fin 5) (m : MemForm) (s : State) : Out3 :=
  (s.storeIns p b m 1).done s

/-- R233. -/
def execSth (p : Fin 253) (b : Fin 5) (m : MemForm) (s : State) : Out3 :=
  (s.storeIns p b m 2).done s

/-- R233. -/
def execStw (p : Fin 253) (b : Fin 5) (m : MemForm) (s : State) : Out3 :=
  (s.storeIns p b m 4).done s

/-- R276. -/
def execLoadResponse (p : Fin 253) (b : Fin 5) (pa : BitVec 40) (poison : Bool) (s : State) : Out3 :=
  (s.loadResponse p b pa.toNat poison).done s

/-- R276. -/
def execStoreBusError (p : Fin 253) (b : Fin 5) (va : Word) (code : BitVec 3) (s : State) : Out3 :=
  (s.pendExc p b { cause := 7, eaddr := va, resp := code.toNat }).done s

/-- R245. -/
def execLdm (p : Fin 253) (b : Fin 5) (rd ra : BitVec 5) (mask : BitVec 16) (s : State) : Out3 :=
  (s.lsmIns p b true rd ra mask).done s

/-- R245. -/
def execStm (p : Fin 253) (b : Fin 5) (rd ra : BitVec 5) (mask : BitVec 16) (s : State) : Out3 :=
  (s.lsmIns p b false rd ra mask).done s

/-! ### Special registers and repeats (R238, R246) -/

/-- R238. -/
def execMfs (p : Fin 253) (b : Fin 5) (rd ra : BitVec 5) (sr : BitVec 16) (s : State) : Out3 :=
  (s.mfs p b rd ra sr).done s

/-- R238. -/
def execMts (p : Fin 253) (b : Fin 5) (rd ra : BitVec 5) (sr : BitVec 16) (s : State) : Out3 :=
  (s.mts p b rd ra sr).done s

/-- R246. -/
def execRpt (p : Fin 253) (b : Fin 5) (rd ra : BitVec 5) (imm : BitVec 16) (s : State) : Out3 :=
  (s.rpt p b (rd != 0 || ra != 0) (fun _ => imm.toNat)).done s

/-- R246. -/
def execRptr (p : Fin 253) (b : Fin 5) (rd ra rb : BitVec 5) (s : State) : Out3 :=
  (s.rpt p b (rd != 0 || ra != 0 || rb != 0) (fun s => (s.bank p b).rc.toNat % 65536)).done s

/-! ### Control transfers (R240, R252) -/

/-- R252. -/
def execBeq (p : Fin 253) (b : Fin 5) (annul predT : Bool) (ra : BitVec 5) (disp : BitVec 16) (s : State) : Out3 :=
  (s.bcc p b .eq annul predT ra disp).done s

/-- R252. -/
def execBne (p : Fin 253) (b : Fin 5) (annul predT : Bool) (ra : BitVec 5) (disp : BitVec 16) (s : State) : Out3 :=
  (s.bcc p b .ne annul predT ra disp).done s

/-- R252. -/
def execBlt (p : Fin 253) (b : Fin 5) (annul predT : Bool) (ra : BitVec 5) (disp : BitVec 16) (s : State) : Out3 :=
  (s.bcc p b .lt annul predT ra disp).done s

/-- R252. -/
def execBge (p : Fin 253) (b : Fin 5) (annul predT : Bool) (ra : BitVec 5) (disp : BitVec 16) (s : State) : Out3 :=
  (s.bcc p b .ge annul predT ra disp).done s

/-- R252. -/
def execBle (p : Fin 253) (b : Fin 5) (annul predT : Bool) (ra : BitVec 5) (disp : BitVec 16) (s : State) : Out3 :=
  (s.bcc p b .le annul predT ra disp).done s

/-- R252. -/
def execBgt (p : Fin 253) (b : Fin 5) (annul predT : Bool) (ra : BitVec 5) (disp : BitVec 16) (s : State) : Out3 :=
  (s.bcc p b .gt annul predT ra disp).done s

/-- R252. -/
def execBdnz (p : Fin 253) (b : Fin 5) (annul predT : Bool) (ra : BitVec 5) (disp : BitVec 16) (s : State) : Out3 :=
  (s.bcc p b .nz annul predT ra disp).done s

/-- R252. -/
def execBra (p : Fin 253) (b : Fin 5) (annul predT : Bool) (ra : BitVec 5) (disp : BitVec 16) (s : State) : Out3 :=
  (s.bcc p b .always annul predT ra disp).done s

/-- R240. -/
def execJ (p : Fin 253) (b : Fin 5) (disp : BitVec 26) (s : State) : Out3 :=
  (s.jump p b false disp).done s

/-- R240. -/
def execCall (p : Fin 253) (b : Fin 5) (disp : BitVec 26) (s : State) : Out3 :=
  (s.jump p b true disp).done s

/-- R240. -/
def execJr (p : Fin 253) (b : Fin 5) (rd ra rb : BitVec 5) (s : State) : Out3 :=
  (s.jumpReg p b false rd ra rb).done s

/-- R240. -/
def execCallr (p : Fin 253) (b : Fin 5) (rd ra rb : BitVec 5) (s : State) : Out3 :=
  (s.jumpReg p b true rd ra rb).done s

/-! ### Atomics (R247, R331) -/

/-- R247. -/
def execAadd (p : Fin 253) (b : Fin 5) (rd ra rb : BitVec 5) (s : State) : Out3 :=
  (s.atomIns p b rd ra rb 0).done s

/-- R247. -/
def execAswp (p : Fin 253) (b : Fin 5) (rd ra rb : BitVec 5) (s : State) : Out3 :=
  (s.atomIns p b rd ra rb 1).done s

/-- R247. -/
def execAcas (p : Fin 253) (b : Fin 5) (rd ra rb : BitVec 5) (s : State) : Out3 :=
  (s.atomIns p b rd ra rb 2).done s

/-- R247. -/
def execLdx (p : Fin 253) (b : Fin 5) (rd ra rb : BitVec 5) (s : State) : Out3 :=
  (s.ldxIns p b rd ra rb).done s

/-- R331. -/
def execStx (p : Fin 253) (b : Fin 5) (rd ra rb : BitVec 5) (s : State) : Out3 :=
  (s.stxIns p b rd ra rb).done s

/-! ### Events and time (R238, R248) -/

/-- R248. -/
def execWfe (p : Fin 253) (b : Fin 5) (rd ra rb : BitVec 5) (s : State) : Out3 :=
  (s.wfe p b (rd != 0 || ra != 0 || rb != 0)).done s

/-- R248. -/
def execSev (p : Fin 253) (b : Fin 5) (rd ra rb : BitVec 5) (s : State) : Out3 :=
  (s.ins p b (sysIns (rd != 0 || rb != 0) [ra]) (fun s => (.done .next, s.sevTo p (s.gpr p b ra)))).done s

/-- R248. -/
def execWaitt (p : Fin 253) (b : Fin 5) (rd ra rb : BitVec 5) (s : State) : Out3 :=
  (s.waitt p b rd ra rb).done s

/-- R248. -/
def execWaittDue (p : Fin 253) (b : Fin 5) (s : State) : Out3 :=
  (s.waittDue p b).done s

/-- R238. -/
def execTcmpFire (p : Fin 253) (b : Fin 5) (n : Fin 4) (s : State) : Out3 :=
  (s.tcmpFire p b n).done s

/-! ### Windows and exceptions (R236, R241, R250, R275) -/

/-- R236. -/
def execRotPlus (p : Fin 253) (b : Fin 5) (rd ra rb : BitVec 5) (s : State) : Out3 :=
  (s.rotIns p b (rd != 0 || ra != 0 || rb != 0) true).done s

/-- R236. -/
def execRotMinus (p : Fin 253) (b : Fin 5) (rd ra rb : BitVec 5) (s : State) : Out3 :=
  (s.rotIns p b (rd != 0 || ra != 0 || rb != 0) false).done s

/-- R250. -/
def execTrap (p : Fin 253) (b : Fin 5) (rd ra rb : BitVec 5) (s : State) : Out3 :=
  (s.ins p b { slotOk := false, ill := ra != 0 || rb != 0 } (fun s => (.call { cause := 0x0A, code := rd.toNat }, s))).done s

/-- R275. -/
def execEret (p : Fin 253) (b : Fin 5) (rd ra rb : BitVec 5) (s : State) : Out3 :=
  (s.eretIns p b (rd != 0 || ra != 0 || rb != 0)).done s

/-- R394. -/
def execBrk (p : Fin 253) (b : Fin 5) (rd ra rb : BitVec 5) (s : State) : Out3 :=
  (s.ins p b { slotOk := false, ill := (rd != 0 || ra != 0 || rb != 0) } (fun s => (.raise { cause := 0x0B }, s))).done s

/-! ### Fences, translation and range operations (R294 to R296, R313) -/

/-- R294. -/
def execFenceFull (p : Fin 253) (b : Fin 5) (ra rb : BitVec 5) (s : State) : Out3 :=
  (s.fence p b (ra != 0 || rb != 0) 0).done s

/-- R294. -/
def execFenceStore (p : Fin 253) (b : Fin 5) (ra rb : BitVec 5) (s : State) : Out3 :=
  (s.fence p b (ra != 0 || rb != 0) 1).done s

/-- R294. -/
def execFenceLoad (p : Fin 253) (b : Fin 5) (ra rb : BitVec 5) (s : State) : Out3 :=
  (s.fence p b (ra != 0 || rb != 0) 2).done s

/-- R295. -/
def execFenceI (p : Fin 253) (b : Fin 5) (rd ra rb : BitVec 5) (s : State) : Out3 :=
  (s.fenceI p b (rd != 0 || ra != 0 || rb != 0)).done s

/-- R296. -/
def execTlbiAll (p : Fin 253) (b : Fin 5) (ra rb : BitVec 5) (s : State) : Out3 :=
  (s.tlbiIns p b (ra != 0 || rb != 0) 1 [] (fun s e => let l := s.level p b; decide (3 ≤ l) || (if l = 2 then e.regime != 2 else s.curG p b e))).done s

/-- R296. -/
def execTlbiAsid (p : Fin 253) (b : Fin 5) (ra rb : BitVec 5) (s : State) : Out3 :=
  (s.tlbiIns p b (rb != 0) 1 [ra] (fun s e => s.curG p b e && !e.glob && e.asid == (s.gpr p b ra).toNat % 4096)).done s

/-- R296. -/
def execTlbiVa (p : Fin 253) (b : Fin 5) (ra rb : BitVec 5) (s : State) : Out3 :=
  (s.tlbiIns p b false (if (s.gpr p b rb).bit 31 then 2 else 1) [ra, rb] (tlbiVa p b ra rb)).done s

/-- R296. -/
def execTlbiVmid (p : Fin 253) (b : Fin 5) (ra rb : BitVec 5) (s : State) : Out3 :=
  (s.tlbiIns p b (rb != 0) 2 [ra] (fun s e => e.regime == 0 && e.s2 && e.vmid == (s.gpr p b ra).toNat % 256)).done s

/-- R296. -/
def execTlbiIpa (p : Fin 253) (b : Fin 5) (ra rb : BitVec 5) (s : State) : Out3 :=
  (s.tlbiIns p b false 2 [ra, rb] (fun s e => e.regime == 0 && e.s2 && e.vmid == (s.gpr p b rb).toNat % 256 && e.ipa == (s.gpr p b ra).toNat % 2 ^ 28 * 4096 / 2 ^ e.lg)).done s

/-- R313. -/
def execCrangeClean (p : Fin 253) (b : Fin 5) (ra rb : BitVec 5) (s : State) : Out3 :=
  (s.crange p b 0 ra rb).done s

/-- R313. -/
def execCrangeInv (p : Fin 253) (b : Fin 5) (ra rb : BitVec 5) (s : State) : Out3 :=
  (s.crange p b 1 ra rb).done s

/-- R313. -/
def execCrangeCleanInv (p : Fin 253) (b : Fin 5) (ra rb : BitVec 5) (s : State) : Out3 :=
  (s.crange p b 2 ra rb).done s

/-! ### Other banks' registers (R249, R280) -/

/-- R249. -/
def execMfb (p : Fin 253) (b : Fin 5) (rd ra rb : BitVec 5) (s : State) : Out3 :=
  (s.ins p b (sysIns (ra != 0 || rb != 0) [rd] 2) (fun s => s.bwinDo p b (fun k c => s.setDone p b rd ((s.bank p k).cell c)))).done s

/-- R249. -/
def execMtb (p : Fin 253) (b : Fin 5) (rd ra rb : BitVec 5) (s : State) : Out3 :=
  (s.ins p b (sysIns (rd != 0 || rb != 0) [ra] 2) (fun s => s.bwinDo p b (fun k c => (.done .next, s.setBank p k ((s.bank p k).setCell c (s.gpr p b ra)))))).done s

/-! ### The MAC unit (R243, R244) -/

/-- R244. -/
def execMacc (p : Fin 253) (b : Fin 5) (rd ra rb : BitVec 5) (s : State) : Out3 :=
  (s.macOp p b rd ra rb (fun x y => x.toInt * y.toInt)).done s

/-- R244. -/
def execMsub (p : Fin 253) (b : Fin 5) (rd ra rb : BitVec 5) (s : State) : Out3 :=
  (s.macOp p b rd ra rb (fun x y => -(x.toInt * y.toInt))).done s

/-- R244. -/
def execMacu (p : Fin 253) (b : Fin 5) (rd ra rb : BitVec 5) (s : State) : Out3 :=
  (s.macOp p b rd ra rb (fun x y => (x.toNat : Int) * y.toNat)).done s

/-- R244. -/
def execMack (p : Fin 253) (b : Fin 5) (rd ra rb : BitVec 5) (s : State) : Out3 :=
  (s.mack p b rd ra rb).done s

/-- R244. -/
def execMacl (p : Fin 253) (b : Fin 5) (rd ra rb : BitVec 5) (s : State) : Out3 :=
  (s.macl p b rd ra rb).done s

/-- R244. -/
def execMdot2 (p : Fin 253) (b : Fin 5) (rd ra rb : BitVec 5) (s : State) : Out3 :=
  (s.macOp p b rd ra rb (fun x y => halfProd x y 0 + halfProd x y 1)).done s

/-- R243. -/
def execMclr (p : Fin 253) (b : Fin 5) (rd ra rb : BitVec 5) (s : State) : Out3 :=
  (s.macWrite p b (decide (4 ≤ rd.toNat ∨ 16 ≤ rb.toNat) || ra != 0) 0 (fun _ m => { m.setAcc rd.toNat 0 with mctl := m.mctl.setFld ⟨11, 8⟩ rb.toNat })).done s

/-- R244. -/
def execMrd (p : Fin 253) (b : Fin 5) (rd ra rb : BitVec 5) (s : State) : Out3 :=
  (s.macRead p b (decide (4 ≤ ra.toNat)) rd (macRound ra.toNat rb.toNat)).done s

/-- R243. -/
def execMrdl (p : Fin 253) (b : Fin 5) (rd ra rb : BitVec 5) (s : State) : Out3 :=
  (s.macRead p b (decide (4 ≤ ra.toNat) || rb != 0) rd (fun m => (lo32 (m.accAt ra.toNat).toNat, m))).done s

/-- R243. -/
def execMrdh (p : Fin 253) (b : Fin 5) (rd ra rb : BitVec 5) (s : State) : Out3 :=
  (s.macRead p b (decide (4 ≤ ra.toNat) || rb != 0) rd (fun m => (hi32 (m.accAt ra.toNat).toNat, m))).done s

/-- R243. -/
def execMwrl (p : Fin 253) (b : Fin 5) (rd ra rb : BitVec 5) (s : State) : Out3 :=
  (s.macWrite p b (decide (4 ≤ rd.toNat) || rb != 0) ra (fun v m => m.setAcc rd.toNat (hi32 (m.accAt rd.toNat).toNat ++ v))).done s

/-- R243. -/
def execMwrh (p : Fin 253) (b : Fin 5) (rd ra rb : BitVec 5) (s : State) : Out3 :=
  (s.macWrite p b (decide (4 ≤ rd.toNat) || rb != 0) ra (fun v m => m.setAcc rd.toNat (v ++ lo32 (m.accAt rd.toNat).toNat))).done s

/-- R243. -/
def execMkw (p : Fin 253) (b : Fin 5) (rd ra rb : BitVec 5) (s : State) : Out3 :=
  (s.macWrite p b (decide (16 ≤ rd.toNat) || rb != 0) ra (fun v m => m.setK rd.toNat v)).done s

/-- R243. -/
def execMkr (p : Fin 253) (b : Fin 5) (rd ra rb : BitVec 5) (s : State) : Out3 :=
  (s.macRead p b (decide (16 ≤ ra.toNat) || rb != 0) rd (fun m => (m.kAt ra.toNat, m))).done s

/-! ### Banks, the event routers, the spill engine and walks (R264 to R272, R290) -/

/-- R264. -/
def execQuantumExpire (p : Fin 253) (s : State) : Out3 :=
  (s.quantumOver p).done s

/-- R267. -/
def execBankEnable (r : Req) (p : Fin 252) (k : Fin 4) (bpri : BitVec 2) (s : State) : Out3 :=
  (s.wrTo r (.core p) R.BANK_CFG (BitVec.ofNat 32 (2 ^ 31 + bpri.toNat)) k).done s

/-- R267. -/
def execBankDisable (r : Req) (p : Fin 252) (k : Fin 4) (bpri : BitVec 2) (s : State) : Out3 :=
  (s.wrTo r (.core p) R.BANK_CFG (bpri.zeroExtend 32) k).done s

/-- R268. -/
def execErRaise (r : Req) (q : Fin 4) (src : BitVec 10) (s : State) : Out3 :=
  (s.wrTo r (.er q) R.ER_RAISE (src.zeroExtend 32)).done s

/-- R268. -/
def execErRouteWrite (r : Req) (q : Fin 4) (src : BitVec 10) (v : Word) (s : State) : Out3 :=
  (s.wrTo r (.er q) R.ER_ROUTE v src.toNat).done s

/-- R269. -/
def execErClaim (r : Req) (q : Fin 4) (k : Fin 4) (s : State) : Out3 :=
  (s.rdFrom r (.er q) R.ER_CLAIM k).done s

/-- R271. -/
def execWindowSpill (p : Fin 253) (b : Fin 5) (s : State) : Out3 :=
  (s.spillEngine p b).done s

/-- R271. -/
def execWindowFill (p : Fin 253) (b : Fin 5) (s : State) : Out3 :=
  (s.fillEngine p b).done s

/-- R290. -/
def execTableWalk (p : Fin 253) (b : Fin 5) (va : Word) (acc : Fin 3) (s : State) : Out3 :=
  (s.tableWalk p b va acc).done s

end Sys2Proof.Machine
end

