-- ==== Sys2Proof/Machine/SedgeOp.lean ====
section
/-! DEFINITION. Machine/SedgeOp.lean: the execution of one microword: operand specifiers, causes, operation A, operation B and
its progress, and the next address (R90 to R100, R117, R126 to R132, R151, R202, R210, R398). -/

namespace Sys2Proof.Machine

/-! ### Operand specifiers (R90) -/

/-- Packet bytes in network order as a word, bytes beyond the packet as zero. -/
def pktWord (d : List Byte) (o : Nat) : Word := BitVec.ofNat 32 (ofBe (padTo 4 ((d.drop o).take 4)))

/-- The word specifier `p` names for thread `t` at microword `m`. TI and FLOWHASH without a packet are not stated: free values. -/
def State.spec (s : State) (t : Nat) (m : Mw) (p : Nat) : Word :=
  let x := s.thread t
  if p < 16 then x.vreg p
  else if p < 0x40 then match p with
    | 0x11 => m.imm
    | 0x12 => BitVec.ofNat 32 (s.pktOf t).data.length
    | 0x13 => lo32 s.now
    | 0x14 => BitVec.ofNat 32 (t % 16)
    | 0x15 => BitVec.ofNat 32 ((x.ctx.map (· % 256)).getD 0x100)
    | 0x16 => BitVec.ofNat 32 (((s.thFrame t).map (·.ti)).getD ((Config.freeWord s.freeCtr).toNat % 2048))
    | 0x17 => ((s.thFrame t).map (·.hash)).getD (Config.freeWord (s.freeCtr + 1))
    | 0x18 => x.bstat
    | 0x19 => BitVec.ofNat 32 x.excCause
    | 0x1A => BitVec.ofNat 32 x.excPc
    | 0x1B => x.excInfo
    | _ => 0
  else if p < 0x80 then pktWord (s.pktOf t).data (4 * (p - 0x40))
  else match x.ctx with
    | some c => s.ctxWord c (p - 0x80)
    | none => 0

/-- Write bytes into a packet at `o`, those beyond its end discarded. -/
def pktPatch (d : List Byte) (o : Nat) (b : List Byte) : List Byte := patch d o (b.take (d.length - o))

/-- Write to specifier `p`, where it may be written. -/
def State.putSpec (s : State) (t p : Nat) (v : Word) : State :=
  if p < 16 then s.setThread t ((s.thread t).setV p v)
  else if p < 0x40 then s
  else if p < 0x80 then match (s.thread t).pkt with
    | some f => s.setFrame f { s.frame f with data := pktPatch (s.frame f).data (4 * (p - 0x40)) (beBytes 4 v.toNat) }
    | none => s
  else match (s.thread t).ctx with
    | some c => s.setCtxWord c (p - 0x80) v
    | none => s

/-! ### Causes of a microword (R89, R91, R95, R99) -/

/-- The words operation B takes from DB on. -/
def Mw.dataRun (m : Mw) : List Nat :=
  match m.opb with
  | 0x02 | 0x08 | 0x11 => runSpec m.db (m.len + 1)
  | 0x03 | 0x28 => [m.db, m.db + 1]
  | 0x1A => runSpec m.db 4
  | _ => []

/-- The operation B codes of R95. -/
def opbCodes : List Nat := [0x00, 0x01, 0x02, 0x03, 0x08, 0x09, 0x0A, 0x10, 0x11, 0x12, 0x13, 0x14, 0x18, 0x19, 0x1A, 0x20, 0x28, 0x29, 0x30, 0x3F]

/-- A result run must stay within v0 to v15, or within context words 2 to 127. -/
def runOk (r : Nat × Nat) : Bool := r.2 == 0 || decide (r.1 + r.2 ≤ 16) || decide (0x82 ≤ r.1 ∧ r.1 + r.2 ≤ 0x100)

/-- ILLEGAL whatever the thread's state: a reserved code, or a write or result run that is forbidden. -/
def Mw.illegal (m : Mw) : Bool :=
  decide (4 < m.cbits) || decide (7 < m.csel) || decide (8 < m.wait) || decide (0x15 < m.opa) || !opbCodes.contains m.opb ||
    (m.setc && m.r88) || !runOk m.result || (m.opb == 0x03 && decide (2 < m.len)) || (m.opb == 0x28 && decide (2 < m.mod)) ||
    (m.opb == 0x20 && decide (1 < m.mod)) ||
    (m.opa != 0 && (decide (0x11 ≤ m.dst ∧ m.dst < 0x40) || m.dst == 0x80 || m.dst == 0x81)) ||
    (m.aReads ++ m.bReads).any (fun p => decide (0x1C ≤ p ∧ p < 0x40) || decide (0x100 ≤ p))

/-- The context specifiers a microword reads as operands. -/
def Mw.ctxReads (m : Mw) : List Nat := (m.aReads ++ m.bReads).filter (fun p => decide (0x80 ≤ p ∧ p < 0x100))

/-- Every context specifier a microword names. -/
def Mw.ctxNames (m : Mw) : List Nat :=
  m.ctxReads ++ ((if m.opa = 0 then [] else [m.dst]) ++ runSpec m.result.1 m.result.2).filter (fun p => decide (0x80 ≤ p)) ++
    (if m.csel = 6 then [0x82] else [])

/-- Offset and bytes of a segment access. -/
def State.segAcc (s : State) (t : Nat) (m : Mw) : Nat × Nat :=
  ((s.spec t m m.ab + m.imm).toNat, if m.opb = 0x03 then 4 else 4 * (m.len + 1))

/-- The lowest cause of 1 to 4 that microword `m` raises in thread `t` of engine `e`, with EXC_INFO. Where segment and offset lie
in EXC_INFO is not stated: a free value. -/
def State.mwCause (s : State) (e t : Nat) (m : Mw) (top : Word) (ecc : Ecc) : Option (Nat × Word) :=
  let f := s.pktOf t
  if m.illegal then some (1, top)
  else if (s.thread t).ctx.isNone ∧ m.ctxNames ≠ [] then some (2, BitVec.ofNat 32 (m.ctxNames.headD 0))
  else
    let (o, n) := s.segAcc t m
    if (m.opb = 0x01 ∨ m.opb = 0x02 ∨ m.opb = 0x03) ∧
        (256 * (s.rf (.engine e) R.SEG_LIMIT F.SEG_LIMIT_SIZE m.mod) < o + n ∨ (m.opb = 0x03 ∧ o % 4 ≠ 0)) then some (3, Config.freeWord s.freeCtr)
    else match (m.aReads ++ m.bReads).find? (fun p =>
        (decide (0x40 ≤ p ∧ p < 0x80 ∧ 4 * (p - 0x40) < f.data.length) && f.poison) || (decide (0x80 ≤ p) && ecc == Ecc.ue)) with
      | some p => some (4, BitVec.ofNat 32 p)
      | none => none

/-! ### Operation B: its state -/

def State.opOf (s : State) (t o : Nat) : Option Op := (s.thread t).ops.find? (fun p => p.id == o)
def State.setOp (s : State) (t o : Nat) (f : Op → Op) : State :=
  let x := s.thread t
  s.setThread t { x with ops := x.ops.map (fun p => if p.id = o then f p else p) }

/-- An operation B that completes at issue: BSTAT, or the failure that its CODE reports. -/
def State.opNow (s : State) (t code op : Nat) : State :=
  let x := s.thread t
  let x : Thread := { x with any := true, bstat := bstatOf code op }
  let s := s.setThread t x
  if code < 8 then s
  else if x.excAct then s.threadKill t
  else s.setThread t { x with berr := some (x.berr.getD (bstatOf code op)) }

/-- Split `n` bytes at `a` at line boundaries. -/
def chunks : Nat → Nat → Nat → List (Nat × Nat)
  | 0, _, _ => []
  | f + 1, a, n => if n = 0 then [] else (a, min n (64 - a % 64)) :: chunks f (a + min n (64 - a % 64)) (n - min n (64 - a % 64))

/-- The requests of operation `o` that remain, in order: each acts at its target, and the last one's answer is the operation's
outcome. One that its target cannot answer yet leaves the operation in flight, until TXN_TIMEOUT (R65). -/
def State.opMem (s : State) (e t o : Nat) : List (Nat × TReq) → State
  | [] => match s.opOf t o with
    | some p => s.opResult t o 0 (leWords p.len p.acc)
    | none => s
  | (a, k) :: r =>
    let sent := ((s.opOf t o).map (·.sent)).getD false
    let late := decide (((s.opOf t o).map (·.since)).getD 0 + s.txnNs (s.masterQuad (0x100 + e)) ≤ s.mono)
    let (x, s) : TRes × State := if sent then
        match s.takeOutbound (s.masterId (.engine e)) a with
        | (some x, s) => (x, s)
        | (none, s) => (.waits, s)
      else s.reqTarget (s.reqOf (.engine e)) (some (.engine e)) a k
    match x with
    | .err c => s.opResult t o (8 + c)
    | .data d p => if p then s.opResult t o (8 + 6) else (s.setOp t o (fun q => { q with acc := q.acc ++ d, sent := false })).opMem e t o r
    | .waits =>
      let out := s.place a == .outbound
      if late ∧ !out then s.opResult t o (8 + 7) else s.setOp t o (fun q => { q with todo := (a, k) :: r, sent := out, waits := true })

/-! ### CRYPT (R127, R128) -/

/-- CODE and the packet CRYPT leaves, for packet `d` of TI `ti`. -/
def State.crypt (s : State) (ti : Nat) (d : List Byte) (dec : Bool) (slot imm : Word) : Nat × Option (List Byte) :=
  let k : KeySlot := if slot.toNat < 32768 then mapGet {} s.eth.keys slot.toNat else {}
  let n := d.length
  let i := imm.toNat
  let aad := natBits i 7 0
  let al := 4 * natBits i 13 8
  let iv := natBits i 21 14
  let txt := natBits i 29 22
  let stop := if dec then n - 16 else n
  if !k.valid ∨ (k.ti ≠ ti ∧ !k.shared) then (8 + 3, none)
  else if natBits i 31 30 ≠ 0 ∨ n < iv + 8 ∨ n < aad + al ∨ (dec ∧ n < txt + 16) ∨ n < txt ∨ (0 < al ∧ txt < aad + al) ∨
      (!dec ∧ s.maxFrame - 4 < n + 16) then (8 + 4, none)
  else
    let nonce := beBytes 4 k.salt.toNat ++ (d.drop iv).take 8
    let a := (d.drop aad).take al
    let text := (d.take stop).drop txt
    if dec then match gcmOpen k.key nonce a text (d.drop stop) with
      | some pt => (0, some (d.take txt ++ pt))
      | none => (2, none)
    else
      let (ct, tag) := gcmSeal k.key nonce a text
      (0, some (d.take txt ++ ct ++ tag))

/-! ### Operations on the packet -/

/-- Disposal to a destination: the frame leaves as a new one, and the thread keeps a packet already disposed of. -/
def State.handOff (s : State) (f : Nat) : Nat × State :=
  let s := s.disown f
  let x := s.frame f
  let (g, s) := s.addFrame x
  let s := s.setFrame g x
  let s := s.setFrame f { x with disp := true, cells := 0 }
  (g, { s with eth := { s.eth with part := s.eth.part.map (fun e => if e.2 = some f then (e.1, some g) else e) } })

/-- PKTFWD of frame `f` (R123, R125, R126): its CODE. -/
def State.pktFwd (s : State) (f : Nat) (w : Word) : Nat × State :=
  match s.dest w with
  | none => (8 + 4, s)
  | some (0, p, c, ti) =>
    if !s.linkUp p then (0, s.dropKeep f dLinkDown)
    else if !s.egressRoom p c then (3, s)
    else
      let cut := !(s.frame f).tail && decide (s.portRate p ≤ s.portRate (s.frame f).port) && (s.egress (8 * p + c)).isEmpty
      let (g, s) := s.handOff f
      (0, (s.setFrame g { s.frame g with tc := c, ti := ti, sentCut := cut }).enqueue p c g)
  | some (_, p, c, _) =>
    if 2 ≤ (s.frame f).recirc then (0, s.dropKeep f dRecirc)
    else
      let (g, s) := s.handOff f
      (0, (s.setFrame g { s.frame g with port := p, tc := c, recirc := (s.frame g).recirc + 1 }).ingest g)

/-- DMAW, CRYPT or PKTEXC once it may run: they wait for the packet's tail (R123). -/
def State.pktOp (s : State) (e t o code mod : Nat) (arg imm : Word) : State :=
  match (s.thread t).pkt with
  | none => s.opResult t o (8 + 4)
  | some f =>
    let x := s.frame f
    if x.disp then s.opResult t o (8 + 4)
    else if !x.tail then s.setOp t o (fun q => { q with waits := true, arg := arg, imm := imm })
    else
      let s := s.setOp t o (fun q => { q with waits := false })
      if x.bad then (if code = 0x14 then (s.dropKeep f dFcsLate).opResult t o 0 else s.opResult t o (8 + 6))
      else if code = 0x14 then match s.exqPush mod f (natBits imm.toNat 7 0) e with
        | (0, s) => (s.release f).opResult t o 0
        | (c, s) => s.opResult t o c
      else if code = 0x18 then
        let (js, s) := s.dmawTake t o arg.toNat x
        s.runJobs js
      else if x.poison then s.opResult t o (8 + 6)
      else match s.crypt x.ti x.data (mod == 1) arg imm with
        | (c, some d) =>
          let s := s.setFrame f { x with data := d }
          let s := if x.cells < cellsFor d.length then s.charge f (cellsFor d.length - x.cells) else s
          s.opResult t o c
        | (2, none) => (s.tiCount x.ti 7 1).opResult t o 2
        | (c, none) => s.opResult t o c

/-- Where PKTRD and PKTWR reach: packet words, or the parse record at 0x8000_0000 (R114). -/
def State.pktRead (s : State) (t o n : Nat) (off : Nat) : State :=
  match s.thFrame t with
  | none => s.opResult t o (8 + 4)
  | some x =>
    if x.disp ∨ off % 4 ≠ 0 then s.opResult t o (8 + 4)
    else if 0x80000000 ≤ off then
      if off + 4 * n ≤ 0x80000020 then s.opResult t o 0 ((x.prec.drop ((off - 0x80000000) / 4)).take n) else s.opResult t o (8 + 4)
    else if x.poison ∧ off < x.data.length then s.opResult t o (8 + 6)
    else s.opResult t o 0 ((List.range n).map (fun i => pktWord x.data (off + 4 * i)))

/-- PKTWR: words beyond the packet's end are discarded, as R90 has it for header words. -/
def State.pktWrite (s : State) (t o : Nat) (ws : List Word) (off : Nat) : State :=
  match (s.thread t).pkt with
  | none => s.opResult t o (8 + 4)
  | some f =>
    let x := s.frame f
    if x.disp ∨ off % 4 ≠ 0 ∨ 0x80000000 ≤ off then s.opResult t o (8 + 4)
    else (s.setFrame f { x with data := pktPatch x.data off (ws.flatMap (fun w => beBytes 4 w.toNat)) }).opResult t o 0

/-! ### Contexts' overflow slots (R95, R158) -/

/-- The overflow slot of context `c` (256·bank + number), where the ownership table gives it one. -/
def State.ovfOf (s : State) (c : Nat) : Option Nat :=
  let w := mapGet 0 s.pcie.ctxo c
  if w.bit 31 then some (s.ovfAddr (natBits w.toNat 26 16) (natBits w.toNat 11 0)) else none

/-- CTXSPILL. -/
def State.ctxSpill (s : State) (e t o c : Nat) : State :=
  match s.ovfOf c with
  | none => s.opResult t o (8 + 4)
  | some a => match s.devWrite (s.reqOf (.group (e / 4))) a (s.bytes (ctxAddr c 0) 512) false (some (.group (e / 4))) with
    | (some k, s) => s.opResult t o (8 + k)
    | (none, s) => s.opResult t o 0

/-- CTXFILL. HELD stays as it is: it says whether a thread holds the context now. -/
def State.ctxFill (s : State) (e t o c : Nat) : State :=
  match s.ovfOf c with
  | none => s.opResult t o (8 + 4)
  | some a => match s.devRead (s.reqOf (.group (e / 4))) a 512 (some (.group (e / 4))) with
    | ({ err := some k, .. }, s) => s.opResult t o (8 + k)
    | (r, s) =>
      if r.poison then s.opResult t o (8 + 6)
      else
        let held := (s.ctxWord c 0).bit 30
        let s := s.setBytes (ctxAddr c 0) r.data
        (s.setCtxWord c 0 ((s.ctxWord c 0).setFld ⟨30, 30⟩ (b2n held))).opResult t o 0

/-! ### Operation B: its start and its progress (R95, R96) -/

/-- The 64 bits of a forecast event with upper word `hi`: TI and TIME are the engine's (R202). -/
def State.fcWord (s : State) (t : Nat) (hi : Word) : DWord :=
  let ti := ((s.thFrame t).map (·.ti)).getD ((Config.freeWord s.freeCtr).toNat % 2048)
  let time := ((s.thFrame t).map (fun x => x.prec.getD 4 0)).getD (Config.freeWord (s.freeCtr + 2))
  BitVec.ofNat 64 (time.toNat + 2 ^ 32 * (hi.setFld ⟨31, 21⟩ ti).toNat)

/-- The target whose order an operation keeps (R96): the unit its requests go to. -/
def State.opTarget (s : State) (t : Nat) (m : Mw) (a : Nat) : Nat :=
  match m.opb with
  | 0x01 | 0x02 | 0x03 => (s.targetUnit a).base
  | 0x08 => UnitId.eth.base + 1
  | 0x09 | 0x0A => UnitId.eth.base + 2
  | 0x18 | 0x19 | 0x1A => UnitId.pcie.base
  | 0x20 => (UnitId.group (t / 64)).base
  | 0x28 => if m.mod = 0 then UnitId.act.base else if m.mod = 1 then (UnitId.er (t / 256)).base else UnitId.telCoder.base
  | _ => UnitId.eth.base

/-- Start operation B `m` of thread `t`, with the operands read before operation A wrote: AB's value and the words from DB on. -/
def State.startB (s : State) (e t : Nat) (m : Mw) (av : Word) (ws : List Word) : State :=
  let x := s.thread t
  let o := x.nextOp
  let r := s.reqOf (.engine e)
  let off := (av + m.imm).toNat
  let a := 256 * (s.rd (.engine e) R.SEG_BASE m.mod).toNat + off
  let h := av.toNat
  let dma := m.opb == 0x18 || m.opb == 0x19 || m.opb == 0x1A
  let p : Op := { id := o, code := m.opb, mod := m.mod, dst := m.result.1, len := m.result.2, target := s.opTarget t m a,
                  ti := if dma then hTi h + 1 else 0, since := s.mono }
  let go : State := s.setThread t { x with nextOp := o + 1, ops := x.ops ++ [p] }
  let lost := (s.eng e).lost
  match m.opb with
  | 0x00 => s
  | 0x30 => (s.setThread t { x with excAct := false }).opNow t 0 0x30
  | 0x3F => (s.setThread t { x with st := 4 }).threadCheck t
  | 0x13 =>
    if lost then s.opNow t (8 + 5) 0x13
    else match x.pkt with
    | some f => if (s.frame f).disp then s.opNow t (8 + 4) 0x13 else (s.dropKeep f (natBits m.imm.toNat 7 0)).opNow t 0 0x13
    | none => s.opNow t (8 + 4) 0x13
  | 0x29 =>
    if lost then s.opNow t (8 + 5) 0x29
    else
      let (c, s) := s.cntAdd r m.mod m.imm.toNat av.toNat (some (.engine e))
      s.opNow t c 0x29
  | code =>
    if lost then go.opResult t o (8 + 5)
    else match code with
    | 0x01 => go.opMem e t o ((chunks (m.len + 2) a (4 * (m.len + 1))).map (fun c => (c.1, .read c.2)))
    | 0x02 =>
      let d := ws.flatMap (fun w => leBytes 4 w.toNat)
      go.opMem e t o ((chunks (m.len + 2) a (4 * (m.len + 1))).map (fun c => (c.1, .write ((d.drop (c.1 - a)).take c.2) false)))
    | 0x03 => match s.place a with
      | .dram | .scratch _ _ => go.opMem e t o [(a, .atomic m.len (ws.getD 0 0) (ws.getD 1 0))]
      | _ => go.opResult t o (8 + 4)
    | 0x08 =>
      if m.len + 1 ≠ s.tblKeyw m.mod ∨ !s.tblOn m.mod then go.opResult t o (8 + 4)
      else match s.look m.mod ws (keyHash ws) with
        | some (some (_, w)) => go.opResult t o 0 w
        | some none => go.opResult t o 1
        | none => { go with eth := { go.eth with looks := go.eth.looks ++ [⟨m.mod, ws, keyHash ws, .op t o⟩] } }
    | 0x09 => if 256 ≤ h then go.opResult t o (8 + 4) else go.ctxSpill e t o (256 * thOwner t + h)
    | 0x0A => if 256 ≤ h then go.opResult t o (8 + 4) else go.ctxFill e t o (256 * thOwner t + h)
    | 0x10 => go.pktRead t o (m.len + 1) off
    | 0x11 => go.pktWrite t o ws off
    | 0x12 => match x.pkt with
      | some f =>
        if (s.frame f).disp then go.opResult t o (8 + 4)
        else
          let (c, s) := go.pktFwd f av
          s.opResult t o c
      | none => go.opResult t o (8 + 4)
    | 0x14 => go.pktOp e t o code m.mod av m.imm
    | 0x18 => if 2 ^ 15 ≤ h then go.opResult t o (8 + 4) else go.pktOp e t o code m.mod av m.imm
    | 0x19 =>
      if 2 ^ 15 ≤ h then go.opResult t o (8 + 4)
      else
        let (js, s) := go.dmarTake t o h m.len
        s.runJobs js
    | 0x1A => match x.rsv.reverse.find? (fun v => v.qp == h) with
      | none => go.opResult t o (8 + 4)
      | some v =>
        let s := go.setThread t { go.thread t with rsv := (x.rsv.reverse.erase v).reverse }
        let (js, s) := s.cqComplete h v.rq v.idx (if m.db = 0x10 then v.words else ws) (some (t, o))
        s.runJobs js
    | 0x20 => go.pktOp e t o code m.mod av m.imm
    | 0x28 => match m.mod with
      | 0 => match go.fcOffer r (.engine e) (e / 4) (s.fcWord t (ws.getD 1 0)) t o with
        | (some c, s) => s.opResult t o c
        | (none, s) => s
      | 1 => if s.answers (.er (e / 16)) then (go.erRaise (e / 16) (natBits h 9 0)).opResult t o 0 else go.opResult t o (8 + 5)
      | _ =>
        let (c, s) := go.telEvt r (.engine e) (natBits h 7 0) (ws.getD 0 0)
        s.opResult t o c
    | _ => go

/-- An operation that waits goes on where it can: requests to memory, or the packet's tail. -/
def State.opAdvance (s : State) (t o : Nat) : State :=
  match s.opOf t o with
  | none => s
  | some p =>
    if p.res.isSome ∨ !p.waits ∨ !s.answers (.engine (s.thEng t)) then s
    else if p.todo ≠ [] then s.opMem (s.thEng t) t o p.todo
    else s.pktOp (s.thEng t) t o p.code p.mod p.arg p.imm

/-! ### One microword (R91, R93) -/

/-- The value of condition group `g`; `res` is operation A's result. -/
def State.group (s : State) (t g : Nat) (res : Word) : Nat :=
  let x := s.thread t
  match g with
  | 1 => b2n x.z + 2 * b2n x.n + 4 * b2n x.c + 8 * b2n x.vf
  | 2 => x.bstat.toNat % 16
  | 3 => (x.vreg 15).toNat % 16
  | 4 => res.toNat % 16
  | 5 => (((s.thFrame t).map (fun f => f.prec.headD 0)).getD (Config.freeWord (s.freeCtr + 3))).toNat % 16
  | 6 => match x.ctx with
    | some c => (s.ctxWord c 2).toNat % 16
    | none => 0
  | 7 => b2n x.pkt.isSome + 2 * b2n ((s.thFrame t).any (·.tail)) + 4 * b2n ((s.thFrame t).any (·.disp)) + 8 * b2n x.excAct
  | _ => 0

/-- The engine's pointer moves past thread `t`, and the issue counts (R101). -/
def State.issued (s : State) (e t : Nat) : State :=
  let ts := s.engThreads e
  let i := ((List.range ts.length).find? (fun i => ts[i]? == some t)).getD 0
  let s := s.setEng e { s.eng e with rr := (i + 1) % max 1 ts.length }
  let s := s.setThread t { s.thread t with any := false }
  s.bump64 (.engine e) R.ISSUE_CNT_LO R.ISSUE_CNT_HI

/-- Microword `m` at `pc` executes in thread `t` of engine `e`: nothing stops it. -/
def State.execMw (s : State) (e t pc : Nat) (m : Mw) (ecc : Ecc) : State :=
  let s := if ecc = .corr ∧ m.ctxReads ≠ [] then s.setFault (.engine e) fsCorr else s
  let s := (s.trMw e t pc).issued e t
  let bare := (s.thread t).pkt.isNone
  let a := s.spec t m m.s1
  let b := s.spec t m m.s2
  let av := s.spec t m m.ab
  let ws := m.dataRun.map (fun p => s.spec t m p)
  let back := (s.thread t).excPc
  let res := if m.opa = 0 then 0 else opaResult m.opa a b (s.spec t m m.dst) (s.thread t).c
  let s := if m.opa = 0 then s else s.putSpec t m.dst res
  let s := if m.opa ≠ 0 ∧ m.setc then
      s.setThread t { s.thread t with z := res == 0, n := res.bit 31, c := opaCarry m.opa a b, vf := opaOver m.opa a b }
    else s
  let s := s.startB e t m av ws
  let next := if m.csel = 0 then m.next else m.next ||| (s.group t m.csel res % 2 ^ m.cbits)
  let next := if m.opb = 0x30 ∧ m.mod % 2 = 0 then back else next
  let s := if bare then { s with freeCtr := s.freeCtr + 4 } else s
  if (s.thread t).st = 0 ∨ (s.thread t).st = 4 then s else (s.reachPc t next).berrNow t

/-- The next thread of engine `e` issues, where `ok` accepts its microword (R91, R99, R101, R398). A parity mismatch is
CS_PARITY_ERROR's. `ecc` is what the check code finds in a context word it reads. -/
def State.issue (s : State) (e : Nat) (ecc : Ecc) (ok : Mw → Bool) : State :=
  if !s.engIssues e then s
  else match s.nextThread e with
  | none => s.bump64 (.engine e) R.IDLE_CNT_LO R.IDLE_CNT_HI
  | some t =>
    let pc := (s.thread t).pc
    let m := s.thMw t
    if s.csBad e pc ≠ 0 ∨ !ok m then s
    else match s.mwCause e t m (BitVec.ofNat 32 (natBits (s.csWord e pc).toNat 127 96)) ecc with
      | some (c, info) =>
        let s := s.issued e t
        let s : State := if c = 3 then { s with freeCtr := s.freeCtr + 1 } else s
        let s := match (s.thread t).ctx with
          | some g => if c = 4 ∧ ecc = Ecc.ue ∧ m.ctxReads ≠ [] then s.setCtxWord g 0 (s.ctxWord g 0 &&& 0x7FFFFFFF) else s
          | none => s
        s.takeMexc t c pc info
      | none => match (s.thread t).berr with
        | some w => (s.setThread t { s.thread t with berr := none }).takeMexc t 5 pc w
        | none =>
          let brk := if (s.thread t).excAct then [] else (s.engHits e pc).filter (fun n => (s.cmp (.engine e) n).1.bit 8)
          match brk.head? with
          | some n => s.takeMexc t 7 pc (BitVec.ofNat 32 n)
          | none => s.execMw e t pc m ecc

/-- A row of operation A or operation B code `k`. -/
def mwOpa (k : Nat) (m : Mw) : Bool := m.opa == k
def mwOpb (k : Nat) (m : Mw) : Bool := m.opb == k

/-! ### The rows (R94, R95) -/

/-- R94. A reserved code of operation A is issued by this row too: it raises ILLEGAL. -/
def execOpaNop (e : Fin 64) (ecc : Ecc) (s : State) : Out3 := (s.issue e ecc (fun m => m.opa == 0 || decide (0x15 < m.opa))).done s
/-- R94. -/
def execOpaMov (e : Fin 64) (ecc : Ecc) (s : State) : Out3 := (s.issue e ecc (mwOpa 0x01)).done s
/-- R94. -/
def execOpaAdd (e : Fin 64) (ecc : Ecc) (s : State) : Out3 := (s.issue e ecc (mwOpa 0x02)).done s
/-- R94. -/
def execOpaSub (e : Fin 64) (ecc : Ecc) (s : State) : Out3 := (s.issue e ecc (mwOpa 0x03)).done s
/-- R94. -/
def execOpaAnd (e : Fin 64) (ecc : Ecc) (s : State) : Out3 := (s.issue e ecc (mwOpa 0x04)).done s
/-- R94. -/
def execOpaOr (e : Fin 64) (ecc : Ecc) (s : State) : Out3 := (s.issue e ecc (mwOpa 0x05)).done s
/-- R94. -/
def execOpaXor (e : Fin 64) (ecc : Ecc) (s : State) : Out3 := (s.issue e ecc (mwOpa 0x06)).done s
/-- R94. -/
def execOpaAndn (e : Fin 64) (ecc : Ecc) (s : State) : Out3 := (s.issue e ecc (mwOpa 0x07)).done s
/-- R94. -/
def execOpaShl (e : Fin 64) (ecc : Ecc) (s : State) : Out3 := (s.issue e ecc (mwOpa 0x08)).done s
/-- R94. -/
def execOpaShr (e : Fin 64) (ecc : Ecc) (s : State) : Out3 := (s.issue e ecc (mwOpa 0x09)).done s
/-- R94. -/
def execOpaSar (e : Fin 64) (ecc : Ecc) (s : State) : Out3 := (s.issue e ecc (mwOpa 0x0A)).done s
/-- R94. -/
def execOpaRol (e : Fin 64) (ecc : Ecc) (s : State) : Out3 := (s.issue e ecc (mwOpa 0x0B)).done s
/-- R94. -/
def execOpaExtr (e : Fin 64) (ecc : Ecc) (s : State) : Out3 := (s.issue e ecc (mwOpa 0x0C)).done s
/-- R94. -/
def execOpaIns (e : Fin 64) (ecc : Ecc) (s : State) : Out3 := (s.issue e ecc (mwOpa 0x0D)).done s
/-- R94. -/
def execOpaBswap (e : Fin 64) (ecc : Ecc) (s : State) : Out3 := (s.issue e ecc (mwOpa 0x0E)).done s
/-- R94. -/
def execOpaClz (e : Fin 64) (ecc : Ecc) (s : State) : Out3 := (s.issue e ecc (mwOpa 0x0F)).done s
/-- R94. -/
def execOpaPopc (e : Fin 64) (ecc : Ecc) (s : State) : Out3 := (s.issue e ecc (mwOpa 0x10)).done s
/-- R94. -/
def execOpaMinu (e : Fin 64) (ecc : Ecc) (s : State) : Out3 := (s.issue e ecc (mwOpa 0x11)).done s
/-- R94. -/
def execOpaMaxu (e : Fin 64) (ecc : Ecc) (s : State) : Out3 := (s.issue e ecc (mwOpa 0x12)).done s
/-- R94. -/
def execOpaSel (e : Fin 64) (ecc : Ecc) (s : State) : Out3 := (s.issue e ecc (mwOpa 0x13)).done s
/-- R94. -/
def execOpaMul16 (e : Fin 64) (ecc : Ecc) (s : State) : Out3 := (s.issue e ecc (mwOpa 0x14)).done s
/-- R94. -/
def execOpaCrc (e : Fin 64) (ecc : Ecc) (s : State) : Out3 := (s.issue e ecc (mwOpa 0x15)).done s

/-- R95. -/
def execOpbLd (e : Fin 64) (ecc : Ecc) (s : State) : Out3 := (s.issue e ecc (mwOpb 0x01)).done s
/-- R95. -/
def execOpbSt (e : Fin 64) (ecc : Ecc) (s : State) : Out3 := (s.issue e ecc (mwOpb 0x02)).done s
/-- R95. -/
def execOpbAtom (e : Fin 64) (ecc : Ecc) (s : State) : Out3 := (s.issue e ecc (mwOpb 0x03)).done s
/-- R117. -/
def execOpbTlook (e : Fin 64) (ecc : Ecc) (s : State) : Out3 := (s.issue e ecc (mwOpb 0x08)).done s
/-- R95, R158. -/
def execOpbCtxspill (e : Fin 64) (ecc : Ecc) (s : State) : Out3 := (s.issue e ecc (mwOpb 0x09)).done s
/-- R95, R158. -/
def execOpbCtxfill (e : Fin 64) (ecc : Ecc) (s : State) : Out3 := (s.issue e ecc (mwOpb 0x0A)).done s
/-- R95, R114. -/
def execOpbPktrd (e : Fin 64) (ecc : Ecc) (s : State) : Out3 := (s.issue e ecc (mwOpb 0x10)).done s
/-- R95. -/
def execOpbPktwr (e : Fin 64) (ecc : Ecc) (s : State) : Out3 := (s.issue e ecc (mwOpb 0x11)).done s
/-- R126. -/
def execOpbPktfwd (e : Fin 64) (ecc : Ecc) (s : State) : Out3 := (s.issue e ecc (mwOpb 0x12)).done s
/-- R131. -/
def execOpbPktdrop (e : Fin 64) (ecc : Ecc) (s : State) : Out3 := (s.issue e ecc (mwOpb 0x13)).done s
/-- R129. -/
def execOpbPktexc (e : Fin 64) (ecc : Ecc) (s : State) : Out3 := (s.issue e ecc (mwOpb 0x14)).done s
/-- R151. -/
def execOpbDmaw (e : Fin 64) (ecc : Ecc) (s : State) : Out3 := (s.issue e ecc (mwOpb 0x18)).done s
/-- R151. -/
def execOpbDmar (e : Fin 64) (ecc : Ecc) (s : State) : Out3 := (s.issue e ecc (mwOpb 0x19)).done s
/-- R151. -/
def execOpbCqpost (e : Fin 64) (ecc : Ecc) (s : State) : Out3 := (s.issue e ecc (mwOpb 0x1A)).done s
/-- R128. -/
def execOpbCrypt (e : Fin 64) (ecc : Ecc) (s : State) : Out3 := (s.issue e ecc (mwOpb 0x20)).done s
/-- R95, R202, R210. -/
def execOpbEvt (e : Fin 64) (ecc : Ecc) (s : State) : Out3 := (s.issue e ecc (mwOpb 0x28)).done s
/-- R132. -/
def execOpbCnt (e : Fin 64) (ecc : Ecc) (s : State) : Out3 := (s.issue e ecc (mwOpb 0x29)).done s
/-- R95. -/
def execOpbEret (e : Fin 64) (ecc : Ecc) (s : State) : Out3 := (s.issue e ecc (mwOpb 0x30)).done s
/-- R103. -/
def execOpbDone (e : Fin 64) (ecc : Ecc) (s : State) : Out3 := (s.issue e ecc (mwOpb 0x3F)).done s
/-- R95, R96. -/
def execOpbComplete (t : Fin 1024) (o : Nat) (s : State) : Out3 := ((s.opAdvance t o).opComplete t o).done s

end Sys2Proof.Machine
end

