-- ==== Sys2Proof/Machine/Dispatch.lean ====
section
/-! DEFINITION. Machine/Dispatch.lean: one arm for every command of the table. -/

namespace Sys2Proof.Machine

def exec (i : Instr) (s : State) : Host.Outcome State Fault Refusal :=
  match i with
  | .registerWrite r a v => Sys2Proof.Machine.execRegisterWrite r a v s
  | .loReadLatch r a => Sys2Proof.Machine.execLoReadLatch r a s
  | .hiReadLatched r a => Sys2Proof.Machine.execHiReadLatched r a s
  | .cfgDigestRead r u => Sys2Proof.Machine.execCfgDigestRead r u s
  | .unitReset r u hold => Sys2Proof.Machine.execUnitReset r u hold s
  | .holdWrite r u on => Sys2Proof.Machine.execHoldWrite r u on s
  | .unitEnterIdle u => Sys2Proof.Machine.execUnitEnterIdle u s
  | .unitEnterRetain u => Sys2Proof.Machine.execUnitEnterRetain u s
  | .unitEnterOff u => Sys2Proof.Machine.execUnitEnterOff u s
  | .unitPowerUpDone u => Sys2Proof.Machine.execUnitPowerUpDone u s
  | .energyUpdate => Sys2Proof.Machine.execEnergyUpdate s
  | .healthTick silent => Sys2Proof.Machine.execHealthTick silent s
  | .unitDeclaredDead u => Sys2Proof.Machine.execUnitDeclaredDead u s
  | .recoveryEntry => Sys2Proof.Machine.execRecoveryEntry s
  | .obBaseApply r v => Sys2Proof.Machine.execObBaseApply r v s
  | .outboundAccess r a n w poison => Sys2Proof.Machine.execOutboundAccess r a n w poison s
  | .bar4Read l o => Sys2Proof.Machine.execBar4Read l o s
  | .bar4Write l o v => Sys2Proof.Machine.execBar4Write l o v s
  | .modeReqDormant r v => Sys2Proof.Machine.execModeReqDormant r v s
  | .modeReqSteady r v => Sys2Proof.Machine.execModeReqSteady r v s
  | .modeReqSurge r v => Sys2Proof.Machine.execModeReqSurge r v s
  | .modeReqMaintenance r v => Sys2Proof.Machine.execModeReqMaintenance r v s
  | .modeReqUnrequestable r v k => Sys2Proof.Machine.execModeReqUnrequestable r v k s
  | .modeReqPlanConfirm r v => Sys2Proof.Machine.execModeReqPlanConfirm r v s
  | .loopEnWrite r on => Sys2Proof.Machine.execLoopEnWrite r on s
  | .dpEnClear r => Sys2Proof.Machine.execDpEnClear r s
  | .dpEnSet r => Sys2Proof.Machine.execDpEnSet r s
  | .pathQuiesced => Sys2Proof.Machine.execPathQuiesced s
  | .planLoadDone => Sys2Proof.Machine.execPlanLoadDone s
  | .modeSwap => Sys2Proof.Machine.execModeSwap s
  | .predictorClearDone p => Sys2Proof.Machine.execPredictorClearDone p s
  | .planVReloadDone => Sys2Proof.Machine.execPlanVReloadDone s
  | .serviceClockSwitch => Sys2Proof.Machine.execServiceClockSwitch s
  | .tussockPowerUpDone t => Sys2Proof.Machine.execTussockPowerUpDone t s
  | .linkFlitReceive k d e => Sys2Proof.Machine.execLinkFlitReceive k d e s
  | .linkDisWrite r q hi v => Sys2Proof.Machine.execLinkDisWrite r q hi v s
  | .targetRequest r src a k tag => Sys2Proof.Machine.execTargetRequest r src a k tag s
  | .atabWrite r q v => Sys2Proof.Machine.execAtabWrite r q v s
  | .mgmtBroadcast => Sys2Proof.Machine.execMgmtBroadcast s
  | .violPop r q => Sys2Proof.Machine.execViolPop r q s
  | .semAcquire r q n => Sys2Proof.Machine.execSemAcquire r q n s
  | .semRel r q n => Sys2Proof.Machine.execSemRel r q n s
  | .txnTimeoutExpire m tag => Sys2Proof.Machine.execTxnTimeoutExpire m tag s
  | .lateResponseDiscard m tag => Sys2Proof.Machine.execLateResponseDiscard m tag s
  | .pmonClr r q m v => Sys2Proof.Machine.execPmonClr r q m v s
  | .pmonTraceEmit q m => Sys2Proof.Machine.execPmonTraceEmit q m s
  | .regionEntryWrite r n k v => Sys2Proof.Machine.execRegionEntryWrite r n k v s
  | .regionLock r n v => Sys2Proof.Machine.execRegionLock r n v s
  | .scrubRead c e => Sys2Proof.Machine.execScrubRead c e s
  | .selfRefreshEntry c => Sys2Proof.Machine.execSelfRefreshEntry c s
  | .selfRefreshExitDone c => Sys2Proof.Machine.execSelfRefreshExitDone c s
  | .refresh c hot => Sys2Proof.Machine.execRefresh c hot s
  | .channelInitDone c => Sys2Proof.Machine.execChannelInitDone c s
  | .opaNop e ecc => Sys2Proof.Machine.execOpaNop e ecc s
  | .opaMov e ecc => Sys2Proof.Machine.execOpaMov e ecc s
  | .opaAdd e ecc => Sys2Proof.Machine.execOpaAdd e ecc s
  | .opaSub e ecc => Sys2Proof.Machine.execOpaSub e ecc s
  | .opaAnd e ecc => Sys2Proof.Machine.execOpaAnd e ecc s
  | .opaOr e ecc => Sys2Proof.Machine.execOpaOr e ecc s
  | .opaXor e ecc => Sys2Proof.Machine.execOpaXor e ecc s
  | .opaAndn e ecc => Sys2Proof.Machine.execOpaAndn e ecc s
  | .opaShl e ecc => Sys2Proof.Machine.execOpaShl e ecc s
  | .opaShr e ecc => Sys2Proof.Machine.execOpaShr e ecc s
  | .opaSar e ecc => Sys2Proof.Machine.execOpaSar e ecc s
  | .opaRol e ecc => Sys2Proof.Machine.execOpaRol e ecc s
  | .opaExtr e ecc => Sys2Proof.Machine.execOpaExtr e ecc s
  | .opaIns e ecc => Sys2Proof.Machine.execOpaIns e ecc s
  | .opaBswap e ecc => Sys2Proof.Machine.execOpaBswap e ecc s
  | .opaClz e ecc => Sys2Proof.Machine.execOpaClz e ecc s
  | .opaPopc e ecc => Sys2Proof.Machine.execOpaPopc e ecc s
  | .opaMinu e ecc => Sys2Proof.Machine.execOpaMinu e ecc s
  | .opaMaxu e ecc => Sys2Proof.Machine.execOpaMaxu e ecc s
  | .opaSel e ecc => Sys2Proof.Machine.execOpaSel e ecc s
  | .opaMul16 e ecc => Sys2Proof.Machine.execOpaMul16 e ecc s
  | .opaCrc e ecc => Sys2Proof.Machine.execOpaCrc e ecc s
  | .opbLd e ecc => Sys2Proof.Machine.execOpbLd e ecc s
  | .opbSt e ecc => Sys2Proof.Machine.execOpbSt e ecc s
  | .opbAtom e ecc => Sys2Proof.Machine.execOpbAtom e ecc s
  | .opbTlook e ecc => Sys2Proof.Machine.execOpbTlook e ecc s
  | .opbCtxspill e ecc => Sys2Proof.Machine.execOpbCtxspill e ecc s
  | .opbCtxfill e ecc => Sys2Proof.Machine.execOpbCtxfill e ecc s
  | .opbPktrd e ecc => Sys2Proof.Machine.execOpbPktrd e ecc s
  | .opbPktwr e ecc => Sys2Proof.Machine.execOpbPktwr e ecc s
  | .opbPktfwd e ecc => Sys2Proof.Machine.execOpbPktfwd e ecc s
  | .opbPktdrop e ecc => Sys2Proof.Machine.execOpbPktdrop e ecc s
  | .opbPktexc e ecc => Sys2Proof.Machine.execOpbPktexc e ecc s
  | .opbDmaw e ecc => Sys2Proof.Machine.execOpbDmaw e ecc s
  | .opbDmar e ecc => Sys2Proof.Machine.execOpbDmar e ecc s
  | .opbCqpost e ecc => Sys2Proof.Machine.execOpbCqpost e ecc s
  | .opbCrypt e ecc => Sys2Proof.Machine.execOpbCrypt e ecc s
  | .opbEvt e ecc => Sys2Proof.Machine.execOpbEvt e ecc s
  | .opbCnt e ecc => Sys2Proof.Machine.execOpbCnt e ecc s
  | .opbEret e ecc => Sys2Proof.Machine.execOpbEret e ecc s
  | .opbDone e ecc => Sys2Proof.Machine.execOpbDone e ecc s
  | .opbComplete t o => Sys2Proof.Machine.execOpbComplete t o s
  | .waitTimeout t => Sys2Proof.Machine.execWaitTimeout t s
  | .packetDispatch e => Sys2Proof.Machine.execPacketDispatch e s
  | .engRun r e => Sys2Proof.Machine.execEngRun r e s
  | .engStop r e => Sys2Proof.Machine.execEngStop r e s
  | .engTest r e => Sys2Proof.Machine.execEngTest r e s
  | .engReadmit r e => Sys2Proof.Machine.execEngReadmit r e s
  | .engineHaltDone e => Sys2Proof.Machine.execEngineHaltDone e s
  | .engineHaltTimeout e => Sys2Proof.Machine.execEngineHaltTimeout e s
  | .engineReturnDone e => Sys2Proof.Machine.execEngineReturnDone e s
  | .engineReturnTimeout e => Sys2Proof.Machine.execEngineReturnTimeout e s
  | .csParityError e => Sys2Proof.Machine.execCsParityError e s
  | .csWindowWrite r e o d => Sys2Proof.Machine.execCsWindowWrite r e o d s
  | .ctxWindowWrite r e o d poison => Sys2Proof.Machine.execCtxWindowWrite r e o d poison s
  | .csImageWrite r e v => Sys2Proof.Machine.execCsImageWrite r e v s
  | .csErrInj r e v => Sys2Proof.Machine.execCsErrInj r e v s
  | .portModeChange r v => Sys2Proof.Machine.execPortModeChange r v s
  | .laneFail n => Sys2Proof.Machine.execLaneFail n s
  | .portLinkUp p => Sys2Proof.Machine.execPortLinkUp p s
  | .portLinkDown p => Sys2Proof.Machine.execPortLinkDown p s
  | .frameReceive p d => Sys2Proof.Machine.execFrameReceive p d s
  | .flowCacheMissFill k => Sys2Proof.Machine.execFlowCacheMissFill k s
  | .cutThroughDispatch p d => Sys2Proof.Machine.execCutThroughDispatch p d s
  | .frameTailArrival p d => Sys2Proof.Machine.execFrameTailArrival p d s
  | .fcInv r v => Sys2Proof.Machine.execFcInv r v s
  | .pfcRefresh p c => Sys2Proof.Machine.execPfcRefresh p c s
  | .pfcFrameReceive p en quanta => Sys2Proof.Machine.execPfcFrameReceive p en quanta s
  | .pfcPauseExpire p c => Sys2Proof.Machine.execPfcPauseExpire p c s
  | .sendFetch => Sys2Proof.Machine.execSendFetch s
  | .shapeApply => Sys2Proof.Machine.execShapeApply s
  | .frameTransmit p => Sys2Proof.Machine.execFrameTransmit p s
  | .txtsPop r p => Sys2Proof.Machine.execTxtsPop r p s
  | .injProdWrite r n v => Sys2Proof.Machine.execInjProdWrite r n v s
  | .injectionConsume n => Sys2Proof.Machine.execInjectionConsume n s
  | .keyCommit r => Sys2Proof.Machine.execKeyCommit r s
  | .admSqTailWrite l v => Sys2Proof.Machine.execAdmSqTailWrite l v s
  | .admCqHeadWrite l v => Sys2Proof.Machine.execAdmCqHeadWrite l v s
  | .admCtlWrite l v => Sys2Proof.Machine.execAdmCtlWrite l v s
  | .adminCommandFetch l => Sys2Proof.Machine.execAdminCommandFetch l s
  | .tiCreate l => Sys2Proof.Machine.execTiCreate l s
  | .tiDestroy l => Sys2Proof.Machine.execTiDestroy l s
  | .tiReset l => Sys2Proof.Machine.execTiReset l s
  | .bindPasid l => Sys2Proof.Machine.execBindPasid l s
  | .setQpCount l => Sys2Proof.Machine.execSetQpCount l s
  | .qpConfig l => Sys2Proof.Machine.execQpConfig l s
  | .qpDisable l => Sys2Proof.Machine.execQpDisable l s
  | .setCtxQuota l => Sys2Proof.Machine.execSetCtxQuota l s
  | .setBw l => Sys2Proof.Machine.execSetBw l s
  | .setBufQuota l => Sys2Proof.Machine.execSetBufQuota l s
  | .setVectors l => Sys2Proof.Machine.execSetVectors l s
  | .setTelem l => Sys2Proof.Machine.execSetTelem l s
  | .setFcast l => Sys2Proof.Machine.execSetFcast l s
  | .keyWrite l => Sys2Proof.Machine.execKeyWrite l s
  | .keyClear l => Sys2Proof.Machine.execKeyClear l s
  | .resizeApply l => Sys2Proof.Machine.execResizeApply l s
  | .contextDrain l => Sys2Proof.Machine.execContextDrain l s
  | .drainTimeout n => Sys2Proof.Machine.execDrainTimeout n s
  | .tiResetThreadTimeout t => Sys2Proof.Machine.execTiResetThreadTimeout t s
  | .tiResetComplete n => Sys2Proof.Machine.execTiResetComplete n s
  | .tiDestroyComplete n => Sys2Proof.Machine.execTiDestroyComplete n s
  | .sqTailDoorbell l n q v whole => Sys2Proof.Machine.execSqTailDoorbell l n q v whole s
  | .cqHeadDoorbell l n q v whole => Sys2Proof.Machine.execCqHeadDoorbell l n q v whole s
  | .rqTailDoorbell l n q v whole => Sys2Proof.Machine.execRqTailDoorbell l n q v whole s
  | .cqModTimeout n q => Sys2Proof.Machine.execCqModTimeout n q s
  | .atsTranslationCompletion tag x => Sys2Proof.Machine.execAtsTranslationCompletion tag x s
  | .priResponse j => Sys2Proof.Machine.execPriResponse j s
  | .atsInvalidationRequest l itag pasid base size => Sys2Proof.Machine.execAtsInvalidationRequest l itag pasid base size s
  | .atsInvalidationComplete l itag => Sys2Proof.Machine.execAtsInvalidationComplete l itag s
  | .ctxoDataWrite r v => Sys2Proof.Machine.execCtxoDataWrite r v s
  | .grpCtlWrite r g v => Sys2Proof.Machine.execGrpCtlWrite r g v s
  | .mclkFault g => Sys2Proof.Machine.execMclkFault g s
  | .mclkQualified g => Sys2Proof.Machine.execMclkQualified g s
  | .channelOutput n bits => Sys2Proof.Machine.execChannelOutput n bits s
  | .chCfgWrite r n v => Sys2Proof.Machine.execChCfgWrite r n v s
  | .chLastRead r n => Sys2Proof.Machine.execChLastRead r n s
  | .ssetTrig r n => Sys2Proof.Machine.execSsetTrig r n s
  | .ssetCfgWrite r n v => Sys2Proof.Machine.execSsetCfgWrite r n v s
  | .sampleFlitWrite n => Sys2Proof.Machine.execSampleFlitWrite n s
  | .sampleFlitError n code => Sys2Proof.Machine.execSampleFlitError n code s
  | .tripOutput k bits => Sys2Proof.Machine.execTripOutput k bits s
  | .trippedClear r k => Sys2Proof.Machine.execTrippedClear r k s
  | .tripCfgWrite r k v => Sys2Proof.Machine.execTripCfgWrite r k v s
  | .eviSample n raw => Sys2Proof.Machine.execEviSample n raw s
  | .eviLevelAccept n => Sys2Proof.Machine.execEviLevelAccept n s
  | .eviFreqWindow => Sys2Proof.Machine.execEviFreqWindow s
  | .eviFreqWinWrite r v => Sys2Proof.Machine.execEviFreqWinWrite r v s
  | .eviStuck n => Sys2Proof.Machine.execEviStuck n s
  | .eviIrqGapEnd n => Sys2Proof.Machine.execEviIrqGapEnd n s
  | .eviEnable r n v => Sys2Proof.Machine.execEviEnable r n v s
  | .eviCountRead r n => Sys2Proof.Machine.execEviCountRead r n s
  | .sampleInstant n => Sys2Proof.Machine.execSampleInstant n s
  | .loopEnable r n v => Sys2Proof.Machine.execLoopEnable r n v s
  | .loopDisable r n => Sys2Proof.Machine.execLoopDisable r n s
  | .loopArm r n => Sys2Proof.Machine.execLoopArm r n s
  | .loopDeadline n => Sys2Proof.Machine.execLoopDeadline n s
  | .pwmShadowWrite r m per v => Sys2Proof.Machine.execPwmShadowWrite r m per v s
  | .pwmEnable r m v => Sys2Proof.Machine.execPwmEnable r m v s
  | .pwmPeriodBoundary m => Sys2Proof.Machine.execPwmPeriodBoundary m s
  | .brkSet r v => Sys2Proof.Machine.execBrkSet r v s
  | .brkRel r v => Sys2Proof.Machine.execBrkRel r v s
  | .brakeAutoRelease b => Sys2Proof.Machine.execBrakeAutoRelease b s
  | .forecastEvent g => Sys2Proof.Machine.execForecastEvent g s
  | .pintPeriodic => Sys2Proof.Machine.execPintPeriodic s
  | .pintGapExpire => Sys2Proof.Machine.execPintGapExpire s
  | .pintDisable r => Sys2Proof.Machine.execPintDisable r s
  | .telPeriodicSample n => Sys2Proof.Machine.execTelPeriodicSample n s
  | .blockFlushTimeout n => Sys2Proof.Machine.execBlockFlushTimeout n s
  | .strCfgWrite r n k v => Sys2Proof.Machine.execStrCfgWrite r n k v s
  | .recordSend t => Sys2Proof.Machine.execRecordSend t s
  | .telFrameHoldExpire t => Sys2Proof.Machine.execTelFrameHoldExpire t s
  | .gtStepWrite r v => Sys2Proof.Machine.execGtStepWrite r v s
  | .gtStepApply => Sys2Proof.Machine.execGtStepApply s
  | .gtRateWrite r v => Sys2Proof.Machine.execGtRateWrite r v s
  | .gtSetHiWrite r v => Sys2Proof.Machine.execGtSetHiWrite r v s
  | .gtSetApply => Sys2Proof.Machine.execGtSetApply s
  | .add p b rd ra rb => Sys2Proof.Machine.execAdd p b rd ra rb s
  | .sub p b rd ra rb => Sys2Proof.Machine.execSub p b rd ra rb s
  | .and p b rd ra rb => Sys2Proof.Machine.execAnd p b rd ra rb s
  | .or p b rd ra rb => Sys2Proof.Machine.execOr p b rd ra rb s
  | .xor p b rd ra rb => Sys2Proof.Machine.execXor p b rd ra rb s
  | .andn p b rd ra rb => Sys2Proof.Machine.execAndn p b rd ra rb s
  | .shl p b rd ra rb => Sys2Proof.Machine.execShl p b rd ra rb s
  | .shr p b rd ra rb => Sys2Proof.Machine.execShr p b rd ra rb s
  | .sar p b rd ra rb => Sys2Proof.Machine.execSar p b rd ra rb s
  | .rol p b rd ra rb => Sys2Proof.Machine.execRol p b rd ra rb s
  | .slt p b rd ra rb => Sys2Proof.Machine.execSlt p b rd ra rb s
  | .sltu p b rd ra rb => Sys2Proof.Machine.execSltu p b rd ra rb s
  | .mul p b rd ra rb => Sys2Proof.Machine.execMul p b rd ra rb s
  | .mulh p b rd ra rb => Sys2Proof.Machine.execMulh p b rd ra rb s
  | .mulhu p b rd ra rb => Sys2Proof.Machine.execMulhu p b rd ra rb s
  | .div p b rd ra rb => Sys2Proof.Machine.execDiv p b rd ra rb s
  | .divu p b rd ra rb => Sys2Proof.Machine.execDivu p b rd ra rb s
  | .rem p b rd ra rb => Sys2Proof.Machine.execRem p b rd ra rb s
  | .remu p b rd ra rb => Sys2Proof.Machine.execRemu p b rd ra rb s
  | .min p b rd ra rb => Sys2Proof.Machine.execMin p b rd ra rb s
  | .max p b rd ra rb => Sys2Proof.Machine.execMax p b rd ra rb s
  | .minu p b rd ra rb => Sys2Proof.Machine.execMinu p b rd ra rb s
  | .maxu p b rd ra rb => Sys2Proof.Machine.execMaxu p b rd ra rb s
  | .clz p b rd ra rb => Sys2Proof.Machine.execClz p b rd ra rb s
  | .popc p b rd ra rb => Sys2Proof.Machine.execPopc p b rd ra rb s
  | .bswap p b rd ra rb => Sys2Proof.Machine.execBswap p b rd ra rb s
  | .sextb p b rd ra rb => Sys2Proof.Machine.execSextb p b rd ra rb s
  | .sexth p b rd ra rb => Sys2Proof.Machine.execSexth p b rd ra rb s
  | .extr p b rd ra rb => Sys2Proof.Machine.execExtr p b rd ra rb s
  | .ins p b rd ra rb => Sys2Proof.Machine.execIns p b rd ra rb s
  | .addi p b rd ra imm => Sys2Proof.Machine.execAddi p b rd ra imm s
  | .andi p b rd ra imm => Sys2Proof.Machine.execAndi p b rd ra imm s
  | .ori p b rd ra imm => Sys2Proof.Machine.execOri p b rd ra imm s
  | .xori p b rd ra imm => Sys2Proof.Machine.execXori p b rd ra imm s
  | .lui p b rd ra imm => Sys2Proof.Machine.execLui p b rd ra imm s
  | .slti p b rd ra imm => Sys2Proof.Machine.execSlti p b rd ra imm s
  | .sltiu p b rd ra imm => Sys2Proof.Machine.execSltiu p b rd ra imm s
  | .shi p b rd ra imm => Sys2Proof.Machine.execShi p b rd ra imm s
  | .ldb p b m => Sys2Proof.Machine.execLdb p b m s
  | .ldbu p b m => Sys2Proof.Machine.execLdbu p b m s
  | .ldh p b m => Sys2Proof.Machine.execLdh p b m s
  | .ldhu p b m => Sys2Proof.Machine.execLdhu p b m s
  | .ldw p b m => Sys2Proof.Machine.execLdw p b m s
  | .stb p b m => Sys2Proof.Machine.execStb p b m s
  | .sth p b m => Sys2Proof.Machine.execSth p b m s
  | .stw p b m => Sys2Proof.Machine.execStw p b m s
  | .loadResponse p b pa poison => Sys2Proof.Machine.execLoadResponse p b pa poison s
  | .storeBusError p b va code => Sys2Proof.Machine.execStoreBusError p b va code s
  | .ldm p b rd ra mask => Sys2Proof.Machine.execLdm p b rd ra mask s
  | .stm p b rd ra mask => Sys2Proof.Machine.execStm p b rd ra mask s
  | .mfs p b rd ra sr => Sys2Proof.Machine.execMfs p b rd ra sr s
  | .mts p b rd ra sr => Sys2Proof.Machine.execMts p b rd ra sr s
  | .rpt p b rd ra imm => Sys2Proof.Machine.execRpt p b rd ra imm s
  | .rptr p b rd ra rb => Sys2Proof.Machine.execRptr p b rd ra rb s
  | .beq p b annul predT ra disp => Sys2Proof.Machine.execBeq p b annul predT ra disp s
  | .bne p b annul predT ra disp => Sys2Proof.Machine.execBne p b annul predT ra disp s
  | .blt p b annul predT ra disp => Sys2Proof.Machine.execBlt p b annul predT ra disp s
  | .bge p b annul predT ra disp => Sys2Proof.Machine.execBge p b annul predT ra disp s
  | .ble p b annul predT ra disp => Sys2Proof.Machine.execBle p b annul predT ra disp s
  | .bgt p b annul predT ra disp => Sys2Proof.Machine.execBgt p b annul predT ra disp s
  | .bdnz p b annul predT ra disp => Sys2Proof.Machine.execBdnz p b annul predT ra disp s
  | .bra p b annul predT ra disp => Sys2Proof.Machine.execBra p b annul predT ra disp s
  | .j p b disp => Sys2Proof.Machine.execJ p b disp s
  | .call p b disp => Sys2Proof.Machine.execCall p b disp s
  | .jr p b rd ra rb => Sys2Proof.Machine.execJr p b rd ra rb s
  | .callr p b rd ra rb => Sys2Proof.Machine.execCallr p b rd ra rb s
  | .aadd p b rd ra rb => Sys2Proof.Machine.execAadd p b rd ra rb s
  | .aswp p b rd ra rb => Sys2Proof.Machine.execAswp p b rd ra rb s
  | .acas p b rd ra rb => Sys2Proof.Machine.execAcas p b rd ra rb s
  | .ldx p b rd ra rb => Sys2Proof.Machine.execLdx p b rd ra rb s
  | .stx p b rd ra rb => Sys2Proof.Machine.execStx p b rd ra rb s
  | .wfe p b rd ra rb => Sys2Proof.Machine.execWfe p b rd ra rb s
  | .sev p b rd ra rb => Sys2Proof.Machine.execSev p b rd ra rb s
  | .waitt p b rd ra rb => Sys2Proof.Machine.execWaitt p b rd ra rb s
  | .waittDue p b => Sys2Proof.Machine.execWaittDue p b s
  | .tcmpFire p b n => Sys2Proof.Machine.execTcmpFire p b n s
  | .rotPlus p b rd ra rb => Sys2Proof.Machine.execRotPlus p b rd ra rb s
  | .rotMinus p b rd ra rb => Sys2Proof.Machine.execRotMinus p b rd ra rb s
  | .trap p b rd ra rb => Sys2Proof.Machine.execTrap p b rd ra rb s
  | .eret p b rd ra rb => Sys2Proof.Machine.execEret p b rd ra rb s
  | .brk p b rd ra rb => Sys2Proof.Machine.execBrk p b rd ra rb s
  | .fenceFull p b ra rb => Sys2Proof.Machine.execFenceFull p b ra rb s
  | .fenceStore p b ra rb => Sys2Proof.Machine.execFenceStore p b ra rb s
  | .fenceLoad p b ra rb => Sys2Proof.Machine.execFenceLoad p b ra rb s
  | .fenceI p b rd ra rb => Sys2Proof.Machine.execFenceI p b rd ra rb s
  | .tlbiAll p b ra rb => Sys2Proof.Machine.execTlbiAll p b ra rb s
  | .tlbiAsid p b ra rb => Sys2Proof.Machine.execTlbiAsid p b ra rb s
  | .tlbiVa p b ra rb => Sys2Proof.Machine.execTlbiVa p b ra rb s
  | .tlbiVmid p b ra rb => Sys2Proof.Machine.execTlbiVmid p b ra rb s
  | .tlbiIpa p b ra rb => Sys2Proof.Machine.execTlbiIpa p b ra rb s
  | .crangeClean p b ra rb => Sys2Proof.Machine.execCrangeClean p b ra rb s
  | .crangeInv p b ra rb => Sys2Proof.Machine.execCrangeInv p b ra rb s
  | .crangeCleanInv p b ra rb => Sys2Proof.Machine.execCrangeCleanInv p b ra rb s
  | .mfb p b rd ra rb => Sys2Proof.Machine.execMfb p b rd ra rb s
  | .mtb p b rd ra rb => Sys2Proof.Machine.execMtb p b rd ra rb s
  | .macc p b rd ra rb => Sys2Proof.Machine.execMacc p b rd ra rb s
  | .msub p b rd ra rb => Sys2Proof.Machine.execMsub p b rd ra rb s
  | .macu p b rd ra rb => Sys2Proof.Machine.execMacu p b rd ra rb s
  | .mack p b rd ra rb => Sys2Proof.Machine.execMack p b rd ra rb s
  | .macl p b rd ra rb => Sys2Proof.Machine.execMacl p b rd ra rb s
  | .mdot2 p b rd ra rb => Sys2Proof.Machine.execMdot2 p b rd ra rb s
  | .mclr p b rd ra rb => Sys2Proof.Machine.execMclr p b rd ra rb s
  | .mrd p b rd ra rb => Sys2Proof.Machine.execMrd p b rd ra rb s
  | .mrdl p b rd ra rb => Sys2Proof.Machine.execMrdl p b rd ra rb s
  | .mrdh p b rd ra rb => Sys2Proof.Machine.execMrdh p b rd ra rb s
  | .mwrl p b rd ra rb => Sys2Proof.Machine.execMwrl p b rd ra rb s
  | .mwrh p b rd ra rb => Sys2Proof.Machine.execMwrh p b rd ra rb s
  | .mkw p b rd ra rb => Sys2Proof.Machine.execMkw p b rd ra rb s
  | .mkr p b rd ra rb => Sys2Proof.Machine.execMkr p b rd ra rb s
  | .quantumExpire p => Sys2Proof.Machine.execQuantumExpire p s
  | .bankEnable r p k bpri => Sys2Proof.Machine.execBankEnable r p k bpri s
  | .bankDisable r p k bpri => Sys2Proof.Machine.execBankDisable r p k bpri s
  | .erRaise r q src => Sys2Proof.Machine.execErRaise r q src s
  | .erRouteWrite r q src v => Sys2Proof.Machine.execErRouteWrite r q src v s
  | .erClaim r q k => Sys2Proof.Machine.execErClaim r q k s
  | .windowSpill p b => Sys2Proof.Machine.execWindowSpill p b s
  | .windowFill p b => Sys2Proof.Machine.execWindowFill p b s
  | .tableWalk p b va acc => Sys2Proof.Machine.execTableWalk p b va acc s
  | .l2WaysWrite r t v => Sys2Proof.Machine.execL2WaysWrite r t v s
  | .wayConversionDone t => Sys2Proof.Machine.execWayConversionDone t s
  | .gets a l e => Sys2Proof.Machine.execGets a l e s
  | .getm a l e => Sys2Proof.Machine.execGetm a l e s
  | .upg a l e => Sys2Proof.Machine.execUpg a l e s
  | .putm a l => Sys2Proof.Machine.execPutm a l s
  | .puto a l => Sys2Proof.Machine.execPuto a l s
  | .rdonce m l e => Sys2Proof.Machine.execRdonce m l e s
  | .wrfull m l d poison => Sys2Proof.Machine.execWrfull m l d poison s
  | .wrpart m l off d e => Sys2Proof.Machine.execWrpart m l off d e s
  | .atom m l off op x y e => Sys2Proof.Machine.execAtom m l off op x y e s
  | .fwds t l => Sys2Proof.Machine.execFwds t l s
  | .fwdm t l => Sys2Proof.Machine.execFwdm t l s
  | .fwdrd t l => Sys2Proof.Machine.execFwdrd t l s
  | .fwdflush t l => Sys2Proof.Machine.execFwdflush t l s
  | .fwdkill t l => Sys2Proof.Machine.execFwdkill t l s
  | .inv t l => Sys2Proof.Machine.execInv t l s
  | .stash t l => Sys2Proof.Machine.execStash t l s
  | .data t l => Sys2Proof.Machine.execData t l s
  | .cmp t l => Sys2Proof.Machine.execCmp t l s
  | .retry t l => Sys2Proof.Machine.execRetry t l s
  | .retryReissue t l => Sys2Proof.Machine.execRetryReissue t l s
  | .retryHoldExpire l => Sys2Proof.Machine.execRetryHoldExpire l s
  | .putack t l => Sys2Proof.Machine.execPutack t l s
  | .stale t l => Sys2Proof.Machine.execStale t l s
  | .invack a l => Sys2Proof.Machine.execInvack a l s
  | .fwdack a l => Sys2Proof.Machine.execFwdack a l s
  | .stashack a l => Sys2Proof.Machine.execStashack a l s
  | .stashnack a l => Sys2Proof.Machine.execStashnack a l s
  | .done a l => Sys2Proof.Machine.execDone a l s
  | .minHoldEnd t l => Sys2Proof.Machine.execMinHoldEnd t l s
  | .homeTxnExpire l => Sys2Proof.Machine.execHomeTxnExpire l s
  | .spareResume t => Sys2Proof.Machine.execSpareResume t s
  | .readmitTest r p => Sys2Proof.Machine.execReadmitTest r p s
  | .readmitAdmit r p => Sys2Proof.Machine.execReadmitAdmit r p s
  | .readmitReject r p => Sys2Proof.Machine.execReadmitReject r p s
  | .ckptNow r p banks => Sys2Proof.Machine.execCkptNow r p banks s
  | .sramBankFail a b => Sys2Proof.Machine.execSramBankFail a b s
  | .sramRepairDone a b lost => Sys2Proof.Machine.execSramRepairDone a b lost s
  | .wdExpire p => Sys2Proof.Machine.execWdExpire p s
  | .twdExpire t => Sys2Proof.Machine.execTwdExpire t s
  | .dwdExpire => Sys2Proof.Machine.execDwdExpire s
  | .wdKick r p v => Sys2Proof.Machine.execWdKick r p v s
  | .twdKick r t v => Sys2Proof.Machine.execTwdKick r t v s
  | .dwdKick r v => Sys2Proof.Machine.execDwdKick r v s
  | .mclogPop r => Sys2Proof.Machine.execMclogPop r s
  | .gorseBoot flash => Sys2Proof.Machine.execGorseBoot flash s
  | .bootHandover => Sys2Proof.Machine.execBootHandover s
  | .keyReq r v => Sys2Proof.Machine.execKeyReq r v s
  | .keyDerivationDone => Sys2Proof.Machine.execKeyDerivationDone s
  | .keyOutRead r w => Sys2Proof.Machine.execKeyOutRead r w s
  | .keyLock r => Sys2Proof.Machine.execKeyLock r s
  | .attestReq r => Sys2Proof.Machine.execAttestReq r s
  | .attestDone => Sys2Proof.Machine.execAttestDone s
  | .csReload r e => Sys2Proof.Machine.execCsReload r e s
  | .csReloadDone => Sys2Proof.Machine.execCsReloadDone s
  | .pushGo l copy flash => Sys2Proof.Machine.execPushGo l copy flash s
  | .pushWaitTimeout flash => Sys2Proof.Machine.execPushWaitTimeout flash s
  | .bypass => Sys2Proof.Machine.execBypass s
  | .idcode => Sys2Proof.Machine.execIdcode s
  | .samplePreload d => Sys2Proof.Machine.execSamplePreload d s
  | .extest d => Sys2Proof.Machine.execExtest d s
  | .regxfer o w => Sys2Proof.Machine.execRegxfer o w s
  | .authReq r tap v => Sys2Proof.Machine.execAuthReq r tap v s
  | .authDone => Sys2Proof.Machine.execAuthDone s
  | .dreRead r k wide => Sys2Proof.Machine.execDreRead r k wide s
  | .dreWrite r k wide => Sys2Proof.Machine.execDreWrite r k wide s
  | .dreResponse k => Sys2Proof.Machine.execDreResponse k s
  | .dbgAttach r tap => Sys2Proof.Machine.execDbgAttach r tap s
  | .dbgDetach r tap => Sys2Proof.Machine.execDbgDetach r tap s
  | .freezeWrite r tap on => Sys2Proof.Machine.execFreezeWrite r tap on s
  | .halt r p banks => Sys2Proof.Machine.execHalt r p banks s
  | .step r p banks => Sys2Proof.Machine.execStep r p banks s
  | .traceFlitTimeout k => Sys2Proof.Machine.execTraceFlitTimeout k s
  | .traceTsTimer k => Sys2Proof.Machine.execTraceTsTimer k s
  | .ringLineTimeout => Sys2Proof.Machine.execRingLineTimeout s
  | .frTrig r t => Sys2Proof.Machine.execFrTrig r t s
  | .frStop t => Sys2Proof.Machine.execFrStop t s
  | .pllLock n => Sys2Proof.Machine.execPllLock n s
  | .pllLockLost n => Sys2Proof.Machine.execPllLockLost n s
  | .peatDiscipline within => Sys2Proof.Machine.execPeatDiscipline within s
  | .refclkLoss => Sys2Proof.Machine.execRefclkLoss s
  | .peatClkinFail => Sys2Proof.Machine.execPeatClkinFail s
  | .wakeAlarm => Sys2Proof.Machine.execWakeAlarm s
  | .wakeNLow => Sys2Proof.Machine.execWakeNLow s
  | .perstDeassert l => Sys2Proof.Machine.execPerstDeassert l s
  | .peatTripWindow k ones => Sys2Proof.Machine.execPeatTripWindow k ones s
  | .mainPgRise => Sys2Proof.Machine.execMainPgRise s
  | .pgLate => Sys2Proof.Machine.execPgLate s
  | .coldReset straps io33 => Sys2Proof.Machine.execColdReset straps io33 s
  | .warmReset r => Sys2Proof.Machine.execWarmReset r s
  | .perstAssert l => Sys2Proof.Machine.execPerstAssert l s
  | .functionLevelReset l => Sys2Proof.Machine.execFunctionLevelReset l s
  | .pcieLinkDown l => Sys2Proof.Machine.execPcieLinkDown l s
  | .supplyUndervoltage k => Sys2Proof.Machine.execSupplyUndervoltage k s
  | .waitTimeReached t => Sys2Proof.Machine.execWaitTimeReached t s
  | .dormantEntryComplete => Sys2Proof.Machine.execDormantEntryComplete s
  | .pcieLinkUp l => Sys2Proof.Machine.execPcieLinkUp l s
  | .pcieCompletionArrival tag d poison => Sys2Proof.Machine.execPcieCompletionArrival tag d poison s
  | .pcieCompletionTimeout tag => Sys2Proof.Machine.execPcieCompletionTimeout tag s
  | .refclkReturn => Sys2Proof.Machine.execRefclkReturn s
  | .modulatorClockFirstEdge g => Sys2Proof.Machine.execModulatorClockFirstEdge g s
  | .rcRead r a => Sys2Proof.Machine.execRcRead r a s
  | .configSpaceWrite l bme msixEn pasidEn atsEn => Sys2Proof.Machine.execConfigSpaceWrite l bme msixEn pasidEn atsEn s
  | .supplyRecovery straps io33 => Sys2Proof.Machine.execSupplyRecovery straps io33 s

end Sys2Proof.Machine
end

