-- ==== Sys2Proof/Machine/Step.lean ====
section
/-! DEFINITION. Machine/Step.lean: one step of the block: the oldest waiting command, or, with none waiting, the passing of time. -/

namespace Sys2Proof.Machine

/-- With no command waiting the block idles and time passes: 1 ns, and in DORMANT, where only Peat's 2 MHz clock runs, 500 ns (R30;
a DESIGN CHOICE of the model). -/
def State.tick (s : State) : State :=
  let n := if s.mode.mode = .dormant then 500 else 1
  { s with now := (s.now + n) % 2 ^ 64, mono := s.mono + n }

/-- Take the command at the front of the queue and run it with the rest of the queue. -/
def step (s : State) : Host.Outcome State Fault Refusal :=
  match s.pending with
  | [] => .next s.tick
  | c :: r => exec c { s with pending := r }

/-- The state with the command that a table word spells put at the front of its queue; unchanged where it spells none. -/
def State.withFetchWord (s : State) (nbits w : Nat) : State :=
  match decodeTableWord nbits w with
  | some c => { s with pending := c :: s.pending }
  | none => s

end Sys2Proof.Machine
end

