-- ==== Sys2Proof/WellFormed.lean ====
section
/-! DEFINITION. WellFormed.lean: what the types of a command's operands leave unsaid: units, arrays, request sizes and images that
the hardware has (R10, R11, R43, R352). The meanings are total all the same. -/

namespace Sys2Proof

/-- An array of R352. -/
def arrOk : Machine.SramArr → Bool
  | .l2 t => decide (t < 28)
  | .dir c => decide (c < 32)
  | .ctx g => decide (g < 16)
  | .fcache q => decide (q < 4)
  | .gorse => true

/-- A request fits one flit (R43); an atomic operation is one of three (R247). -/
def reqOk : TReq → Bool
  | .read n => decide (1 ≤ n ∧ n ≤ 64)
  | .write d _ => decide (1 ≤ d.length ∧ d.length ≤ 64)
  | .fetch n => decide (1 ≤ n ∧ n ≤ 64)
  | .atomic op _ _ => decide (op < 3)

/-- The data of a completion, where it carries data. -/
def bytesOk : Option (List Byte) → Bool
  | some d => decide (d.length ≤ 4096)
  | none => true

/-- An image by segments in rising, disjoint order. -/
def segsOk : List (Nat × List Byte) → Bool
  | [] => true
  | [_] => true
  | (a, d) :: (b, e) :: r => decide (a + d.length ≤ b) && segsOk ((b, e) :: r)

/-- The operands of a command name things the hardware has. -/
def Instr.wf : Instr → Bool
  | .registerWrite _ _ _ => true
  | .loReadLatch _ _ => true
  | .hiReadLatched _ _ => true
  | .cfgDigestRead _ u => u.valid
  | .unitReset _ u _ => u.valid
  | .holdWrite _ u _ => u.valid
  | .unitEnterIdle u => u.valid
  | .unitEnterRetain u => u.valid
  | .unitEnterOff u => u.valid
  | .unitPowerUpDone u => u.valid
  | .energyUpdate => true
  | .healthTick silent => silent.all (fun u => u.valid)
  | .unitDeclaredDead u => u.valid
  | .recoveryEntry => true
  | .obBaseApply _ _ => true
  | .outboundAccess _ _ _ w _ => bytesOk w
  | .bar4Read _ _ => true
  | .bar4Write _ _ _ => true
  | .modeReqDormant _ _ => true
  | .modeReqSteady _ _ => true
  | .modeReqSurge _ _ => true
  | .modeReqMaintenance _ _ => true
  | .modeReqUnrequestable _ _ _ => true
  | .modeReqPlanConfirm _ _ => true
  | .loopEnWrite _ _ => true
  | .dpEnClear _ => true
  | .dpEnSet _ => true
  | .pathQuiesced => true
  | .planLoadDone => true
  | .modeSwap => true
  | .predictorClearDone _ => true
  | .planVReloadDone => true
  | .serviceClockSwitch => true
  | .tussockPowerUpDone _ => true
  | .linkFlitReceive _ _ _ => true
  | .linkDisWrite _ _ _ _ => true
  | .targetRequest _ _ _ k _ => reqOk k
  | .atabWrite _ _ _ => true
  | .mgmtBroadcast => true
  | .violPop _ _ => true
  | .semAcquire _ _ _ => true
  | .semRel _ _ _ => true
  | .txnTimeoutExpire _ _ => true
  | .lateResponseDiscard _ _ => true
  | .pmonClr _ _ _ _ => true
  | .pmonTraceEmit _ _ => true
  | .regionEntryWrite _ _ _ _ => true
  | .regionLock _ _ _ => true
  | .scrubRead _ _ => true
  | .selfRefreshEntry _ => true
  | .selfRefreshExitDone _ => true
  | .refresh _ _ => true
  | .channelInitDone _ => true
  | .opaNop _ _ => true
  | .opaMov _ _ => true
  | .opaAdd _ _ => true
  | .opaSub _ _ => true
  | .opaAnd _ _ => true
  | .opaOr _ _ => true
  | .opaXor _ _ => true
  | .opaAndn _ _ => true
  | .opaShl _ _ => true
  | .opaShr _ _ => true
  | .opaSar _ _ => true
  | .opaRol _ _ => true
  | .opaExtr _ _ => true
  | .opaIns _ _ => true
  | .opaBswap _ _ => true
  | .opaClz _ _ => true
  | .opaPopc _ _ => true
  | .opaMinu _ _ => true
  | .opaMaxu _ _ => true
  | .opaSel _ _ => true
  | .opaMul16 _ _ => true
  | .opaCrc _ _ => true
  | .opbLd _ _ => true
  | .opbSt _ _ => true
  | .opbAtom _ _ => true
  | .opbTlook _ _ => true
  | .opbCtxspill _ _ => true
  | .opbCtxfill _ _ => true
  | .opbPktrd _ _ => true
  | .opbPktwr _ _ => true
  | .opbPktfwd _ _ => true
  | .opbPktdrop _ _ => true
  | .opbPktexc _ _ => true
  | .opbDmaw _ _ => true
  | .opbDmar _ _ => true
  | .opbCqpost _ _ => true
  | .opbCrypt _ _ => true
  | .opbEvt _ _ => true
  | .opbCnt _ _ => true
  | .opbEret _ _ => true
  | .opbDone _ _ => true
  | .opbComplete _ _ => true
  | .waitTimeout _ => true
  | .packetDispatch _ => true
  | .engRun _ _ => true
  | .engStop _ _ => true
  | .engTest _ _ => true
  | .engReadmit _ _ => true
  | .engineHaltDone _ => true
  | .engineHaltTimeout _ => true
  | .engineReturnDone _ => true
  | .engineReturnTimeout _ => true
  | .csParityError _ => true
  | .csWindowWrite _ _ _ d => decide (d.length ≤ 64)
  | .ctxWindowWrite _ _ _ d _ => decide (d.length ≤ 64)
  | .csImageWrite _ _ _ => true
  | .csErrInj _ _ _ => true
  | .portModeChange _ _ => true
  | .laneFail _ => true
  | .portLinkUp _ => true
  | .portLinkDown _ => true
  | .frameReceive _ d => decide (d.length ≤ 16384)
  | .flowCacheMissFill _ => true
  | .cutThroughDispatch _ d => decide (d.length ≤ 16384)
  | .frameTailArrival _ d => decide (d.length ≤ 16384)
  | .fcInv _ _ => true
  | .pfcRefresh _ _ => true
  | .pfcFrameReceive _ _ quanta => decide (quanta.length = 8)
  | .pfcPauseExpire _ _ => true
  | .sendFetch => true
  | .shapeApply => true
  | .frameTransmit _ => true
  | .txtsPop _ _ => true
  | .injProdWrite _ _ _ => true
  | .injectionConsume _ => true
  | .keyCommit _ => true
  | .admSqTailWrite _ _ => true
  | .admCqHeadWrite _ _ => true
  | .admCtlWrite _ _ => true
  | .adminCommandFetch _ => true
  | .tiCreate _ => true
  | .tiDestroy _ => true
  | .tiReset _ => true
  | .bindPasid _ => true
  | .setQpCount _ => true
  | .qpConfig _ => true
  | .qpDisable _ => true
  | .setCtxQuota _ => true
  | .setBw _ => true
  | .setBufQuota _ => true
  | .setVectors _ => true
  | .setTelem _ => true
  | .setFcast _ => true
  | .keyWrite _ => true
  | .keyClear _ => true
  | .resizeApply _ => true
  | .contextDrain _ => true
  | .drainTimeout _ => true
  | .tiResetThreadTimeout _ => true
  | .tiResetComplete _ => true
  | .tiDestroyComplete _ => true
  | .sqTailDoorbell _ _ _ _ _ => true
  | .cqHeadDoorbell _ _ _ _ _ => true
  | .rqTailDoorbell _ _ _ _ _ => true
  | .cqModTimeout _ _ => true
  | .atsTranslationCompletion _ _ => true
  | .priResponse _ => true
  | .atsInvalidationRequest _ _ _ _ _ => true
  | .atsInvalidationComplete _ _ => true
  | .ctxoDataWrite _ _ => true
  | .grpCtlWrite _ _ _ => true
  | .mclkFault _ => true
  | .mclkQualified _ => true
  | .channelOutput _ _ => true
  | .chCfgWrite _ _ _ => true
  | .chLastRead _ _ => true
  | .ssetTrig _ _ => true
  | .ssetCfgWrite _ _ _ => true
  | .sampleFlitWrite _ => true
  | .sampleFlitError _ _ => true
  | .tripOutput _ _ => true
  | .trippedClear _ _ => true
  | .tripCfgWrite _ _ _ => true
  | .eviSample _ _ => true
  | .eviLevelAccept _ => true
  | .eviFreqWindow => true
  | .eviFreqWinWrite _ _ => true
  | .eviStuck _ => true
  | .eviIrqGapEnd _ => true
  | .eviEnable _ _ _ => true
  | .eviCountRead _ _ => true
  | .sampleInstant _ => true
  | .loopEnable _ _ _ => true
  | .loopDisable _ _ => true
  | .loopArm _ _ => true
  | .loopDeadline _ => true
  | .pwmShadowWrite _ _ _ _ => true
  | .pwmEnable _ _ _ => true
  | .pwmPeriodBoundary _ => true
  | .brkSet _ _ => true
  | .brkRel _ _ => true
  | .brakeAutoRelease _ => true
  | .forecastEvent _ => true
  | .pintPeriodic => true
  | .pintGapExpire => true
  | .pintDisable _ => true
  | .telPeriodicSample _ => true
  | .blockFlushTimeout _ => true
  | .strCfgWrite _ _ _ _ => true
  | .recordSend _ => true
  | .telFrameHoldExpire _ => true
  | .gtStepWrite _ _ => true
  | .gtStepApply => true
  | .gtRateWrite _ _ => true
  | .gtSetHiWrite _ _ => true
  | .gtSetApply => true
  | .add _ _ _ _ _ => true
  | .sub _ _ _ _ _ => true
  | .and _ _ _ _ _ => true
  | .or _ _ _ _ _ => true
  | .xor _ _ _ _ _ => true
  | .andn _ _ _ _ _ => true
  | .shl _ _ _ _ _ => true
  | .shr _ _ _ _ _ => true
  | .sar _ _ _ _ _ => true
  | .rol _ _ _ _ _ => true
  | .slt _ _ _ _ _ => true
  | .sltu _ _ _ _ _ => true
  | .mul _ _ _ _ _ => true
  | .mulh _ _ _ _ _ => true
  | .mulhu _ _ _ _ _ => true
  | .div _ _ _ _ _ => true
  | .divu _ _ _ _ _ => true
  | .rem _ _ _ _ _ => true
  | .remu _ _ _ _ _ => true
  | .min _ _ _ _ _ => true
  | .max _ _ _ _ _ => true
  | .minu _ _ _ _ _ => true
  | .maxu _ _ _ _ _ => true
  | .clz _ _ _ _ _ => true
  | .popc _ _ _ _ _ => true
  | .bswap _ _ _ _ _ => true
  | .sextb _ _ _ _ _ => true
  | .sexth _ _ _ _ _ => true
  | .extr _ _ _ _ _ => true
  | .ins _ _ _ _ _ => true
  | .addi _ _ _ _ _ => true
  | .andi _ _ _ _ _ => true
  | .ori _ _ _ _ _ => true
  | .xori _ _ _ _ _ => true
  | .lui _ _ _ _ _ => true
  | .slti _ _ _ _ _ => true
  | .sltiu _ _ _ _ _ => true
  | .shi _ _ _ _ _ => true
  | .ldb _ _ _ => true
  | .ldbu _ _ _ => true
  | .ldh _ _ _ => true
  | .ldhu _ _ _ => true
  | .ldw _ _ _ => true
  | .stb _ _ _ => true
  | .sth _ _ _ => true
  | .stw _ _ _ => true
  | .loadResponse _ _ _ _ => true
  | .storeBusError _ _ _ _ => true
  | .ldm _ _ _ _ _ => true
  | .stm _ _ _ _ _ => true
  | .mfs _ _ _ _ _ => true
  | .mts _ _ _ _ _ => true
  | .rpt _ _ _ _ _ => true
  | .rptr _ _ _ _ _ => true
  | .beq _ _ _ _ _ _ => true
  | .bne _ _ _ _ _ _ => true
  | .blt _ _ _ _ _ _ => true
  | .bge _ _ _ _ _ _ => true
  | .ble _ _ _ _ _ _ => true
  | .bgt _ _ _ _ _ _ => true
  | .bdnz _ _ _ _ _ _ => true
  | .bra _ _ _ _ _ _ => true
  | .j _ _ _ => true
  | .call _ _ _ => true
  | .jr _ _ _ _ _ => true
  | .callr _ _ _ _ _ => true
  | .aadd _ _ _ _ _ => true
  | .aswp _ _ _ _ _ => true
  | .acas _ _ _ _ _ => true
  | .ldx _ _ _ _ _ => true
  | .stx _ _ _ _ _ => true
  | .wfe _ _ _ _ _ => true
  | .sev _ _ _ _ _ => true
  | .waitt _ _ _ _ _ => true
  | .waittDue _ _ => true
  | .tcmpFire _ _ _ => true
  | .rotPlus _ _ _ _ _ => true
  | .rotMinus _ _ _ _ _ => true
  | .trap _ _ _ _ _ => true
  | .eret _ _ _ _ _ => true
  | .brk _ _ _ _ _ => true
  | .fenceFull _ _ _ _ => true
  | .fenceStore _ _ _ _ => true
  | .fenceLoad _ _ _ _ => true
  | .fenceI _ _ _ _ _ => true
  | .tlbiAll _ _ _ _ => true
  | .tlbiAsid _ _ _ _ => true
  | .tlbiVa _ _ _ _ => true
  | .tlbiVmid _ _ _ _ => true
  | .tlbiIpa _ _ _ _ => true
  | .crangeClean _ _ _ _ => true
  | .crangeInv _ _ _ _ => true
  | .crangeCleanInv _ _ _ _ => true
  | .mfb _ _ _ _ _ => true
  | .mtb _ _ _ _ _ => true
  | .macc _ _ _ _ _ => true
  | .msub _ _ _ _ _ => true
  | .macu _ _ _ _ _ => true
  | .mack _ _ _ _ _ => true
  | .macl _ _ _ _ _ => true
  | .mdot2 _ _ _ _ _ => true
  | .mclr _ _ _ _ _ => true
  | .mrd _ _ _ _ _ => true
  | .mrdl _ _ _ _ _ => true
  | .mrdh _ _ _ _ _ => true
  | .mwrl _ _ _ _ _ => true
  | .mwrh _ _ _ _ _ => true
  | .mkw _ _ _ _ _ => true
  | .mkr _ _ _ _ _ => true
  | .quantumExpire _ => true
  | .bankEnable _ _ _ _ => true
  | .bankDisable _ _ _ _ => true
  | .erRaise _ _ _ => true
  | .erRouteWrite _ _ _ _ => true
  | .erClaim _ _ _ => true
  | .windowSpill _ _ => true
  | .windowFill _ _ => true
  | .tableWalk _ _ _ _ => true
  | .l2WaysWrite _ _ _ => true
  | .wayConversionDone _ => true
  | .gets _ _ _ => true
  | .getm _ _ _ => true
  | .upg _ _ _ => true
  | .putm _ _ => true
  | .puto _ _ => true
  | .rdonce _ _ _ => true
  | .wrfull _ _ _ _ => true
  | .wrpart _ _ _ d _ => decide (d.length ≤ 64)
  | .atom _ _ _ _ _ _ _ => true
  | .fwds _ _ => true
  | .fwdm _ _ => true
  | .fwdrd _ _ => true
  | .fwdflush _ _ => true
  | .fwdkill _ _ => true
  | .inv _ _ => true
  | .stash _ _ => true
  | .data _ _ => true
  | .cmp _ _ => true
  | .retry _ _ => true
  | .retryReissue _ _ => true
  | .retryHoldExpire _ => true
  | .putack _ _ => true
  | .stale _ _ => true
  | .invack _ _ => true
  | .fwdack _ _ => true
  | .stashack _ _ => true
  | .stashnack _ _ => true
  | .done _ _ => true
  | .minHoldEnd _ _ => true
  | .homeTxnExpire _ => true
  | .spareResume _ => true
  | .readmitTest _ _ => true
  | .readmitAdmit _ _ => true
  | .readmitReject _ _ => true
  | .ckptNow _ _ _ => true
  | .sramBankFail a _ => arrOk a
  | .sramRepairDone a _ _ => arrOk a
  | .wdExpire _ => true
  | .twdExpire _ => true
  | .dwdExpire => true
  | .wdKick _ _ _ => true
  | .twdKick _ _ _ => true
  | .dwdKick _ _ => true
  | .mclogPop _ => true
  | .gorseBoot flash => segsOk flash
  | .bootHandover => true
  | .keyReq _ _ => true
  | .keyDerivationDone => true
  | .keyOutRead _ _ => true
  | .keyLock _ => true
  | .attestReq _ => true
  | .attestDone => true
  | .csReload _ _ => true
  | .csReloadDone => true
  | .pushGo _ copy flash => segsOk copy && segsOk flash
  | .pushWaitTimeout flash => segsOk flash
  | .bypass => true
  | .idcode => true
  | .samplePreload _ => true
  | .extest _ => true
  | .regxfer _ _ => true
  | .authReq _ _ _ => true
  | .authDone => true
  | .dreRead _ _ _ => true
  | .dreWrite _ _ _ => true
  | .dreResponse _ => true
  | .dbgAttach _ _ => true
  | .dbgDetach _ _ => true
  | .freezeWrite _ _ _ => true
  | .halt _ _ _ => true
  | .step _ _ _ => true
  | .traceFlitTimeout _ => true
  | .traceTsTimer _ => true
  | .ringLineTimeout => true
  | .frTrig _ _ => true
  | .frStop _ => true
  | .pllLock _ => true
  | .pllLockLost _ => true
  | .peatDiscipline _ => true
  | .refclkLoss => true
  | .peatClkinFail => true
  | .wakeAlarm => true
  | .wakeNLow => true
  | .perstDeassert _ => true
  | .peatTripWindow _ _ => true
  | .mainPgRise => true
  | .pgLate => true
  | .coldReset _ _ => true
  | .warmReset _ => true
  | .perstAssert _ => true
  | .functionLevelReset _ => true
  | .pcieLinkDown _ => true
  | .supplyUndervoltage _ => true
  | .waitTimeReached _ => true
  | .dormantEntryComplete => true
  | .pcieLinkUp _ => true
  | .pcieCompletionArrival _ d _ => bytesOk d
  | .pcieCompletionTimeout _ => true
  | .refclkReturn => true
  | .modulatorClockFirstEdge _ => true
  | .rcRead _ _ => true
  | .configSpaceWrite _ _ _ _ _ => true
  | .supplyRecovery _ _ => true

end Sys2Proof
end

