-- ==== Sys2Proof/Safety.lean ====
section
/-! DEFINITION. Safety.lean: the terms claims about the block are stated in: when its commands leave no trace behind, when a register
access passes the checks at its target, when a Ling context executes the instruction a command names, what an instruction may
touch beside its own bank, and the invariant of the whole block. -/

namespace Sys2Proof.Machine

/-! ### The block as a whole -/

/-- No source emits trace: neither Hedgerow nor a flight recorder takes packets (R404, R415), and global time is a count of 64 bits
(R224). -/
def State.Calm (s : State) : Prop := s.tracing = false ∧ s.now < 2 ^ 64

/-- The invariant of the block: every waiting command names units, agents and lengths that exist, and global time is a count of 64
bits (R224). -/
def State.Inv (s : State) : Prop := s.now < 2 ^ 64 ∧ ∀ c ∈ s.pending, c.wf = true

/-- Memory is in its canonical form. -/
def State.MemOk (s : State) : Prop := Memory.wf s.mem.mem = true

/-! ### Register accesses -/

/-- The access of kind `op` that `r` makes at instance (i, j) of register `g` of unit `u` passes the checks of R21, R24, R55 and R60
and reaches the register of an awake unit. -/
def State.Granted (s : State) (r : Req) (op : AccOp) (u : UnitId) (g : Reg) (i j : Nat) : Prop :=
  s.busAt r (regAddr u g i j) op none = (.reg u g i j, s)

/-- Registers beside those of the instances of `g` in unit `u` read as before. -/
def State.OnlyReg (s t : State) (u : UnitId) (g : Reg) (i j : Nat) : Prop :=
  ∀ a d, a ≠ regAddr u g i j → mapGet d t.regs a = mapGet d s.regs a

/-- Registers of a unit whose write does no more than change their fields. -/
def plainReg (u : UnitId) (g : Reg) : Bool :=
  match u with
  | .device => g != R.MODE_REQ
  | .quad _ => g != R.READMIT
  | .sw _ => !([R.ATAB_WRITE, R.LINK_DIS_LO, R.LINK_DIS_HI, R.SEM_REL, R.PMON_CTL].contains g)
  | .slice _ => !([R.REG_BASE, R.REG_SIZE, R.REG_ATTR].contains g)
  | .er _ => !([R.ER_RAISE, R.ER_ROUTE].contains g)
  | .tussock _ => !([R.L2_WAYS, R.TWD_CTL, R.TWD_KICK, R.FR_CFG, R.FR_TRIG].contains g)
  | .core _ => !([R.BANK_CFG, R.WD_CTL, R.WD_KICK, R.CKPT_CTL, R.DBG_CTL, R.TRC_CTL_C, R.CMP_CFG_C].contains g)
  | .engine _ => !([R.ENG_CTL, R.CS_IMAGE, R.CS_ERR_INJ, R.TRC_CTL_E, R.CMP_CFG_E].contains g)
  | .peat => !([R.GT_STEP, R.GT_SET_LO, R.GT_SET_HI, R.WAKE_ALARM_HI, R.DWD_CTL, R.DWD_KICK].contains g)
  | _ => false

/-- One bit of the CRC-64 of R357: the register shifts left, and takes the polynomial where its top bit and the data bit differ. -/
def crc64Bit (c : Nat) (b : Bool) : Nat :=
  if c.testBit 63 != b then (2 * c % 2 ^ 64) ^^^ 0x42F0E1EBA9EA3693 else 2 * c % 2 ^ 64

/-! ### Ling contexts -/

/-- The scheduler keeps context `b`: no other bank runs, and no READY bank has a higher effective priority (R264). The machine-check
context is not scheduled (R277). -/
def State.Keeps (s : State) (p b : Nat) : Prop :=
  b = 4 ∨ ∀ k, k < 4 → k ≠ b → (s.bank p k).st ≠ .running ∧ ((s.bank p k).st = .ready → (s.bank p k).epri ≤ (s.bank p b).epri)

/-- Context `b` of core `p` executes the instruction a command names: it issues, no exception, event, reservation, repeat, load or
debug action is in its way, the fetch of its pc hits, and the scheduler keeps it. -/
structure State.Ready (s : State) (p : Fin 253) (b : Fin 5) : Prop where
  calm : s.Calm
  untraced : s.trLive (trId p) = false
  issues : s.issues p b = true
  noExc : (s.bank p b).exc = []
  noResv : (s.bank p b).resv = false
  fetched : s.fetchPc p b = (none, s)
  noDebug : s.dbgOn p b = false
  noStep : (s.bank p b).stepping = false
  noRepeat : (s.bank p b).hidden = 0
  noLoads : (s.bank p b).pend = []
  keeps : s.Keeps p b

/-- What a bank becomes beside the registers when the instruction at its pc completes in sequence (R240). -/
def Bank.next (x : Bank) : Bank := { x with pc := x.npc, npc := x.npc + 4, slot := false, lsm := none }

/-- And when a control transfer sends it to `t` after its delay slot (R240, R241). -/
def Bank.jumpTo (x : Bank) (t : Word) : Bank := { x with pc := x.npc, npc := t, slot := true, lsm := none }

/-- The address belongs to a performance counter of core `p`. -/
def isPerf (p a : Nat) : Prop := ∃ k, k < 6 ∧ (a = regAddr (.core p) R.PERF_LO k 0 ∨ a = regAddr (.core p) R.PERF_HI k 0)

/-- From `s` to `t` nothing has changed but banks, the counters of core `p`, the free values taken, and the core's own record: every
other bank, every other core, every register, all memory and every other part of the block are as before. -/
structure State.OnlyCtx (s t : State) (p b : Nat) : Prop where
  rest : t = { s with ling := { s.ling with banks := t.ling.banks, cores := t.ling.cores }, regs := t.regs, freeCtr := t.freeCtr }
  banks : ∀ q k, 8 * q + k ≠ 8 * p + b → t.bank q k = s.bank q k
  cores : ∀ q, q ≠ p → t.core q = s.core q
  regs : ∀ a d, ¬ isPerf p a → mapGet d t.regs a = mapGet d s.regs a

/-- The same where memory changes in the `n` bytes at `a` alone; a reservation of another bank on their line ends (R247), and the L1
data cache may drop it (R300). -/
structure State.Stored (s t : State) (p b a n : Nat) : Prop where
  rest : t = { s with ling := { s.ling with banks := t.ling.banks, cores := t.ling.cores, l1d := t.ling.l1d }, regs := t.regs,
                      freeCtr := t.freeCtr, mem := { s.mem with mem := t.mem.mem } }
  banks : ∀ q k, 8 * q + k ≠ 8 * p + b → ({ t.bank q k with ldxGran := none } : Bank) = { s.bank q k with ldxGran := none }
  cores : ∀ q, t.core q = s.core q
  regs : ∀ x d, ¬ isPerf p x → mapGet d t.regs x = mapGet d s.regs x
  bytes : ∀ x, x < a ∨ a + n ≤ x → t.byte x = s.byte x

/-- Virtual address `va` of a context reaches scratch at physical address `pa` for accesses `accs` and operation `op`: it translates,
the access table permits the core, the scratch array answers, and no request of the bank is outstanding (R60, R284, R309). -/
structure State.Scratch (s : State) (p : Fin 253) (b : Fin 5) (va : Word) (accs : List Nat) (op : AccOp) (pa : Nat) : Prop where
  translated : ∃ a, s.translate p (s.ctxBank p b) (s.level p b) va.toNat accs = .ok pa a
  low : pa % 64 = va.toNat % 64
  array : ∃ t o, s.place pa = .scratch t o
  routed : ∀ r, s.masterRouter (s.coreReq p (s.level p b)).master.toNat = some r → s.routed r (s.targetUnit pa).router = true
  granted : s.guardAcc pa (s.coreReq p (s.level p b)) op (some (coreUnit p)) = (none, s)
  answers : s.memDown pa = none
  inTest : s.testOut p pa = false
  clean : s.poisoned pa = false
  idle : (s.bank p b).dev = none

/-- And one whose line the core's L1 data cache and its L2 hold, in DRAM (R300, R304). -/
structure State.L1Hit (s : State) (p : Fin 253) (b : Fin 5) (va : Word) (pa : Nat) : Prop where
  translated : ∃ a, a.dev = false ∧ s.translate p (s.ctxBank p b) (s.level p b) va.toNat [0] = .ok pa a
  low : pa % 64 = va.toNat % 64
  dram : s.place pa = .dram
  inL1 : l1Has s.ling.l1d p (pa / 64) = true
  held : (s.sub (coreAgent p) (pa / 64)).data ≠ []
  clean : (s.sub (coreAgent p) (pa / 64)).poison = false
  inTest : s.testOut p pa = false

/-- The `n` bytes at `pa` of such a line, with the core's own waiting stores over them (R234). -/
def State.lineBytes (s : State) (p pa n : Nat) : List Byte :=
  ((s.overlay p (pa / 64) (s.sub (coreAgent p) (pa / 64)).data).drop (pa % 64)).take n

/-- What a load of `n` bytes makes of its data (R242). -/
def loaded (d : List Byte) (n : Nat) (signed : Bool) : Word :=
  if signed then (BitVec.ofNat (8 * n) (ofLe (d.take n))).signExtend 32 else BitVec.ofNat 32 (ofLe (d.take n))

/-- Command `i` completes as an instruction of context `b` of core `p`: it answers a next state whose bank is `x` and whose core holds
`c`, with everything else as before. -/
def State.Completes (s : State) (p : Fin 253) (b : Fin 5) (i : Instr) (x : Bank) (c : Core) : Prop :=
  ∃ t, exec i s = .next t ∧ s.OnlyCtx t p b ∧ t.bank p b = x ∧ t.core p = c

/-- It completes in sequence as a store of `d` at physical address `a`: those bytes hold it, every other byte is as before, and its bank
is `x`. -/
def State.Stores (s : State) (p : Fin 253) (b : Fin 5) (i : Instr) (a : Nat) (d : List Byte) (x : Bank) : Prop :=
  ∃ t, exec i s = .next t ∧ s.Stored t p b a d.length ∧ t.bytes a d.length = d ∧ t.bank p b = x

/-- It completes in sequence and writes `v` to register `rd` of its bank, and no other register (R235: a write of g0 is discarded). -/
def State.Writes (s : State) (p : Fin 253) (b : Fin 5) (i : Instr) (rd : BitVec 5) (v : Word) : Prop :=
  s.Completes p b i ((s.bank p b).setReg rd.toNat v).next (s.core p)

/-! ### Commands of any kind -/

/-- Command `c` completes: it answers a next state, and `P` holds of that state. -/
def State.Does (s : State) (c : Instr) (P : State → Prop) : Prop := ∃ t, exec c s = .next t ∧ P t

/-- No fault notification reaches an event router: the event registers of the device and quadrant UMBs are disabled (R338). -/
def State.Mute (s : State) : Prop :=
  (s.rd .device R.FAULT_EVT_D).bit 31 = false ∧ ∀ q, q < 4 → (s.rd (.quad q) R.FAULT_EVT_Q).bit 31 = false

/-- Nothing has changed but registers, the records of units and the response the requester sees. -/
def State.OnlyRegs (s t : State) : Prop := t = { s with regs := t.regs, units := t.units, resp := t.resp }

/-- A write of instance (i, j) of `g` by `r` that is granted completes without an error, with `P` of the state it leaves. -/
def State.Sets (s : State) (r : Req) (u : UnitId) (g : Reg) (i : Nat) (c : Instr) (P : State → Prop) : Prop :=
  s.Granted r .write u g i 0 → s.Does c (fun t => t.resp = .ok 0 ∧ P t)

/-- A read of it that is granted returns `v`, and `P` holds of the state it leaves. -/
def State.Gets (s : State) (r : Req) (u : UnitId) (g : Reg) (i : Nat) (c : Instr) (v : Word) (P : State → Prop) : Prop :=
  s.Granted r .read u g i 0 → s.Does c (fun t => t.resp = .ok v ∧ P t)

/-! ### Sedge threads -/

/-- The next microword of engine `e` is `m` of thread `t`, and nothing stops it: its parity is right, it raises no cause, no error of an
earlier operation and no microcode breakpoint is in its way (R91, R99, R101, R106, R398). -/
structure State.Issues (s : State) (e : Fin 64) (ecc : Ecc) (t : Nat) (m : Mw) : Prop where
  calm : s.Calm
  untraced : s.trLive (0x100 + e) = false
  issues : s.engIssues e = true
  next : s.nextThread e = some t
  word : s.thMw t = m
  parity : s.csBad e (s.thread t).pc = 0
  noCause : s.mwCause e t m (BitVec.ofNat 32 (natBits (s.csWord e (s.thread t).pc).toNat 127 96)) ecc = none
  ctxOk : ecc = .clean ∨ m.ctxReads = []
  noErr : (s.thread t).berr = none
  noBrk : (s.thread t).excAct = true ∨ ∀ n ∈ s.engHits e (s.thread t).pc, (s.cmp (.engine e) n).1.bit 8 = false
  opIds : ∀ o ∈ (s.thread t).ops, o.id < (s.thread t).nextOp

/-- A thread's record `x` once the thread is at the microword `pc` (R97, R98): held there where that waits for a time to come. -/
def State.reaches (s : State) (t : Nat) (x : Thread) (pc : Nat) : Thread :=
  { x with pc := pc % 16384, reach := s.mono,
           st := if (mwOf (s.csWord (s.thEng t) (pc % 16384))).wait = 5 ∧ s.timeTrue x = false then 2 else 1 }

/-- From `s` to `u` engine `e` has issued from thread `t`, whose record is `x`: its pointer is past the thread, its issue count is one
more, and no other thread, engine or register, and nothing outside Sedge, has changed (R101). -/
structure State.IssuedAs (s u : State) (e : Fin 64) (t : Nat) (x : Thread) : Prop where
  rest : u = { s with sedge := { s.sedge with threads := u.sedge.threads, engs := u.sedge.engs }, regs := u.regs, freeCtr := u.freeCtr }
  thread : u.thread t = x
  others : ∀ q, q ≠ t → u.thread q = s.thread q
  pointer : ∃ i, (s.engThreads e)[i]? = some t ∧ u.eng e = { s.eng e with rr := (i + 1) % (s.engThreads e).length }
  engines : ∀ f, f ≠ e.val → u.eng f = s.eng f
  regs : ∀ a d, a ≠ regAddr (.engine e) R.ISSUE_CNT_LO 0 0 → a ≠ regAddr (.engine e) R.ISSUE_CNT_HI 0 0 → mapGet d u.regs a = mapGet d s.regs a
  count : (u.rd (.engine e) R.ISSUE_CNT_LO).toNat + 2 ^ 32 * (u.rd (.engine e) R.ISSUE_CNT_HI).toNat =
    ((s.rd (.engine e) R.ISSUE_CNT_LO).toNat + 2 ^ 32 * (s.rd (.engine e) R.ISSUE_CNT_HI).toNat + 1) % 2 ^ 64

/-- Row `i` issues a microword with operation A `k` alone: its result `r` goes to DST and, with SETC, Z, N and the given C and V to the
flags; the thread goes on at the microword that NEXT and the condition group's value after this give (R91, R93, R94). -/
def State.Alu (s : State) (e : Fin 64) (t : Nat) (m : Mw) (i : Instr) (k : Nat) (r : Word) (c v : Bool) : Prop :=
  m.opa = k → s.Does i (fun u =>
    let b := s.putSpec t m.dst r
    let x : Thread := { b.thread t with any := false }
    let y : Thread := if m.setc then { x with z := decide (r = 0), n := r.getLsbD 31, c := c, vf := v } else x
    b.IssuedAs u e t (s.reaches t y (if m.csel = 0 then m.next else m.next ||| ((b.setThread t y).group t m.csel r % 2 ^ m.cbits))))

/-- Row `i` starts the operation B of `m`, whose outcome is `code` with the words `ws`, once its effect has made `b` of `s`; the thread
goes on at NEXT (R91, R95). -/
def State.Starts (s : State) (e : Fin 64) (t : Nat) (m : Mw) (i : Instr) (b : State) (code : Nat) (ws : List Word) : Prop :=
  s.Does i (fun u => ∃ o : Op, o.id = (s.thread t).nextOp ∧ o.code = m.opb ∧ o.dst = m.result.1 ∧ o.len = m.result.2 ∧
    o.res = some (code, ws) ∧
    b.IssuedAs u e t (s.reaches t { s.thread t with any := false, ops := (s.thread t).ops ++ [o], nextOp := (s.thread t).nextOp + 1 } m.next))

/-- From `s` to `b` the bytes at `a` have become `d`, and no other byte has changed, nor anything but poison marks and reservations. -/
structure State.Put (s b : State) (a : Nat) (d : List Byte) : Prop where
  rest : b = { s with mem := { s.mem with mem := b.mem.mem, poison := b.mem.poison }, ling := { s.ling with banks := b.ling.banks } }
  banks : ∀ q k, ({ b.bank q k with ldxGran := none } : Bank) = { s.bank q k with ldxGran := none }
  bytes : b.bytes a d.length = d
  others : ∀ x, x < a ∨ a + d.length ≤ x → b.byte x = s.byte x

/-- Requests of `r` at address `a` of a scratch array are permitted, routed and answered (R60, R309). -/
structure State.ScratchFor (s : State) (r : Req) (src : Option UnitId) (a : Nat) (op : AccOp) : Prop where
  place : ∃ t o, s.place a = .scratch t o
  routed : ∀ b, s.masterRouter r.master.toNat = some b → s.routed b (s.targetUnit a).router = true
  granted : s.guardAcc a r op src = (none, s)
  answers : s.memDown a = none

/-! ### Modes -/

/-- No transition, request, safe state or DORMANT entry is under way, and where the mode needs plan V a valid one is kept. -/
def State.Settled (s : State) : Prop :=
  s.mode.trans = none ∧ s.mode.pending = none ∧ s.mode.safe = false ∧ s.mode.dormEntry = false ∧
  (s.mode.mode = .boot ∨ s.mode.mode = .maintenance ∨ (s.mode.mode = .steady ∨ s.mode.mode = .surge) ∧ s.hasV = true)

/-- The RECOVERY trigger with `cause` has been taken from such a state: it pends in BOOT and MAINTENANCE, and starts the device's own
transition to RECOVERY from STEADY and SURGE (R34, R44, R45). -/
def State.Triggered (s t : State) (cause : Nat) : Prop :=
  t.mode.rcvCause = cause ∧ t.mode.mode = s.mode.mode ∧
  (s.mode.mode = .boot ∨ s.mode.mode = .maintenance → t.mode.rcvPend = true) ∧
  (s.mode.mode = .steady ∨ s.mode.mode = .surge → ∃ x, t.mode.trans = some x ∧ x.target = .recovery ∧ x.device = true)

/-! ### Admin commands -/

/-- Command `c` is the one in progress on link `l`, well formed and not begun, with opcode `op`; its TI is `n`, of the link and in a state
that the command may find it in (R141, R142). -/
structure State.Runs (s : State) (l : Fin 2) (op : Nat) (c : AdmCmd) (n : Nat) : Prop where
  prog : (s.adm l).prog = [c]
  fresh : c.ph = 0
  good : c.wellFormed = true
  code : c.op = op
  ti : n = c.num 4 2 % 2048
  state : (s.ti n).st = 1 ∨ (s.ti n).st = 2
  link : (s.ti n).link = l

/-- The command has been answered: it is no longer in progress, and its entry has been written to the completion ring of the link (R143). -/
structure State.Answered (s t : State) (l : Fin 2) (c : AdmCmd) (status result : Nat) : Prop where
  prog : (t.adm l).prog = []
  tail : (t.adm l).cqTail = ((s.adm l).cqTail + 1) % 65536
  entry : .pcieWrite l (s.bar64 l R.ADM_CQ_BASE_LO R.ADM_CQ_BASE_HI + 16 * ((s.adm l).cqTail % 2 ^ s.admCqLog l))
    (leBytes 4 (c.cid % 65536 + 65536 * status) ++ leBytes 4 result ++ leBytes 4 (c.head % 65536) ++
      leBytes 4 (if (s.adm l).cqTail / 2 ^ s.admCqLog l % 2 = 0 then 2 ^ 31 else 0)) none false ∈ t.out

/-- The command waits for the next multiple of 1,000 ns of global time, with `arg` and `result` kept (R157). -/
def State.Waits (s t : State) (l : Fin 2) (c : AdmCmd) (arg result : Nat) : Prop :=
  t = s.setAdm l { s.adm l with prog := [{ c with ph := 1, due := (s.now / 1000 + 1) * 1000, arg := arg, result := result }] }

end Sys2Proof.Machine
end

