-- ==== Sys2Proof/Certificates/Slice0/Obligations.lean ====
section
/-! DEFINITION. Certificates/Slice0/Obligations.lean: the statements about the block, family by family, each with the rules of spec/
it formalises. -/

open Sys2Proof Sys2Proof.Machine

/-! ### HFA-32: arithmetic and logic (R235, R242, R243) -/

/-- R243, R235: each two-operand operation of the ALU group whose result the table gives as arithmetic of the two words. In a ready
context it writes its result to RD and no other register, and changes nothing outside its bank but counters; ordinary data never
raise an exception. -/
def Obligations.AluRegister : Prop :=
  ∀ (s : State) (p : Fin 253) (b : Fin 5) (rd ra rb : BitVec 5), s.Ready p b →
    let x := s.gpr p b ra
    let y := s.gpr p b rb
    s.Writes p b (.add p b rd ra rb) rd (x + y) ∧
    s.Writes p b (.sub p b rd ra rb) rd (x - y) ∧
    s.Writes p b (.and p b rd ra rb) rd (x &&& y) ∧
    s.Writes p b (.or p b rd ra rb) rd (x ||| y) ∧
    s.Writes p b (.xor p b rd ra rb) rd (x ^^^ y) ∧
    s.Writes p b (.andn p b rd ra rb) rd (x &&& ~~~y) ∧
    s.Writes p b (.shl p b rd ra rb) rd (x <<< (y.toNat % 32)) ∧
    s.Writes p b (.shr p b rd ra rb) rd (x >>> (y.toNat % 32)) ∧
    s.Writes p b (.sar p b rd ra rb) rd (x.sshiftRight (y.toNat % 32)) ∧
    s.Writes p b (.rol p b rd ra rb) rd (x.rotateLeft (y.toNat % 32)) ∧
    s.Writes p b (.slt p b rd ra rb) rd (if x.toInt < y.toInt then 1 else 0) ∧
    s.Writes p b (.sltu p b rd ra rb) rd (if x.toNat < y.toNat then 1 else 0) ∧
    s.Writes p b (.mul p b rd ra rb) rd (x * y) ∧
    s.Writes p b (.mulh p b rd ra rb) rd (BitVec.ofInt 32 (x.toInt * y.toInt / 2 ^ 32)) ∧
    s.Writes p b (.mulhu p b rd ra rb) rd (BitVec.ofNat 32 (x.toNat * y.toNat / 2 ^ 32)) ∧
    s.Writes p b (.min p b rd ra rb) rd (if x.toInt ≤ y.toInt then x else y) ∧
    s.Writes p b (.max p b rd ra rb) rd (if x.toInt ≤ y.toInt then y else x) ∧
    s.Writes p b (.minu p b rd ra rb) rd (if x.toNat ≤ y.toNat then x else y) ∧
    s.Writes p b (.maxu p b rd ra rb) rd (if x.toNat ≤ y.toNat then y else x)

/-- R243: division. By zero the quotient is 0xFFFF_FFFF and the remainder the dividend; DIV of -2^31 by -1 gives -2^31 and REM 0. -/
def Obligations.AluDivision : Prop :=
  ∀ (s : State) (p : Fin 253) (b : Fin 5) (rd ra rb : BitVec 5), s.Ready p b →
    let x := s.gpr p b ra
    let y := s.gpr p b rb
    (y ≠ 0 →
      s.Writes p b (.div p b rd ra rb) rd (BitVec.ofInt 32 (x.toInt.tdiv y.toInt)) ∧
      s.Writes p b (.divu p b rd ra rb) rd (BitVec.ofNat 32 (x.toNat / y.toNat)) ∧
      s.Writes p b (.rem p b rd ra rb) rd (BitVec.ofInt 32 (x.toInt.tmod y.toInt)) ∧
      s.Writes p b (.remu p b rd ra rb) rd (BitVec.ofNat 32 (x.toNat % y.toNat))) ∧
    (y = 0 →
      s.Writes p b (.div p b rd ra rb) rd 0xFFFFFFFF ∧ s.Writes p b (.divu p b rd ra rb) rd 0xFFFFFFFF ∧
      s.Writes p b (.rem p b rd ra rb) rd x ∧ s.Writes p b (.remu p b rd ra rb) rd x) ∧
    (x = 0x80000000 → y = 0xFFFFFFFF →
      s.Writes p b (.div p b rd ra rb) rd 0x80000000 ∧ s.Writes p b (.rem p b rd ra rb) rd 0)

/-- R243: the operations on bits and bytes, each result by what its bits are. The unary ones take RB 0. -/
def Obligations.AluBits : Prop :=
  ∀ (s : State) (p : Fin 253) (b : Fin 5) (rd ra rb : BitVec 5), s.Ready p b →
    let x := s.gpr p b ra
    let y := s.gpr p b rb
    let pos := y.toNat % 32
    let width := y.toNat / 32 % 32 + 1
    (∃ r : Word, s.Writes p b (.extr p b rd ra rb) rd r ∧
      ∀ i, i < 32 → r.getLsbD i = (decide (i < width ∧ pos + i < 32) && x.getLsbD (pos + i))) ∧
    (∃ r : Word, s.Writes p b (.ins p b rd ra rb) rd r ∧
      ∀ i, i < 32 → r.getLsbD i =
        if pos ≤ i ∧ i ≤ pos + width - 1 then x.getLsbD (i - pos) else (s.gpr p b rd).getLsbD i) ∧
    (rb = 0 →
      (∃ r : Word, s.Writes p b (.clz p b rd ra rb) rd r ∧ r.toNat ≤ 32 ∧
        (∀ i, i < 32 → 32 - r.toNat ≤ i → x.getLsbD i = false) ∧ (r.toNat < 32 → x.getLsbD (31 - r.toNat) = true)) ∧
      s.Writes p b (.popc p b rd ra rb) rd (BitVec.ofNat 32 ((List.range 32).countP (fun i => x.getLsbD i))) ∧
      (∃ r : Word, s.Writes p b (.bswap p b rd ra rb) rd r ∧
        ∀ k, k < 4 → (r.toNat / 256 ^ k) % 256 = (x.toNat / 256 ^ (3 - k)) % 256) ∧
      s.Writes p b (.sextb p b rd ra rb) rd ((x.truncate 8).signExtend 32) ∧
      s.Writes p b (.sexth p b rd ra rb) rd ((x.truncate 16).signExtend 32))

/-- R242: the operations with an immediate. SHI is legal with IMM[15:7] zero, LUI with RA 0. -/
def Obligations.AluImmediate : Prop :=
  ∀ (s : State) (p : Fin 253) (b : Fin 5) (rd ra : BitVec 5) (imm : BitVec 16), s.Ready p b →
    let x := s.gpr p b ra
    s.Writes p b (.addi p b rd ra imm) rd (x + imm.signExtend 32) ∧
    s.Writes p b (.andi p b rd ra imm) rd (x &&& imm.zeroExtend 32) ∧
    s.Writes p b (.ori p b rd ra imm) rd (x ||| imm.zeroExtend 32) ∧
    s.Writes p b (.xori p b rd ra imm) rd (x ^^^ imm.zeroExtend 32) ∧
    s.Writes p b (.slti p b rd ra imm) rd (if x.toInt < (imm.signExtend 32).toInt then 1 else 0) ∧
    s.Writes p b (.sltiu p b rd ra imm) rd (if x.toNat < (imm.signExtend 32).toNat then 1 else 0) ∧
    (ra = 0 → s.Writes p b (.lui p b rd ra imm) rd (BitVec.ofNat 32 (imm.toNat * 2 ^ 16))) ∧
    (imm.toNat < 128 →
      let n := imm.toNat % 32
      s.Writes p b (.shi p b rd ra imm) rd
        (match imm.toNat / 32 with
        | 0 => x <<< n
        | 1 => x >>> n
        | 2 => x.sshiftRight n
        | _ => x.rotateLeft n))

/-! ### HFA-32: loads and stores (R233, R242, R245, R247) -/

/-- R242, R243: a load whose line is in the L1 data cache, or whose address is in scratch, writes the bytes it read to RD, extended as
its kind says, after any post-increment of RA; the address must be aligned to the size. -/
def Obligations.Loads : Prop :=
  ∀ (s : State) (p : Fin 253) (b : Fin 5) (m : MemForm) (pa : Nat) (d : List Byte), s.Ready p b → formIll true m = false →
    let va := s.formAddr p b m
    let x := (s.formPost p b m).bank p b
    let core := s.core p
    let done (i : Instr) (n : Nat) (signed : Bool) : Prop :=
      va.toNat % n = 0 → (s.L1Hit p b va pa ∧ d = s.lineBytes p pa n ∨ s.Scratch p b va [0] .read pa ∧ d = s.bytes pa n) →
        s.Completes p b i (x.setReg (formRd m).toNat (loaded d n signed)).next core
    done (.ldb p b m) 1 true ∧ done (.ldbu p b m) 1 false ∧ done (.ldh p b m) 2 true ∧ done (.ldhu p b m) 2 false ∧
      done (.ldw p b m) 4 false

/-- R242, R243: a store to scratch writes the low bytes of RD at the aligned address, least significant first, and no other byte. -/
def Obligations.Stores : Prop :=
  ∀ (s : State) (p : Fin 253) (b : Fin 5) (m : MemForm) (pa : Nat), s.Ready p b → formIll false m = false →
    let va := s.formAddr p b m
    let v := (s.gpr p b (formRd m)).toNat
    let x := (s.formPost p b m).bank p b
    s.Scratch p b va [1] .write pa →
    s.Stores p b (.stb p b m) pa (leBytes 1 v) x.next ∧
    (va.toNat % 2 = 0 → s.Stores p b (.sth p b m) pa (leBytes 2 v) x.next) ∧
    (va.toNat % 4 = 0 → s.Stores p b (.stw p b m) pa (leBytes 4 v) x.next)

/-- R243, R247: the atomics on a word of scratch write the old word to RD and leave the sum, RB, or RB where the old word equals RD;
LDX writes the word to RD and reserves its line; STX stores RB and writes 0 where the reservation holds, and writes 1 and stores
nothing where it does not. -/
def Obligations.Atomics : Prop :=
  ∀ (s : State) (p : Fin 253) (b : Fin 5) (rd ra rb : BitVec 5) (pa : Nat), s.Ready p b →
    let va := s.gpr p b ra
    let y := s.gpr p b rb
    let z := s.gpr p b rd
    let x := s.bank p b
    let old : Word := BitVec.ofNat 32 (s.leAt pa 4)
    va.toNat % 4 = 0 →
    (s.Scratch p b va [0, 1] .own pa →
      s.ownStores p (pa / 64) = false →
      s.Stores p b (.aadd p b rd ra rb) pa (leBytes 4 (old + y).toNat) (x.setReg rd.toNat old).next ∧
      s.Stores p b (.aswp p b rd ra rb) pa (leBytes 4 y.toNat) (x.setReg rd.toNat old).next ∧
      s.Stores p b (.acas p b rd ra rb) pa (leBytes 4 (if old = z then y else old).toNat) (x.setReg rd.toNat old).next) ∧
    (rb = 0 → s.Scratch p b va [0] .read pa →
      s.Completes p b (.ldx p b rd ra rb) ((({ x with ldxGran := some (pa / 64) } : Bank).setReg rd.toNat old).next) (s.core p)) ∧
    (s.Scratch p b va [0, 1] .write pa →
      let y' : Bank := { x with ldxGran := none }
      (x.ldxGran ≠ some (pa / 64) → s.Completes p b (.stx p b rd ra rb) ((y'.setReg rd.toNat 1).next) (s.core p)) ∧
      (x.ldxGran = some (pa / 64) → s.Stores p b (.stx p b rd ra rb) pa (leBytes 4 y.toNat) ((y'.setReg rd.toNat 0).next)))

/-- R245: LDM and STM move the registers of the mask to and from consecutive words upward from the base in RA, lowest register first;
registers and bytes they do not name stay as they are. -/
def Obligations.LoadStoreMultiple : Prop :=
  ∀ (s : State) (p : Fin 253) (b : Fin 5) (rd ra : BitVec 5) (mask : BitVec 16) (pa : Nat), s.Ready p b →
    let base := s.gpr p b ra
    let at_ (r : Nat) : Nat := 4 * (List.range r).countP (fun i => mask.getLsbD i)
    let reg (r : Nat) : BitVec 5 := if rd.toNat < 16 then BitVec.ofNat 5 (16 + r) else BitVec.ofNat 5 r
    let within (x : Nat) : Prop := ∃ r, r < 16 ∧ mask.getLsbD r = true ∧ pa + at_ r ≤ x ∧ x < pa + at_ r + 4
    base.toNat % 4 = 0 → (s.bank p b).lsm = none →
    (lsmIll true rd ra mask = false →
      (∀ r, r < 16 → mask.getLsbD r = true → s.Scratch p b (base + BitVec.ofNat 32 (at_ r)) [0] .read (pa + at_ r)) →
      s.Completes p b (.ldm p b rd ra mask)
        (((List.range 16).foldl (fun x r =>
          if mask.getLsbD r then x.setReg (reg r).toNat (BitVec.ofNat 32 (s.leAt (pa + at_ r) 4)) else x) (s.bank p b)).next) (s.core p)) ∧
    (lsmIll false rd ra mask = false →
      (∀ r, r < 16 → mask.getLsbD r = true → s.Scratch p b (base + BitVec.ofNat 32 (at_ r)) [1] .write (pa + at_ r)) →
      ∃ t, exec (.stm p b rd ra mask) s = .next t ∧ t.bank p b = (s.bank p b).next ∧
        (∀ r, r < 16 → mask.getLsbD r = true → t.leAt (pa + at_ r) 4 = (s.gpr p b (reg r)).toNat) ∧
        ∀ x, ¬ within x → t.byte x = s.byte x)

/-! ### HFA-32: control transfers, repeats, special registers (R238, R240, R241, R246, R252) -/

/-- R240, R252: a branch out of a delay slot. Taken, it goes to pc plus four times the displacement after its delay slot; not taken, it
goes on, and with the annul bit skips the delay slot. BDNZ first takes one from RA. The prediction bit changes nothing. -/
def Obligations.Branches : Prop :=
  ∀ (s : State) (p : Fin 253) (b : Fin 5) (annul predT : Bool) (ra : BitVec 5) (disp : BitVec 16), s.Ready p b →
    (s.bank p b).slot = false →
    let v := s.gpr p b ra
    let go (x : Bank) (taken : Bool) : Bank :=
      if taken then x.jumpTo (x.pc + 4 * disp.signExtend 32)
      else if annul then { x with pc := x.npc + 4, npc := x.npc + 8, slot := false, lsm := none }
      else x.jumpTo (x.npc + 4)
    let branch (i : Instr) (taken : Bool) : Prop := s.Completes p b i (go (s.bank p b) taken) (s.core p)
    branch (.beq p b annul predT ra disp) (decide (v = 0)) ∧
    branch (.bne p b annul predT ra disp) (decide (v ≠ 0)) ∧
    branch (.blt p b annul predT ra disp) (decide (v.toInt < 0)) ∧
    branch (.bge p b annul predT ra disp) (decide (0 ≤ v.toInt)) ∧
    branch (.ble p b annul predT ra disp) (decide (v.toInt ≤ 0)) ∧
    branch (.bgt p b annul predT ra disp) (decide (0 < v.toInt)) ∧
    (ra = 0 → branch (.bra p b annul predT ra disp) true) ∧
    (ra ≠ 0 → s.Completes p b (.bdnz p b annul predT ra disp)
      (go ((s.bank p b).setReg ra.toNat (v - 1)) (decide (v - 1 ≠ 0))) (s.core p))

/-- R240: jumps and calls. A call writes pc + 8 to g14; CALLR reads RA before. A target that is not word-aligned raises ALIGN and
changes no register but those of exception entry (that is `Obligations.ExceptionEntry`). -/
def Obligations.Jumps : Prop :=
  ∀ (s : State) (p : Fin 253) (b : Fin 5) (disp : BitVec 26) (ra : BitVec 5), s.Ready p b → (s.bank p b).slot = false →
    let x := s.bank p b
    let core := s.core p
    let far := x.pc + 4 * disp.signExtend 32
    s.Completes p b (.j p b disp) (x.jumpTo far) core ∧
    s.Completes p b (.call p b disp) ((x.setReg 14 (x.pc + 8)).jumpTo far) core ∧
    ((s.gpr p b ra).toNat % 4 = 0 →
      s.Completes p b (.jr p b 0 ra 0) (x.jumpTo (s.gpr p b ra)) core ∧
      s.Completes p b (.callr p b 0 ra 0) ((x.setReg 14 (x.pc + 8)).jumpTo (s.gpr p b ra)) core)

/-- R246: RPT and RPTR load the hidden counter, or with a count of 0 skip the next instruction; an instruction under a counter above 1
performs again with pc and npc where they are, and under 1 goes on. -/
def Obligations.Repeats : Prop :=
  ∀ (s : State) (p : Fin 253) (b : Fin 5), s.Ready p b →
    let x := s.bank p b
    let after (n : Nat) : Bank :=
      if n = 0 then { x with pc := x.npc + 4, npc := x.npc + 8, slot := false, lsm := none } else { x.next with hidden := n }
    (x.slot = false →
      (∀ imm : BitVec 16, s.Completes p b (.rpt p b 0 0 imm) (after imm.toNat) (s.core p)) ∧
      s.Completes p b (.rptr p b 0 0 0) (after (x.rc.toNat % 65536)) (s.core p)) ∧
    ∀ (n : Nat) (rd ra rb : BitVec 5), 0 < n →
      let z := x.setReg rd.toNat (s.gpr p b ra + s.gpr p b rb)
      (s.setBank p b { x with hidden := n }).Completes p b (.add p b rd ra rb)
        (if n = 1 then { z.next with hidden := 0 } else { z with hidden := n - 1, slot := false, lsm := none }) (s.core p)

/-- R238: MFS reads a special register the level may read, MTS writes its writable fields. A read of TIME_LO latches TIME_HI. -/
def Obligations.SpecialRegisters : Prop :=
  ∀ (s : State) (p : Fin 253) (b : Fin 5) (rd ra : BitVec 5), s.Ready p b → b.val < 4 → p.val < 252 →
    let x := s.bank p b
    let v := s.gpr p b ra
    let e := x.es x.pl
    let core := s.core p
    let mfs (n : Nat) (w : Word) : Prop := s.Writes p b (.mfs p b rd 0 (BitVec.ofNat 16 n)) rd w
    let mts (n : Nat) (y : Bank) : Prop := s.Completes p b (.mts p b 0 ra (BitVec.ofNat 16 n)) y.next core
    mfs 0x00 x.rc ∧ mts 0x00 { x with rc := v } ∧
    mfs 0x01 (BitVec.ofNat 32 (65536 * x.depth + x.cwp)) ∧ mfs 0x02 x.wsp ∧ mfs 0x03 (BitVec.ofNat 32 (16 * b + x.pl % 4)) ∧
    mfs 0x08 0x1044841F ∧ mfs 0x09 0x00681655 ∧ mfs 0x0A 0x001008C1 ∧ mfs 0x0B 0 ∧
    (∀ k, k < 4 → mfs (0x20 + k) (x.tcmpAt k) ∧ mts (0x20 + k) (x.setTcmp k v)) ∧
    mfs 0x24 x.tctl ∧ mts 0x24 { x with tctl := v &&& 0xFF } ∧
    s.Completes p b (.mfs p b rd 0 0x28) ((({ x with timeLatch := hi32 s.now } : Bank).setReg rd.toNat (lo32 s.now)).next) core ∧
    mfs 0x29 x.timeLatch ∧
    (1 ≤ x.pl →
      mts 0x01 { x with depth := v.toNat / 65536, resident := 0 } ∧ mts 0x02 { x with wsp := v &&& 0xFFFFFFC0 } ∧
      mfs 0x10 e.epc ∧ mfs 0x11 e.enpc ∧ mfs 0x12 e.ecause ∧ mfs 0x13 e.eaddr ∧ mfs 0x14 e.estat ∧ mfs 0x15 e.eprog ∧
      mts 0x10 (x.setEs x.pl { e with epc := v }) ∧ mts 0x11 (x.setEs x.pl { e with enpc := v }) ∧
      mts 0x12 (x.setEs x.pl { e with ecause := v &&& 0xFF01F7FF }) ∧ mts 0x13 (x.setEs x.pl { e with eaddr := v }) ∧
      mts 0x14 (x.setEs x.pl { e with estat := BitVec.ofNat 32 (min (v.toNat % 4) x.pl) }) ∧
      mts 0x15 (x.setEs x.pl { e with eprog := v &&& 0xC000FFFF })) ∧
    (2 ≤ x.pl → mfs 0x38 x.bwin ∧ mts 0x38 { x with bwin := v &&& 0x3FF })

/-! ### HFA-32: the MAC unit (R243, R244) -/

/-- R243, R244: in the context that owns the MAC state, an accumulation is exact, then clamped under SAT or taken modulo 2^64, and sets
OV64 where it left the signed 64-bit range. MACL reads its word at RA, moves RA on by 4 and steps KIDX. -/
def Obligations.MacAccumulate : Prop :=
  ∀ (s : State) (p : Fin 253) (b : Fin 5) (a ra rb : BitVec 5), s.Ready p b → s.macOwn p b = true → a.toNat < 4 →
    let x := s.gpr p b ra
    let y := s.gpr p b rb
    let c := s.core p
    let m := c.mac
    let add (m : Mac) (v : Int) : Mac :=
      let e := (m.accAt a.toNat).toInt + v
      let r : DWord := if m.mctl.bit 0 then BitVec.ofInt 64 (max (-2 ^ 63) (min (2 ^ 63 - 1) e)) else BitVec.ofInt 64 e
      { m.setAcc a.toNat r with mstat := if e < -2 ^ 63 ∨ 2 ^ 63 ≤ e then m.mstat ||| 1 else m.mstat }
    let half (w : Word) (h : Nat) : Int := (BitVec.ofNat 16 (w.toNat / 65536 ^ h)).toInt
    let mac (i : Instr) (v : Int) : Prop := s.Completes p b i (s.bank p b).next { c with mac := add m v }
    mac (.macc p b a ra rb) (x.toInt * y.toInt) ∧
    mac (.msub p b a ra rb) (-(x.toInt * y.toInt)) ∧
    mac (.macu p b a ra rb) (x.toNat * y.toNat) ∧
    mac (.mdot2 p b a ra rb) (half x 0 * half y 0 + half x 1 * half y 1) ∧
    (rb.toNat < 16 → mac (.mack p b a ra rb) (x.toInt * (m.kAt rb.toNat).toInt)) ∧
    (∀ pa, rb = 0 → x.toNat % 4 = 0 → s.Scratch p b x [0] .read pa →
      let k := m.mctl.fld ⟨11, 8⟩
      let m' := add m ((BitVec.ofNat 32 (s.leAt pa 4) : Word).toInt * (m.kAt k).toInt)
      s.Completes p b (.macl p b a ra rb) (((s.bank p b).setReg ra.toNat (x + 4)).next)
        { c with mac := { m' with mctl := m'.mctl.setFld ⟨11, 8⟩ (k + 1) } })

/-- R243, R244, R278, R279: reads and writes of the MAC state. MRD shifts, rounds under RND, clamps to 32 bits and sets OV32 where it
clamped. A context that does not own the state, on a core where none does, takes it cleared with its first MAC instruction. -/
def Obligations.MacMove : Prop :=
  ∀ (s : State) (p : Fin 253) (b : Fin 5) (rd ra rb : BitVec 5), s.Ready p b →
    let x := s.gpr p b ra
    let c := s.core p
    let m := c.mac
    let acc := m.accAt ra.toNat
    let bank := s.bank p b
    let reads (i : Instr) (v : Word) (m' : Mac) : Prop := s.Completes p b i (bank.setReg rd.toNat v).next { c with mac := m' }
    let writes (i : Instr) (m' : Mac) : Prop := s.Completes p b i bank.next { c with mac := m' }
    (s.macOwn p b = true →
      (ra.toNat < 4 →
        (let v : Int := if m.mctl.bit 1 ∧ 1 ≤ rb.toNat then (acc.toInt + 2 ^ (rb.toNat - 1)) / 2 ^ rb.toNat else acc.toInt / 2 ^ rb.toNat
         let w := max (-2 ^ 31) (min (2 ^ 31 - 1) v)
         reads (.mrd p b rd ra rb) (BitVec.ofInt 32 w) (if w = v then m else { m with mstat := m.mstat ||| 2 })) ∧
        reads (.mrdl p b rd ra 0) (acc.truncate 32) m ∧ reads (.mrdh p b rd ra 0) ((acc >>> 32).truncate 32) m) ∧
      (ra.toNat < 16 → reads (.mkr p b rd ra 0) (m.kAt ra.toNat) m) ∧
      (rd.toNat < 16 → writes (.mkw p b rd ra 0) (m.setK rd.toNat x)) ∧
      (rd.toNat < 4 →
        let old := m.accAt rd.toNat
        writes (.mwrl p b rd ra 0) (m.setAcc rd.toNat (old / 2 ^ 32 * 2 ^ 32 + x.zeroExtend 64)) ∧
        writes (.mwrh p b rd ra 0) (m.setAcc rd.toNat (x.zeroExtend 64 * 2 ^ 32 + old % 2 ^ 32)) ∧
        (rb.toNat < 16 → writes (.mclr p b rd 0 rb) { m.setAcc rd.toNat 0 with mctl := m.mctl.setFld ⟨11, 8⟩ rb.toNat }))) ∧
    ((s.core p).macOwner = none → rd.toNat < 16 →
      s.Completes p b (.mkw p b rd ra 0) bank.next
        { s.core p with mac := ({} : Mac).setK rd.toNat (s.gpr p b ra), macOwner := some (b, bank.edepth), macPl := s.level p b })

/-! ### HFA-32: events, windows, exceptions, fences (R236, R248, R274, R275, R294 to R296, R313) -/

/-- R248: WFE with the event flag set clears it and goes on, WAITT at or after its time goes on; without either the bank waits. SEV
sets the flag of the bank its operand names. -/
def Obligations.Events : Prop :=
  ∀ (s : State) (p : Fin 253) (b : Fin 5) (ra : BitVec 5), s.Ready p b →
    let x := s.bank p b
    let v := s.gpr p b ra
    (x.flag = true → s.Completes p b (.wfe p b 0 0 0) { x.next with flag := false, wait := .none } (s.core p)) ∧
    (0 ≤ (lo32 s.now - v).toInt → s.Completes p b (.waitt p b 0 ra 0) { x.next with wait := .none } (s.core p)) ∧
    (b.val < 4 → x.flag = false → ∃ t, exec (.wfe p b 0 0 0) s = .next t ∧ (t.bank p b).pc = x.pc ∧ (t.bank p b).wait = .wfe) ∧
    (∀ q : Nat, q ≠ p.val → q < 252 → (s.core q).lastRun < 4 → v.fld ⟨31, 30⟩ = 0 → s.coreOf (v.fld ⟨11, 0⟩) = some q →
      let k := v.fld ⟨29, 28⟩
      (s.bank q k).st ≠ .off →
      ∃ t, exec (.sev p b 0 ra 0) s = .next t ∧ (t.bank q k).flag = true ∧ t.bank p b = x.next)

/-- R236: ROT +1 clears w4 to w15 of the new window, whose w0 to w3 are the caller's w12 to w15, and ROT -1 returns, where neither
a depth limit nor the window memory is in the way. -/
def Obligations.Windows : Prop :=
  ∀ (s : State) (p : Fin 253) (b : Fin 5), s.Ready p b → b.val < 4 →
    let x := s.bank p b
    x.trap = false → x.cwp < 7 →
    (x.depth < 65535 → x.resident < 5 →
      ∃ t, exec (.rotPlus p b 0 0 0) s = .next t ∧ s.OnlyCtx t p b ∧
        let y := t.bank p b
        y.depth = x.depth + 1 ∧ y.cwp = (x.cwp + 1) % 7 ∧ y.pc = x.npc ∧ y.g = x.g ∧
        (∀ k, k < 4 → y.reg (16 + k) = x.reg (28 + k)) ∧ (∀ k, 4 ≤ k → k < 16 → y.reg (16 + k) = 0)) ∧
    (0 < x.depth → 0 < x.resident →
      ∃ t, exec (.rotMinus p b 0 0 0) s = .next t ∧ s.OnlyCtx t p b ∧
        let y := t.bank p b
        y.depth = x.depth - 1 ∧ y.cwp = (x.cwp + 6) % 7 ∧ y.pc = x.npc ∧ y.g = x.g ∧ y.w = x.w ∧
        ∀ k, k < 4 → y.reg (28 + k) = x.reg (16 + k))

/-- R250, R274, R394, R395: what taking an exception leaves. BRK enters its monitor, at level M and at the monitor's priority. TRAP is taken with its code at S or above and resumes after itself; an instruction
that is not legal here, one whose level is too low and a jump to a misaligned target are taken at their own address, and none of
them has its own effect. EPC, ENPC, ECAUSE and ESTAT of the level taken say so, the window rotates, sp falls by 112, and the pc is
the vector of the cause. -/
def Obligations.ExceptionEntry : Prop :=
  ∀ (s : State) (p : Fin 253) (b : Fin 5) (rd ra rb : BitVec 5), s.Ready p b → b.val < 4 → p.val < 252 →
    let x := s.bank p b
    x.trap = false → x.edepth < 15 → x.depth < 65535 → x.resident < 5 → x.slot = false → x.cwp < 7 → x.lsm = none → x.pl < 4 →
    let entered (i : Instr) (cause code least : Nat) (epc : Word) (eaddr : Word) : Prop :=
      ∃ t, exec i s = .next t ∧
        let y := t.bank p b
        let l := max x.pl least
        let vec := s.rd (.core p) (if l = 1 then R.VEC_S else if l = 2 then R.VEC_H else R.VEC_M) + BitVec.ofNat 32 (64 * cause)
        y.pl = l ∧ y.pc = vec ∧ y.npc = vec + 4 ∧ y.edepth = x.edepth + 1 ∧ y.depth = x.depth + 1 ∧
        y.es l = { epc := epc, enpc := if cause = 0x0A then epc + 4 else x.npc, ecause := BitVec.ofNat 32 (4096 * code + cause),
                   eaddr := eaddr, estat := BitVec.ofNat 32 x.pl, eprog := 0 } ∧
        y.reg 13 = x.reg 13 - 112 ∧ (∀ r, r < 16 → r ≠ 13 → y.reg r = x.reg r) ∧ y.ldxGran = none ∧ t.mem = s.mem
    entered (.trap p b rd 0 0) 0x0A rd.toNat (if rd.toNat < 16 then 1 else if rd.toNat < 28 then 2 else 3) (x.pc + 4) 0 ∧
    (rb ≠ 0 → entered (.clz p b rd ra rb) 1 0 1 x.pc 0) ∧
    (x.pl = 0 → entered (.eret p b 0 0 0) 2 0 1 x.pc 0) ∧
    ((s.gpr p b ra).toNat % 4 ≠ 0 → entered (.jr p b 0 ra 0) 4 0 1 x.pc (s.gpr p b ra)) ∧
    ∃ t, exec (.brk p b 0 0 0) s = .next t ∧
      let y := t.bank p b
      y.pl = 3 ∧ y.pc = s.rd (.core p) R.VEC_M + 0x2C0 ∧ y.mon = true ∧ (y.es 3).epc = x.pc ∧ (y.es 3).ecause = 0x0B ∧
      y.epri = s.rf (.core p) R.DBG_CTL F.DBG_CTL_MON_PRI

/-- R275: ERET from a handler that entered by rotation returns to the interrupted window at EPC and ENPC, at the level of ESTAT, with
sp and EDEPTH as before the entry. -/
def Obligations.ExceptionReturn : Prop :=
  ∀ (s : State) (p : Fin 253) (b : Fin 5), s.Ready p b → b.val < 4 → p.val < 252 →
    let x := s.bank p b
    let e := x.es x.pl
    1 ≤ x.pl → x.slot = false → x.trap = false → 0 < x.edepth → 0 < x.depth → 0 < x.resident → x.cwp < 7 →
    x.filled = [] → x.mon = false → (s.core p).macOwner ≠ some (b.val, x.edepth) → e.eprog = 0 →
    ∃ t, exec (.eret p b 0 0 0) s = .next t ∧ s.OnlyCtx t p b ∧
      let y := t.bank p b
      y.pc = e.epc ∧ y.npc = e.enpc ∧ y.pl = e.estat.toNat % 4 ∧ y.edepth = x.edepth - 1 ∧ y.depth = x.depth - 1 ∧
      y.reg 13 = x.reg 13 + 112 ∧ (∀ r, r < 16 → r ≠ 13 → y.reg r = x.reg r) ∧ y.ldxGran = none

/-- R294 to R296, R313: with nothing outstanding a fence goes on; FENCE.I empties the L1 instruction cache of its core; a TLBI removes
the entries its form names from its own core's TLB and no others. -/
def Obligations.FencesAndTlb : Prop :=
  ∀ (s : State) (p : Fin 253) (b : Fin 5) (ra rb : BitVec 5), s.Ready p b → p.val < 252 →
    let x := s.bank p b
    let c := s.core p
    let v := s.gpr p b ra
    let w := s.gpr p b rb
    let keeps (i : Instr) (gone : Tlb → Bool) : Prop :=
      s.Completes p b i x.next { c with tlb := c.tlb.filter (fun e => !gone e) }
    (x.storesOut = 0 → x.puts = [] → x.walk = none →
      s.Completes p b (.fenceFull p b 0 0) x.next c ∧ s.Completes p b (.fenceStore p b 0 0) x.next c ∧
      s.Completes p b (.fenceLoad p b 0 0) x.next c ∧
      ∃ t, exec (.fenceI p b 0 0 0) s = .next t ∧ t.bank p b = x.next ∧ t.mem = s.mem ∧ ∀ l, l1Has t.ling.l1i p l = false) ∧
    (b.val < 4 → x.pl = 1 →
      keeps (.tlbiAll p b 0 0) (fun e => s.curG p b e) ∧
      keeps (.tlbiAsid p b ra 0) (fun e => s.curG p b e && !e.glob && e.asid == v.toNat % 4096) ∧
      (w.bit 31 = false →
        keeps (.tlbiVa p b ra rb) (fun e => e.va == v.toNat / 2 ^ e.lg && s.curG p b e && (e.glob || e.asid == w.toNat % 4096)))) ∧
    (b.val < 4 → x.pl = 2 →
      keeps (.tlbiAll p b 0 0) (fun e => e.regime != 2) ∧
      keeps (.tlbiVmid p b ra 0) (fun e => e.regime == 0 && e.s2 && e.vmid == v.toNat % 256) ∧
      keeps (.tlbiIpa p b ra rb)
        (fun e => e.regime == 0 && e.s2 && e.vmid == w.toNat % 256 && e.ipa == v.toNat % 2 ^ 28 * 4096 / 2 ^ e.lg)) ∧
    (b.val < 4 → x.pl = 3 → keeps (.tlbiAll p b 0 0) (fun _ => true))

/-- R313: a range operation over one sub-block that the L2 holds clean and shared, in a sector that is not locked: CLEAN leaves it, INV
and CLEAN_INV drop it, and memory keeps its bytes. An empty range does nothing. -/
def Obligations.RangeOperations : Prop :=
  ∀ (s : State) (p : Fin 253) (b : Fin 5) (ra rb : BitVec 5) (pa : Nat) (sec : Sector), s.Ready p b → p.val < 252 → b.val < 4 →
    let a := s.gpr p b ra
    let e := s.gpr p b rb
    let x := s.bank p b
    let t0 := coreAgent p
    1 ≤ x.pl →
    (e.toNat ≤ a.toNat →
      s.Completes p b (.crangeClean p b ra rb) x.next (s.core p) ∧ s.Completes p b (.crangeInv p b ra rb) x.next (s.core p) ∧
      s.Completes p b (.crangeCleanInv p b ra rb) x.next (s.core p)) ∧
    (a.toNat < e.toNat → e.toNat ≤ a.toNat / 64 * 64 + 64 → pa % 64 = 0 → s.place pa = .dram →
      s.sector t0 (pa / 64) = some sec → sec.locked = false → (s.sub t0 (pa / 64)).st = .s →
      let tr (acc : Nat) : Prop :=
        ∃ at_, at_.dev = false ∧ s.translate p (s.ctxBank p b) (s.level p b) (a.toNat / 64 * 64) [acc] = .ok pa at_
      (tr 0 → s.Completes p b (.crangeClean p b ra rb) x.next (s.core p)) ∧
      (tr 1 → ∀ i ∈ [Instr.crangeInv p b ra rb, Instr.crangeCleanInv p b ra rb],
        ∃ t, exec i s = .next t ∧ (t.sub t0 (pa / 64)).st = .i ∧ t.mem.mem = s.mem.mem ∧ (t.bank p b).pc = x.npc ∧
          ∀ q, q ≠ pa / 64 → (t.sub t0 q).st = (s.sub t0 q).st))

/-- R249, R280: MFB and MTB reach the register of a bank that BWIN selects, at level H or above. -/
def Obligations.OtherBanks : Prop :=
  ∀ (s : State) (p : Fin 253) (b : Fin 5) (r : BitVec 5), s.Ready p b → 2 ≤ s.level p b →
    let x := s.bank p b
    let k := x.bwin.fld ⟨1, 0⟩
    let reg := x.bwin.fld ⟨9, 5⟩
    let win := x.bwin.fld ⟨4, 2⟩
    let cell := if reg < 16 then reg else if win = 7 then 16 + 84 + (reg - 16) else 16 + (12 * win + (reg - 16)) % 84
    ((s.bank p k).pend = [] → s.Writes p b (.mfb p b r 0 0) r ((s.bank p k).cell cell)) ∧
    (k ≠ b → (s.bank p k).pend = [] →
      ∃ t, exec (.mtb p b 0 r 0) s = .next t ∧ t.bank p k = (s.bank p k).setCell cell (s.gpr p b r) ∧ t.bank p b = x.next)

/-! ### What a core's own engines and schedulers do (R238, R248, R263 to R272, R276, R290) -/

/-- R276: the data of a load that missed writes its register when it arrives, and an error response of a store pends BUS_ERROR with its
address and code. R248, R238, R264, R271: a WAITT is ready at its time; a due comparator fires; the quantum passes the core on; the
spill engine frees the oldest window, and the fill engine has nothing to do while a window below is in registers. -/
def Obligations.LingEngines : Prop :=
  ∀ (s : State) (p : Fin 253) (b : Fin 5), s.Calm → p.val < 252 → b.val < 4 → s.answers (.core p) = true →
    let x := s.bank p b
    (∀ (l : PendLoad) (pa : BitVec 40), x.pend = [l] → l.pa = pa.toNat → s.Scratch p b l.va [0] .read pa.toNat → l.pa % 64 + l.size ≤ 64 →
      0 < l.size →
      ∃ t, exec (.loadResponse p b pa false) s = .next t ∧
        t.bank p b = ({ x with pend := [] } : Bank).setCell l.rd (loaded (s.bytes l.pa l.size) l.size l.signed)) ∧
    (∀ (va : Word) (code : BitVec 3), ∃ t, exec (.storeBusError p b va code) s = .next t ∧
      (t.bank p b).exc = x.exc ++ [{ cause := 7, eaddr := va, resp := code.toNat }] ∧ t.mem = s.mem) ∧
    (∀ w : Word, x.st = .waiting → x.wait = .waitt w → 0 ≤ (lo32 s.now - w).toInt →
      ∃ t, exec (.waittDue p b) s = .next t ∧ (t.bank p b).wait = .none ∧ (t.bank p b).st ≠ .waiting ∧ (t.bank p b).st ≠ .off) ∧
    (∀ n : Fin 4, x.st ≠ .off → x.tctl.bit n = true → 0 ≤ (lo32 s.now - x.tcmpAt n).toInt →
      ∃ t, exec (.tcmpFire p b n) s = .next t ∧ (t.bank p b).tctl.bit n = false ∧ (t.bank p b).tctl.bit (4 + n) = true ∧
        (t.bank p b).flag = true) ∧
    (s.Keeps p b → x.st = .running → s.schedulable p = true → s.rf (.core p) R.SCHED_CFG F.SCHED_CFG_QUANT ≠ 0 →
      (s.core p).runStart + s.quantNs p (s.rf (.core p) R.SCHED_CFG F.SCHED_CFG_QUANT) ≤ s.mono →
      (s.bank p ((b.val + 1) % 4)).st = .ready → (s.bank p ((b.val + 1) % 4)).epri = x.epri →
      ∃ t, exec (.quantumExpire p) s = .next t ∧ (t.bank p ((b.val + 1) % 4)).st = .running ∧ (t.bank p b).st = .ready ∧
        (t.core p).lastRun = (b.val + 1) % 4) ∧
    (x.st ≠ .off → 5 ≤ x.resident → x.exc = [] → ∀ pa, s.Scratch p b x.wsp [1] .write pa → pa % 64 = 0 →
      ∃ t, exec (.windowSpill p b) s = .next t ∧ (t.bank p b).resident = x.resident - 1 ∧ (t.bank p b).wsp = x.wsp + 64 ∧
        ∀ i, i < 12 → t.leAt (pa + 4 * i) 4 = (x.cell (16 + (12 * ((x.cwp + 7 - x.resident) % 7) + i) % 84)).toNat) ∧
    (x.st ≠ .off → x.exc = [] → 1 ≤ x.depth → x.resident = 0 → x.cwp < 7 → ∀ pa, s.Scratch p b (x.wsp - 64) [0] .read pa → pa % 64 = 0 →
      ∃ t, exec (.windowFill p b) s = .next t ∧ (t.bank p b).resident = 1 ∧ (t.bank p b).wsp = x.wsp - 64 ∧
        ∀ i, i < 12 → ((t.bank p b).cell (16 + (12 * ((x.cwp + 6) % 7) + i) % 84)).toNat = s.leAt (pa + 4 * i) 4)

/-- R284, R292: a table walk of the guest's stage 1 for a 1 MiB page whose level-1 entry lies in scratch inserts the entry's
translation; nothing then waits. -/
def Obligations.TableWalk : Prop :=
  ∀ (s : State) (p : Fin 253) (b : Fin 5) (va : Word) (e : Nat), s.Calm → p.val < 252 → b.val < 4 →
    (s.bank p b).walk = some { va := va, acc := 0, pl := 1, engine := false } → (s.bank p b).dev = none →
    (s.ttb p b 0).bit 0 = true → s.s2On p b 0 = false →
    let a := (s.ttb p b 0).fld F.S_TTB_BASE * 2 ^ 15 + 8 * (va.toNat / 2 ^ 20)
    (∃ t o, s.place a = .scratch t o) → s.testOut p a = false → s.memDown a = none → s.poisoned a = false →
    (∀ r, s.masterRouter (s.coreReq p 1).master.toNat = some r → s.routed r (s.targetUnit a).router = true) →
    s.guardAcc a (s.coreReq p 1) .read (some (coreUnit p)) = (none, s) →
    e = s.leAt a 8 → e % 4 = 2 → natBits e 55 40 = 0 → natBits e 19 2 = 0 →
    ∃ t, exec (.tableWalk p b va 0) s = .next t ∧ (t.bank p b).walk = none ∧
      ∃ x ∈ (t.core p).tlb, x.lg = 20 ∧ x.va = va.toNat / 2 ^ 20 ∧ x.pa = natBits e 39 20 ∧ x.regime = 0 ∧
        x.asid = s.asid p b 0 ∧ x.ro = e.testBit 62 ∧ x.glob = e.testBit 60

/-! ### The block as a whole: its queue, its time, its reset (R7, R30, R59, R224, R267, R344, R421) -/

/-- A step takes the command at the front of the queue and runs it on the state with the rest of the queue. -/
def Obligations.StepRunsFront : Prop :=
  ∀ (c : Instr) (q : List Instr) (s : State), s.pending = c :: q → step s = exec c { s with pending := q }

/-- With no command waiting the block idles: global time (modulo 2^64) and the interval count advance by 1 ns, in DORMANT by 500 ns,
and nothing else changes. The lengths are the model's choice (log 5); that global time advances is R224. -/
def Obligations.StepIdle : Prop :=
  ∀ s : State, s.pending = [] →
    let n := if s.mode.mode = .dormant then 500 else 1
    step s = .next { s with now := (s.now + n) % 2 ^ 64, mono := s.mono + n }

/-- R30, R59, R224, R267, R344, R360: what PORST_N leaves. MODE is BOOT with only Tussock 0 out of reset, global time is 0, core 8 of
each Tussock is the spare and the others are ACTIVE, every bank is OFF, only Gorse and the debugger appear in the access tables,
memory is in its canonical form, and nothing waits. -/
def Obligations.ResetState : Prop :=
  let s := State.reset
  s.mode.mode = .boot ∧ s.tusUp = [0] ∧ s.now = 0 ∧ s.pending = [] ∧ s.MemOk ∧ s.Inv ∧ s.Calm ∧
  (∀ p, p < 252 → s.health p = (if p % 9 = 8 then Health.spare else Health.active) ∧ s.ident p = p ∧
    ∀ b, b < 4 → (s.bank p b).st = .off) ∧
  (∀ atid m, s.atEntry atid m = if m = 0x1C0 then 0x1F0 else if m = 0x1C1 then 0x1B0 else 0) ∧
  (∀ (u : UnitId) (g : Reg) (i j : Nat), s.rd u g i j = BitVec.ofNat 32 g.reset) ∧ ∀ a, s.byte a = 0

/-- Every command completes: in every state that meets the invariant a step answers a next state, never a fault or a refusal; the
queue has lost its front command and gained none, no command takes time, and the invariant holds again. -/
def Obligations.EveryCommandCompletes : Prop :=
  ∀ s : State, s.Inv → ∃ t, step s = .next t ∧ t.Inv ∧ t.pending = s.pending.tail ∧
    (s.pending ≠ [] → t.mono = s.mono) ∧ (s.pending = [] → s.mono < t.mono)

/-- First in, first out: after as many steps as commands wait, each has run, in its order; the queue is empty and the invariant holds. -/
def Obligations.QueueDrains : Prop :=
  ∀ (s : State) (front back : List Instr), s.Inv → s.pending = front ++ back →
    ∃ t, Sys2Proof.core.run front.length s = .next t ∧ t.pending = back ∧ t.Inv ∧ t.mono = s.mono

/-! ### Register accesses (R4, R16, R19, R25, R60, R61, R356, R357) -/

/-- R4, R16, R19: a granted write of a register replaces its RW fields, clears the W1C bits written as 1, sets the W1S bits written as
1 and keeps every other bit. It is one configuration event of the unit and of each ancestor, with the writer recorded; no other
register changes. A write of a register without writable fields does nothing. A write to a core also enters the register shadow of the
identity the core presents (R345). -/
def Obligations.RegisterWrites : Prop :=
  ∀ (s : State) (r : Req) (a : BitVec 48) (u : UnitId) (g : Reg) (i j : Nat) (v : Word), s.Calm → u.valid = true →
    a.toNat = regAddr u g i j → s.Granted r .write u g i j → 0x100 ≤ g.off →
    (regWritable g = 0 → s.Does (.registerWrite r a v) (fun t => t = { s with resp := .ok 0 })) ∧
    (regWritable g ≠ 0 → plainReg u g = true → s.Does (.registerWrite r a v) (fun t =>
      t.resp = .ok 0 ∧ s.OnlyReg t u g i j ∧
      (∀ k, k < 32 →
        (g.rw.testBit k = true → g.w1c.testBit k = false → g.w1s.testBit k = false → (t.rd u g i j).getLsbD k = v.getLsbD k) ∧
        (g.rw.testBit k = false → g.w1s.testBit k = false →
          (t.rd u g i j).getLsbD k = ((s.rd u g i j).getLsbD k && !(g.w1c.testBit k && v.getLsbD k))) ∧
        (g.rw.testBit k = false → g.w1c.testBit k = false →
          (t.rd u g i j).getLsbD k = ((s.rd u g i j).getLsbD k || (g.w1s.testBit k && v.getLsbD k)))) ∧
      (∀ x ∈ u.upward, t.unit x = { s.unit x with cfg := ((s.unit x).cfg + 1) % 2 ^ 32, writer := Req.writer r }) ∧
      ((∀ p, u ≠ .core p) → s.OnlyRegs t) ∧
      ∀ p, u = .core p → s.ident p < 252 →
        mapGet 0 t.fault.shadow (s.ident p * 0x8000 + (a.toNat - u.base)) = t.rd u g i j))

/-- R25: a read of the LO register of a pair returns it and latches HI for the reader; then a read of HI by that master returns what HI
held at the read of LO, and a read of HI by another master gets FORMAT. -/
def Obligations.RegisterPairs : Prop :=
  ∀ (s : State) (r r' : Req) (al ah : BitVec 48) (u : UnitId) (lo hi : Reg) (i j : Nat), s.Calm → (lo, hi) ∈ loHiOf u →
    al.toNat = regAddr u lo i j → ah.toNat = regAddr u hi i j → r.debug = false → s.Granted r .read u lo i j →
    s.Does (.loReadLatch r al) (fun t => t.resp = .ok (s.regValue u lo i j) ∧ t = { s with latches := t.latches, resp := t.resp } ∧
      (t.Granted r .read u hi i j → t.Does (.hiReadLatched r ah) (fun x => x = { t with resp := .ok (s.regValue u hi i j) })) ∧
      (r'.debug = false → r'.master ≠ r.master → t.Granted r' .read u hi i j →
        t.Does (.hiReadLatched r' ah) (fun x => x = { t with resp := .err 4 })))

/-- R60, R61: a write that the access table of its target refuses: the first of the checks of epoch, privilege and permission that fails
gives the response. The target's FAULT_SUM and the violation log of its quadrant (or, where it is full, VIOL_OVF) record it, and the
rejected request has no effect on the target: memory and every register outside the quadrant's Sward router block stay. -/
def Obligations.AccessDenied : Prop :=
  ∀ (s : State) (r : Req) (a : BitVec 48) (v : Word) (u : UnitId) (o : Nat), s.Calm → s.Mute →
    unitAt a.toNat = some (u, o) → (∀ b, s.masterRouter r.master.toNat = some b → s.routed b u.router = true) →
    s.mode.mode ≠ .dormant → s.peat.underV = false → gorseOnly a.toNat = false →
    let e := s.atEntry u.atid r.master.toNat
    let code := if r.epoch.toNat ≠ e % 16 then 1 else if r.priv.toNat < e / 16 % 4 then 2 else if e.testBit 7 then 0 else 3
    let q := routerQuad u.router
    let log := mapGet [] s.sward.viol q
    code ≠ 0 →
    s.Does (.registerWrite r a v) (fun t =>
      t.resp = .err code ∧ t = { s with regs := t.regs, units := t.units, sward := { s.sward with viol := t.sward.viol }, resp := t.resp } ∧
      t.unit u = { s.unit u with fsum := (s.unit u).fsum ||| (if code = 1 then 8 else 16) } ∧
      mapGet [] t.sward.viol q =
        (if log.length < 16 then log ++ [⟨code, r.epoch.toNat, r.priv.toNat, 1, u.atid, r.master.toNat, a.toNat⟩] else log) ∧
      (16 ≤ log.length → (t.rd (.sw q) R.VIOL_OVF).toNat = min ((s.rd (.sw q) R.VIOL_OVF).toNat + 1) (2 ^ 32 - 1)) ∧
      ∀ x d, inBlock (.sw q) x = false → mapGet d t.regs x = mapGet d s.regs x)

/-- R357: the CRC of the configuration digest starts at 0, takes each byte most significant bit first and has no final inversion; of
the nine ASCII bytes 123456789 it is 0x6C40DF5F0B497347. Bits [31:0] of a unit's digest are CFG_DIGEST_LO, bits [63:32]
CFG_DIGEST_HI, which the read of LO latches (R20, R25). -/
def Obligations.ConfigurationDigest : Prop :=
  crc64 [] = 0 ∧
  (∀ (l : List Byte) (b : Byte), crc64 (l ++ [b]) = [7, 6, 5, 4, 3, 2, 1, 0].foldl (fun c k => crc64Bit c (b.getLsbD k)) (crc64 l)) ∧
  crc64 [0x31, 0x32, 0x33, 0x34, 0x35, 0x36, 0x37, 0x38, 0x39] = 0x6C40DF5F0B497347 ∧
  ∀ (s : State) (r : Req) (ah : BitVec 48) (u : UnitId), s.Calm → u.valid = true → r.debug = false →
    s.Granted r .read u R.CFG_DIGEST_LO 0 0 → ah.toNat = regAddr u R.CFG_DIGEST_HI 0 0 →
    s.Does (.cfgDigestRead r u) (fun t => t.resp = .ok (BitVec.ofNat 32 (s.digest u)) ∧
      t = { s with latches := t.latches, resp := t.resp } ∧
      (t.Granted r .read u R.CFG_DIGEST_HI 0 0 →
        t.Does (.hiReadLatched r ah) (fun x => x = { t with resp := .ok (BitVec.ofNat 32 (s.digest u / 2 ^ 32)) })))

/-! ### Units: resets, power, health (R17 to R19, R342, R343, R421, R422, R424) -/

/-- R17, R19: RESET of a unit other than the device returns PWR_REQ and FAULT_MASK to their reset values, clears its own FAULT_SUM bits,
and leaves EPOCH, HEALTH_TICK and ENERGY; each unit of the subtree counts one configuration event. The registers of a core read
their reset values, and its banks are OFF. HOLD keeps a unit in reset until it is written 0. -/
def Obligations.UnitReset : Prop :=
  ∀ (s : State) (r : Req) (u : UnitId), s.Calm → u.valid = true → u ≠ .device →
    s.Granted r .write u R.RESET_CTL 0 0 →
    (s.unit u).hold = false → (s.unit u).dead = false →
    s.Does (.unitReset r u false) (fun t =>
      t.resp = .ok 0 ∧ t.rd u R.PWR_REQ = 1 ∧ t.rd u R.FAULT_MASK = 0 ∧ t.mode.mode = s.mode.mode ∧
      (t.unit u).epoch = (s.unit u).epoch ∧ (t.unit u).tick = (s.unit u).tick ∧ (t.unit u).energy = (s.unit u).energy ∧
      (t.unit u).cfg = ((s.unit u).cfg + u.subtree.length) % 2 ^ 32 ∧ (t.unit u).writer = Req.writer r ∧
      (∀ p, u = .core p → (t.unit u).fsum = 0 ∧ (∀ b, b < 4 → (t.bank p b).st = .off) ∧
        (∀ x d, inBlock u x = true → mapGet d t.regs x = d) ∧ ∀ x d, inBlock u x = false → mapGet d t.regs x = mapGet d s.regs x)) ∧
    s.Does (.holdWrite r u true) (fun t => t.resp = .ok 0 ∧ (t.unit u).hold = true ∧ t.inReset u = true) ∧
    (s.setUnit u { s.unit u with hold := true }).Does (.holdWrite r u false) (fun t =>
      t = { s with units := t.units, resp := .ok 0 } ∧ (t.unit u).hold = false)

/-- R421, R422, R424: a unit that is ON with TARGET at the state, and idle, enters IDLE, RETAIN (a unit other than a home slice) or OFF;
a unit that is being powered comes back ON; energy grows in every unit that has power, by a value the spec does not state, and in no
other. -/
def Obligations.UnitPower : Prop :=
  ∀ (s : State) (u : UnitId), s.Calm → u.valid = true →
    (s.mode.mode ≠ .dormant → s.inReset u = false → s.attached = false → (s.unit u).pstate = .on → s.idle u = true →
      (1 ≤ s.obeys u → s.Does (.unitEnterIdle u) (fun t => t = s.setUnit u { s.unit u with pstate := .idle })) ∧
      (2 ≤ s.obeys u → (∀ c, u ≠ .slice c) →
        s.Does (.unitEnterRetain u) (fun t => t = s.setUnit u { s.unit u with pstate := .retain })) ∧
      (3 ≤ s.obeys u → (∀ k, u = .tussock k → s.mem.subs = []) → s.Does (.unitEnterOff u) (fun t => (t.unit u).pstate = .off ∧ t.isOff u = true))) ∧
    ((s.unit u).pstate = .transition → s.Does (.unitPowerUpDone u) (fun t => (t.unit u).pstate = .on)) ∧
    s.Does .energyUpdate (fun t => t = { s with units := t.units, freeCtr := t.freeCtr } ∧
      (s.isOff u = true → t.unit u = s.unit u) ∧
      (s.isOff u = false → ∃ w : Word, t.unit u = { s.unit u with energy := ((s.unit u).energy + w.toNat) % 2 ^ 64 }))

/-- R342, R343: at a multiple of 2,000 ns the tick of a checked unit advances unless its logic is silent; before the third check without a
tick nothing is declared; at it the unit is declared dead: it is held, and the machine-check log has its record. (The consequences for
other units are in the statements of substitution and of the safe state.) -/
def Obligations.UnitHealth : Prop :=
  ∀ (s : State) (u : UnitId) (silent : List UnitId), s.Calm → u.valid = true → s.checked u = true →
    (s.now % 2000 = 0 → s.Does (.healthTick silent) (fun t => t = { s with units := t.units } ∧
      (s.silent silent u = false → t.unit u = { s.unit u with tick := ((s.unit u).tick + 1) % 2 ^ 32, lastTick := s.now, missed := 0 }) ∧
      (s.silent silent u = true → t.unit u = { s.unit u with missed := (s.unit u).missed + 1 }))) ∧
    ((s.unit u).missed < 3 → s.Does (.unitDeclaredDead u) (fun t => t = s)) ∧
    (3 ≤ (s.unit u).missed → s.fault.mclog.length < 32 → s.Mute →
      (u ∈ [UnitId.mio, .hedgerow, .dap, .telCoder] ∨
        ∃ p, u = .core p ∧ s.siblingDue u = false ∧ s.health p = .spare ∧ s.mode.mode = .boot ∧ s.mode.trans = none) →
      s.Does (.unitDeclaredDead u) (fun t => (t.unit u).dead = true ∧ t.inReset u = true ∧
        ∃ w ∈ t.fault.mclog, w.getD 1 0 = BitVec.ofNat 32 (2 * 2 ^ 30 + 3 * 2 ^ 16 + s.fault.mcSeq) ∧
          w.getD 6 0 = BitVec.ofNat 32 (s.unit u).tick))

/-! ### Operating modes (R30 to R40, R135) -/

/-- R33, R36 to R38, R40, R135: what a granted write of MODE_REQ asks for. With no transition in progress STEADY, SURGE and MAINTENANCE
begin a transition out of STEADY or SURGE, DORMANT begins its entry, a request for the mode in force starts none, a mode that
cannot be requested gets REQ_ERR 1, and BOOT without GO refuses with REQ_ERR 2; behind a transition the request is latched. LOOP_EN
and DP_EN take the value written. -/
def Obligations.ModeRequests : Prop :=
  ∀ (s : State) (r : Req) (v : Word) (k : Fin 4), s.Calm →
    let m := s.mode
    let req (c : Instr) (P : State → Prop) : Prop := s.Sets r .device R.MODE_REQ 0 c P
    let begins (t : State) (x : Mode) (plan : Nat) : Prop :=
      t.mode.trans = some { target := x, confirm := v.bit 12 } ∧ t.mode.reqErr = 0 ∧ t.sward.loading = some plan ∧ t.mode.mode = m.mode
    (m.trans = none → m.rcvWant = false →
      (s.eth.egress = [] → req (.modeReqDormant r v) (fun t => t.mode.dormEntry = true ∧ t.mode.reqErr = 0 ∧ t.mode.mode = m.mode ∧ ∀ p, t.linkUp p = false)) ∧
      (m.mode = .steady ∨ m.mode = .surge →
        (m.mode ≠ .steady → req (.modeReqSteady r v) (fun t => begins t .steady 1)) ∧
        (m.mode ≠ .surge → req (.modeReqSurge r v) (fun t => begins t .surge 2 ∧ t.peat.pllRun.testBit 2 = true)) ∧
        req (.modeReqMaintenance r v) (fun t => begins t .maintenance 4) ∧
        req (.modeReqPlanConfirm r v) (fun t => t.mode.trans = none ∧ t.mode.vReload = true ∧ t.sward.loading = some 3)) ∧
      (m.mode = .boot → (s.rd .gorse R.BOOT_STATUS).bit 31 = false →
        req (.modeReqSteady r v) (fun t => t.mode = { m with reqErr := 2 })) ∧
      req (.modeReqUnrequestable r v k) (fun t => t.mode = { m with reqErr := 1 })) ∧
    (m.trans.isSome = true → m.pending = none →
      req (.modeReqSurge r v) (fun t => t.mode = { m with pending := some (Word.setFld v F.MODE_REQ_TARGET 3) })) ∧
    (m.mode ≠ .dormant →
      (∀ on, req (.loopEnWrite r on) (fun t => t.rf .device R.MODE_REQ F.MODE_REQ_LOOP_EN = b2n on)) ∧
      req (.dpEnClear r) (fun t => t.rf .device R.MODE_REQ F.MODE_REQ_DP_EN = 0) ∧
      req (.dpEnSet r) (fun t => t.rf .device R.MODE_REQ F.MODE_REQ_DP_EN = 1))

/-- R31, R33, R34, R36, R38, R45, R135: the steps of a transition. The loaded plan sets the swap time a lead of whole wheels ahead, or the
request is abandoned with REQ_ERR 5; at the swap time the banks change over and the mode takes its new value; the reload of plan V,
the clock change, the clearing of predictors and the power-up of held Tussocks follow; DORMANT is entered when its entry completes. (No
request is latched here, and no frame waits at a port.) -/
def Obligations.ModeTransitions : Prop :=
  ∀ s : State, s.Calm → s.mode.pending = none → s.eth.egress = [] →
    let m := s.mode
    (∀ (t : Trans) (code : Nat), m.trans = some t → t.device = false → t.ts = none → t.target.plan = some code →
      s.sward.loading = some code →
      s.Does .planLoadDone (fun x =>
        match ({ s with sward := { s.sward with loading := none } } : State).planLoad code with
        | .ok e => x.sward.shadow = e ∧ x.sward.shadowPlan = code ∧ x.sward.shadowValid = true ∧ ∃ ts, x.mode.trans = some { t with ts := some ts } ∧
            ts % 32 = 0 ∧ s.now + 32 * 16 ≤ ts ∧ ts < s.now + 32 * 1024 + 32
        | _ => x.mode.trans = none ∧ x.mode.reqErr = 5 ∧ x.mode.mode = m.mode)) ∧
    (∀ (t : Trans) (ts : Nat), m.trans = some t → t.ts = some ts → t.swapped = false → ts ≤ s.now →
      ∀ c ∈ (if t.device then [Instr.recoveryEntry] else [Instr.modeSwap]),
        s.Does c (fun x => x.mode.mode = t.target ∧ x.mode.prev = m.mode ∧ x.sward.active = s.sward.shadow ∧
          x.sward.activePlan = s.sward.shadowPlan)) ∧
    (∀ p : Fin 252, s.Does (.predictorClearDone p) (fun x => (x.core p).clearing = false ∧ (x.core p).tagged = (s.core p).tagged)) ∧
    (m.vReload = true → s.sward.loading = some 3 → m.trans = none → m.rcvWant = false →
      s.Does .planVReloadDone (fun x => x.mode = { m with vReload := false } ∧ x.sward.loading = none)) ∧
    (∀ t : Trans, m.trans = some t → t.swapped = true → t.needClk = true → (t.target ≠ .surge ∨ s.pllLocked 2 = true) →
      s.Does .serviceClockSwitch (fun x => x.mode.svcFast = (t.target == .surge))) ∧
    (∀ (t : Trans) (k : Fin 28), m.trans = some t → t.needTus = true → k.val ∉ s.tusUp →
      s.Does (.tussockPowerUpDone k) (fun x => x.tusUp = s.tusUp ++ [k.val])) ∧
    (m.dormEntry = true → s.attached = false → s.peat.exiting = none → s.trace.src = [] → s.hrOn = false →
      s.Does .dormantEntryComplete (fun x => x.mode.mode = .dormant ∧ x.mode.prev = m.mode ∧ x.mode.trans = none ∧ x.mode.dormEntry = false ∧
        x.peat.pllLock = 0 ∧ ∀ c, c < 32 → (x.chan c).selfRef = s.rb .device R.MODE_REQ F.MODE_REQ_STACKS)) ∧
    (s.dpOn = false → s.pathEmpty = true → s.Does .pathQuiesced (fun x => x.quiesced = true))

/-! ### Sward, the paths to the host, and the memories (R28, R29, R54, R57 to R68, R72, R74, R77, R79, R83, R84) -/

/-- R57, R61, R62, R68: the Sward router block's registers. ATAB_WRITE replaces one entry of an access table it may write and is refused
for another; VIOL_POP returns the oldest violation and removes it; a read of SEM_n returns the token and takes it, SEM_REL gives it
back; CLR zeroes a monitor. -/
def Obligations.SwardRegisters : Prop :=
  ∀ (s : State) (r : Req) (q : Fin 4) (n : Fin 32) (m : Fin 8) (v : Word), s.Calm →
    let u := UnitId.sw q
    let log := mapGet [] s.sward.viol q
    (atabWritable q (v.toNat / 2 ^ 24) = true → s.Sets r u R.ATAB_WRITE 0 (.atabWrite r q v) (fun t =>
      ∀ atid x, x < 4096 → t.atEntry atid x =
        if atid = v.toNat / 2 ^ 24 ∧ x = v.toNat / 4096 % 4096 then v.toNat % 512 else s.atEntry atid x)) ∧
    (atabWritable q (v.toNat / 2 ^ 24) = false → s.Granted r .write u R.ATAB_WRITE 0 0 →
      s.Does (.atabWrite r q v) (fun t => t = { s with resp := .err 4 })) ∧
    (r.debug = false →
      (log = [] → s.Gets r u R.VIOL_POP 0 (.violPop r q) 0 (fun t => t.sward = s.sward)) ∧
      (∀ x l, log = x :: l →
        s.Gets r u R.VIOL_POP 0 (.violPop r q) (BitVec.ofNat 32 (2 ^ 31 + x.kind * 2 ^ 28 + x.epoch % 16 * 2 ^ 24 +
            x.priv % 4 * 2 ^ 22 + x.op % 4 * 2 ^ 20 + x.atid % 256 * 2 ^ 12 + x.master % 4096))
          (fun t => mapGet [] t.sward.viol q = l ∧ t.rd u R.VIOL_W1 = BitVec.ofNat 32 x.addr ∧
            t.rd u R.VIOL_W2 = BitVec.ofNat 32 (x.addr / 2 ^ 32))) ∧
      s.Gets r u R.SEM n (.semAcquire r q n) (s.rd u R.SEM n) (fun t => (t.rd u R.SEM n).bit 0 = false ∧ s.OnlyReg t u R.SEM n 0 ∧ s.OnlyRegs t)) ∧
    s.Sets r u R.SEM_REL 0 (.semRel r q n) (fun t => t.rd u R.SEM n = 1 ∧ s.OnlyReg t u R.SEM n 0 ∧ s.OnlyRegs t) ∧
    s.Sets r u R.PMON_CTL m (.pmonClr r q m v) (fun t => t.rd u R.PMON_CNT_LO m = 0 ∧ t.rd u R.PMON_CNT_HI m = 0)

/-- R54, R62, R65, R67, R68: what the mesh does. A corrected flit is counted; LINK_UE_MAX uncorrectable ones within 1 ms, or a 1 written to
LINK_DIS, disable the link at both ends and take the RECOVERY trigger; a broadcast sets one master's epoch in every table and is one
configuration event in each Sward block; a transaction without a response ends with TIMEOUT, and its late response is discarded. -/
def Obligations.SwardMesh : Prop :=
  ∀ (s : State) (r : Req) (k : Fin 64) (d : Fin 4) (e : Fin 4) (b : Nat), s.Calm → linkNbr k d = some b →
    let u := UnitId.sw (routerQuad k)
    let m := s.mode
    let cut (t : State) : Prop := t.linkOff k d = true ∧ t.linkOff b (facing d) = true ∧ s.Triggered t 3
    (s.linkOff k d = false →
      s.Does (.linkFlitReceive k d 0) (fun t => t = s) ∧
      (s.Mute → s.Does (.linkFlitReceive k d 1) (fun t => (t.unit u).fsum = ((s.unit u).fsum ||| 1) ∧ t.sward = s.sward)) ∧
      (2 ≤ e.val → (s.linkErrs (4 * k.val + d.val)).length < max 1 (s.rf u R.SW_CTL F.SW_CTL_LINK_UE_MAX) →
        s.Does (.linkFlitReceive k d e) (fun t => t.mode = m ∧ t.linkOff k d = false ∧
          mapGet [] t.sward.linkUe (4 * k.val + d.val) = (mapGet [] s.sward.linkUe (4 * k.val + d.val)).filter (fun x => decide (s.mono < x + 1000000)) ++ [s.mono])) ∧
      (2 ≤ e.val → max 1 (s.rf u R.SW_CTL F.SW_CTL_LINK_UE_MAX) ≤ (s.linkErrs (4 * k.val + d.val)).length → s.Settled →
        s.Does (.linkFlitReceive k d e) cut) ∧
      (∀ (q : Fin 4) (hi : Bool) (i : Fin 32), k.val = localRouter q.val ((i.val + (if hi then 32 else 0)) / 4 % 4) ((i.val + (if hi then 32 else 0)) / 16) →
        d.val = i.val % 4 → s.Settled →
        s.Sets r (.sw q) (if hi then R.LINK_DIS_HI else R.LINK_DIS_LO) 0 (.linkDisWrite r q hi (BitVec.ofNat 32 (2 ^ i.val))) cut)) ∧
    (∀ (x : Bcast) (l : List Bcast), s.sward.bcasts = x :: l → s.now % 32 = 0 → x.master < 4096 → s.Does .mgmtBroadcast (fun t =>
      t.sward.bcasts = l ∧
      (∀ atid y, atid < 128 → y < 4096 → t.atEntry atid y =
        if y = x.master then s.atEntry atid y / 16 * 16 % 512 + x.epoch % 16 else s.atEntry atid y) ∧
      ∀ q, q < 4 → (t.unit (.sw q)).cfg = ((s.unit (.sw q)).cfg + 1) % 2 ^ 32 ∧ (t.unit (.sw q)).writer = machineWriter)) ∧
    (∀ (mm : BitVec 12) (tag : Nat) (x : Txn), s.sward.txns = [x] → x.req.master = mm → x.tag = tag →
      (x.timedOut = false → x.since + s.txnNs x.quad ≤ s.mono → s.Does (.txnTimeoutExpire mm tag) (fun t =>
        t = { s with sward := { s.sward with txns := [{ x with timedOut := true }] }, resp := .err 7 })) ∧
      (∀ n, x.timedOut = true → (∃ i o, s.place x.addr = .scratch i o) → s.memReady x.addr = true → x.what = .read n →
        s.Does (.lateResponseDiscard mm tag) (fun t => t.sward.txns = [] ∧ t.resp = s.resp ∧ t.mem = s.mem))) ∧
    (∀ (q : Fin 4) (i : Fin 8), s.rb (.sw q) R.PMON_CTL F.PMON_CTL_TRACE_EN i = true → s.answers (.sw q) = true →
      mapGet 0 s.trace.pmonAt (8 * q.val + i.val) + 32 * max 1 (s.rf (.sw q) R.PMON_CTL F.PMON_CTL_INTERVAL i) ≤ s.mono →
      s.Does (.pmonTraceEmit q i) (fun t => mapGet 0 t.trace.pmonAt (8 * q.val + i.val) = s.mono))

/-- R21, R60, R63: a request to scratch that its access table permits: a read returns the bytes and changes nothing, a write changes
those bytes alone, an atomic operation returns the old word and leaves its result; memory keeps its canonical form. A request to an
address that nothing backs gets UNMAPPED. -/
def Obligations.TargetRequests : Prop :=
  ∀ (s : State) (r : Req) (src : Option (Fin 252)) (a : BitVec 40) (k : TReq) (tag : Nat), s.Calm →
    let x := a.toNat
    let from_ : Option UnitId := src.map (fun p => .core p)
    (s.place x = .nowhere → s.Does (.targetRequest r src a k tag) (fun t => t = { s with resp := .err 0 })) ∧
    ((∃ t o, s.place x = .scratch t o) → (∀ b, s.masterRouter r.master.toNat = some b → s.routed b (s.targetUnit x).router = true) →
      s.guardAcc x r (TReq.op k) from_ = (none, s) → s.memDown x = none →
      (∀ n, k = .read n ∨ k = .fetch n → s.Does (.targetRequest r src a k tag) (fun t =>
        t = { s with resp := .ok (BitVec.ofNat 32 (ofLe ((s.bytes x n).take 4))) })) ∧
      (∀ d, k = .write d false → s.Does (.targetRequest r src a k tag) (fun t =>
        t.resp = .ok 0 ∧ t.bytes x d.length = d ∧ (∀ y, y < x ∨ x + d.length ≤ y → t.byte y = s.byte y) ∧ (s.MemOk → t.MemOk) ∧
        t.regs = s.regs ∧ t.units = s.units ∧ t.mode = s.mode)) ∧
      (∀ op y z, op < 3 → k = .atomic op y z → x % 4 = 0 → s.Does (.targetRequest r src a k tag) (fun t =>
        let old : Word := BitVec.ofNat 32 (s.leAt x 4)
        t.resp = .ok old ∧ t.leAt x 4 = (if op = 0 then old + y else if op = 1 then y else if old = z then y else old).toNat ∧
        (∀ w, w < x ∨ x + 4 ≤ w → t.byte w = s.byte w) ∧ t.regs = s.regs)))

/-- R28, R29: OB_BASE_HI applies the whole base; a permitted access to the outbound window goes to host address BASE + (A - 2^36)
modulo 2^64 on the selected link, without a PASID, and gets TARGET_DOWN where the window does not answer. A host access through BAR4
reaches a register as master 0x180 + link at level S; a read that gets an error completes with Completer Abort. -/
def Obligations.HostWindows : Prop :=
  ∀ (s : State) (r : Req) (v : Word) (a : BitVec 40) (n : Fin 65) (l : Fin 2) (o : BitVec 26), s.Calm →
    let host := (s.pcie.obBase + (a.toNat - 2 ^ 36)) % 2 ^ 64
    let link := if s.twoLinks then s.rf .pcie R.OB_CTL F.OB_CTL_LINK else 0
    let addr := 0x0E00000000 + o.toNat
    s.Sets r .pcie R.OB_BASE_HI 0 (.obBaseApply r v) (fun t =>
      t.pcie.obBase = v.toNat * 2 ^ 32 + (s.rd .pcie R.OB_BASE_LO).toNat) ∧
    (s.place a.toNat = .outbound →
      (∀ d p, s.guardAcc a.toNat r .write = (none, s) →
        (s.obUp = true → s.Does (.outboundAccess r a n (some d) p) (fun t =>
          t = { s with out := .pcieWrite link host d none p :: s.out, resp := .ok 0 })) ∧
        (s.obUp = false → s.Does (.outboundAccess r a n (some d) p) (fun t => t = { s with resp := .err 5 }))) ∧
      (s.guardAcc a.toNat r .read = (none, s) → s.obUp = true → 0 < n.val → host % 4096 + n.val ≤ 4096 → s.tagsUsed link < s.tagLimit →
        s.Does (.outboundAccess r a n none false) (fun t => t.out = .pcieRead link host n none s.pcie.nextTag :: s.out ∧
          t.mem = s.mem ∧ t.regs = s.regs))) ∧
    (s.linkUsed l = false ∨ (s.pf l).up = false → s.Does (.bar4Write l o v) (fun t => t = s) ∧ s.Does (.bar4Read l o) (fun t => t = s)) ∧
    (s.linkUsed l = true → (s.pf l).up = true →
      let h : Req := { master := 0x180 + BitVec.ofNat 12 l, priv := 1, epoch := 0 }
      (∀ u, addr = regAddr u R.FAULT_MASK 0 0 → s.Granted h .read u R.FAULT_MASK 0 0 →
        s.Does (.bar4Read l o) (fun t => t = { s with resp := .ok (s.rd u R.FAULT_MASK) })) ∧
      (∀ u g i j, u.valid = true → addr = regAddr u g i j → s.Granted h .write u g i j → 0x100 ≤ g.off → regWritable g ≠ 0 →
        plainReg u g = true → (∀ p, u ≠ .core p) →
        s.Does (.bar4Write l o v) (fun t => t.rd u g i j = regWritten g (s.rd u g i j) v ∧ s.OnlyReg t u g i j ∧ s.OnlyRegs t)) ∧
      (unitAt addr = none → s.Does (.bar4Read l o) (fun t => t = { s with out := .abort l :: s.out, resp := .err 0 })))

/-- R72, R74, R77, R79, R83, R84: the region table takes RW fields until LOCKED is set, and then discards writes; the scrubber reads the
next line at its interval and logs what it finds; a channel enters self-refresh when idle and its slice may retain, leaves it when
the exit is done, and serves once initialised. -/
def Obligations.StackedMemory : Prop :=
  ∀ (s : State) (r : Req) (n : Fin 256) (v : Word) (c : Fin 32), s.Calm →
    let z := UnitId.slice 0
    let u := UnitId.slice c
    let x := s.chan c
    let region (k : Fin 3) (g : Reg) : Prop :=
      ((s.rd z R.REG_ATTR n).bit 31 = false → s.Sets r z g n (.regionEntryWrite r n k v) (fun t =>
        t.rd z g n = regWritten g (s.rd z g n) v ∧ t.mem = s.mem)) ∧
      ((s.rd z R.REG_ATTR n).bit 31 = true → s.Sets r z g n (.regionEntryWrite r n k v) (fun t => t = { s with resp := .ok 0 }))
    region 0 R.REG_BASE ∧ region 1 R.REG_SIZE ∧ region 2 R.REG_ATTR ∧
    s.Sets r z R.REG_ATTR n (.regionLock r n v) (fun t => (t.rd z R.REG_ATTR n).bit 31 = true) ∧
    (s.rf u R.SCRUB_CTL F.SCRUB_CTL_INTERVAL ≠ 0 → s.answers u = true → x.initDone = true → x.selfRef = false →
      x.scrubAt + 16 * s.rf u R.SCRUB_CTL F.SCRUB_CTL_INTERVAL ≤ s.mono →
      let next (t : State) : Prop := (t.rd u R.SCRUB_POS).toNat = ((s.rd u R.SCRUB_POS).toNat + 1) % 25165824 ∧ (t.chan c).scrubAt = s.mono
      s.Does (.scrubRead c .clean) (fun t => next t ∧ t.mem.mem = s.mem.mem) ∧
      (s.Mute → s.Does (.scrubRead c .corr) (fun t => next t ∧ (t.unit u).fsum = ((s.unit u).fsum ||| 1) ∧
        (t.rd u R.ECC_CORR_CNT).toNat = min ((s.rd u R.ECC_CORR_CNT).toNat + 1) (2 ^ 32 - 1) ∧ ∀ a, t.byte a = s.byte a)) ∧
      s.Does (.scrubRead c .ue) (fun t => next t ∧ t.poisoned (chanKey c (64 * (s.rd u R.SCRUB_POS).toNat)) = true)) ∧
    (x.initDone = true → x.selfRef = false → 2 ≤ s.obeys u → s.idle u = true → s.answers u = true → s.attached = false →
      (s.unit u).pstate = .on →
      s.Does (.selfRefreshEntry c) (fun t => t.chan c = { x with selfRef := true, exiting := false } ∧ (t.unit u).pstate = .retain)) ∧
    (s.sward.txns = [] →
      (x.selfRef = true → x.exiting = true → s.Does (.selfRefreshExitDone c) (fun t =>
        t = s.setChan c { x with selfRef := false, exiting := false })) ∧
      (s.answers u = true → s.Does (.channelInitDone c) (fun t =>
        t = s.setChan c { x with initDone := true, selfRef := false, exiting := false, lastReq := s.mono }))) ∧
    (∀ hot, x.selfRef = false → s.Does (.refresh c hot) (fun t => t = s.setChan c { x with refx2 := hot }))

/-- R226 to R228, R308, R310, R311: a step of global time waits for a wheel boundary at least 1 µs away and then moves the count, once; a
set is taken in BOOT alone; the rate takes its value. A legal L2_WAYS takes its value, and a conversion ends with new scratch zero;
an illegal one, or one during a conversion, is refused. -/
def Obligations.TimeAndWays : Prop :=
  ∀ (s : State) (r : Req) (v : Word) (t : Fin 28), s.Calm →
    let u := UnitId.tussock t
    let c := mapGet 0 s.mem.conv t
    let base := 0xC00000000 + t.val * 0x800000
    (s.time.step = none → s.Sets r .peat R.GT_STEP 0 (.gtStepWrite r v) (fun x =>
      ∃ at_, x.time.step = some (v.toInt - (v.toNat % 32 : Nat), at_) ∧ at_ % 32 = 0 ∧ s.now + 1000 ≤ at_ ∧ at_ < s.now + 1032)) ∧
    (s.time.step.isSome = true → s.Granted r .write .peat R.GT_STEP 0 0 → s.Does (.gtStepWrite r v) (fun x => x = { s with resp := .err 4 })) ∧
    (∀ d at_, s.time.step = some (d, at_) → at_ ≤ s.now → s.tel.str = [] →
      s.Does .gtStepApply (fun x => (x.now : Int) = ((s.now : Int) + d) % (2 ^ 64 : Nat) ∧ x.mono = s.mono ∧
        x.time = { s.time with step := none, cnt := (s.time.cnt + 1) % 2 ^ 16 })) ∧
    s.Sets r .peat R.GT_RATE 0 (.gtRateWrite r v) (fun x => x.rd .peat R.GT_RATE = v) ∧
    (s.mode.mode = .boot → s.Sets r .peat R.GT_SET_HI 0 (.gtSetHiWrite r v) (fun x => ∃ n at_, x.time.set = some (n, at_) ∧
      n = (v.toNat * 2 ^ 32 + (s.rd .peat R.GT_SET_LO).toNat) / 32 * 32 ∧ at_ % 32 = 0 ∧ s.now < at_ ∧ at_ ≤ s.now + 32)) ∧
    (s.mode.mode ≠ .boot → s.Granted r .write .peat R.GT_SET_HI 0 0 → s.Does (.gtSetHiWrite r v) (fun x => x = { s with resp := .err 4 })) ∧
    (∀ n at_, s.time.set = some (n, at_) → at_ ≤ s.now → n < 2 ^ 64 → s.Does .gtSetApply (fun x => x.now = n ∧ x.time.set = none)) ∧
    (v.fld F.L2_WAYS_SCRATCH + v.fld F.L2_WAYS_LOCKW ≤ 12 → c = 0 → s.Sets r u R.L2_WAYS 0 (.l2WaysWrite r t v) (fun x =>
      x.rd u R.L2_WAYS &&& 0xF0F = v &&& 0xF0F ∧
      ∀ a, a < base + 0x20000 * v.fld F.L2_WAYS_SCRATCH ∨ base + 0x20000 * s.rf u R.L2_WAYS F.L2_WAYS_SCRATCH ≤ a → x.byte a = s.byte a)) ∧
    (12 < v.fld F.L2_WAYS_SCRATCH + v.fld F.L2_WAYS_LOCKW ∨ c ≠ 0 → s.Granted r .write u R.L2_WAYS 0 0 →
      s.Does (.l2WaysWrite r t v) (fun x => x = { s with resp := .err 4 })) ∧
    (0 < c → c ≤ 2 ^ 32 → s.mem.sectors = [] → s.sward.txns = [] → s.Does (.wayConversionDone t) (fun x => mapGet 0 x.mem.conv t = 0 ∧
      ∀ a, (base + 0x20000 * ((c - 1) % 16) ≤ a ∧ a < base + 0x20000 * s.rf u R.L2_WAYS F.L2_WAYS_SCRATCH → x.byte a = 0) ∧
        (a < base + 0x20000 * ((c - 1) % 16) ∨ base + 0x20000 * s.rf u R.L2_WAYS F.L2_WAYS_SCRATCH ≤ a → x.byte a = s.byte a)))

/-! ### Sedge: microwords, threads and engines (R85 to R108) -/

/-- R91, R93, R94: operation A. With no operation B, each row writes its result to DST, updates the flags with SETC, and the next address
is NEXT, ORed with the low CBITS bits of the condition group after the result is written. A row of operation A and a row of operation B
that name the same microword do the same. -/
def Obligations.SedgeAlu : Prop :=
  ∀ (s : State) (e : Fin 64) (ecc : Ecc) (t : Nat) (m : Mw), s.Issues e ecc t m → m.opb = 0 →
    let x := s.spec t m m.s1
    let y := s.spec t m m.s2
    let p := y.toNat % 32
    let w := y.toNat / 32 % 32 + 1
    (m.opa = 0 → s.Does (.opaNop e ecc) (fun u =>
      s.IssuedAs u e t (s.reaches t { s.thread t with any := false }
        (if m.csel = 0 then m.next else m.next ||| ((s.setThread t { s.thread t with any := false }).group t m.csel 0 % 2 ^ m.cbits))))) ∧
    s.Alu e t m (.opaMov e ecc) 0x01 x false false ∧
    s.Alu e t m (.opaAdd e ecc) 0x02 (x + y) (decide (2 ^ 32 ≤ x.toNat + y.toNat)) (decide ((x + y).toInt ≠ x.toInt + y.toInt)) ∧
    s.Alu e t m (.opaSub e ecc) 0x03 (x - y) (decide (y.toNat ≤ x.toNat)) (decide ((x - y).toInt ≠ x.toInt - y.toInt)) ∧
    s.Alu e t m (.opaAnd e ecc) 0x04 (x &&& y) false false ∧
    s.Alu e t m (.opaOr e ecc) 0x05 (x ||| y) false false ∧
    s.Alu e t m (.opaXor e ecc) 0x06 (x ^^^ y) false false ∧
    s.Alu e t m (.opaAndn e ecc) 0x07 (x &&& ~~~y) false false ∧
    s.Alu e t m (.opaShl e ecc) 0x08 (x <<< p) false false ∧
    s.Alu e t m (.opaShr e ecc) 0x09 (x >>> p) false false ∧
    s.Alu e t m (.opaSar e ecc) 0x0A (x.sshiftRight p) false false ∧
    s.Alu e t m (.opaRol e ecc) 0x0B (x.rotateLeft p) false false ∧
    (∃ r, (∀ i, i < 32 → r.getLsbD i = (decide (i < w ∧ p + i < 32) && x.getLsbD (p + i))) ∧
      s.Alu e t m (.opaExtr e ecc) 0x0C r false false) ∧
    (∃ r, (∀ i, i < 32 → r.getLsbD i = if p ≤ i ∧ i ≤ min (p + w - 1) 31 then x.getLsbD (i - p) else (s.spec t m m.dst).getLsbD i) ∧
      s.Alu e t m (.opaIns e ecc) 0x0D r false false) ∧
    (∃ r, (∀ k, k < 4 → (r.toNat / 256 ^ k) % 256 = (x.toNat / 256 ^ (3 - k)) % 256) ∧ s.Alu e t m (.opaBswap e ecc) 0x0E r false false) ∧
    (∃ r, (r.toNat ≤ 32 ∧ (∀ i, i < 32 → 32 - r.toNat ≤ i → x.getLsbD i = false) ∧ (r.toNat < 32 → x.getLsbD (31 - r.toNat) = true)) ∧
      s.Alu e t m (.opaClz e ecc) 0x0F r false false) ∧
    s.Alu e t m (.opaPopc e ecc) 0x10 (BitVec.ofNat 32 ((List.range 32).countP (fun i => x.getLsbD i))) false false ∧
    s.Alu e t m (.opaMinu e ecc) 0x11 (if x.toNat ≤ y.toNat then x else y) false false ∧
    s.Alu e t m (.opaMaxu e ecc) 0x12 (if x.toNat ≤ y.toNat then y else x) false false ∧
    s.Alu e t m (.opaSel e ecc) 0x13 (if (s.thread t).c then x else y) false false ∧
    s.Alu e t m (.opaMul16 e ecc) 0x14 (BitVec.ofNat 32 (x.toNat % 65536 * (y.toNat % 65536))) false false ∧
    s.Alu e t m (.opaCrc e ecc) 0x15 (BitVec.ofNat 32 ((List.range 32).foldl (fun c k =>
      if c.testBit 0 != x.getLsbD k then (c / 2) ^^^ 0x82F63B78 else c / 2) y.toNat)) false false

/-- R91, R95, R96, R126 to R132, R151, R202: operation B of a microword without operation A. LD, ST and ATOM act at the segment address;
lookups, packet accesses and disposals, queue operations, events and counters do what the table gives them and report their CODE; ERET
returns to EXC_PC; DONE frees a thread with nothing in flight. Operations of an engine whose identity is lost end with CODE 8 + 5. A
known outcome is delivered by its completion: result words, BSTAT, and the operation's end. -/
def Obligations.SedgeOperations : Prop :=
  ∀ (s : State) (e : Fin 64) (ecc : Ecc) (t : Nat) (m : Mw), s.Issues e ecc t m → m.opa = 0 → m.csel = 0 →
    let x := s.thread t
    let h := (s.spec t m m.ab).toNat
    let off := (s.spec t m m.ab + m.imm).toNat
    let a := 256 * (s.rd (.engine e) R.SEG_BASE m.mod).toNat + off
    let r := s.reqOf (.engine e)
    let word (k : Nat) : Word := s.spec t m (m.db + k)
    let words := (List.range (m.len + 1)).map word
    let frame (f : Nat) : Prop := x.pkt = some f ∧ (s.frame f).disp = false
    ((s.eng e).lost = true → ∀ c ∈ [(Instr.opbLd e ecc, 0x01), (.opbSt e ecc, 0x02), (.opbAtom e ecc, 0x03), (.opbTlook e ecc, 0x08),
        (.opbCtxspill e ecc, 0x09), (.opbCtxfill e ecc, 0x0A), (.opbPktrd e ecc, 0x10), (.opbPktwr e ecc, 0x11), (.opbPktfwd e ecc, 0x12),
        (.opbPktexc e ecc, 0x14), (.opbDmaw e ecc, 0x18), (.opbDmar e ecc, 0x19), (.opbCqpost e ecc, 0x1A), (.opbCrypt e ecc, 0x20),
        (.opbEvt e ecc, 0x28)], m.opb = c.2 → s.Starts e t m c.1 s 13 []) ∧
    ((s.eng e).lost = false →
      (m.opb = 0x01 → s.ScratchFor r (some (.engine e)) a .read → a % 64 + 4 * (m.len + 1) ≤ 64 → s.poisoned a = false →
        s.Starts e t m (.opbLd e ecc) s 0 (leWords (m.len + 1) (s.bytes a (4 * (m.len + 1))))) ∧
      (m.opb = 0x02 → s.ScratchFor r (some (.engine e)) a .write → a % 64 + 4 * (m.len + 1) ≤ 64 →
        ∃ b, s.Put b a (words.flatMap (fun w => leBytes 4 w.toNat)) ∧ s.Starts e t m (.opbSt e ecc) b 0 []) ∧
      (m.opb = 0x03 → s.ScratchFor r (some (.engine e)) a .own → a % 4 = 0 → s.poisoned a = false →
        let old : Word := BitVec.ofNat 32 (s.leAt a 4)
        let new : Word := if m.len = 0 then old + word 0 else if m.len = 1 then word 0 else if old = word 1 then word 0 else old
        ∃ b, s.Put b a (leBytes 4 new.toNat) ∧ s.Starts e t m (.opbAtom e ecc) b 0 [old]) ∧
      (m.opb = 0x08 → m.len + 1 = s.tblKeyw m.mod → s.tblOn m.mod = true →
        (∀ i w, s.look m.mod words (keyHash words) = some (some (i, w)) → s.Starts e t m (.opbTlook e ecc) s 0 w) ∧
        (s.look m.mod words (keyHash words) = some none → s.Starts e t m (.opbTlook e ecc) s 1 [])) ∧
      (∀ o, h < 256 → s.ovfOf (256 * thOwner t + h) = some o →
        let c := ctxAddr (256 * thOwner t + h) 0
        (m.opb = 0x09 → s.ScratchFor (s.reqOf (.group (e.val / 4))) (some (.group (e.val / 4))) o .write →
          ∃ b, s.Put b o (s.bytes c 512) ∧ s.Starts e t m (.opbCtxspill e ecc) b 0 []) ∧
        (m.opb = 0x0A → t < 1024 → s.ScratchFor (s.reqOf (.group (e.val / 4))) (some (.group (e.val / 4))) o .read → o % 64 = 0 →
          (∀ k, k < 8 → s.poisoned (o + 64 * k) = false) →
          ∃ b, s.Put b c (leBytes 4 (Word.setFld (BitVec.ofNat 32 (s.leAt o 4)) ⟨30, 30⟩ (b2n ((s.ctxWord (256 * thOwner t + h) 0).bit 30))).toNat ++
            s.bytes (o + 4) 508) ∧ s.Starts e t m (.opbCtxfill e ecc) b 0 [])) ∧
      (∀ f, frame f →
        (m.opb = 0x10 → off % 4 = 0 → off + 4 * (m.len + 1) ≤ 0x80000000 → (s.frame f).poison = false →
          s.Starts e t m (.opbPktrd e ecc) s 0 ((List.range (m.len + 1)).map (fun i => pktWord (s.frame f).data (off + 4 * i)))) ∧
        (m.opb = 0x11 → off % 4 = 0 → off < 0x80000000 →
          ∃ d, d.length = (s.frame f).data.length ∧
            (∀ i, i < d.length → d[i]? = if off ≤ i ∧ i < off + 4 * (m.len + 1) then
              some ((beBytes 4 (word ((i - off) / 4)).toNat).getD ((i - off) % 4) 0) else (s.frame f).data[i]?) ∧
            s.Starts e t m (.opbPktwr e ecc) (s.setFrame f { s.frame f with data := d }) 0 []) ∧
        (m.opb = 0x12 → f < s.eth.nextFrame → ∀ p c ti, s.dest (s.spec t m m.ab) = some (0, p, c, ti) → s.linkUp p = true →
          (s.egressRoom p c = false → s.Starts e t m (.opbPktfwd e ecc) s 3 []) ∧
          (s.egressRoom p c = true → ∃ b, b = { s with eth := b.eth, pcie := b.pcie } ∧
            b.egress (8 * p + c) = s.egress (8 * p + c) ++ [s.eth.nextFrame] ∧ (b.frame f).disp = true ∧
            (b.frame s.eth.nextFrame).data = (s.frame f).data ∧ (b.frame s.eth.nextFrame).tc = c ∧ (b.frame s.eth.nextFrame).ti = ti ∧
            s.Starts e t m (.opbPktfwd e ecc) b 0 [])) ∧
        (m.opb = 0x13 → s.Does (.opbPktdrop e ecc) (fun u => (u.frame f).disp = true ∧ (u.frame f).cells = 0 ∧
          u.thread t = s.reaches t { x with any := true, bstat := 0x130 } m.next)) ∧
        ((s.frame f).tail = true → (s.frame f).bad = false →
          (m.opb = 0x14 → (s.rd .eth R.EXQ_CFG m.mod).bit 7 = false → s.Starts e t m (.opbPktexc e ecc) s 3 []) ∧
          (m.opb = 0x18 → h < 2 ^ 15 → (∀ y, s.qp h = some y → y.err = true ∨ y.closing = true ∨ y.rqEmpty = true ∨ y.cqRoom = false) →
            s.Starts e t m (.opbDmaw e ecc) s 3 []) ∧
          (m.opb = 0x20 → (s.frame f).poison = false →
            let k : KeySlot := if h < 32768 then mapGet {} s.eth.keys h else {}
            ((k.valid = false ∨ k.ti ≠ (s.frame f).ti ∧ k.shared = false) → s.Starts e t m (.opbCrypt e ecc) s 11 []) ∧
            (∀ d, s.crypt (s.frame f).ti (s.frame f).data (m.mod == 1) (s.spec t m m.ab) m.imm = (0, some d) →
              cellsFor d.length ≤ (s.frame f).cells →
              s.Starts e t m (.opbCrypt e ecc) (s.setFrame f { s.frame f with data := d }) 0 [])))) ∧
      (m.opb = 0x19 → h < 2 ^ 15 →
        ((∀ y, s.qp h = some y → y.err = true ∨ y.closing = true ∨ y.sqEmpty = true ∨ y.cqRoom = false ∨ y.mode ≠ 2) →
          s.Starts e t m (.opbDmar e ecc) s 3 []) ∧
        (∀ y, s.qp h = some y → y.err = false → y.closing = false → y.sqEmpty = false → y.cqRoom = true → y.mode = 2 →
          s.Does (.opbDmar e ecc) (fun u => ∃ z, u.qp h = some z ∧ z.sqHead = (y.sqHead + 1) % 65536))) ∧
      (m.opb = 0x1A → (∀ v ∈ x.rsv, v.qp ≠ h) → s.Starts e t m (.opbCqpost e ecc) s 12 []) ∧
      (m.opb = 0x28 →
        (m.mod = 0 → s.guardAcc UnitId.act.base r .write (some (.engine e)) = (none, s) → s.answers .act = true →
          let q := mapGet [] s.act.fcq (e.val / 4)
          let act := { s.act with fcq := mapSet [] s.act.fcq (e.val / 4) (q ++ [(s.fcWord t (word 1), t, x.nextOp)]) }
          q.length < 4 → s.Starts e t m (.opbEvt e ecc) { s with act := act } 0 []) ∧
        (m.mod = 1 → s.answers (.er (e.val / 16)) = true →
          (s.rf (.er (e.val / 16)) R.ER_ROUTE F.ER_ROUTE_EN (h % 1024) = 0 → s.Starts e t m (.opbEvt e ecc) s 0 []) ∧
          (s.rf (.er (e.val / 16)) R.ER_ROUTE F.ER_ROUTE_EN (h % 1024) = 1 → s.rf (.er (e.val / 16)) R.ER_ROUTE F.ER_ROUTE_KIND (h % 1024) = 0 →
            s.Does (.opbEvt e ecc) (fun u => u.erPend (e.val / 16) (h % 1024) = true))) ∧
        (m.mod = 2 → s.guardAcc UnitId.telCoder.base r .write (some (.engine e)) = (none, s) → s.answers .telCoder = true →
          s.strF F.STR_CFG_EN (h % 256) = 0 → s.Starts e t m (.opbEvt e ecc) (s.bump .telCoder R.TEL_SRC_REJ) 0 [])) ∧
      (m.opb = 0x29 →
        let c := 256 * (s.rd .eth R.CNTB_BASE m.mod).toNat + 8 * m.imm.toNat
        let ends (b : State) : Prop := s.Does (.opbCnt e ecc) (fun u =>
          b.IssuedAs u e t (s.reaches t { x with any := true, bstat := 0x290 } m.next))
        (s.rf .eth R.CNTB_SIZE F.CNTB_SIZE_SIZE m.mod ≤ m.imm.toNat →
          ends (s.wf .eth R.ETH_STATUS F.ETH_STATUS_CNT_OOR (min 255 (s.rf .eth R.ETH_STATUS F.ETH_STATUS_CNT_OOR + 1)))) ∧
        (m.imm.toNat < s.rf .eth R.CNTB_SIZE F.CNTB_SIZE_SIZE m.mod → s.ScratchFor r (some (.engine e)) c .write →
          ∃ b, s.Put b c (leBytes 8 (s.leAt c 8 + h)) ∧ ends b))) ∧
    (m.opb = 0x30 → s.Does (.opbEret e ecc) (fun u =>
      s.IssuedAs u e t (s.reaches t { x with any := true, excAct := false, bstat := 0x300 } (if m.mod % 2 = 0 then x.excPc else m.next)))) ∧
    (m.opb = 0x3F → x.ops = [] → x.pkt = none → x.ctx = none → x.rsv = [] → s.Does (.opbDone e ecc) (fun u => (u.thread t).st = 0)) ∧
    (m.opb = 0x3F → x.ops ≠ [] → s.Does (.opbDone e ecc) (fun u => u.thread t = { x with any := false, st := 4 }))

/-- R92, R95, R96: OPB_COMPLETE delivers a known outcome, once no earlier operation of the thread to the same target is open: CODE and
operation to BSTAT, with a CODE below 8 the words to the destination run; the thread may then issue what waited for them. -/
def Obligations.OperationCompletes : Prop :=
  ∀ (s : State) (t : Fin 1024) (o : Op) (early late : List Op) (code : Nat) (ws : List Word), s.Calm →
    let x := s.thread t
    x.ops = early ++ o :: late → (∀ p ∈ early ++ late, p.id ≠ o.id) → o.res = some (code, ws) → code < 8 → x.st ≠ 4 →
    ((∃ p ∈ early, p.target = o.target) → s.Does (.opbComplete t o.id) (fun u => u = s)) ∧
    ((∀ p ∈ early, p.target ≠ o.target) → ws.length = o.len → o.dst + o.len ≤ 16 → s.Does (.opbComplete t o.id) (fun u =>
      u = { s with sedge := { s.sedge with threads := u.sedge.threads } } ∧
      (∀ q, q ≠ t.val → u.thread q = s.thread q) ∧
      u.thread t = { x with ops := early ++ late, any := true, bstat := BitVec.ofNat 32 (code + 16 * o.code), v := (u.thread t).v } ∧
      ∀ k, k < 16 → (u.thread t).vreg k = if o.dst ≤ k ∧ k < o.dst + o.len then ws.getD (k - o.dst) 0 else x.vreg k))

/-- R97 to R100, R102, R120: threads. A wait for a time ends when it comes; a wait that lasts WTO x 8 ns takes WAIT_TIMEOUT, or ends a thread
whose EXC_ACTIVE is 1; a queued packet goes to the lowest FREE thread at ENTRY_s, with its word in v15, its context HELD and SEQ
advanced. -/
def Obligations.SedgeThreads : Prop :=
  ∀ (s : State) (t : Fin 1024) (e : Fin 64), s.Calm →
    let x := s.thread t
    let m := s.thMw t
    let u := UnitId.engine (s.thEng t)
    let lim := s.rf u R.WTO F.WTO_TIME m.wto
    (x.st = 2 →
      (0 ≤ (BitVec.ofNat 32 s.now - x.vreg 14).toInt → s.Does (.waitTimeReached t) (fun y => y = s.setThread t { x with st := 1 })) ∧
      ((BitVec.ofNat 32 s.now - x.vreg 14).toInt < 0 → s.Does (.waitTimeReached t) (fun y => y = s))) ∧
    (x.st ≠ 0 → x.st ≠ 4 → s.waitTrue t m.wait = false → s.answers u = true → m.wait ≠ 0 →
      (lim = 0 ∨ s.mono < x.reach + 8 * lim → s.Does (.waitTimeout t) (fun y => y = s)) ∧
      (lim ≠ 0 → x.reach + 8 * lim ≤ s.mono →
        (x.excAct = false → s.Does (.waitTimeout t) (fun y =>
          y = { s with sedge := { s.sedge with threads := y.sedge.threads }, regs := y.regs } ∧ (∀ q, q ≠ t.val → y.thread q = s.thread q) ∧
          y.thread t = s.reaches t { x with excAct := true, excCause := 6, excPc := x.pc, excInfo := BitVec.ofNat 32 ((s.mono - x.reach) / 8),
                                            any := false } 0x30 ∧
          s.OnlyReg y u R.EXC_CNT 0 0 ∧ (y.rd u R.EXC_CNT).toNat = min ((s.rd u R.EXC_CNT).toNat + 1) (2 ^ 32 - 1))) ∧
        (x.excAct = true → x.rsv = [] → x.pkt = none → x.ctx = none → s.Does (.waitTimeout t) (fun y => (y.thread t).st = 0 ∧
          (y.rd u R.EXC_NEST_CNT).toNat = min ((s.rd u R.EXC_NEST_CNT).toNat + 1) (2 ^ 32 - 1))))) ∧
    (∀ (d : DispEnt) (l : List DispEnt) (n o : Nat), s.dispq e = d :: l → (o = match d.ctx with
        | some c => c / 256
        | none => e.val) → s.dispatches e o = true → s.freeThread o = some n →
      let started (y : State) : Prop := y.dispq e = l ∧ (∀ q, q ≠ n → y.thread q = s.thread q) ∧
        y.thread n = s.reaches n { st := 1, ctx := d.ctx, v := mapSet 0 [] 15 d.word, pkt := some d.frame, nextOp := (s.thread n).nextOp }
          (s.rf (.engine e) R.ENTRY F.ENTRY_ADDR (d.sel % 16))
      (d.ctx = none → s.Does (.packetDispatch e) started) ∧
      (∀ c, d.ctx = some c → (s.ctxWord c 0).bit 30 = false → (s.ctxWord c 0).bit 31 = true → s.Does (.packetDispatch e) (fun y => started y ∧
        y.ctxWord c 0 = ((s.ctxWord c 0).setFld ⟨15, 0⟩ ((s.ctxWord c 0).toNat % 65536 + 1)).setFld ⟨30, 30⟩ 1)))

/-- R86, R87, R105 to R107: engines. ENG_CTL acts in the states that allow its command and is discarded in others; halting and returning
end when their threads have, or after 100 µs; a parity mismatch makes the engine FAILED, logs it, renews its identity and hands its
work to the first sibling that can take it. The control store takes aligned writes of Gorse while the engine is STOPPED or FAILED. -/
def Obligations.SedgeEngines : Prop :=
  ∀ (s : State) (r : Req) (e : Fin 64) (v : Word), s.Calm →
    let u := UnitId.engine e
    let idle := (s.eng e).waitCmd = none ∧ (s.eng e).retired = false
    let valid := s.rb u R.ENG_STATUS F.ENG_STATUS_CS_VALID
    let st := s.engState e
    let cmd (i : Instr) (k : Nat) (P : State → Prop) : Prop :=
      (s.engCmdOk e k = true → (s.eng e).lost = false → s.Sets r u R.ENG_CTL 0 i P) ∧
      (s.engCmdOk e k = false → s.Sets r u R.ENG_CTL 0 i (fun y => y = { s with resp := .ok 0 }))
    (s.engCmdOk e 1 = true ↔ idle ∧ st = 0 ∧ valid = true ∧ s.adopted e = false) ∧
    (s.engCmdOk e 2 = true ↔ idle ∧ (st = 1 ∨ st = 4)) ∧
    (s.engCmdOk e 3 = true ↔ idle ∧ st = 0 ∧ valid = true) ∧
    (s.engCmdOk e 4 = true ↔ idle ∧ st = 0 ∧ valid = true ∧ s.adopted e = true) ∧
    cmd (.engRun r e) 1 (fun y => y.engState e = 1) ∧
    cmd (.engStop r e) 2 (fun y => y.engState e = 2 ∧ (y.eng e).since = s.mono) ∧
    cmd (.engTest r e) 3 (fun y => y.engState e = 4 ∧ y.thread (16 * e.val) = s.reaches (16 * e.val)
      { st := 1, nextOp := (s.thread (16 * e.val)).nextOp } (s.rf u R.ENTRY F.ENTRY_ADDR 15)) ∧
    cmd (.engReadmit r e) 4 (fun y => y.engState e = 5 ∧ (y.eng e).since = s.mono) ∧
    (st = 2 →
      ((∀ t ∈ s.engThreads e, (s.thread t).st = 0) → s.Does (.engineHaltDone e) (fun y => y = s.setEngState e 0)) ∧
      ((∃ t ∈ s.engThreads e, (s.thread t).st ≠ 0) → s.Does (.engineHaltDone e) (fun y => y = s)) ∧
      ((s.eng e).since + 100000 ≤ s.mono → s.Does (.engineHaltTimeout e) (fun y => y.engState e = 0))) ∧
    (st = 5 →
      let back (y : State) : Prop := y.engState e = 1 ∧ y.adopted e = false ∧ (s.holder e ≠ e → y.adopting (s.holder e) = false)
      (s.ownerIdle e = true → s.Does (.engineReturnDone e) back) ∧
      ((s.eng e).since + 100000 ≤ s.mono → (∀ k, k < 16 → (s.thread (16 * e.val + k)).st = 0) → s.Does (.engineReturnTimeout e) back)) ∧
    (∀ t a, s.engIssues e = true → s.nextThread e = some t → s.csBad e (s.thread t).pc ≠ 0 → s.adoptee e = none → s.adopterFor e = some a →
      mapGet 0 s.fault.renewals (0x100 + e.val) < 15 → s.Mute → s.Settled →
      s.Does (.csParityError e) (fun y => y.engState e = 3 ∧ (y.eng e).lost = true ∧ s.Triggered y 2 ∧
        y.rd u R.MC_LOG = BitVec.ofNat 32 (2 ^ 31 + t % 16 * 2 ^ 22 + s.csBad e (s.thread t).pc * 2 ^ 14 + (s.thread t).pc) ∧
        y.adopted e = true ∧ y.holder e = a ∧ y.adoptee a = some e.val ∧ y.dispq a = s.dispq a ++ s.dispq e ∧ y.dispq e = [] ∧
        y.thread t = s.thread t ∧
        y.sward.bcasts = s.sward.bcasts ++ [⟨e.val / 16, 0x100 + e.val, mapGet 0 s.fault.renewals (0x100 + e.val) + 1⟩])) ∧
    (masterClass r.master.toNat = 5 → s.Sets r u R.CS_IMAGE 0 (.csImageWrite r e v) (fun y =>
      y.rd u R.CS_IMAGE = v ∧ y.rb u R.ENG_STATUS F.ENG_STATUS_CS_VALID = true)) ∧
    (masterClass r.master.toNat ≠ 5 → s.Granted r .write u R.CS_IMAGE 0 0 →
      s.Does (.csImageWrite r e v) (fun y => y = { s with resp := .err 3 })) ∧
    s.Sets r u R.CS_ERR_INJ 0 (.csErrInj r e v) (fun y => ∀ a, a < 16384 → y.csBad e a =
      if a = v.fld F.CS_ERR_INJ_ADDR then s.csBad e a ^^^ 2 ^ v.fld F.CS_ERR_INJ_PIECE else s.csBad e a) ∧
    (∀ (o : BitVec 18) (d : List Byte), d.length = 16 ∨ d.length = 32 ∨ d.length = 64 → o.toNat % d.length = 0 →
      masterClass r.master.toNat = 5 → st = 0 ∨ st = 3 → s.answers (.group (e.val / 4)) = true →
      let a := 0xD00000000 + e.val * 0x100000 + o.toNat
      (∀ b, s.masterRouter r.master.toNat = some b → s.routed b (s.targetUnit a).router = true) → s.guardAcc a r .write none = (none, s) →
      s.Does (.csWindowWrite r e o d) (fun y => y.rb u R.ENG_STATUS F.ENG_STATUS_CS_VALID = false ∧
        ∀ k, k < d.length / 16 → y.csWord e (o.toNat / 16 + k) = BitVec.ofNat 128 (ofLe ((d.drop (16 * k)).take 16)) ∧
          y.csBad e (o.toNat / 16 + k) = 0)) ∧
    (∀ (o : BitVec 17) (d : List Byte) (p : Bool), 4 ≤ d.length → d.length % 4 = 0 → o.toNat % 4 = 0 → o.toNat % 64 + d.length ≤ 64 →
      s.answers (.group (e.val / 4)) = true → s.stalled (.ctx (e.val / 4)) = false →
      let a := 0xD00000000 + e.val * 0x100000 + 0x40000 + o.toNat
      (∀ b, s.masterRouter r.master.toNat = some b → s.routed b (s.targetUnit a).router = true) → s.guardAcc a r .write none = (none, s) →
      (st = 0 → s.adopted e = false → s.Does (.ctxWindowWrite r e o d p) (fun y => ∃ b, s.Put b a d ∧ y = { b with resp := .ok 0 } ∧
        y.poisoned a = p)) ∧
      (st ≠ 0 ∨ s.adopted e = true → s.Does (.ctxWindowWrite r e o d p) (fun y => y = { s with resp := .err 5 })))

/-! ### Ethernet ports and the packet path (R109 to R131, R231) -/

/-- R109 to R112, R118, R122 to R125, R127, R130, R231: ports change their set, lose lanes, come up and go down; frames of a wrong length or FCS
are counted and discarded, others enter the buffer and wait for their lookup; a fill completes a lookup with the entry it finds; FC_INV
drops a line; pauses are repeated, obeyed and end; the fetcher, the shapers, the classes, the injection queues, the timestamp queue and
the key slots work as their rules say. -/
def Obligations.EthernetPath : Prop :=
  ∀ (s : State) (r : Req) (p c : Fin 8) (n : Fin 16) (v : Word), s.Calm →
    let fld (g : Reg) (f : Fld) : Nat := s.rf .eth g f
    let lanesOf (w q : Nat) : Nat := (2 ^ w - 1) * 2 ^ (w * q)
    let f := s.eth.nextFrame
    let may := s.mode.mode ≠ .boot ∧ s.mode.mode ≠ .dormant
    let key := 8 * p.val + c.val
    -- ports and lanes
    (v.toNat % 4 ≠ (s.rd .eth R.ETH_CFG).toNat % 4 → s.eth.egress = [] → s.Sets r .eth R.ETH_CFG 0 (.portModeChange r v) (fun t =>
      t.rf .eth R.ETH_STATUS F.ETH_STATUS_LANE_FAIL = 0 ∧ (∀ q, q < 8 → t.linkUp q = false) ∧ t.portMode = v.toNat % 4 ∧
      (may → ∀ q, q < t.portCount → t.ePort q = { up := false, lanes := lanesOf t.portWidth q, training := true }))) ∧
    (v.toNat % 4 = (s.rd .eth R.ETH_CFG).toNat % 4 → s.Sets r .eth R.ETH_CFG 0 (.portModeChange r v) (fun t => t.eth = s.eth)) ∧
    (let q := p.val / s.portWidth
     let bad := fld R.ETH_STATUS F.ETH_STATUS_LANE_FAIL ||| 2 ^ p.val
     (s.portExists q = true → (s.ePort q).lanes.testBit p = true → s.Does (.laneFail p) (fun t =>
       t.rf .eth R.ETH_STATUS F.ETH_STATUS_LANE_FAIL = bad ∧ (t.ePort q).up = false ∧ (t.ePort q).lanes &&& bad = 0 ∧
       ((t.ePort q).training = true ↔ (t.ePort q).lanes ≠ 0))) ∧
     (s.portExists q = false ∨ (s.ePort q).lanes.testBit p = false → s.Does (.laneFail p) (fun t =>
       t = s.wf .eth R.ETH_STATUS F.ETH_STATUS_LANE_FAIL bad))) ∧
    ((s.ePort p).training = true → s.portExists p = true → s.answers .eth = true → s.mode.mode ≠ .boot → s.Does (.portLinkUp p) (fun t =>
      t.ePort p = { s.ePort p with up := true, training := false } ∧ (∀ q, q ≠ p.val → t.ePort q = s.ePort q) ∧
      ∀ q, q < 8 → (t.rf .eth R.ETH_STATUS F.ETH_STATUS_LINK_UP).testBit q = t.linkUp q)) ∧
    s.Does (.portLinkDown p) (fun t => t.linkUp p = false ∧ ∀ k, k < 8 → t.egress (8 * p.val + k) = []) ∧
    -- reception
    (s.linkUp p = false → ∀ d, s.Does (.frameReceive p d) (fun t => t = s)) ∧
    (s.linkUp p = true → ∀ d : List Byte,
      let body := d.take (d.length - 4)
      (d.length < 64 → s.Does (.frameReceive p d) (fun t => t = s.bump64 .eth R.PORTCNT_LO R.PORTCNT_HI 1 p 3)) ∧
      (64 ≤ d.length → s.maxFrame < d.length → s.Does (.frameReceive p d) (fun t => t = s.bump64 .eth R.PORTCNT_LO R.PORTCNT_HI 1 p 4)) ∧
      (64 ≤ d.length → d.length ≤ s.maxFrame → d.drop (d.length - 4) ≠ fcs body →
        s.Does (.frameReceive p d) (fun t => t = s.bump64 .eth R.PORTCNT_LO R.PORTCNT_HI 1 p 2)) ∧
      (s.dpOn = true → fld R.ETH_CFG F.ETH_CFG_ERR_ACTION = 0 → s.tblOn 0 = true → s.eth.fcache = [] →
        let waits (x : List Byte) (t : State) : Prop := (t.frame f).data = x ∧ (t.frame f).port = p ∧ (t.frame f).arr = s.rxTime p ∧
          (t.frame f).tc = s.rxClass x ∧ t.eth.nextFrame = f + 1 ∧
          t.eth.looks = s.eth.looks ++ [⟨0, leWords 11 (t.frame f).key, (t.frame f).hash, .frame f⟩]
        (64 ≤ d.length → d.length ≤ s.maxFrame → d.drop (d.length - 4) = fcs body → s.usedCells + cellsFor body.length ≤ s.bufCells →
          s.Does (.frameReceive p d) (fun t => waits body t ∧ (t.frame f).tail = true)) ∧
        ((fld R.ETH_CFG F.ETH_CFG_CUT_EN).testBit p = true → 256 ≤ d.length → mapGet none s.eth.part p = none →
          s.usedCells + cellsFor d.length ≤ s.bufCells →
          s.Does (.cutThroughDispatch p d) (fun t => waits d t ∧ (t.frame f).tail = false ∧ mapGet none t.eth.part p = some f)))) ∧
    (∀ (g : Nat) (d : List Byte), mapGet none s.eth.part p = some g → s.eth.frames.any (fun e => e.1 == g) = true → s.eth.txCut = [] →
      let whole := (s.frame g).data ++ d
      let body := whole.take (whole.length - 4)
      s.Does (.frameTailArrival p d) (fun t => mapGet none t.eth.part p = none ∧ (t.frame g).data = body ∧ (t.frame g).tail = true ∧
        ((t.frame g).bad = true ↔ whole.drop (whole.length - 4) ≠ fcs body ∨ s.maxFrame < whole.length))) ∧
    (∀ (l : Lookup) (o : Op) (th i : Nat) (w : List Word), s.eth.looks = [l] → l.who = .op th o.id → (s.thread th).ops = [o] → o.res = none →
      s.eth.fcache = [] →
      let a (b : Nat) : Nat := s.bucketAddr l.tbl b
      s.ScratchFor (s.reqOf .eth) none (a (s.buckets l.tbl l.hash).1) .read → s.ScratchFor (s.reqOf .eth) none (a (s.buckets l.tbl l.hash).2) .read →
      findEntry (s.bytes (a (s.buckets l.tbl l.hash).1) 256) l.key = some (i, w) →
      s.Does (.flowCacheMissFill 0) (fun t => t.eth.looks = [] ∧ (t.thread th).ops = [{ o with res := some (0, w) }] ∧ t.mem = s.mem)) ∧
    s.Sets r .eth R.FC_INV 0 (.fcInv r v) (fun t => ∀ q, q < 4 → t.fcLine q (256 * v.toNat) = none) ∧
    -- flow control
    (∀ u, mapGet none s.eth.pauseOut key = some u → u ≤ s.mono → s.linkUp p = true → s.Does (.pfcRefresh p c) (fun t =>
      t.out = .pfc p c 0xFFFF :: s.out ∧ mapGet none t.eth.pauseOut key = some (s.mono + 0xFFFF * 512 / max 1 (s.portRate p) / 2))) ∧
    (s.linkUp p = true → ∀ (en : BitVec 8) (quanta : List (BitVec 16)), quanta.length = 8 → s.Does (.pfcFrameReceive p en quanta) (fun t =>
      ∀ k, mapGet none t.eth.pauseIn k =
        if k / 8 = p.val ∧ en.getLsbD (k % 8) = true then
          (if quanta.getD (k % 8) 0 = 0 then none else some (s.mono + (quanta.getD (k % 8) 0).toNat * 512 / max 1 (s.portRate p)))
        else mapGet none s.eth.pauseIn k)) ∧
    (∀ u, mapGet none s.eth.pauseIn key = some u → u ≤ s.mono → s.Does (.pfcPauseExpire p c) (fun t =>
      t = { s with eth := { s.eth with pauseIn := mapSet none s.eth.pauseIn key none } })) ∧
    -- sending
    (∀ (h q m : Nat) (x : Qp), s.dpOn = true → s.answers .eth = true → s.eth.drrIn = true → s.eth.drr = m →
      s.tiList.filter (fun k => s.nodeReady k) = [m] → s.fetchQp m = some q → h = m + 2048 * q → m < 2048 → q < 16 → s.qp h = some x →
      let a := x.sqBase + 32 * (x.sqHead % 2 ^ x.sqLog)
      let l := (s.ti m).link
      (x.desc = none → s.linkReady l = true → (s.pf l).atsEn = false → a % 4096 ≤ 4064 → s.tagsUsed l < s.tagLimit →
        s.Does .sendFetch (fun t => t.out = .pcieRead l a 32 (s.ti m).pasid s.pcie.nextTag :: s.out ∧ t.qp h = some { x with busy := true })) ∧
      (∀ d, x.desc = some d → s.badSend x.mode d = false →
        (descLen d + 4 ≤ (s.shape m).deficit → s.Does .sendFetch (fun t => ∃ y, t.qp h = some y ∧ y.sqHead = (x.sqHead + 1) % 65536)) ∧
        ((s.shape m).deficit < descLen d + 4 → s.Does .sendFetch (fun t => t = { s with eth := { s.eth with drr := m + 1, drrIn := false } })))) ∧
    (s.now % 1000 = 0 → s.Does .shapeApply (fun t => t.eth.shapeNew = [] ∧ ∀ i, (mapGet {} t.eth.shape i).active =
      if i ∈ s.eth.shapeNew then s.rd .eth R.SHAPE i else (mapGet {} s.eth.shape i).active)) ∧
    (s.now % 1000 ≠ 0 → s.Does .shapeApply (fun t => t = s)) ∧
    (∀ (g : Nat) (l : List Nat), s.linkUp p = true → mapGet none s.eth.txCut p = none → s.egress key = g :: l → s.txReady p c = true →
      (∀ k, c.val < k → k < 8 → s.txReady p k = false) → (s.frame g).tail = true → (s.frame g).bad = false →
      natBits (s.rd .eth R.PTP_CFG p).toNat 31 30 = 0 →
      s.Does (.frameTransmit p) (fun t => t.egress key = l ∧
        .frame p (padTo 60 (s.frame g).data ++ fcs (padTo 60 (s.frame g).data)) ∈ t.out)) ∧
    (r.debug = false →
      (∀ u w l, mapGet [] s.eth.txts p = (u, w) :: l → s.Gets r .eth R.TXTS_POP p (.txtsPop r p) w (fun t => mapGet [] t.eth.txts p = l)) ∧
      (mapGet [] s.eth.txts p = [] → s.Gets r .eth R.TXTS_POP p (.txtsPop r p) 0 (fun t => t.eth = s.eth))) ∧
    -- injection and keys
    s.Sets r .eth R.INJ_PROD n (.injProdWrite r n v) (fun t => t.rd .eth R.INJ_PROD n = regWritten R.INJ_PROD (s.rd .eth R.INJ_PROD n) v) ∧
    (let cfg := s.rd .eth R.INJ_CFG n
     let cons := (s.rd .eth R.INJ_CONS n).toNat
     let a := 256 * (s.rd .eth R.INJ_BASE n).toNat + ringSlot cfg * (cons % ringSlots cfg)
     let len := s.leAt a 4 % 16384
     cfg.bit 7 = true → (s.rd .eth R.INJ_PROD n).toNat ≠ cons → s.ScratchFor (s.reqOf .eth) none a .read →
       (14 ≤ len → len ≤ s.maxFrame - 4 → len ≤ ringSlot cfg - 64 → ∀ q k ti, s.dest (BitVec.ofNat 32 (s.leAt (a + 4) 4)) = some (0, q, k, ti) →
         s.linkUp q = true → s.Does (.injectionConsume n) (fun t => t.rd .eth R.INJ_CONS n = BitVec.ofNat 32 ((cons + 1) % 65536) ∧
           t.egress (8 * q + k) = s.egress (8 * q + k) ++ [f] ∧ (t.frame f).data = s.bytes (a + 64) len)) ∧
       (len < 14 → s.Does (.injectionConsume n) (fun t => t.rd .eth R.INJ_CONS n = BitVec.ofNat 32 ((cons + 1) % 65536) ∧ t.eth = s.eth ∧
         t.rf .eth R.ETH_STATUS F.ETH_STATUS_INJ_BAD = min 63 (fld R.ETH_STATUS F.ETH_STATUS_INJ_BAD + 1)))) ∧
    s.Sets r .eth R.KEY_COMMIT 0 (.keyCommit r) (fun t =>
      let a := s.rd .eth R.KEY_ATTR
      let key := (List.range 8).flatMap (fun w => leBytes 4 (s.rd .eth R.KEY_WORD w).toNat)
      mapGet {} t.eth.keys (fld R.KEY_SLOT F.KEY_SLOT_SLOT) = ⟨key, s.rd .eth R.KEY_SALT, a.toNat % 2048, a.bit 11, a.bit 12⟩ ∧
      ∀ w, w < 8 → t.rd .eth R.KEY_WORD w = 0)

/-! ### Queues in host memory, translation, and tenant interfaces (R27, R29, R64, R65, R137 to R162) -/

/-- R27, R29, R64, R65, R152, R154 to R156, R158: doorbells move a queue pair's indices where they may and are counted in DB_DISCARD where they
may not; a due completion vector is sent once; translations, page responses and invalidations have their effects on the TLB and on the
accesses that wait; completions end their job, with data or with TIMEOUT; links come up and go down. -/
def Obligations.HostQueues : Prop :=
  ∀ (s : State) (r : Req) (l : Fin 2) (n : Fin 2048) (q : Fin 16) (v : Word), s.Calm →
    let h := n.val + 2048 * q.val
    let i := v.toNat % 65536
    let dist (a b : Nat) : Nat := (a + 65536 - b) % 65536
    let refused (t : State) : Prop := t = s.bump (.bar0 l) R.DB_DISCARD
    -- doorbells
    (s.barUp l = true →
      (∀ w, w = false ∨ (s.ti n).st ≠ 2 ∨ (s.ti n).link ≠ l ∨ s.qp h = none → s.Does (.sqTailDoorbell l n q v w) refused ∧
        s.Does (.cqHeadDoorbell l n q v w) refused ∧ s.Does (.rqTailDoorbell l n q v w) refused) ∧
      (∀ x, (s.ti n).st = 2 → (s.ti n).link = l → s.qp h = some x → x.err = false → x.closing = false →
        (min (2 ^ x.sqLog) 65535 < dist i x.sqHead → s.Does (.sqTailDoorbell l n q v true) refused) ∧
        (dist i x.sqHead ≤ min (2 ^ x.sqLog) 65535 →
          (v.bit 31 = false → x.armed = false → s.Does (.sqTailDoorbell l n q v true) (fun t => t = s.setQp h (some { x with sqTail := i }))) ∧
          (v.bit 31 = true → dist x.cqp x.cqHead = 0 → s.Does (.sqTailDoorbell l n q v true) (fun t =>
            t = s.setQp h (some { x with sqTail := i, armed := true, armAt := s.mono })))) ∧
        (dist x.cqp x.cqHead < dist x.cqp i → s.Does (.cqHeadDoorbell l n q v true) refused) ∧
        (dist x.cqp i ≤ dist x.cqp x.cqHead → s.Does (.cqHeadDoorbell l n q v true) (fun t =>
          t = s.setQp h (some { x with cqHead := i, armed := x.armed && !v.bit 31 }))) ∧
        (min (2 ^ x.rqLog) 65535 < dist i x.rqHead → s.Does (.rqTailDoorbell l n q v true) refused) ∧
        (dist i x.rqHead ≤ min (2 ^ x.rqLog) 65535 → s.Does (.rqTailDoorbell l n q v true) (fun t =>
          t = s.setQp h (some { x with rqTail := i }))))) ∧
    (∀ x, s.qp h = some x →
      let due := x.armed = true ∧ 1 ≤ dist x.cqp x.cqHead ∧
        (max 1 x.modCount ≤ dist x.cqp x.cqHead ∨ max x.armAt x.nzAt + 1000 * x.modTime ≤ s.mono) ∧ x.vec ≠ 0xFFFF
      let k := (s.ti n).link
      let vec := (s.ti n).vecFirst + x.vec
      (due → (s.ti n).st = 2 → (s.pf k).msixEn = true → s.linkReady k = true → (s.msixWord (16384 * k + 4 * vec + 3)).bit 0 = false →
        s.Does (.cqModTimeout n q) (fun t => t.out = .msix k vec :: s.out ∧ t.qp h = some { x with armed := false })) ∧
      (¬ due → s.Does (.cqModTimeout n q) (fun t => t = s))) ∧
    -- translation
    (∀ (g : Tag) (tag j : Nat) (x : Job) (page ta : Nat) (wr : Bool), s.tag tag = some g → g.page = some page → g.job = some j → s.job j = some x →
      x.ti = some n.val → x.started = false → x.write = false → 0 < x.len → x.addr % 4096 + x.len ≤ 4096 → page = x.addr / 4096 * 4096 →
      s.pcie.atc = [] → (s.pf x.link).atsEn = true → s.linkReady x.link = true → s.tagsUsed x.link < s.tagLimit →
      s.Does (.atsTranslationCompletion tag (some (12, ta, true, wr))) (fun t =>
        t.out = .pcieRead x.link (ta / 4096 * 4096 + x.addr % 4096) x.len (s.ti n).pasid s.pcie.nextTag :: s.out ∧
        t.atcFind x.link n ((s.ti n).pasid.getD 0) x.addr = some ⟨x.link, n, (s.ti n).pasid.getD 0, page, 12, true, wr, ta / 4096 * 4096⟩)) ∧
    (∀ (j : Nat) (x : Job), s.pcie.pri = [j] → s.job j = some x → x.ti = some n.val → x.started = false → 0 < x.len → s.pcie.atc = [] →
      (s.pf x.link).atsEn = true → s.linkReady x.link = true → s.tagsUsed x.link < s.tagLimit →
      s.Does (.priResponse j) (fun t => t.pcie.pri = [] ∧ t.job j = some { x with retry := true } ∧
        t.out = .pcieMsg x.link 2 s.pcie.nextTag :: s.out)) ∧
    (∀ (tag : Fin 32) (p : Option (BitVec 20)) (base size : BitVec 64),
      ((s.pcie.invs.filter (fun w => w.link == l.val)).length < 32 → s.Does (.atsInvalidationRequest l tag p base size) (fun t =>
        (∃ js, t.pcie.invs = s.pcie.invs ++ [⟨l, tag, js⟩]) ∧
        ∀ k e, mapGet none t.pcie.atc k = some e → e.link = l.val → (∀ z, p = some z → e.pasid = z.toNat) →
          base.toNat + size.toNat ≤ e.page ∨ e.page + 2 ^ e.lg ≤ base.toNat)) ∧
      (32 ≤ (s.pcie.invs.filter (fun w => w.link == l.val)).length → s.Does (.atsInvalidationRequest l tag p base size) (fun t => t = s)) ∧
      (∀ js, s.pcie.invs = [⟨l, tag, js⟩] →
        ((∀ j ∈ js, s.job j = none) → s.Does (.atsInvalidationComplete l tag) (fun t =>
          t.pcie.invs = [] ∧ t.out = .pcieMsg l 3 tag :: s.out)) ∧
        ((∃ j ∈ js, s.job j ≠ none) → s.Does (.atsInvalidationComplete l tag) (fun t => t = s)))) ∧
    (let own := v.bit 31 = true ∧ (s.ti (v.toNat / 65536 % 2048)).ctxQuota ≤ v.toNat % 4096
     let g := s.rf .pcie R.CTXO_SEL F.CTXO_SEL_G
     (¬ own → s.Sets r .pcie R.CTXO_DATA 0 (.ctxoDataWrite r v) (fun t => mapGet 0 t.pcie.ctxo g = v &&& 0x87FF0FFF ∧
       ∀ k, k ≠ g → mapGet 0 t.pcie.ctxo k = mapGet 0 s.pcie.ctxo k)) ∧
     (own → s.Granted r .write .pcie R.CTXO_DATA 0 0 → s.Does (.ctxoDataWrite r v) (fun t => t = { s with resp := .err 4 }))) ∧
    -- completions and links
    (∀ (g : Tag) (tag j m : Nat) (x : Job) (d : List Byte) (p : Bool), s.tag tag = some g → g.page = none → g.job = some j → s.job j = some x →
      x.what = .outbound m → x.open_ = 1 → x.failed = false → g.off = 0 → g.len = d.length → x.data.length = d.length →
      s.Does (.pcieCompletionArrival tag (some d) p) (fun t => t.resp = .ok (BitVec.ofNat 32 (ofLe (d.take 4))) ∧ t.job j = none ∧
        t.tag tag = none ∧ t.mem = s.mem) ∧
      s.Does (.pcieCompletionTimeout tag) (fun t => t.resp = .err 7 ∧ t.job j = none ∧ t.tag tag = none ∧ t.mem = s.mem)) ∧
    (s.linkUsed l = true → l.val ∉ s.peat.perst → l.val ∈ s.peat.pcieRef → s.answers .pcie = true →
      s.Does (.pcieLinkUp l) (fun t => t = s.setPf l { s.pf l with up := true })) ∧
    (s.pcie.tis = [] → s.Does (.pcieLinkDown l) (fun t => t.pf l = { s.pf l with up := false } ∧ t.adm l = {}) ∧
      s.Does (.functionLevelReset l) (fun t => t.pf l = { up := (s.pf l).up } ∧ t.adm l = {} ∧
        ∀ k, k / 16384 = l.val → t.msixWord k = msixReset k)) ∧
    (s.mem.net = [] → s.eth.frames = [] → s.sedge.threads = [] → (s.ti n).st ≠ 0 → (s.ti n).link = l → s.pcie.tis = [(n.val, s.ti n)] →
      s.Does (.pcieLinkDown l) (fun t => (t.ti n).st = 4 ∧ t.qp h = none) ∧
      s.Does (.functionLevelReset l) (fun t => (t.ti n).st = 4 ∧ t.qp h = none)) ∧
    (∀ a b c d, s.barUp l = true → s.Does (.configSpaceWrite l a b c d) (fun t =>
      t = s.setPf l { s.pf l with bme := a, msixEn := b, pasidEn := c, atsEn := d }))

/-- R137, R140 to R147, R157, R159 to R162: the admin rings and their commands. A command is fetched where its completion has a slot; each one
moves its TI as R137 and R144 say and answers with its status; growth waits for its boundary; a shrinking context quota drains the
contexts above it; resets squash, complete and release. -/
def Obligations.TenantInterfaces : Prop :=
  ∀ (s : State) (l : Fin 2) (n : Nat) (c : AdmCmd) (v : Word), s.Calm →
    let t0 := s.ti n
    let a := s.adm l
    let i := v.toNat % 65536
    let num (o k : Nat) : Nat := c.num o k
    let growth (x : Instr) (arg result : Nat) : Prop := s.Does x (fun t => s.Waits t l c arg result)
    let fails (x : Instr) (status : Nat) : Prop := s.Does x (fun t => s.Answered t l c status 0 ∧ t.ti n = t0)
    -- the rings
    (s.barUp l = true →
      ((i + 65536 - a.sqHead) % 65536 ≤ 2 ^ s.admSqLog l → 4 ≤ s.admSqLog l → s.admSqLog l ≤ 12 → 4 ≤ s.admCqLog l → s.admCqLog l ≤ 12 →
        s.bar64 l R.ADM_SQ_BASE_LO R.ADM_SQ_BASE_HI ≠ 0 → s.bar64 l R.ADM_CQ_BASE_LO R.ADM_CQ_BASE_HI ≠ 0 →
        s.Does (.admSqTailWrite l v) (fun t => t.adm l = { a with en := true } ∧ (t.rd (.bar0 l) R.ADM_SQ_TAIL).toNat % 65536 = i)) ∧
      ((a.cqTail + 65536 - i) % 65536 ≤ (a.cqTail + 65536 - (s.rd (.bar0 l) R.ADM_CQ_HEAD).toNat) % 65536 → a.cqTail < 65536 →
        s.Does (.admCqHeadWrite l v) (fun t => (t.rd (.bar0 l) R.ADM_CQ_HEAD).toNat % 65536 = i)) ∧
      s.Does (.admCtlWrite l v) (fun t => t.adm l = { a with en := false } ∧
        t.rd (.bar0 l) R.ADM_CTL = regWritten R.ADM_CTL (s.rd (.bar0 l) R.ADM_CTL) v)) ∧
    (a.en = true → (s.rd (.bar0 l) R.ADM_SQ_TAIL).toNat ≠ a.sqHead → a.prog.length + a.fetching < 64 → s.admCqFree l ≠ 0 → s.linkReady l = true →
      s.tagsUsed l < s.tagLimit →
      let addr := s.bar64 l R.ADM_SQ_BASE_LO R.ADM_SQ_BASE_HI + 64 * (a.sqHead % 2 ^ s.admSqLog l)
      addr % 4096 ≤ 4032 → s.Does (.adminCommandFetch l) (fun t =>
        t.adm l = { a with sqHead := (a.sqHead + 1) % 65536, fetching := a.fetching + 1 } ∧
        t.out = .pcieRead l addr 64 none s.pcie.nextTag :: s.out)) ∧
    -- creation, binding, reset and destruction
    (a.prog = [c] → c.ph = 0 → c.wellFormed = true → c.op = 1 → c.tiOf = some n →
      (t0.st = 0 → s.Does (.tiCreate l) (fun t => t.ti n = { st := 1, link := l, cells := t0.cells } ∧ t.rd .eth R.SHAPE n = 1 ∧ s.Answered t l c 0 n)) ∧
      (t0.st ≠ 0 → t0.link ≠ l → fails (.tiCreate l) 6) ∧ (t0.st ≠ 0 → t0.link = l → fails (.tiCreate l) 2)) ∧
    (s.Runs l 2 c n → s.Does (.tiDestroy l) (fun t => (t.ti n).st = 4 ∧ (t.ti n).qps = [])) ∧
    (s.Runs l 3 c n → num 12 4 ≤ 10000 →
      let due := s.mono + 1000000 * (if num 12 4 = 0 then 100 else num 12 4)
      (c.byte 8 % 2 = 0 → s.Does (.tiReset l) (fun t => t.ti n = { t0 with st := 3, rst := some { squash := false, since := s.mono, limit := due } })) ∧
      (c.byte 8 % 2 = 1 → s.Does (.tiReset l) (fun t => (t.ti n).st = 3 ∧ (t.ti n).qps = [] ∧
        (t.ti n).rst = some { squash := true, since := s.mono, limit := due }))) ∧
    (s.Runs l 4 c n →
      (c.byte 12 / 2 % 2 = 1 → t0.st = 2 → t0.qps = [] → s.Does (.bindPasid l) (fun t =>
        t.ti n = { t0 with st := 1, pasid := none, pri := false } ∧ s.Answered t l c 0 0)) ∧
      (c.byte 12 / 2 % 2 = 0 → t0.st = 1 → (s.pf l).pasidEn = true → s.pcie.tis = [(n, t0)] → s.Does (.bindPasid l) (fun t =>
        t.ti n = { t0 with st := 2, pasid := some (num 8 4 % 2 ^ 20), pri := decide (c.byte 12 % 2 = 1) } ∧ s.Answered t l c 0 0)) ∧
      (c.byte 12 / 2 % 2 = 0 → t0.st = 2 → fails (.bindPasid l) 2)) ∧
    -- resources
    (s.Runs l 0x10 c n →
      (c.byte 8 ≤ 16 → s.pool n (·.qpCount) + c.byte 8 ≤ 16384 → t0.qps = [] → growth (.setQpCount l) (c.byte 8) t0.qpCount) ∧
      (16 < c.byte 8 → fails (.setQpCount l) 1)) ∧
    (∀ x : Qp, s.Runs l 0x11 c n → t0.st = 2 → s.qp (n + 2048 * c.byte 32) = none → c.byte 32 < t0.qpCount → c.byte 32 < 16 →
      x = { sqBase := num 8 8, rqBase := num 16 8, cqBase := num 24 8, sqLog := c.byte 33, rqLog := c.byte 34, cqLog := c.byte 35, vec := num 36 2,
            modCount := c.byte 38, modTime := num 40 2 % 1024, mode := c.byte 42 % 4, sel := c.byte 42 / 16, eng := c.byte 43 % 64 } →
      6 ≤ x.sqLog → x.sqLog ≤ 16 → 6 ≤ x.rqLog → x.rqLog ≤ 16 → 6 ≤ x.cqLog → x.cqLog ≤ 16 → (x.vec = 0xFFFF ∨ x.vec < t0.vecCount) → x.mode ≠ 3 →
      x.sqBase % 64 = 0 → x.rqBase % 64 = 0 → x.cqBase % 64 = 0 → s.Does (.qpConfig l) (fun t =>
        t.qp (n + 2048 * c.byte 32) = some x ∧ s.Answered t l c 0 0)) ∧
    (s.Runs l 0x11 c n → t0.st = 1 → fails (.qpConfig l) 2) ∧
    (∀ x, s.Runs l 0x12 c n → c.byte 8 < 16 → s.qp (n + 2048 * c.byte 8) = some x → x.pend = [] → x.busy = false → s.Does (.qpDisable l) (fun t =>
      t.qp (n + 2048 * c.byte 8) = none ∧ s.Answered t l c 0 0)) ∧
    (s.Runs l 0x13 c n → num 8 2 ≤ s.ctxMax → s.pool n (·.ctxQuota) + num 8 2 ≤ 16384 →
      (t0.ctxQuota ≤ num 8 2 → growth (.setCtxQuota l) (num 8 2) 0) ∧
      (num 8 2 < t0.ctxQuota → s.pcie.ctxo = [] → s.Does (.setCtxQuota l) (fun t =>
        t.ti n = { t0 with ctxQuota := num 8 2 } ∧ s.Answered t l c 0 0))) ∧
    (s.Runs l 0x14 c n → growth (.setBw l) (c.byte 8 + 256 * num 10 2) 0) ∧
    (s.Runs l 0x15 c n → num 8 4 ≤ 2097152 → growth (.setBufQuota l) (num 8 4) 0) ∧
    (s.Runs l 0x16 c n → num 10 2 ≤ 256 → num 8 2 + num 10 2 ≤ (if s.twoLinks then 2048 else 4096) → s.pcie.tis = [(n, t0)] → t0.qps = [] →
      growth (.setVectors l) 0 0) ∧
    (s.Runs l 0x17 c n → growth (.setTelem l) 0 0) ∧
    (s.Runs l 0x18 c n → growth (.setFcast l) 0 0) ∧
    (let k := num 8 2 % 32768
     let f := s.rf .pcie R.ADM_KEY_RANGE F.ADM_KEY_RANGE_FIRST
     let x := mapGet {} s.eth.keys k
     let mine := f ≤ k ∧ k < f + s.rf .pcie R.ADM_KEY_RANGE F.ADM_KEY_RANGE_COUNT ∧ (x.valid = false ∨ x.ti = n)
     (s.Runs l 0x20 c n → mine → s.Does (.keyWrite l) (fun t =>
       mapGet {} t.eth.keys k = ⟨(c.data.drop 16).take 32, BitVec.ofNat 32 (num 12 4), n, decide (c.byte 10 % 2 = 1), true⟩ ∧ s.Answered t l c 0 0)) ∧
     (s.Runs l 0x21 c n → mine → s.Does (.keyClear l) (fun t =>
       (mapGet {} t.eth.keys k).key = [] ∧ (mapGet {} t.eth.keys k).valid = false ∧ s.Answered t l c 0 0)) ∧
     (¬ mine → (s.Runs l 0x20 c n → fails (.keyWrite l) 6) ∧ (s.Runs l 0x21 c n → fails (.keyClear l) 6))) ∧
    -- what comes later
    (a.prog = [c] → c.ph = 1 → c.due ≤ s.now → n = num 4 2 % 2048 →
      let done_ (P : State → Prop) : Prop := s.Does (.resizeApply l) (fun t => P t ∧ s.Answered t l c 0 c.result)
      (c.op = 0x10 → done_ (fun t => (t.ti n).qpCount = c.arg ∧ ∀ q, c.arg ≤ q → mapGet none (t.ti n).qps q = none)) ∧
      (c.op = 0x13 → done_ (fun t => t.ti n = { t0 with ctxQuota := c.arg })) ∧
      (c.op = 0x14 → done_ (fun t => t.rd .eth R.SHAPE n = BitVec.ofNat 32 c.arg ∧ (t.shape n).active = BitVec.ofNat 32 c.arg)) ∧
      (c.op = 0x15 → done_ (fun t => t.ti n = { t0 with bufQuota := c.arg })) ∧
      (c.op = 0x16 → done_ (fun t => (t.ti n).vecFirst = num 8 2 ∧ (t.ti n).vecCount = num 10 2)) ∧
      (c.op = 0x17 → done_ (fun t => t.ti n = { t0 with telem := num 16 32 })) ∧
      (c.op = 0x18 → done_ (fun t => t.ti n = { t0 with fcast := num 16 32 }))) ∧
    (∀ (g : Nat) (w : Word), a.prog = [c] → c.ph = 2 → n = num 4 2 % 2048 → s.pcie.ctxo = [(g, w)] → w.bit 31 = true → w.toNat / 65536 % 2048 = n →
      c.arg ≤ w.toNat % 4096 → (s.ctxWord g 0).bit 30 = false →
      let o := s.ovfAddr n (w.toNat % 4096)
      s.ScratchFor (s.reqOf (.group (g / 256 / 4))) none o .write → s.Does (.contextDrain l) (fun t =>
        t.bytes o 512 = s.bytes (ctxAddr g 0) 512 ∧ (t.ctxWord g 0).bit 31 = false ∧ (t.ctxWord g 0).bit 30 = false ∧ t.pcie.ctxo = [] ∧
        s.Answered t l c 0 (c.result + 1))) ∧
    (∀ (k : Fin 2048) (x : TiReset), (s.ti k).rst = some x →
      (x.squash = false → x.limit ≤ s.mono → s.Does (.drainTimeout k) (fun t =>
        (t.ti k).rst = some { x with squash := true, turned := true } ∧ (t.ti k).qps = [])) ∧
      (∀ (th : Fin 1024) (f : Nat), (s.thread th).pkt = some f → (s.frame f).ti = k.val → (s.thread th).st ≠ 0 → (s.thread th).rsv = [] →
        x.squash = true → x.since + 100000 ≤ s.mono → s.Does (.tiResetThreadTimeout th) (fun t => (t.thread th).st = 0)) ∧
      (a.prog = [c] → c.ph = 4 → num 4 2 % 2048 = k.val → (s.ti k).link = l → s.tiQuiet k = true →
        (x.destroy = false → s.Does (.tiResetComplete k) (fun t =>
          t.ti k = { s.ti k with st := if (s.ti k).pasid.isSome then 2 else 1, rst := none, qps := [] } ∧
          s.Answered t l c 0 (if x.turned then 1 else 0))) ∧
        (x.destroy = true → x.owed = true → s.Does (.tiDestroyComplete k) (fun t =>
          t.ti k = { cells := (s.ti k).cells } ∧ t.rd .eth R.SHAPE k = 1 ∧ (∀ e ∈ t.eth.keys, e.2.ti ≠ k.val) ∧ s.Answered t l c 0 0))))

/-! ### The measurement front-end (R165 to R185, R190) -/

/-- R165 to R176, R178 to R185, R190: modulator clocks and their faults, channel outputs and restarts, sample sets and their flits, trip
paths, and event inputs: what each command changes. (The bits of a period go through the filter of R167 as `Sinc.feed` states it.) -/
def Obligations.MeasurementFrontEnd : Prop :=
  ∀ (s : State) (r : Req) (g : Fin 8) (n : Fin 128) (m : Fin 64) (k : Fin 32) (i : Fin 48) (v : Word) (raw : Bool) (bits : List Bool),
    s.Calm → s.mode.mode ≠ .dormant →
    let u := UnitId.chGroup g
    let w := chUnit n
    let e := UnitId.eviUnit
    let c : Nat := n.val % 16
    let fresh (t : State) (a : Nat) : Prop := (t.chSt a).filt = {} ∧ (t.chSt a).seq = 0 ∧ (t.chSt a).first = true ∧ (t.chSt a).cur = none
    -- clocks
    (let new := regWritten R.GRP_CTL (s.rd u R.GRP_CTL) v
     let per := 2 * clampNat 20 100 (new.fld F.GRP_CTL_MCLK_DIV)
     s.Sets r u R.GRP_CTL 0 (.grpCtlWrite r g v) (fun t => t.rd u R.GRP_CTL = new ∧
       (new.bit 0 = false → t.clkOk g = false ∧ t.rb u R.GRP_STATUS F.GRP_STATUS_CLK_FAULT = false) ∧
       (new.bit 0 = true → (s.rd u R.GRP_CTL).bit 0 = false → t.clkOk g = false ∧ (∀ a, a < 16 → fresh t (16 * g.val + a)) ∧
         (new.bit 1 = true → ∃ at_, mapGet none t.meas.edge g = some at_ ∧ s.mono + 100 ≤ at_ ∧ at_ < s.mono + 100 + per ∧
           (s.now + (at_ - s.mono)) % per = 0)))) ∧
    (s.grpEn g = true → s.rf u R.GRP_CTL F.GRP_CTL_DRIVE = 0 → s.clkFault g = false → (s.rd .tripUnit R.TRIP_EVT).bit 31 = false →
      s.Does (.mclkFault g) (fun t => t.rf u R.GRP_STATUS F.GRP_STATUS_CLK_FAULT = 1 ∧ t.clkOk g = false ∧
        t.rf u R.GRP_STATUS F.GRP_STATUS_CLK_FAULT_SEEN = 1 ∧
        (k.val ∈ s.tripsOf g → s.rb .tripUnit R.TRIP_CFG F.TRIP_CFG_EN k = true → s.rb .tripUnit R.TRIP_CFG F.TRIP_CFG_CLKF_TRIP k = true →
          s.rf .tripUnit R.TRIP_STATUS F.TRIP_STATUS_TRIPPED k = 0 →
          t.rf .tripUnit R.TRIP_STATUS F.TRIP_STATUS_TRIPPED k = 1 ∧ t.rf .tripUnit R.TRIP_STATUS F.TRIP_STATUS_CAUSE_CLK k = 1))) ∧
    (s.grpEn g = true → s.rf u R.GRP_CTL F.GRP_CTL_DRIVE = 0 → s.clkOk g = false → s.Does (.mclkQualified g) (fun t =>
      t.clkOk g = true ∧ t.rf u R.GRP_STATUS F.GRP_STATUS_CLK_FAULT = 0 ∧ ∀ a, a < 16 → fresh t (16 * g.val + a))) ∧
    (∀ at_, mapGet none s.meas.edge g = some at_ → at_ ≤ s.mono → s.Does (.modulatorClockFirstEdge g) (fun t =>
      t.clkOk g = true ∧ mapGet none t.meas.edge g = none ∧ s.OnlyReg t u R.GRP_STATUS 0 0)) ∧
    -- channels
    (s.rf w R.CH_CFG F.CH_CFG_EN c = 1 → s.grpEn (n.val / 16) = true → s.clkOk (n.val / 16) = true →
      bits.length = clampNat 8 1024 (s.rf w R.CH_CFG F.CH_CFG_DEC c) → s.rf w R.CH_CFG F.CH_CFG_TEL_EN c = 0 →
      let x := s.chSt n
      let f := x.filt.feed (s.rf w R.CH_CFG F.CH_CFG_ORDER c + 1) bits
      (f.1 = none → s.Does (.channelOutput n bits) (fun t => t = s.setCh n { x with filt := f.2 })) ∧
      (∀ y, f.1 = some y →
        let z := scaleOut (s.rf w R.CH_CFG F.CH_CFG_SHIFT c) (s.rf w R.CH_OFFSET F.CH_OFFSET_OFFSET c) (s.rf w R.CH_GAIN F.CH_GAIN_GAIN c) y
        s.Does (.channelOutput n bits) (fun t => s.OnlyReg t w R.CH_SATCNT c 0 ∧
          (t.chSt n).cur = some ⟨(BitVec.ofInt 24 z.1).toNat, z.2, x.seq, s.now, x.first, x.uid + 1⟩ ∧ (t.chSt n).prev = x.cur ∧
          (t.chSt n).seq = (x.seq + 1) % 65536 ∧ (t.chSt n).first = false ∧
          (t.rd w R.CH_SATCNT c).toNat = min ((s.rd w R.CH_SATCNT c).toNat + b2n z.2) (2 ^ 32 - 1)))) ∧
    (let old := s.rd w R.CH_CFG c
     let new := regWritten R.CH_CFG old v
     let restart := new.bit 31 = true ∧ (old.bit 31 = false ∨ old.fld F.CH_CFG_ORDER ≠ new.fld F.CH_CFG_ORDER ∨
       old.fld F.CH_CFG_DEC ≠ new.fld F.CH_CFG_DEC ∨ old.fld F.CH_CFG_SHIFT ≠ new.fld F.CH_CFG_SHIFT)
     s.Sets r w R.CH_CFG c (.chCfgWrite r n v) (fun t => t.rd w R.CH_CFG c = new ∧ (restart → fresh t n) ∧
       (¬ restart → t.chSt n = s.chSt n))) ∧
    (r.debug = false → s.Gets r w R.CH_LAST c (.chLastRead r n) ((s.chRegs n).getD 0 0) (fun t => ∀ j, j < 3 →
      t.latchWord false (regAddr w R.CH_LAST c 0) r.master.toNat j = (s.chRegs n)[j + 1]?)) ∧
    -- sample sets
    (let f (x : Fld) := s.rf .mfe R.SSET_CFG x m
     let nf := (f F.SSET_CFG_COUNT + 3) / 4
     (f F.SSET_CFG_EN = 0 → s.Sets r .mfe R.SSET_TRIG 0 (.ssetTrig r m) (fun t => t.meas = s.meas)) ∧
     (f F.SSET_CFG_EN = 1 → s.answers .mfe = true → s.Sets r .mfe R.SSET_TRIG 0 (.ssetTrig r m) (fun t =>
       t.meas.flits.length = s.meas.flits.length + nf ∧ ∀ a, a < nf → ∃ x, t.meas.flits[s.meas.flits.length + a]? = some x ∧ x.set = m ∧
         x.tus = 7 * f F.SSET_CFG_Q + 6 ∧ x.addr = 0xC00000000 + x.tus * 0x800000 + 64 * (s.rf .mfe R.SSET_OFF F.SSET_OFF_OFF m + a) ∧
         x.data.length = 64 ∧ x.mark = none))) ∧
    (let bad := v.bit 31 = true ∧ (v.fld F.SSET_CFG_COUNT = 0 ∨ 16 < v.fld F.SSET_CFG_COUNT ∨ v.fld F.SSET_CFG_CONN = 0)
     (bad → s.Granted r .write .mfe R.SSET_CFG m 0 → s.Does (.ssetCfgWrite r m v) (fun t => t = { s with resp := .err 4 })) ∧
     (¬ bad → s.Sets r .mfe R.SSET_CFG m (.ssetCfgWrite r m v) (fun t => t.meas = s.meas ∧
       t.rd .mfe R.SSET_CFG m = regWritten R.SSET_CFG (s.rd .mfe R.SSET_CFG m) v))) ∧
    (∀ x, s.meas.flits.find? (fun f => f.set == m.val) = some x → x.addr % 64 = 0 → x.data.length = 64 →
      s.ScratchFor (s.reqOf .mfe) none x.addr .write →
      let written (t : State) : Prop := t.bytes x.addr 64 = x.data ∧ (∀ a, a < x.addr ∨ x.addr + 64 ≤ a → t.byte a = s.byte a) ∧
        t.meas.flits = s.meas.flits.erase x
      (x.mark = none → s.Does (.sampleFlitWrite m) (fun t => written t ∧ t.regs = s.regs)) ∧
      (∀ id b p q, x.mark = some (id, b, p) → s.coreOf id = some q → b < 4 → (s.bank q b).st ≠ .off →
        s.Does (.sampleFlitWrite m) (fun t => written t ∧ (t.bank q b).flag = true ∧ p ≤ (t.bank q b).epri))) ∧
    (∀ x (code : Fin 8), s.meas.flits.find? (fun f => f.set == m.val) = some x → s.Does (.sampleFlitError m code) (fun t =>
      t.meas.flits = s.meas.flits.erase x ∧ (t.rd .mfe R.DELIV_CNT).toNat = min ((s.rd .mfe R.DELIV_CNT).toNat + 1) (2 ^ 32 - 1) ∧
      t.rd .mfe R.DELIV_ERR = (if s.rb .mfe R.DELIV_ERR F.DELIV_ERR_VALID then s.rd .mfe R.DELIV_ERR
        else BitVec.ofNat 32 (2 ^ 31 + 256 * m.val + code.val)))) ∧
    -- trip paths
    (let f (x : Fld) := s.rf .tripUnit R.TRIP_CFG x k
     let o := (mapGet {} s.meas.trip k).feed 2 bits
     f F.TRIP_CFG_EN = 1 → s.answers .tripUnit = true → s.grpEn (f F.TRIP_CFG_SRC / 16) = true → s.clkOk (f F.TRIP_CFG_SRC / 16) = true →
     bits.length = clampNat 16 64 (f F.TRIP_CFG_DEC) →
     (o.1 = none → s.Does (.tripOutput k bits) (fun t => t = { s with meas := { s.meas with trip := mapSet {} s.meas.trip k o.2 } })) ∧
     (∀ y, o.1 = some y →
       let hi := sext 16 (s.rf .tripUnit R.TRIP_THR F.TRIP_THR_THR_HI k)
       let lo := sext 16 (s.rf .tripUnit R.TRIP_THR F.TRIP_THR_THR_LO k)
       let d := if hi < y ∨ y < lo then min 15 (s.rf .tripUnit R.TRIP_STATUS F.TRIP_STATUS_DEB_CNT k + 1) else 0
       let shown (t : State) : Prop := t.rf .tripUnit R.TRIP_STATUS F.TRIP_STATUS_DEB_CNT k = d ∧
         t.rf .tripUnit R.TRIP_STATUS F.TRIP_STATUS_VALUE k = (BitVec.ofInt 16 y).toNat ∧ mapGet {} t.meas.trip k = o.2
       (d < max 1 (f F.TRIP_CFG_DEB) → s.Does (.tripOutput k bits) (fun t => shown t ∧ s.OnlyReg t .tripUnit R.TRIP_STATUS k 0 ∧ t.act = s.act)) ∧
       (max 1 (f F.TRIP_CFG_DEB) ≤ d → s.rf .tripUnit R.TRIP_STATUS F.TRIP_STATUS_TRIPPED k = 0 → (s.rd .tripUnit R.TRIP_EVT).bit 31 = false →
         s.Does (.tripOutput k bits) (fun t => shown t ∧ t.rf .tripUnit R.TRIP_STATUS F.TRIP_STATUS_TRIPPED k = 1 ∧
           t.rf .tripUnit R.TRIP_STATUS F.TRIP_STATUS_CAUSE_LO k = (if y < lo then 1 else 0) ∧
           (t.rd .tripUnit R.TRIP_CNT k).toNat = min ((s.rd .tripUnit R.TRIP_CNT k).toNat + 1) (2 ^ 32 - 1) ∧
           ∀ b, b < 16 → (s.rf .act R.TRIP_MAP F.TRIP_MAP_BRAKES k).testBit b = true →
             (t.rf .act R.BRK_STAT F.BRK_STAT_LATCH b).testBit 3 = true)))) ∧
    s.Sets r .tripUnit R.TRIP_STATUS k (.trippedClear r k) (fun t => t.rf .tripUnit R.TRIP_STATUS F.TRIP_STATUS_TRIPPED k = 0 ∧
      t.rf .tripUnit R.TRIP_STATUS F.TRIP_STATUS_DEB_CNT k = 0 ∧ s.OnlyReg t .tripUnit R.TRIP_STATUS k 0 ∧ t.act = s.act) ∧
    s.Sets r .tripUnit R.TRIP_CFG k (.tripCfgWrite r k v) (fun t =>
      t.rd .tripUnit R.TRIP_CFG k = regWritten R.TRIP_CFG (s.rd .tripUnit R.TRIP_CFG k) v ∧ mapGet {} t.meas.trip k = {} ∧
      t.rf .tripUnit R.TRIP_STATUS F.TRIP_STATUS_DEB_CNT k = 0) ∧
    -- event inputs
    (let x := s.eviSt i
     let l := raw != (s.eviF F.EVI_CFG_INV i == 1)
     let level := s.rb e R.EVI_STATUS F.EVI_STATUS_LEVEL i
     let need := s.eviF F.EVI_CFG_GLITCH i + 1
     let edge := s.eviF F.EVI_CFG_EDGE i
     let counted := edge = 2 ∨ (edge = 0 ∧ level = false) ∨ (edge = 1 ∧ level = true)
     s.eviF F.EVI_CFG_EN i = 1 →
     (x.started = false → s.Does (.eviSample i raw) (fun t => t.rb e R.EVI_STATUS F.EVI_STATUS_LEVEL i = l ∧
       (t.eviSt i).started = true ∧ (t.eviSt i).changed = s.now ∧ (t.eviSt i).cnt = 0 ∧ s.OnlyReg t e R.EVI_STATUS i 0)) ∧
     (x.started = true → x.cnt < need → s.Does (.eviSample i raw) (fun t => s.OnlyReg t e R.EVI_STATUS i 0 ∧
       t.rb e R.EVI_STATUS F.EVI_STATUS_LEVEL i = level ∧
       (l ≠ level → (t.eviSt i).cnt = x.cnt + 1 ∧ (x.cnt = 0 → (t.eviSt i).since = s.now)) ∧
       (l = level → (t.eviSt i).cnt = 0) ∧
       t.rf e R.EVI_STATUS F.EVI_STATUS_GLITCH_CNT i = (if l = level ∧ x.cnt ≠ 0 then
         min 0xFFFF (s.rf e R.EVI_STATUS F.EVI_STATUS_GLITCH_CNT i + 1) else s.rf e R.EVI_STATUS F.EVI_STATUS_GLITCH_CNT i) ∧
       (l ≠ x.raw → x.rawRun = 1 → t.rf e R.EVI_STATUS F.EVI_STATUS_FAST i = 1))) ∧
     (x.started = true → need ≤ x.cnt →
       let taken (t : State) : Prop := t.rb e R.EVI_STATUS F.EVI_STATUS_LEVEL i = !level ∧ t.rf e R.EVI_STATUS F.EVI_STATUS_STUCK i = 0 ∧
         (t.eviSt i).cnt = 0 ∧ (t.eviSt i).changed = s.now
       (¬ counted → s.Does (.eviLevelAccept i) (fun t => taken t ∧ s.OnlyReg t e R.EVI_STATUS i 0)) ∧
       (counted → (s.rb e R.EVI_IRQ F.EVI_IRQ_IRQ_EDGE i = false ∨ s.gapOver i = false) → s.Does (.eviLevelAccept i) (fun t => taken t ∧
         t.rd e R.EVI_COUNT i = s.rd e R.EVI_COUNT i + 1 ∧ t.rd e R.EVI_TS_LO i = lo32 x.since ∧ t.rd e R.EVI_TS_HI i = hi32 x.since ∧
         (∀ a, x.ts = some a → (t.rd e R.EVI_PERIOD i).toNat = min (x.since - a) (2 ^ 32 - 1)) ∧
         (s.rb e R.EVI_IRQ F.EVI_IRQ_IRQ_EDGE i = true → (t.eviSt i).pend = true ∧
           (t.rd e R.EVI_MERGED i).toNat = min ((s.rd e R.EVI_MERGED i).toNat + 1) (2 ^ 32 - 1))))) ∧
     (let lim := min 60000 (s.rf e R.EVI_STUCK F.EVI_STUCK_STUCK_TIME i)
      x.started = true → lim ≠ 0 → x.changed + lim * 1000000 ≤ s.now → s.rb e R.EVI_STATUS F.EVI_STATUS_STUCK i = false →
      s.rb e R.EVI_IRQ F.EVI_IRQ_IRQ_STUCK i = false → s.Does (.eviStuck i) (fun t => t.rf e R.EVI_STATUS F.EVI_STATUS_STUCK i = 1 ∧
        t.rf e R.EVI_STATUS F.EVI_STATUS_STUCK_SEEN i = 1 ∧ s.OnlyReg t e R.EVI_STATUS i 0 ∧ t.meas = s.meas))) ∧
    (let size := clampNat 1 1000 (s.rf e R.EVI_FREQ_WIN F.EVI_FREQ_WIN_MS) * 1000000
     s.meas.winStart + size ≤ s.now → s.Does .eviFreqWindow (fun t => t.meas.winStart = s.meas.winStart + size ∧
       ∀ j, j < 48 → t.rd e R.EVI_FREQ j = BitVec.ofNat 32 (s.eviSt j).winCnt ∧ (t.eviSt j).winCnt = 0)) ∧
    (let size := clampNat 1 1000 (v.fld F.EVI_FREQ_WIN_MS) * 1000000
     v.fld F.EVI_FREQ_WIN_MS ≠ s.rf e R.EVI_FREQ_WIN F.EVI_FREQ_WIN_MS → s.Sets r e R.EVI_FREQ_WIN 0 (.eviFreqWinWrite r v) (fun t =>
       t.rf e R.EVI_FREQ_WIN F.EVI_FREQ_WIN_MS = v.fld F.EVI_FREQ_WIN_MS ∧
       t.meas.winStart % size = 0 ∧ s.now ≤ t.meas.winStart ∧ t.meas.winStart < s.now + size ∧ ∀ j, j < 48 → (t.eviSt j).winCnt = 0)) ∧
    (let q := s.rf e R.EVI_IRQ F.EVI_IRQ_EVT_Q i
     let src := s.rf e R.EVI_IRQ F.EVI_IRQ_EVT_SRC i
     (s.eviSt i).pend = true → s.gapOver i = true → s.Does (.eviIrqGapEnd i) (fun t => (t.eviSt i).pend = false ∧
       (t.eviSt i).lastIrq = some s.mono ∧
       (s.answers (.er q) = true → s.rf (.er q) R.ER_ROUTE F.ER_ROUTE_EN src = 1 → s.rf (.er q) R.ER_ROUTE F.ER_ROUTE_KIND src = 0 →
         t.erPend q src = true))) ∧
    (s.eviF F.EVI_CFG_EN i = 0 → s.Sets r e R.EVI_CFG i (.eviEnable r i v) (fun t => t.eviF F.EVI_CFG_EN i = 1 ∧
      t.rd e R.EVI_COUNT i = 0 ∧ t.rd e R.EVI_PERIOD i = 0 ∧ t.rd e R.EVI_TS_LO i = 0 ∧ t.rd e R.EVI_TS_HI i = 0 ∧
      t.rf e R.EVI_STATUS F.EVI_STATUS_GLITCH_CNT i = 0 ∧ t.rf e R.EVI_STATUS F.EVI_STATUS_STUCK i = 0 ∧
      (t.eviSt i).started = false ∧ (t.eviSt i).pend = false ∧ (t.eviSt i).ts = none)) ∧
    (r.debug = false → s.Gets r e R.EVI_COUNT i (.eviCountRead r i) (s.rd e R.EVI_COUNT i) (fun t => ∀ j, j < 3 →
      t.latchWord false (regAddr e R.EVI_COUNT i 0) r.master.toNat j =
        [s.rd e R.EVI_PERIOD i, s.rd e R.EVI_TS_LO i, s.rd e R.EVI_TS_HI i][j]?))

/-! ### Control loops, actuators, forecast events, power intent and telemetry (R188 to R199, R203, R206, R210 to R221) -/

/-- R188, R189, R191 to R193, R196 to R199: loops, their arms, commits and overruns, PWM outputs, and brakes: what each command changes.
(In the safe state a commit does not happen; that is the statement of the safe state's own rules.) -/
def Obligations.LoopsAndActuators : Prop :=
  ∀ (s : State) (r : Req) (n : Fin 64) (m : Fin 64) (b : Fin 16) (v : Word) (set : BitVec 16), s.Calm →
    let x := s.loop n
    let y := s.pwm m
    let z := s.rd .act R.LOOP_CFG n
    let shadow (k : Nat) : Nat × Nat := (clampNat 2000 4000000 (s.rf .act R.PWM_PER F.PWM_PER_VALUE k), s.rf .act R.PWM_DUTY F.PWM_DUTY_VALUE k)
    let latch (t : State) (k : Nat) : Nat := t.rf .act R.BRK_STAT F.BRK_STAT_LATCH k
    let armed : Bool := s.rb .act R.LOOP_STAT F.LOOP_STAT_ARMED n
    let reloaded (t : State) : Prop := ∀ k, k < 64 → (s.loopPwm n).testBit k = true →
      let p := ((s.pwm k).pend.getD ((s.pwm k).per, (s.pwm k).duty))
      t.rf .act R.PWM_PER F.PWM_PER_VALUE k = p.1 % 2 ^ 22 ∧ t.rf .act R.PWM_DUTY F.PWM_DUTY_VALUE k = p.2 % 2 ^ 22
    let closed (t : State) : Prop := (t.loop n).open_ = none ∧ t.rf .act R.LOOP_STAT F.LOOP_STAT_ARMED n = 0
    let outputs (t : State) : Prop := ∀ k, t.pwm k = s.pwm k
    -- sample instants
    (s.loopsRun = true → s.loopEn n = true → s.now % max 1 (s.loopPer n) = s.loopPhase n → x.first ≤ s.now → x.last ≠ some s.now →
      (x.open_ = none → s.Does (.sampleInstant n) (fun t =>
        t.loop n = { x with last := some s.now, open_ := some s.now } ∧ (∀ k, k ≠ n.val → t.loop k = s.loop k) ∧ outputs t ∧
        (let c (f : Fld) := s.rf .mfe R.SSET_CFG f (z.fld F.LOOP_CFG_SSET)
         c F.SSET_CFG_EN = 1 → s.answers .mfe = true → 0 < c F.SSET_CFG_COUNT →
         t.meas.flits.length = s.meas.flits.length + (c F.SSET_CFG_COUNT + 3) / 4 ∧ ∃ f, t.meas.flits.getLast? = some f ∧
           f.mark = some (9 * (7 * c F.SSET_CFG_Q + 6) + z.fld F.LOOP_CFG_CORE, z.fld F.LOOP_CFG_BANK, z.fld F.LOOP_CFG_PRIO)))) ∧
      (∀ ts, x.open_ = some ts → s.now < ts + s.loopDl n → s.Does (.sampleInstant n) (fun t =>
        t = s.setLoop n { x with last := some s.now }))) ∧
    -- enable, disable, arm
    (let w := v.setFld F.LOOP_CFG_EN 1
     let ss := v.fld F.LOOP_CFG_SSET
     let bad := s.loopPer n = 0 ∨ s.loopPer n ≤ s.loopPhase n ∨ s.loopDl n < 100 ∨ s.loopPer n ≤ s.loopDl n ∨
       s.rb .mfe R.SSET_CFG F.SSET_CFG_EN ss = false ∨
       ∃ k, k < 64 ∧ k ≠ n.val ∧ s.loopEn k = true ∧ (s.rf .act R.LOOP_CFG F.LOOP_CFG_SSET k = ss ∨ (s.loopPwm k &&& s.loopPwm n) ≠ 0)
     z.bit 31 = false →
       (bad → s.Granted r .write .act R.LOOP_CFG n 0 → s.Does (.loopEnable r n v) (fun t => t = { s with resp := .err 4 })) ∧
       (¬ bad → s.Sets r .act R.LOOP_CFG n (.loopEnable r n v) (fun t => t.rd .act R.LOOP_CFG n = regWritten R.LOOP_CFG z w ∧
         t.loopEn n = true ∧ t.loop n = { first := s.now + 1000 } ∧ outputs t))) ∧
    s.Sets r .act R.LOOP_CFG n (.loopDisable r n) (fun t => t.loopEn n = false ∧ outputs t ∧
      (z.bit 31 = true → closed t ∧ ∀ ts, x.open_ = some ts → reloaded t ∧ t.rf .act R.LOOP_BRK F.LOOP_BRK_BSH n = 0)) ∧
    (let good := ∃ ts, x.open_ = some ts ∧ s.loopEn n = true ∧ ts ≤ s.now ∧ s.now < ts + s.loopDl n
     (good → s.Sets r .act R.LOOP_ARM 0 (.loopArm r n) (fun t => t.rf .act R.LOOP_STAT F.LOOP_STAT_ARMED n = 1 ∧ s.OnlyReg t .act R.LOOP_STAT n 0)) ∧
     (¬ good → s.Sets r .act R.LOOP_ARM 0 (.loopArm r n) (fun t =>
       (t.rd .act R.ARM_DISC).toNat = min ((s.rd .act R.ARM_DISC).toNat + 1) (2 ^ 32 - 1) ∧ s.OnlyReg t .act R.ARM_DISC 0 0))) ∧
    -- deadlines
    (∀ ts, x.open_ = some ts →
      (s.now < ts + s.loopDl n → s.Does (.loopDeadline n) (fun t => t = s)) ∧
      (ts + s.loopDl n ≤ s.now → armed = true → s.mode.safe = false → s.Does (.loopDeadline n) (fun t => closed t ∧
        t.rf .act R.LOOP_BRK F.LOOP_BRK_BSH n = 0 ∧
        (∀ k, k < 64 → (s.loopPwm n).testBit k = false → t.pwm k = s.pwm k) ∧
        (∀ k, k < 64 → (s.loopPwm n).testBit k = true →
          if s.rb .act R.PWM_CFG F.PWM_CFG_EN k = true ∧ s.rb .act R.PWM_CFG F.PWM_CFG_UPD k = false
          then t.pwm k = { s.pwm k with pend := some (shadow k) }
          else (t.pwm k).per = (shadow k).1 ∧ (t.pwm k).duty = (shadow k).2 ∧ (t.pwm k).pend = none ∧
            (t.pwm k).start = (if s.rb .act R.PWM_CFG F.PWM_CFG_EN k then 4 * s.mono else (s.pwm k).start)) ∧
        ∀ k, k < 16 → (latch t k).testBit 2 = ((latch s k).testBit 2 || ((s.rf .act R.LOOP_BRK F.LOOP_BRK_BSH n).testBit k &&
          (s.rf .act R.LOOP_BRK F.LOOP_BRK_BSET n).testBit k)))) ∧
      (ts + s.loopDl n ≤ s.now → armed = false → s.Does (.loopDeadline n) (fun t => closed t ∧ outputs t ∧ reloaded t ∧
        t.rf .act R.LOOP_BRK F.LOOP_BRK_BSH n = 0 ∧ t.rf .act R.LOOP_STAT F.LOOP_STAT_LOOP_OVERRUN n = 1 ∧
        t.rf .act R.LOOP_STAT F.LOOP_STAT_OVR_CNT n = (s.rf .act R.LOOP_STAT F.LOOP_STAT_OVR_CNT n + 1) % 65536))) ∧
    -- PWM outputs
    (∀ per : Bool, let g := if per then R.PWM_PER else R.PWM_DUTY
      let new := regWritten g (s.rd .act g m) v
      let sh : Nat × Nat := if per then (clampNat 2000 4000000 (new.fld F.PWM_PER_VALUE), (shadow m).2) else ((shadow m).1, new.fld F.PWM_DUTY_VALUE)
      s.Sets r .act g m (.pwmShadowWrite r m per v) (fun t => t.rd .act g m = new ∧ s.OnlyReg t .act g m 0 ∧ (∀ k, k ≠ m.val → t.pwm k = s.pwm k) ∧
        (s.pwmOwner m ≠ none → t.pwm m = y) ∧
        (s.pwmOwner m = none → t.pwm m = (if s.rb .act R.PWM_CFG F.PWM_CFG_EN m then { y with shadowNew := true }
          else { y with per := sh.1, duty := sh.2, pend := none, shadowNew := false })))) ∧
    (s.rb .act R.PWM_CFG F.PWM_CFG_EN m = false → s.Sets r .act R.PWM_CFG m (.pwmEnable r m v) (fun t =>
      t.rb .act R.PWM_CFG F.PWM_CFG_EN m = true ∧ (∀ k, k ≠ m.val → t.pwm k = s.pwm k) ∧
      ∃ at_, t.pwm m = { y with start := 4 * at_ } ∧ (s.now + (at_ - s.mono)) % 1000 = 0 ∧ s.mono < at_ ∧ at_ ≤ s.mono + 1000)) ∧
    (s.rb .act R.PWM_CFG F.PWM_CFG_EN m = true → y.safe = none → y.start + y.per ≤ s.mono * 4 → s.Does (.pwmPeriodBoundary m) (fun t =>
      t.regs = s.regs ∧ t.pwm m =
        (match y.pend with
         | some p => { y with start := y.start + y.per, per := p.1, duty := p.2, pend := none, shadowNew := false }
         | none => if y.shadowNew = true ∧ s.pwmOwner m = none then
             { y with start := y.start + y.per, per := (shadow m).1, duty := (shadow m).2, pend := none, shadowNew := false }
           else { y with start := y.start + y.per }))) ∧
    -- brakes
    s.Sets r .act R.BRK_SET 0 (.brkSet r set) (fun t => ∀ k, k < 16 →
      (set.getLsbD k = true → latch t k = (latch s k ||| 1) ∧ (s.rb .act R.BRK_CFG F.BRK_CFG_EN k = true → t.rf .act R.BRK_STAT F.BRK_STAT_OUT k = 1)) ∧
      (set.getLsbD k = false → t.rd .act R.BRK_STAT k = s.rd .act R.BRK_STAT k)) ∧
    s.Sets r .act R.BRK_REL 0 (.brkRel r set) (fun t => ∀ k, k < 16 →
      (set.getLsbD k = true → latch t k = 0 ∧ (s.act.force.contains k = false → t.rf .act R.BRK_STAT F.BRK_STAT_OUT k = 0)) ∧
      (set.getLsbD k = false → t.rd .act R.BRK_STAT k = s.rd .act R.BRK_STAT k)) ∧
    (∀ at_, mapGet none s.act.relAt b = some at_ →
      (at_ ≤ s.mono → s.Does (.brakeAutoRelease b) (fun t => latch t b = 0 ∧ s.OnlyReg t .act R.BRK_STAT b 0 ∧
        (s.act.force.contains b.val = false → t.rf .act R.BRK_STAT F.BRK_STAT_OUT b = 0))) ∧
      (s.mono < at_ → s.Does (.brakeAutoRelease b) (fun t => t = s)))

/-- R203, R204, R206, R210 to R213, R220 to R222: forecast events, the power-intent sender, the streams of the telemetry coder and its output
targets: what each command changes. -/
def Obligations.ForecastAndTelemetry : Prop :=
  ∀ (s : State) (r : Req) (g : Fin 16) (n : Fin 256) (o : Fin 8) (v : Word), s.Calm →
    let p := s.act.pint
    let ctl := s.rd .act R.PINT_CTL
    let port := ctl.fld F.PINT_CTL_PORT
    let more (t : State) (u : UnitId) (c : Reg) (k i : Nat) : Prop := (t.rd u c i).toNat = min ((s.rd u c i).toNat + k) (2 ^ 32 - 1)
    let sent (t : State) (kind : Nat) : Prop := t.act.pint.held = [] ∧ t.act.pint.seq = (p.seq + 1) % 65536 ∧
      t.act.pint.lastK2 = (if kind = 2 then some s.mono else p.lastK2) ∧ t.act.pint.waiting = (p.waiting && kind != 2) ∧
      (if s.linkUp port = true ∧ ¬ (ctl.bit 30 = true ∧ s.rf .eth R.PINT_CFG F.PINT_CFG_PINT_UDP = 0) then
        more t .act R.PINT_SENT 1 0 ∧ t.egress (8 * port + ctl.fld F.PINT_CTL_TC) = s.egress (8 * port + ctl.fld F.PINT_CTL_TC) ++ [s.eth.nextFrame]
       else more t .act R.PINT_LOST 1 0 ∧ t.eth = s.eth)
    -- forecast events
    (∀ (e : DWord) (th op : Nat) (rest : List (DWord × Nat × Nat)), mapGet [] s.act.fcq g = (e, th, op) :: rest → rest[3]? = none →
      let ok := (s.ti (e.toNat / 2 ^ 53)).fcast.testBit (e.toNat / 2 ^ 45 % 256)
      let mag := e.toNat / 2 ^ 41 % 16
      let map := s.rd .act R.FCB_MAP (e.toNat / 2 ^ 45 % 256)
      let left (t : State) : Prop := mapGet [] t.act.fcq g = rest
      (ok = false → s.Does (.forecastEvent g) (fun t => left t ∧ more t .act R.FC_DENIED 1 0 ∧ s.OnlyReg t .act R.FC_DENIED 0 0)) ∧
      (ok = true → (∀ q, q < 4 → (s.rd .act R.FC_RING_CFG q).bit 31 = false) → s.Does (.forecastEvent g) (fun t => left t ∧
        (map.bit 31 = true → e.toNat.testBit 40 = false → map.fld F.FCB_MAP_MIN_MAG ≤ mag → ∀ b, b < 16 → (map.fld F.FCB_MAP_BRAKES).testBit b = true →
          (t.rf .act R.BRK_STAT F.BRK_STAT_LATCH b).testBit 1 = true) ∧
        (ctl.bit 31 = true → ctl.fld F.PINT_CTL_MIN_MAG ≠ 0 → ctl.fld F.PINT_CTL_MIN_MAG ≤ mag → p.held.length < 4 → s.pintGapOver = false →
          t.act.pint = { p with held := p.held ++ [e], waiting := true }) ∧
        (ctl.bit 31 = false → t.act.pint = p))) ∧
      (∀ q, q < 4 → ok = true → map.bit 31 = false → ctl.bit 31 = false → (∀ k, k < 4 → k ≠ q → (s.rd .act R.FC_RING_CFG k).bit 31 = false) →
        (s.rd .act R.FC_RING_CFG q).bit 31 = true → (s.rd .act R.FC_RING_WAKE q).bit 31 = false →
        let seq := mapGet 0 s.act.ringSeq q
        let a := 0xC00000000 + (7 * q + 6) * 0x800000 + 64 * (s.rf .act R.FC_RING_CFG F.FC_RING_CFG_OFF q) +
          16 * (seq % 2 ^ clampNat 4 10 (s.rf .act R.FC_RING_CFG F.FC_RING_CFG_LOG2 q))
        s.ScratchFor (s.reqOf .act) none a .write → s.Does (.forecastEvent g) (fun t => left t ∧ mapGet 0 t.act.ringSeq q = (seq + 1) % 2 ^ 32 ∧
          t.bytes a 16 = leBytes 8 e.toNat ++ leBytes 4 seq ++ leBytes 4 0 ∧ ∀ x, x < a ∨ a + 16 ≤ x → t.byte x = s.byte x))) ∧
    -- power intent
    (let per := 1000 * ctl.fld F.PINT_CTL_PERIOD
     ctl.bit 31 = true → per ≠ 0 → s.now % per = 0 → p.nextPer ≠ s.now + 1 → s.answers .act = true →
     s.Does .pintPeriodic (fun t => sent t (if p.waiting = true ∧ s.pintGapOver = true then 2 else 1) ∧ t.act.pint.nextPer = s.now + 1)) ∧
    (p.waiting = true ∧ s.pintGapOver = true → s.Does .pintGapExpire (fun t => sent t 2)) ∧
    (p.waiting = false ∨ s.pintGapOver = false → s.Does .pintGapExpire (fun t => t = s)) ∧
    (ctl.bit 31 = true → s.Sets r .act R.PINT_CTL 0 (.pintDisable r) (fun t => t.act.pint = { p with held := [], waiting := false } ∧
      more t .act R.PINT_LOST p.held.length 0 ∧ t.rd .act R.PINT_CTL = ctl.setFld F.PINT_CTL_EN 0)) ∧
    -- streams
    (let x := s.str n
     let src := s.rd .telCoder R.STR_SRC n
     let q := x.q.filter (fun t => decide (s.mono < t))
     let per := 1000 * src.fld F.STR_SRC_PERIOD
     s.strF F.STR_CFG_EN n = 1 → src.fld F.STR_SRC_KIND = 1 → per ≠ 0 → s.now % per = 0 → x.next ≠ s.now + 1 → s.answers .telCoder = true →
     (4 ≤ q.length → s.Does (.telPeriodicSample n) (fun t => more t .telCoder R.STR_DROP 1 n ∧
       t.str n = { x with next := s.now + 1, q := q, gapNext := true })) ∧
     (q.length < 4 → x.smp = [] → s.Does (.telPeriodicSample n) (fun t =>
       (t.str n).smp = [{ x := (s.rd .eviUnit R.EVI_COUNT (s.rf .telCoder R.STR_ARG ⟨5, 0⟩ n)).toNat, t := s.now }] ∧ (t.str n).cfg = s.rd .telCoder R.STR_CFG n ∧
       (t.str n).src = src ∧ (t.str n).start = x.startNext ∧ (t.str n).gap = x.gapNext ∧ t.tel.out = s.tel.out))) ∧
    (let x := s.str n
     ∀ a l, x.smp = a :: l →
       let fl := x.cfg.fld F.STR_CFG_FLUSH
       let done (t : State) : Prop := (t.str n).smp = [] ∧ (t.str n).bseq = (x.bseq + 1) % 65536 ∧ (t.str n).start = false ∧ (t.str n).gap = false ∧
         ∀ k, k < 8 →
           if (x.cfg.fld F.STR_CFG_OUTS).testBit k = true ∧ s.rf .telCoder R.TOUT_CFG F.TOUT_CFG_EN k = 1 ∧ (s.tout k).q.length < 32
           then ∃ z, (t.tout k).q = (s.tout k).q ++ [z] ∧ z.stream = n.val ∧ z.hdr[0]? = some (BitVec.ofNat 32 (2 ^ 24 + 2 ^ 16 * n.val + x.bseq)) ∧
             z.hdr[2]? = some (lo32 a.t) ∧ z.hdr[3]? = some (hi32 a.t)
           else t.tout k = s.tout k
       (fl ≠ 0 → a.t + 1000 * fl + 2000 ≤ s.now → s.Does (.blockFlushTimeout n) done) ∧
       (s.now < a.t + 1000 * fl + 2000 → s.Does (.blockFlushTimeout n) (fun t => t = s)) ∧
       ∀ k : Fin 3, let c := [R.STR_CFG, R.STR_SRC, R.STR_ARG].getD k R.STR_ARG
         (k.val = 0 → v.bit 31 = true → s.strF F.STR_CFG_EN n = 1) → s.Sets r .telCoder c n (.strCfgWrite r n k v) (fun t =>
           done t ∧ t.rd .telCoder c n = regWritten c (s.rd .telCoder c n) v)) ∧
    ((s.str n).smp = [] → s.strF F.STR_CFG_EN n = 0 → v.bit 31 = true → s.Sets r .telCoder R.STR_CFG n (.strCfgWrite r n 0 v) (fun t =>
      t.str n = { s.str n with bseq := 0, startNext := true, gapNext := false })) ∧
    -- output targets
    (let x := s.tout o
     let cfg := s.rd .telCoder R.TOUT_CFG o
     let port := cfg.fld F.TOUT_CFG_PORT
     let udp := s.rf .telCoder R.TEL_CTL F.TEL_CTL_TEL_UDP
     let lg := clampNat 4 12 (cfg.fld F.TOUT_CFG_LOG2)
     (∀ z l, x.q = z :: l → cfg.bit 31 = true →
       (cfg.fld F.TOUT_CFG_KIND < 2 → cfg.fld F.TOUT_CFG_HOLD ≠ 0 →
         12 + (x.frame.flatMap (fun y => y.bytes true)).length + (z.bytes true).length ≤ 1472 → s.Does (.recordSend o) (fun t =>
           t.tout o = { x with q := l, frame := x.frame ++ [z], since := if x.frame = [] then s.mono else x.since } ∧
           (∀ k, k ≠ o.val → t.tout k = s.tout k) ∧ t.regs = s.regs ∧ t.eth = s.eth)) ∧
       (let d := slotBytes z x.idx lg
        let a := (s.rd .telCoder R.TOUT_A o).toNat / 512 * 512 + 2 ^ 32 * ((s.rd .telCoder R.TOUT_B o).toNat % 256) + 512 * (x.idx % 2 ^ lg)
        cfg.fld F.TOUT_CFG_KIND = 2 → (∀ k, k < d.length / 64 → s.ScratchFor (s.reqOf .telCoder) none (a + 64 * k) .write) →
        (s.rd .telCoder R.TOUT_C o).bit 31 = false → 0 < d.length → s.Does (.recordSend o) (fun t => t.tout o = { x with q := l, idx := (x.idx + 1) % 65536 } ∧
          t.bytes a d.length = d ∧ (∀ y, y < a ∨ a + d.length ≤ y → t.byte y = s.byte y) ∧ t.regs = s.regs))) ∧
     (x.frame ≠ [] →
       let due := x.since + 1000 * cfg.fld F.TOUT_CFG_HOLD ≤ s.mono
       let lost := s.linkUp port = false ∨ (cfg.fld F.TOUT_CFG_KIND = 1 ∧ udp = 0)
       let gone (t : State) : Prop := t.tout o = { x with frame := [], idx := (x.idx + 1) % 65536 }
       (due → lost → s.Does (.telFrameHoldExpire o) (fun t => gone t ∧ more t .telCoder R.TEL_LOST 1 0 ∧ t.eth = s.eth)) ∧
       (due → ¬ lost → s.Does (.telFrameHoldExpire o) (fun t => gone t ∧ t.regs = s.regs ∧
         t.egress (8 * port + cfg.fld F.TOUT_CFG_TC) = s.egress (8 * port + cfg.fld F.TOUT_CFG_TC) ++ [s.eth.nextFrame])) ∧
       (¬ due → s.Does (.telFrameHoldExpire o) (fun t => t = s))))

/-! ### Coherence (R317 to R330, R353) -/

/-- R318, R320, R322 to R326, R328, R330, R353: what a home does with each request, put and acknowledgement by its directory entry, and what a
caching agent does with each message by the state of its sub-block: the entry, the transaction, the messages sent, the data, and
memory. (Each clause has the one message in flight that it names, and no error in the line it reads.) -/
def Obligations.Coherence : Prop :=
  ∀ (s : State) (a : Fin 32) (t : Fin 29) (m : BitVec 12) (l : BitVec 34), s.Calm →
    let L := l.toNat
    let k := s.lineKey L
    let h := 100 + lkChan k
    let key := s.dramKey (64 * L)
    let d := s.bytes key 64
    let p := s.poisoned key
    let A : Nat := a.val
    let T : Nat := t.val
    let cl := 200 + m.toNat
    let hm := s.homeOf L
    let arrives (src dst : Nat) (x : CohMsg) : Prop := s.mem.net = [⟨src, dst, L, x⟩]
    let fresh := s.txnOf k = none ∧ mapGet none s.mem.heldWay (Machine.setKey k) = none
    let quiet := mapGet [] s.mem.queue k = [] ∧ mapGet [] s.mem.retryq (lkChan k) = []
    let sub := s.sub t L
    let opened (y : State) (as : List Nat) (fwd : Option Nat) : Prop := ∃ x, y.txnOf k = some x ∧ x.acks = as ∧ x.fwd = fwd ∧ x.since = s.mono
    -- requests of caching agents at the home
    (s.homeUp L = true → A < 29 →
      (∀ rc x, arrives A h (.getS rc) → s.txnOf k = some x → s.Does (.gets a l .clean) (fun y => y.mem.net = [] ∧ y.dirEnt k = s.dirEnt k ∧
        mapGet [] y.mem.queue k = mapGet [] s.mem.queue k ++ [⟨.getS, A, L, rc⟩])) ∧
      (∀ rc, arrives A h (.getS rc) → fresh →
        (∀ w, s.dirEnt k = none → s.dirRoom k = .free w → s.Does (.gets a l .clean) (fun y => y.dirEnt k = some ⟨.s, 0, [A], false, w⟩ ∧
          y.mem.net = [⟨h, A, L, .data d 0 p⟩, ⟨h, A, L, .cmp false false⟩] ∧ opened y [] none)) ∧
        (∀ x, s.dirEnt k = some x →
          (x.st = .s → s.Does (.gets a l .clean) (fun y => y.dirEnt k = some (addSharer x A) ∧
            y.mem.net = [⟨h, A, L, .data d 0 p⟩, ⟨h, A, L, .cmp false false⟩] ∧ opened y [] none)) ∧
          (x.st ≠ .s → s.Does (.gets a l .clean) (fun y => y.dirEnt k = some (addSharer { x with st := .o } A) ∧
            y.mem.net = [⟨h, x.owner, L, .fwdS A⟩] ∧ opened y [] (some x.owner))))) ∧
      (∀ rc, arrives A h (.getM rc) → fresh →
        (∀ w, s.dirEnt k = none → s.dirRoom k = .free w → s.Does (.getm a l .clean) (fun y => y.dirEnt k = some ⟨.m, A, [], false, w⟩ ∧
          y.mem.net = [⟨h, A, L, .data d 0 p⟩, ⟨h, A, L, .cmp true false⟩] ∧ opened y [] none)) ∧
        (∀ x, s.dirEnt k = some x → x.ovf = false →
          let as := x.sharers.filter (fun q => q != A && !((x.st == .o || x.st == .m) && q == x.owner))
          let inv := as.map (fun q => (⟨h, q, L, .inv⟩ : Pkt))
          (x.st = .s → s.Does (.getm a l .clean) (fun y => y.dirEnt k = some { x with st := .m, owner := A, sharers := [], ovf := false } ∧
            y.mem.net = inv ++ [⟨h, A, L, .data d 0 p⟩] ++ (if as = [] then [⟨h, A, L, .cmp true false⟩] else []) ∧ opened y as none)) ∧
          (x.st ≠ .s → s.Does (.getm a l .clean) (fun y => y.dirEnt k = some { x with st := .m, owner := A, sharers := [], ovf := false } ∧
            y.mem.net = inv ++ [⟨h, x.owner, L, .fwdM A⟩] ∧ opened y as (some x.owner))))) ∧
      (∀ rc x cond, arrives A h (.upg cond rc) → fresh → s.dirEnt k = some x → x.ovf = false →
        let as := x.sharers.filter (fun q => q != A && !((x.st == .o || x.st == .m) && q == x.owner))
        let inv := as.map (fun q => (⟨h, q, L, .inv⟩ : Pkt))
        let kill : Bool := decide (x.st ≠ .s ∧ x.owner ≠ A)
        (A ∈ x.sharers ∨ (x.st ≠ .s ∧ x.owner = A) → s.Does (.upg a l .clean) (fun y =>
          y.dirEnt k = some { x with st := .m, owner := A, sharers := [], ovf := false } ∧
          y.mem.net = inv ++ (if kill then [⟨h, x.owner, L, .fwdKill⟩] else []) ++
            (if as = [] ∧ kill = false then [⟨h, A, L, .cmp true false⟩] else []) ∧ opened y as (if kill then some x.owner else none))) ∧
        (cond = true → A ∉ x.sharers → (x.st = .s ∨ x.owner ≠ A) → s.Does (.upg a l .clean) (fun y => y.dirEnt k = some x ∧
          y.mem.net = [⟨h, A, L, .cmp false true⟩]))) ∧
      -- puts
      (∀ (o : Bool) (v : Evb), arrives A h (.put v) → v.line = L → v.putO = o →
        let cmd : Instr := if o then .puto a l else .putm a l
        ((∀ x, s.dirEnt k = some x → x.st = .s ∨ x.owner ≠ A) → s.Does cmd (fun y => y.mem.net = [⟨h, A, L, .stale⟩] ∧
          y.dirEnt k = s.dirEnt k ∧ ∀ z, y.byte z = s.byte z)) ∧
        (∀ x, s.dirEnt k = some x → x.st ≠ .s → x.owner = A → s.txnOf k = none → s.regAttr (64 * L) F.REG_ATTR_SW_ONLY = 0 → v.keep = false →
          v.data.length = 64 → s.Does cmd (fun y => y.mem.net = [⟨h, A, L, .putAck⟩] ∧
            y.dirEnt k = (if x.sharers = [] ∧ x.ovf = false then none else some { x with st := .s, owner := 0 }) ∧
            y.bytes key 64 = (if v.cmph then v.data else dirtyMerge d v.data v.dirty) ∧ ∀ z, z < key ∨ key + 64 ≤ z → y.byte z = s.byte z))) ∧
      -- acknowledgements
      (∀ x, s.txnOf k = some x → x.acks.contains A = true → (1 < x.acks.length ∨ x.fwd ≠ none) → arrives A h .invAck →
        s.Does (.invack a l) (fun y => y.mem.net = [] ∧ y.txnOf k = some { x with acks := x.acks.erase A })) ∧
      (∀ x, s.txnOf k = some x → x.acks = [A] → x.fwd = none → x.cmpSent = false → x.expired = false → x.evict = false → x.rq.req = .getM →
        arrives A h .invAck → s.Does (.invack a l) (fun y => y.mem.net = [⟨h, x.rq.who, x.rq.line, .cmp true false⟩] ∧
          y.txnOf k = some { x with acks := [], cmpSent := true })) ∧
      (∀ x dirty po, s.txnOf k = some x → x.fwd = some A → x.acks ≠ [] → arrives A h (.fwdAck [] dirty po) → s.Does (.fwdack a l) (fun y =>
        y.mem.net = [] ∧ y.txnOf k = some { x with fwd := none })) ∧
      (∀ x data dirty po, s.txnOf k = some x → x.fwd = some A → x.acks ≠ [] → x.expired = false → data.length = 64 →
        arrives A h (.fwdAck data dirty po) → s.Does (.fwdack a l) (fun y =>
          y.txnOf k = some { x with fwd := none } ∧ y.bytes key 64 = dirtyMerge d data dirty)) ∧
      (∀ x, s.txnOf k = some x → x.needDone = true → x.rq.who = A → quiet → arrives A h .done → s.Does (.done a l) (fun y =>
        y.mem.net = [] ∧ y.txnOf k = none ∧ y.dirEnt k = s.dirEnt k)) ∧
      (∀ x, s.txnOf k = some x → x.stash = some A → quiet →
        (arrives A h .stashAck → s.Does (.stashack a l) (fun y => y.txnOf k = none ∧ (∃ w, y.dirEnt k = some ⟨.m, A, [], false, w⟩) ∧
          y.out = .coh x.rq.who L [] false :: s.out ∧ ∀ z, y.byte z = s.byte z)) ∧
        (∀ data po, x.rq.req = .wrFull data po → x.rq.line = L → data.length = 64 → arrives A h .stashNack → s.Does (.stashnack a l) (fun y =>
          y.txnOf k = none ∧ y.dirEnt k = none ∧ y.bytes key 64 = data ∧ y.out = .coh x.rq.who L [] false :: s.out)))) ∧
    -- an agent that does not exist: a protocol error, and device-fatal
    (s.homeUp L = true → 29 ≤ A → s.Mute → s.eth.egress = [] → s.rb (.slice (lkChan k)) R.DIR_ERR F.DIR_ERR_VALID = false → s.Does (.gets a l .clean) (fun y =>
      y.mode.safe = true ∧ y.rf (.slice (lkChan k)) R.DIR_ERR F.DIR_ERR_CODE = 4 ∧ y.rf (.slice (lkChan k)) R.DIR_ERR F.DIR_ERR_AGENT = A)) ∧
    -- cacheless agents
    (s.homeUp L = true → s.txnOf k = none →
      (∀ x, s.dirEnt k = some x → x.st ≠ .s → s.Does (.rdonce m l .clean) (fun y => y.mem.net = s.mem.net ++ [⟨h, x.owner, L, .fwdRd cl⟩] ∧
        opened y [] (some x.owner) ∧ y.dirEnt k = some x)) ∧
      (s.dirEnt k = none →
        s.Does (.rdonce m l .clean) (fun y => y.out = .coh cl L d p :: s.out ∧ y.mem.mem = s.mem.mem ∧ y.dirEnt k = none) ∧
        (∀ (v : Vector Byte 64) (po : Bool), s.stashHint L m.toNat = none → s.Does (.wrfull m l v po) (fun y => y.bytes key 64 = v.toList ∧
          y.poisoned key = po ∧ y.out = .coh cl L [] false :: s.out ∧ ∀ z, z < key ∨ key + 64 ≤ z → y.byte z = s.byte z)) ∧
        (∀ (v : Vector Byte 64) (po : Bool) (g : Nat), s.stashHint L m.toNat = some g → s.stashable g = true → s.Does (.wrfull m l v po) (fun y =>
          y.mem.net = s.mem.net ++ [⟨h, g, L, .stash v.toList po⟩] ∧ (∃ x, y.txnOf k = some x ∧ x.stash = some g) ∧ y.mem.mem = s.mem.mem)) ∧
        (∀ (off : Fin 64) (v : List Byte), off.val + v.length ≤ 64 → s.Does (.wrpart m l off v .clean) (fun y =>
          y.bytes (key + off.val) v.length = v ∧ (∀ z, z < key + off.val ∨ key + off.val + v.length ≤ z → y.byte z = s.byte z) ∧
          y.out = .coh cl L [] false :: s.out)) ∧
        (∀ (off : Fin 16) (op : Fin 3) (x z : Word),
          let old : Word := BitVec.ofNat 32 (s.leAt (key + 4 * off.val) 4)
          s.Does (.atom m l off op x z .clean) (fun y => y.out = .coh cl L (leBytes 4 old.toNat) p :: s.out ∧
            y.leAt (key + 4 * off.val) 4 = (if op.val = 0 then old + x else if op.val = 1 then x else if old = z then x else old).toNat ∧
            ∀ w, w < key + 4 * off.val ∨ key + 4 * off.val + 4 ≤ w → y.byte w = s.byte w)))) ∧
    -- forwards at an agent that owns the line
    (∀ src q, (sub.st = .m ∨ sub.st = .o) →
      let held (x : CohMsg) (cmd : Instr) : Prop := arrives src T x → s.inHold t L = true → s.Does cmd (fun y =>
        y.mem.net = [] ∧ y.mem.held = s.mem.held ++ [⟨src, T, L, x⟩] ∧ y.sub t L = sub)
      let acts (x : CohMsg) (cmd : Instr) (P : State → Prop) : Prop := arrives src T x → s.inHold t L = false → s.Does cmd P
      let ack : Pkt := ⟨T, hm, L, .fwdAck [] 0 false⟩
      held (.fwdS q) (.fwds t l) ∧ held (.fwdM q) (.fwdm t l) ∧ held (.fwdRd q) (.fwdrd t l) ∧ held .fwdFlush (.fwdflush t l) ∧
      held .fwdKill (.fwdkill t l) ∧
      (q < 32 →
        acts (.fwdS q) (.fwds t l) (fun y => y.mem.net = [⟨T, q, L, .data sub.data 0 sub.poison⟩, ack] ∧ y.sub t L = { sub with st := .o }) ∧
        acts (.fwdM q) (.fwdm t l) (fun y => y.mem.net = [⟨T, q, L, .data sub.data sub.dirty sub.poison⟩, ack] ∧ y.sub t L = {}) ∧
        acts (.fwdRd q) (.fwdrd t l) (fun y => y.mem.net = [⟨T, q, L, .data sub.data 0 sub.poison⟩, ack] ∧ y.sub t L = sub)) ∧
      acts .fwdFlush (.fwdflush t l) (fun y => y.mem.net = [⟨T, hm, L, .fwdAck sub.data sub.dirty sub.poison⟩] ∧ y.sub t L = {}) ∧
      acts .fwdKill (.fwdkill t l) (fun y => y.mem.net = [ack] ∧ y.sub t L = {})) ∧
    (∀ src, arrives src T .inv → s.Does (.inv t l) (fun y => y.mem.net = [⟨T, hm, L, .invAck⟩] ∧
      (sub.st = .s → y.sub t L = {}) ∧ (sub.st = .um → y.sub t L = { sub with data := [], dirty := 0, own := false }) ∧
      (sub.st ≠ .s → sub.st ≠ .um → y.sub t L = sub))) ∧
    (∀ src data po, arrives src T (.stash data po) →
      ((∀ e ∈ s.evbOf t, e.line ≠ L) → s.sector t L ≠ none → sub.st = .m ∨ sub.st = .o → s.Does (.stash t l) (fun y =>
        y.sub t L = { st := .m, data := data, dirty := 15, poison := po } ∧ y.mem.net = [⟨T, hm, L, .stashAck⟩])) ∧
      ((∃ e ∈ s.evbOf t, e.line = L) → s.Does (.stash t l) (fun y => y.mem.net = [⟨T, hm, L, .stashNack⟩] ∧ (sub.st = .s → y.sub t L = {})))) ∧
    (∀ src data dirty po, arrives src T (.data data dirty po) → transient sub = true →
      (sub.gotCmp = false → s.Does (.data t l) (fun y => y.mem.net = [] ∧
        y.sub t L = { sub with data := data, dirty := dirty, poison := po, gotData := true })) ∧
      (sub.gotCmp = true → s.stq t = [] → s.Does (.data t l) (fun y => y.mem.net = [⟨T, hm, L, .done⟩] ∧ (y.sub t L).data = data ∧
        (y.sub t L).poison = po ∧ (y.sub t L).st = (if sub.st = .is then .s else .m)))) ∧
    (∀ src g, arrives src T (.cmp g false) → transient sub = true → s.stq t = [] →
      (sub.data = [] → s.Does (.cmp t l) (fun y => y.mem.net = [] ∧ y.sub t L = { sub with gotCmp := true })) ∧
      (sub.data ≠ [] → s.Does (.cmp t l) (fun y => y.mem.net = [⟨T, hm, L, .done⟩] ∧ (y.sub t L).st = (if g then .m else .s) ∧
        (y.sub t L).data = sub.data ∧ (g = true → (y.sub t L).hold = some (s.mono + s.holdNs t))))) ∧
    (∀ src rc, arrives src T (.retry rc) → s.Does (.retry t l) (fun y => y.mem.net = [] ∧
      y.sub t L = { sub with rcount := rc, retryAt := some (s.mono + (s.backoff (lkChan k) * rc + 1) / 2) })) ∧
    (∀ at_, sub.retryAt = some at_ → at_ ≤ s.mono → transient sub = true → s.Does (.retryReissue t l) (fun y =>
      y.sub t L = { sub with retryAt := none } ∧ y.mem.net = s.mem.net ++ [⟨T, hm, L, if sub.st = .is then .getS sub.rcount else
        if sub.st = .im then .getM sub.rcount else .upg sub.cond sub.rcount⟩])) ∧
    (∀ at_, mapGet none s.mem.heldWay (Machine.setKey k) = some at_ → at_ ≤ s.mono → s.Does (.retryHoldExpire l) (fun y =>
      mapGet none y.mem.heldWay (Machine.setKey k) = none ∧ y.mem.net = s.mem.net)) ∧
    (∀ src, s.stq t = [] →
      (arrives src T .putAck → (∀ e ∈ s.evbOf t, e.superseded = false) → s.Does (.putack t l) (fun y => y.mem.net = [] ∧
        y.evbOf t = (s.evbOf t).filter (fun e => e.line != L))) ∧
      (arrives src T .stale → s.Does (.stale t l) (fun y => y.mem.net = [] ∧ y.evbOf t = (s.evbOf t).filter (fun e => e.line != L)))) ∧
    (s.inHold t L = false → (∀ x ∈ s.mem.held, x.dst ≠ T ∨ x.line ≠ L) → s.Does (.minHoldEnd t l) (fun y =>
      y.mem.net = s.mem.net ∧ y.mem.held = s.mem.held ∧ y.sub t L = { sub with hold := none })) ∧
    (s.inHold t L = false → ∀ src, s.mem.held = [⟨src, T, L, .fwdKill⟩] → (sub.st = .m ∨ sub.st = .o) → s.Does (.minHoldEnd t l) (fun y =>
      y.mem.held = [] ∧ y.mem.net = s.mem.net ++ [⟨T, hm, L, .fwdAck [] 0 false⟩] ∧ y.sub t L = {})) ∧
    -- a transaction that has been open too long
    (∀ x, s.homeUp L = true → s.txnOf k = some x → x.expired = false → x.rq.line = L → x.since + s.txnNs (lkChan k / 8) ≤ s.mono →
      x.rq.who < 29 → x.evict = false → x.cmpSent = false → s.dirEnt k = none → s.Does (.homeTxnExpire l) (fun y => y.poisoned key = true ∧ y.bytes key 64 = d ∧
        y.mem.net = s.mem.net ++ (List.range 29).map (fun q => (⟨h, q, L, .inv⟩ : Pkt)) ++
          [⟨h, x.rq.who, L, .data d 0 true⟩, ⟨h, x.rq.who, L, .cmp (x.rq.req != .getS) false⟩] ∧
        ∃ z, y.txnOf k = some z ∧ z.expired = true ∧ z.acks = List.range 29))

/-! ### Banks, event routers, faults and spares (R267 to R269, R338, R346, R347, R351, R352, R354, R355) -/

/-- R267 to R269, R338, R346, R347, R351, R352, R354, R355: EN of a bank starts and stops it; a route is stored or refused, a raise
delivers to the bank of its route or to a broadcast set, and a claim takes the lowest pending source; a spare issues once its epoch is
broadcast; re-admission moves a core between its states and is refused out of order; a bank sparing, a watchdog and the
machine-check log do what their rules say. -/
def Obligations.EventRoutersAndFaults : Prop :=
  ∀ (s : State) (r : Req) (p : Fin 252) (k : Fin 4) (q : Fin 4) (src : BitVec 10) (v : Word) (t : Fin 28), s.Calm →
    let n := src.toNat
    let route := s.rd (.er q) R.ER_ROUTE n
    let started (y : State) (p b : Nat) : Prop :=
      ∃ st, (st = .ready ∨ st = .running) ∧ y.bank p b =
        { st := st, pc := s.rd (.core p) R.BANK_START b &&& 0xFFFFFFFC, npc := (s.rd (.core p) R.BANK_START b &&& 0xFFFFFFFC) + 4,
          epri := y.rf (.core p) R.BANK_CFG F.BANK_CFG_BPRI b }
    let gets (y : State) (c b prio : Nat) : Prop :=
      ((s.bank c b).st = .off → y.bank c b = s.bank c b) ∧
      ((s.bank c b).st ≠ .off → (y.bank c b).flag = true ∧ (y.bank c b).epri = max (s.bank c b).epri prio ∧
        ((s.bank c b).st = .waiting → (s.bank c b).wait = .wfe → (y.bank c b).st = .ready ∨ (y.bank c b).st = .running))
    let record (y : State) (cause sev : Nat) : Prop :=
      ∃ w, y.fault.mclog = s.fault.mclog ++ [w] ∧ w.getD 1 0 = BitVec.ofNat 32 (sev * 2 ^ 30 + cause * 2 ^ 16 + s.fault.mcSeq)
    let refused (c : Instr) : Prop := s.Granted r .write (.quad (p.val / 63)) R.READMIT 0 0 → s.Does c (fun y => y = { s with resp := .err 4 })
    let expires (u : UnitId) (cause : Nat) (c : Instr) : Prop :=
      (s.wdDue u = false → s.Does c (fun y => y = s)) ∧
      (s.wdDue u = true → s.answers u = true → (s.wdCfg u).1.toNat / 2 ^ 28 % 4 = 0 → s.fault.mclog.length < 32 → s.Mute → s.Does c (fun y =>
        record y cause 0 ∧ (y.unit u).fsum = (s.unit u).fsum ||| 0x40 ∧ (y.unit u).dead = (s.unit u).dead ∧
        (s.wdPaused u = false → y.wd u = { due := some (s.mono + max 1 (natBits (s.wdCfg u).1.toNat 23 0) * 1000), left := 0 })))
    let kicks (u : UnitId) (g : Reg) (ns : Nat) (c : Instr) : Prop := s.Sets r u g 0 c (fun y =>
        y.wd u = (if natBits v.toNat 7 0 = 0xA5 ∧ (s.wdCfg u).1.bit 31 = true then
          (if s.wdPaused u then { due := none, left := max 1 (natBits (s.wdCfg u).1.toNat 23 0) * ns }
            else { due := some (s.mono + max 1 (natBits (s.wdCfg u).1.toNat 23 0) * ns), left := 0 })
          else s.wd u))
    -- banks
    (∀ bpri : BitVec 2,
      s.Sets r (.core p) R.BANK_CFG k (.bankEnable r p k bpri) (fun y =>
        y.rf (.core p) R.BANK_CFG F.BANK_CFG_BPRI k = bpri.toNat ∧ (y.rd (.core p) R.BANK_CFG k).bit 31 = true ∧
        ((s.rd (.core p) R.BANK_CFG k).bit 31 = false → started y p k) ∧
        ((s.rd (.core p) R.BANK_CFG k).bit 31 = true → y.ling = s.ling)) ∧
      s.Sets r (.core p) R.BANK_CFG k (.bankDisable r p k bpri) (fun y =>
        y.rf (.core p) R.BANK_CFG F.BANK_CFG_BPRI k = bpri.toNat ∧ (y.rd (.core p) R.BANK_CFG k).bit 31 = false ∧
        ((s.rd (.core p) R.BANK_CFG k).bit 31 = true → y.bank p k = { s.bank p k with st := .off, wait := .none }) ∧
        ((s.rd (.core p) R.BANK_CFG k).bit 31 = false → y.ling = s.ling))) ∧
    -- event routers
    s.Sets r (.er q) R.ER_RAISE 0 (.erRaise r q src) (fun y =>
      (s.answers (.er q) = true →
        (route.bit 31 = false → y.ling = s.ling ∧ y.regs = s.regs) ∧
        (route.bit 31 = true → route.bit 30 = false →
          (s.erPend q n = true → y.ling = s.ling ∧ (y.rd (.er q) R.ER_MERGED).toNat = min (2 ^ 32 - 1) ((s.rd (.er q) R.ER_MERGED).toNat + 1)) ∧
          (s.erPend q n = false → y.erPend q n = true ∧ (∀ m, m < 1024 → m ≠ n → y.erPend q m = s.erPend q m) ∧
            (s.coreOf (route.fld F.ER_ROUTE_TARGET) = none → y.ling = s.ling) ∧
            ∀ c, s.coreOf (route.fld F.ER_ROUTE_TARGET) = some c →
              gets y c (route.fld F.ER_ROUTE_BANK) (route.fld F.ER_ROUTE_PRIO))) ∧
        (route.bit 31 = true → route.bit 30 = true → (∀ m, m < 1024 → y.erPend q m = s.erPend q m) ∧
          ∀ i c, i < 63 → s.inBset q (route.fld F.ER_ROUTE_TARGET % 16) i = true → s.coreOf (63 * q.val + i) = some c →
            (s.bank c (route.fld F.ER_ROUTE_BANK)).st ≠ .off → (y.bank c (route.fld F.ER_ROUTE_BANK)).flag = true))) ∧
    (v.bit 30 = true ∨ 63 * q.val ≤ v.fld F.ER_ROUTE_TARGET ∧ v.fld F.ER_ROUTE_TARGET ≤ 63 * q.val + 62 →
      s.Sets r (.er q) R.ER_ROUTE n (.erRouteWrite r q src v) (fun y =>
        y.rd (.er q) R.ER_ROUTE n &&& 0xFC000FFF = v &&& 0xFC000FFF ∧ s.OnlyReg y (.er q) R.ER_ROUTE n 0 ∧ y.ling = s.ling)) ∧
    (v.bit 30 = false → v.fld F.ER_ROUTE_TARGET < 63 * q.val ∨ 63 * q.val + 62 < v.fld F.ER_ROUTE_TARGET →
      s.Granted r .write (.er q) R.ER_ROUTE n 0 → s.Does (.erRouteWrite r q src v) (fun y => y = { s with resp := .err 4 })) ∧
    (s.quiet r = false → s.Granted r .read (.er q) R.ER_CLAIM k 0 →
      let mine (m : Nat) : Prop := s.erPend q m = true ∧ (s.rd (.er q) R.ER_ROUTE m).bit 30 = false ∧
        s.rf (.er q) R.ER_ROUTE F.ER_ROUTE_TARGET m = r.master.toNat ∧ s.rf (.er q) R.ER_ROUTE F.ER_ROUTE_BANK m = k.val
      ((∀ m, m < 1024 → ¬ mine m) → s.Does (.erClaim r q k) (fun y => y = { s with resp := .ok 0 })) ∧
      (∀ m, m < 1024 → mine m → (∀ j, j < m → ¬ mine j) → s.Does (.erClaim r q k) (fun y =>
        y.resp = .ok (BitVec.ofNat 32 (2 ^ 31 + m)) ∧ y.erPend q m = false ∧ (∀ j, j < 1024 → j ≠ m → y.erPend q j = s.erPend q j) ∧
        y = { s with regs := y.regs, resp := y.resp }))) ∧
    -- substitution and re-admission
    (∀ x, mapGet none s.fault.subst t = some x → (∀ b ∈ s.sward.bcasts, b.master ≠ x.ident) → x.spare < 252 → s.Does (.spareResume t) (fun y =>
      y.health x.spare = .active ∧ (y.core x.spare).switching = false ∧ mapGet none y.fault.subst t = none ∧
      y.rd (.quad (t.val / 7)) R.SUB_LOG = BitVec.ofNat 32 (2 ^ 31 + t.val % 7 * 2 ^ 28 + x.dead % 9 * 2 ^ 24 + x.spare % 9 * 2 ^ 20 +
        s.idEpoch x.ident * 2 ^ 16 + x.ident))) ∧
    ((s.health p = .dead ∨ s.health p = .quarantine → s.Sets r (.quad (p.val / 63)) R.READMIT 0 (.readmitTest r p) (fun y =>
        y.health p = .testing ∧ y.ident p = 0xFFF ∧ (y.unit (.core p)).dead = false ∧ started y p 0)) ∧
      (s.health p ≠ .dead → s.health p ≠ .quarantine → refused (.readmitTest r p)) ∧
      (∀ i, s.health p = .testing → (∀ c, c < 9 → s.health (9 * (p.val / 9) + c) ≠ .spare) → s.freeIdent p = some i →
        mapGet 0 s.fault.renewals i < 15 → s.Sets r (.quad (p.val / 63)) R.READMIT 0 (.readmitAdmit r p) (fun y =>
          y.health p = .spare ∧ y.ident p = i ∧ y.idEpoch i = (s.idEpoch i + 1) % 16 ∧
          ∃ b, y.sward.bcasts = s.sward.bcasts ++ [b] ∧ b.master = i)) ∧
      (s.health p ≠ .testing ∨ (∃ c, c < 9 ∧ s.health (9 * (p.val / 9) + c) = .spare) ∨ s.freeIdent p = none → refused (.readmitAdmit r p)) ∧
      (s.health p = .testing → s.Sets r (.quad (p.val / 63)) R.READMIT 0 (.readmitReject r p) (fun y =>
        y.health p = .quarantine ∧ (y.unit (.core p)).dead = true ∧ ∀ b, b < 4 → (y.bank p b).st = .off)) ∧
      (s.health p ≠ .testing → refused (.readmitReject r p))) ∧
    (∀ banks, s.Sets r (.core p) R.CKPT_CTL 0 (.ckptNow r p banks) (fun y =>
      mapGet 0 y.fault.ckptReq p = mapGet 0 s.fault.ckptReq p ||| banks.toNat ∧ y.rd (.core p) R.CKPT_CTL &&& 0xF = s.rd (.core p) R.CKPT_CTL &&& 0xF)) ∧
    -- SRAM banks
    (∀ (a : SramArr) (b : Nat),
      (s.answers a.owner = true → a ∉ s.fault.sramUsed → (∀ e ∈ s.fault.sramStall, e.1 ≠ a) → s.Does (.sramBankFail a b) (fun y =>
        y = { s with fault := y.fault } ∧ y.fault = { s.fault with sramStall := s.fault.sramStall ++ [(a, b)] })) ∧
      (s.answers a.owner = true → a ∈ s.fault.sramUsed → s.Mute → s.eth.egress = [] → a = .gorse ∨ (∃ c, a = .dir c) →
        s.Does (.sramBankFail a b) (fun y => y.mode.safe = true)) ∧
      ((a, b) ∈ s.fault.sramStall → s.sward.txns = [] → s.fault.mclog.length < 32 → s.Does (.sramRepairDone a b []) (fun y =>
        y.fault.sramStall = s.fault.sramStall.erase (a, b) ∧ y.fault.sramUsed = s.fault.sramUsed ++ [a] ∧ record y 9 0 ∧ y.mem = s.mem)) ∧
      (∀ c x, a = .l2 c → 0xC00000000 ≤ x → (a, b) ∈ s.fault.sramStall → s.sward.txns = [] →
        s.Does (.sramRepairDone a b [x]) (fun y => y.poisoned x = true))) ∧
    -- watchdogs
    (expires (.core p) 4 (.wdExpire p) ∧ expires (.tussock t) 5 (.twdExpire t) ∧
      (s.wdDue .peat = false → s.Does .dwdExpire (fun y => y = s)) ∧
      (s.wdDue .peat = true → (s.wdCfg .peat).1.toNat / 2 ^ 28 % 4 = 0 → s.Does .dwdExpire (fun y =>
        y.rf .peat R.DWD_STATUS F.DWD_STATUS_ALARM = 1 ∧ y.mode = s.mode ∧
        (s.wdPaused .peat = false → y.wd .peat = { due := some (s.mono + max 1 (natBits (s.wdCfg .peat).1.toNat 23 0) * 1000000), left := 0 }))) ∧
      (s.wdDue .peat = true → (s.wdCfg .peat).1.toNat / 2 ^ 28 % 4 ≠ 0 → s.Does .dwdExpire (fun y =>
        y.rf .peat R.DWD_STATUS F.DWD_STATUS_RESET_SEEN = 1 ∧ y.mode.mode = .boot ∧ y.mode.safe = false)) ∧
      kicks (.core p) R.WD_KICK 1000 (.wdKick r p v) ∧ kicks (.tussock t) R.TWD_KICK 1000 (.twdKick r t v) ∧
      kicks .peat R.DWD_KICK 1000000 (.dwdKick r v)) ∧
    -- the machine-check log
    (s.quiet r = false →
      (s.fault.mclog = [] → s.Gets r .device R.MCLOG_POP 0 (.mclogPop r) 0 (fun y => y.fault = s.fault)) ∧
      (∀ w rest, s.fault.mclog = w :: rest → w ≠ [] → s.Gets r .device R.MCLOG_POP 0 (.mclogPop r) (BitVec.ofNat 32 (2 ^ 31 + rest.length)) (fun y =>
        y.fault = { s.fault with mclog := rest } ∧ y.latchWord false (regAddr .device R.MCLOG_POP 0 0) r.master.toNat 0 = w[0]?)))

/-! ### Gorse, debug and trace (R364 to R384, R385 to R391, R394, R396, R400, R401, R404, R409, R414, R415) -/

/-- R370 to R375, R378, R379, R381: a boot starts in BOOT, takes its candidates in descending SEQ and ends with a set, a wait for a push or
neither; the handover loads what a set names and starts BOOTFW; a push is one more candidate. Keys go to identity 0x000 at M while
they are not locked, and each word of KEY_OUT is read once, by its requester. Attestation reads its nonce and writes its report.
A control-store reload ends with the image of its engine. -/
def Obligations.GorseServices : Prop :=
  ∀ (s : State) (r : Req) (v : Word) (w : Fin 12) (e : Fin 64) (l : Fin 2) (flash copy : List (Nat × List Byte)), s.Calm →
    let g := s.gorse
    let status (y : State) (f : Fld) : Nat := y.rf .gorse R.BOOT_STATUS f
    let boots (y : State) (d : Cand) : Prop := y.gorse.ready = true ∧ status y F.BOOT_STATUS_PHASE = 5 ∧
      y.rd .gorse R.BOOT_SEQ = BitVec.ofNat 32 d.seq ∧ status y F.BOOT_STATUS_SLOT = d.slot % 4 ∧
      (status y F.BOOT_STATUS_VERIFY_FAIL = 0 → (∀ i ∈ y.gorse.imgs, i.result = 0) ∧ setOk y.gorse.imgs = true)
    let idle (y : State) (phase : Nat) (t : Option Nat) : Prop := y.gorse.ready = false ∧ y.gorse.waitPush = t ∧ status y F.BOOT_STATUS_PHASE = phase
    let same (c : Instr) : Prop := s.Does c (fun y => y = s)
    -- boot (R370, R371)
    (s.mode.mode ≠ .boot ∨ g.started = true → same (.gorseBoot flash)) ∧
    (s.mode.mode = .boot → g.started = false → s.answers .gorse = true →
      (s.strapBoot = 1 ∨ (s.strapBoot = 2 ∧ flashCands flash = []) → s.Does (.gorseBoot flash) (fun y => y.gorse.started = true ∧ idle y 7 (some s.mono) ∧
        y.rd (.tussock 0) R.L2_WAYS = 8 ∧ status y F.BOOT_STATUS_NO_SECRET = b2n (g.secret.all (· == 0)))) ∧
      (s.strapBoot = 0 → flashCands flash = [] → s.Does (.gorseBoot flash) (fun y => y.gorse.started = true ∧ idle y 8 none)) ∧
      (∀ c cs, s.strapBoot ≠ 1 → flashCands flash = c :: cs → s.dramReady = true →
        (s.strapBoot = 0 → s.Does (.gorseBoot flash) (fun y => y.gorse.started = true ∧ (∃ d ∈ c :: cs, boots y d) ∧
          (status y F.BOOT_STATUS_VERIFY_FAIL = 1 → boots y c))) ∧
        (s.strapBoot = 2 → s.Does (.gorseBoot flash) (fun y => y.gorse.started = true ∧
          ((∃ d ∈ c :: cs, boots y d ∧ status y F.BOOT_STATUS_VERIFY_FAIL = 0) ∨ idle y 7 (some s.mono)))))) ∧
    -- handover (R372)
    (g.ready = false ∨ s.mode.mode ≠ .boot → same .bootHandover) ∧
    (∀ p b, g.ready = true → s.mode.mode = .boot → s.coreOf 0 = some p → g.imgs.find? (fun i => i.role == 1) = some b →
      s.Does .bootHandover (fun y => y.gorse.ready = false ∧ status y F.BOOT_STATUS_DONE = 1 ∧ status y F.BOOT_STATUS_PHASE = 6 ∧
        y.rd .device R.PLAN_DIR_LO = 0xFBFFF000 ∧ y.rd .device R.PLAN_DIR_HI = 0xB ∧
        let at_ : Word := BitVec.ofNat 32 b.entry &&& 0xFFFFFFFC
        ∃ st, (st = .ready ∨ st = .running) ∧ y.bank p 0 = { st := st, pc := at_, npc := at_ + 4 })) ∧
    -- a push (R371, R375)
    (s.waitsPush = false ∨ s.linkUsed l = false → same (.pushGo l copy flash)) ∧
    (s.waitsPush = true → s.linkUsed l = true →
      (s.linkReady l = false → s.Does (.pushGo l copy flash) (fun y => status y F.BOOT_STATUS_FAIL_CODE = 7 ∧ y.gorse.waitPush.isSome = true ∧ y.mem = s.mem)) ∧
      (s.linkReady l = true → slotCand copy 0 2 = none → same (.pushGo l copy flash)) ∧
      (∀ c, s.linkReady l = true → slotCand copy 0 2 = some c → s.dramReady = true → s.Does (.pushGo l copy flash) (fun y =>
        ∃ d ∈ candInsert c (if s.strapBoot = 2 then flashCands flash else []), boots y d))) ∧
    (∀ t, g.waitPush = some t → s.strapBoot = 2 → s.mode.mode = .boot → g.ready = false → s.dramReady = true →
      (s.mono < t + 10000000000 → same (.pushWaitTimeout flash)) ∧
      (t + 10000000000 ≤ s.mono →
        (flashCands flash = [] → s.Does (.pushWaitTimeout flash) (fun y => idle y 8 none)) ∧
        (∀ c cs, flashCands flash = c :: cs → s.Does (.pushWaitTimeout flash) (fun y => boots y c)))) ∧
    -- keys (R378, R379)
    (let idx := v.fld F.KEY_REQ_INDEX
     let code := if s.keyLocked then 1 else if g.imgs.length ≤ idx then 2 else if r.master ≠ 0 ∨ r.priv ≠ 3 then 3 else if g.keyReq.isSome then 4 else 0
     (code = 0 → s.Sets r .gorse R.KEY_REQ 0 (.keyReq r v) (fun y => y.gorse = { g with keyReq := some (0, idx) } ∧
        y.rd .gorse R.KEY_STATUS = BitVec.ofNat 32 (2 ^ 31 + idx))) ∧
     (code ≠ 0 → s.Sets r .gorse R.KEY_REQ 0 (.keyReq r v) (fun y => y.gorse = g ∧ y.rf .gorse R.KEY_STATUS F.KEY_STATUS_CODE = code ∧
        (g.keyReq = none → y.rd .gorse R.KEY_STATUS = BitVec.ofNat 32 (code * 256 + idx))))) ∧
    (g.keyReq = none → same .keyDerivationDone) ∧
    (∀ m idx, g.keyReq = some (m, idx) →
      (s.keyLocked = true → s.Does .keyDerivationDone (fun y => y.gorse = { g with keyReq := none } ∧ (∀ k, k < 12 → y.rd .gorse R.KEY_OUT k = 0) ∧
        y.rd .gorse R.KEY_STATUS = BitVec.ofNat 32 (256 + idx))) ∧
      (∀ i, s.keyLocked = false → g.imgs[idx]? = some i → s.Does .keyDerivationDone (fun y =>
        y.gorse = { g with keyReq := none, keyOwner := m } ∧ y.rd .gorse R.KEY_STATUS = BitVec.ofNat 32 (2 ^ 30 + idx) ∧
        ∀ k, k < 12 → y.rd .gorse R.KEY_OUT k = BitVec.ofNat 32 (ofLe (((hkdf384 g.secret (keyInfo i)).drop (4 * k)).take 4))))) ∧
    (s.Granted r .read .gorse R.KEY_OUT w 0 →
      (r.master.toNat ≠ g.keyOwner ∨ r.debug = true → s.Does (.keyOutRead r w) (fun y => y = { s with resp := .err 4 })) ∧
      (r.master.toNat = g.keyOwner → r.debug = false → r.master ≠ 0x1C1 → s.Does (.keyOutRead r w) (fun y =>
        y.resp = .ok (s.rd .gorse R.KEY_OUT w) ∧ y.rd .gorse R.KEY_OUT w = 0 ∧ s.OnlyReg y .gorse R.KEY_OUT w 0))) ∧
    s.Sets r .gorse R.KEY_CTL 0 (.keyLock r) (fun y => y.keyLocked = true ∧ y.gorse = g) ∧
    -- attestation (R381)
    (let a := (s.rd .gorse R.ATTEST_ADDR_LO).toNat / 64 * 64 + (s.rd .gorse R.ATTEST_ADDR_HI).toNat % 256 * 2 ^ 32
     (g.attest = none → s.Sets r .gorse R.ATTEST_REQ 0 (.attestReq r) (fun y => y.gorse = { g with attest := some (a, s.now) } ∧
        y.rd .gorse R.ATTEST_STATUS = 0x80000000)) ∧
     (g.attest.isSome = true → s.Sets r .gorse R.ATTEST_REQ 0 (.attestReq r) (fun y => y.gorse = g ∧ (y.rd .gorse R.ATTEST_STATUS).bit 29 = true))) ∧
    (g.attest = none → same .attestDone) ∧
    (∀ a t, g.attest = some (a, t) →
      let att : Req := s.reqOf .gorse
      let body := s.report t (s.bytes a 32)
      (s.place a = .nowhere ∨ (s.ScratchFor att (some .gorse) a .read ∧ a % 64 = 0 ∧ s.poisoned a = true) → s.Does .attestDone (fun y =>
        y.rd .gorse R.ATTEST_STATUS = 0x20000000 ∧ y.gorse = { g with attest := none } ∧ y.mem = s.mem)) ∧
      (s.ScratchFor att (some .gorse) a .read → a % 64 = 0 → s.poisoned a = false → s.ScratchFor att (some .gorse) (a + 64) .write → s.Does .attestDone (fun y =>
        y.rd .gorse R.ATTEST_STATUS = 0x40000000 ∧ ∃ nonce : Nat, y.bytes (a + 64) (body ++ ecSign s.attKey nonce (sha384 body)).length =
          body ++ ecSign s.attKey nonce (sha384 body)))) ∧
    -- control-store reloads (R374)
    (g.reload = none →
      ((s.engState e = engStopped ∨ s.engState e = engFailed) → (s.csImg e).isSome = true → s.Sets r .gorse R.CS_RELOAD 0 (.csReload r e) (fun y =>
        y.gorse = { g with reload := some e.val } ∧ y.rd .gorse R.CS_RELOAD_STATUS = 0x80000000)) ∧
      ((s.engState e ≠ engStopped ∧ s.engState e ≠ engFailed) ∨ s.csImg e = none → s.Sets r .gorse R.CS_RELOAD 0 (.csReload r e) (fun y =>
        y.gorse = g ∧ y.rd .gorse R.CS_RELOAD_STATUS = 0x60000000)) ∧
      same .csReloadDone) ∧
    (∀ i, g.reload = some e.val → s.csImg e = some i → i.len ≤ 262144 → s.Does .csReloadDone (fun y => y.gorse = { g with reload := none } ∧
      y.rd .gorse R.CS_RELOAD_STATUS = 0x40000000 ∧ y.rd (.engine e) R.CS_IMAGE = BitVec.ofNat 32 i.tag ∧
      y.rf (.engine e) R.ENG_STATUS F.ENG_STATUS_CS_VALID = 1 ∧
      ∀ a, a < i.len / 16 → y.csBad e a = 0 ∧
        y.csWord e a = BitVec.ofNat 128 (ofLe (((s.bytes (0xF00100000 + i.kept) i.len).drop (16 * a)).take 16))))

/-- R385 to R388, R390, R391, R394, R396, R400, R401: TAP instructions; REGXFER reads and writes the DAP's registers and reports a refusal;
AUTH_REQ waits for Gorse, which grants a class or counts a failure; a request engine does one access at a time, within its class;
DAP_CTL takes what the class permits; HALT reaches each bank that is not OFF, and STEP is armed. The free value of the last
clause but one is what the balls carry. -/
def Obligations.DebugPort : Prop :=
  ∀ (s : State) (r : Req) (tap on : Bool) (v : Word) (k : Fin 2) (wide : Bool) (o : BitVec 16) (d : Nat) (p : Fin 252) (banks : BitVec 4), s.Calm →
    let x := s.dap
    let via (tap : Bool) (g : Reg) (i : Nat) (c : Instr) (P : State → Prop) : Prop :=
      tap = true ∨ ((r.master = 0x180 ∨ r.master = 0x181) ∧ s.Granted r .write .dap g i 0) → s.Does c (fun y => y.resp = .ok 0 ∧ P y)
    let off := o.toNat / 4 * 4
    let lo := (s.rd .dap R.DRE_ADDR_LO k).toNat
    let a := lo + 2 ^ 32 * s.rf .dap R.DRE_ADDR_HI F.DRE_ADDR_HI_ADDR k
    let n := if wide then 16 else 4
    let words := (List.range 4).flatMap (fun j => leBytes 4 (s.rd .dap R.DRE_DATA k j).toNat)
    let drops (y : State) (code : Nat) : Prop := y.dreAcc k = none ∧ y.rd .dap R.DRE_STATUS k = BitVec.ofNat 32 (2 ^ 30 + code)
    -- the TAP
    s.Does .bypass (fun y => y = { s with dap := { x with ir := 0xFF, driving := false } }) ∧
    s.Does .idcode (fun y => y = { s with dap := { x with ir := 0x01, driving := false }, out := .tap 0x17240A3B :: s.out }) ∧
    s.Does (.extest d) (fun y => y = { s with dap := { x with ir := 0x03, driving := true, bsr := d } }) ∧
    s.Does (.samplePreload d) (fun y => y.dap = { x with ir := 0x02, driving := false, bsr := d } ∧ (∃ w : Word, y.out = .tap w.toNat :: s.out) ∧
      y.regs = s.regs) ∧
    (UnitId.dap.findReg off = none → ∀ w, s.Does (.regxfer o w) (fun y => y.resp = .err 4 ∧ y.regs = s.regs ∧
      y.dap = { x with ir := 0x21, driving := false, drOff := off, drRefused := true })) ∧
    (∀ j, j < 4 → off = 0x210 + 0x40 * k.val + 4 * j →
      let rd : DapSt := { x with ir := 0x21, driving := false, drOff := off, drRefused := false, drData := s.rd .dap R.DRE_DATA k j }
      s.Does (.regxfer o none) (fun y => y = { s with dap := rd, resp := .ok (s.rd .dap R.DRE_DATA k j) }) ∧
      s.Does (.regxfer o (some v)) (fun y => y.resp = .ok 0 ∧ y.rd .dap R.DRE_DATA k j = v ∧ s.OnlyReg y .dap R.DRE_DATA k j ∧
        y.dap = { x with ir := 0x21, driving := false, drOff := off, drRefused := false })) ∧
    (off = 0x108 → s.Does (.regxfer o none) (fun y => y.resp = .ok s.authStatus)) ∧
    -- authentication
    (let c := v.fld F.AUTH_REQ_CLASS
     (x.busy = none → c ≠ 0 → x.fails ≠ 8 → via tap R.AUTH_REQ 0 (.authReq r tap v) (fun y =>
        y.dap.busy = some (c + 128 * v.fld F.AUTH_REQ_HOST, s.regBytes .dap R.AUTH_KEY 24, s.regBytes .dap R.AUTH_SIG 24) ∧ y.dap.cls = x.cls)) ∧
     (x.busy = none → c ≠ 0 → x.fails = 8 → via tap R.AUTH_REQ 0 (.authReq r tap v) (fun y => y.dap.lockout = true ∧ y.dap.busy = none ∧ y.dap.cls = x.cls)) ∧
     (x.busy = none → c = 0 → s.attached = false → via tap R.AUTH_REQ 0 (.authReq r tap v) (fun y => y.dap.cls = 0 ∧ y.dap.host = false ∧ y.frozen = false)) ∧
     (x.busy.isSome = true → via tap R.AUTH_REQ 0 (.authReq r tap v) (fun y => y.dap.busy = x.busy ∧ y.dap.cls = x.cls))) ∧
    (x.busy = none → s.Does .authDone (fun y => y = s)) ∧
    (∀ req key sig, x.busy = some (req, key, sig) →
      (s.authOk req key sig = true → req % 8 ≠ 0 → s.Does .authDone (fun y => y.dap.busy = none ∧ y.dap.cls = req % 8 ∧ y.dap.host = decide (128 ≤ req) ∧
        y.dap.failed = false ∧ y.dap.fails = x.fails ∧ (req % 8 = 4 → y.keyLocked = true) ∧ (req % 8 < 3 → y.frozen = false))) ∧
      (s.authOk req key sig = false → s.Does .authDone (fun y => y.dap = { x with busy := none, attempts := x.attempts + 1, failed := true, fails := min 8 (x.fails + 1) }))) ∧
    -- request engines
    (∀ write, let c : Instr := if write then .dreWrite r k wide else .dreRead r k wide
      (s.dreAcc k = none → x.cls ≠ 0 → (k = 1 → x.host = true) → s.dreAllowed a write = true →
        (a % n = 0 → via (k == 0) R.DRE_CMD k c (fun y => y.dreAcc k = some ⟨write, wide, a, words.take n, s.mono, false⟩)) ∧
        (a % n ≠ 0 → via (k == 0) R.DRE_CMD k c (fun y => drops y 4))) ∧
      (s.dreAcc k = none → x.cls = 0 ∨ (k = 1 ∧ x.host = false) ∨ s.dreAllowed a write = false → via (k == 0) R.DRE_CMD k c (fun y => drops y 3)) ∧
      ((s.dreAcc k).isSome = true → via (k == 0) R.DRE_CMD k c (fun y => y.dreAcc k = s.dreAcc k ∧ y.mem = s.mem))) ∧
    (s.dreAcc k = none → s.Does (.dreResponse k) (fun y => y = s)) ∧
    (∀ acc, s.dreAcc k = some acc → acc.issued = false →
      let moved (y : State) : Prop :=
        (s.rb .dap R.DRE_ADDR_HI F.DRE_ADDR_HI_INC k = false → y.rd .dap R.DRE_ADDR_LO k = s.rd .dap R.DRE_ADDR_LO k) ∧
        (s.rb .dap R.DRE_ADDR_HI F.DRE_ADDR_HI_INC k = true → y.rd .dap R.DRE_ADDR_LO k = BitVec.ofNat 32 (a + if acc.wide then 16 else 4) ∧
          y.rf .dap R.DRE_ADDR_HI F.DRE_ADDR_HI_ADDR k = (a + if acc.wide then 16 else 4) / 2 ^ 32 % 256)
      (acc.write = false → acc.wide = false → acc.addr % 4 = 0 → s.ScratchFor dreReq (some .dap) acc.addr .read → s.Does (.dreResponse k) (fun y => y.dreAcc k = none ∧
        y.rd .dap R.DRE_DATA k 0 = BitVec.ofNat 32 (s.leAt acc.addr 4) ∧ y.rd .dap R.DRE_STATUS k = (if s.poisoned acc.addr then 0x20000000 else 0) ∧
        moved y ∧ y.mem = s.mem)) ∧
      (acc.write = true → acc.wide = false → acc.data.length = 4 → acc.addr % 4 = 0 → s.ScratchFor dreReq (some .dap) acc.addr .write →
        s.Does (.dreResponse k) (fun y => y.dreAcc k = none ∧ y.bytes acc.addr 4 = acc.data ∧ y.rd .dap R.DRE_STATUS k = 0 ∧ moved y ∧
          ∀ z, z < acc.addr ∨ acc.addr + 4 ≤ z → y.byte z = s.byte z)) ∧
      (s.place acc.addr = .nowhere → s.Does (.dreResponse k) (fun y => drops y 0 ∧ moved y ∧ y.mem = s.mem))) ∧
    -- DAP_CTL
    via tap R.DAP_CTL 0 (.dbgAttach r tap) (fun y => (1 ≤ x.cls → y.attached = true) ∧ (x.cls = 0 → y.attached = s.attached)) ∧
    (s.mode.emulDormant = false → (∀ u, (s.unit u).emulated = false) → via tap R.DAP_CTL 0 (.dbgDetach r tap) (fun y => y.attached = false)) ∧
    via tap R.DAP_CTL 0 (.freezeWrite r tap on) (fun y => y.frozen = (on && decide (3 ≤ x.cls)) ∧ y.attached = s.attached) ∧
    -- halt and step
    s.Sets r (.core p) R.DBG_CTL 0 (.halt r p banks) (fun y => ∀ b, b < 4 →
      ((s.bank p b).st = .off → y.bank p b = s.bank p b) ∧
      ((s.bank p b).st ≠ .off → banks.toNat.testBit b = true → (y.bank p b).halt = true ∧
        ((s.bank p b).st = .waiting → s.rb (.core p) R.DBG_CTL F.DBG_CTL_DBG_EN = true → (s.bank p b).mon = false →
          (y.bank p b).st = .ready ∨ (y.bank p b).st = .running)) ∧
      (banks.toNat.testBit b = false → (y.bank p b).halt = (s.bank p b).halt)) ∧
    s.Sets r (.core p) R.DBG_CTL 0 (.step r p banks) (fun y => y.rf (.core p) R.DBG_CTL F.DBG_CTL_STEP = banks.toNat ∧
      y.rf (.core p) R.DBG_CTL F.DBG_CTL_DBG_EN = s.rf (.core p) R.DBG_CTL F.DBG_CTL_DBG_EN)

/-- R404, R409, R414, R415: a flit leaves 1 µs after its first byte, a source's timer emits a time when its reference is 1,000 ns old, a
partial line of the ring is written after 10 µs, and a recorder's trigger latches its offset and starts the count that stops it. -/
def Obligations.Trace : Prop :=
  ∀ (s : State) (r : Req) (t : Fin 28) (q : Fin 29) (i : BitVec 12), s.now < 2 ^ 64 →
    let k := i.toNat
    let x := s.trSrc k
    let f := s.frec t
    (s.tracing = false →
      (x.pkts = [] ∨ s.mono < x.since + 1000 ∨ s.hrOn = false → s.Does (.traceFlitTimeout i) (fun y => y = s)) ∧
      (x.pkts ≠ [] → x.since + 1000 ≤ s.mono → s.hrOn = true → (∀ pk ∈ x.pkts, pk.length ≤ 63) → s.Does (.traceFlitTimeout i) (fun y =>
        (y.trSrc k).pkts = [] ∧ y.trace.hr.started = true ∧ y.trace.hr.cur = some k)) ∧
      (s.trLive k = false ∨ x.on = false ∨ s.now < x.ref.getD 0 + 1000 → s.Does (.traceTsTimer i) (fun y => y = s)) ∧
      (s.trace.hr.line = [] ∨ s.mono < s.trace.hr.since + 10000 ∨ s.hrOn = false → s.Does .ringLineTimeout (fun y => y = s)) ∧
      (s.trace.hr.line ≠ [] → s.trace.hr.since + 10000 ≤ s.mono → s.hrOn = true →
        (s.ringFull = true → s.Does .ringLineTimeout (fun y => y = { s with trace := { s.trace with hr := { s.trace.hr with line := [] } } })) ∧
        (let at_ := s.ringBase + (s.rd .hedgerow R.RING_WPTR).toNat
         s.ringFull = false → (s.rd .hedgerow R.RING_WPTR).toNat + 64 < s.ringLen → s.place at_ = .outbound →
          s.guardAcc at_ (s.reqOf .hedgerow) .write = (none, s) → s.obUp = true →
          s.Does .ringLineTimeout (fun y => y.trace.hr.line = [] ∧ y.rd .hedgerow R.RING_WPTR = s.rd .hedgerow R.RING_WPTR + 64 ∧
            y.out = .pcieWrite s.obLink (s.obAddr at_) (s.trace.hr.line ++ List.replicate (64 - s.trace.hr.line.length) 0) none false :: s.out))) ∧
      ((s.frec q).left ≠ some 0 → s.Does (.frStop q) (fun y => y = s)) ∧
      ((s.frec q).left = some 0 → s.Does (.frStop q) (fun y => (y.frec q).stopped = true ∧ (y.frec q).trigPtr = (s.frec q).trigPtr ∧ y.mem = s.mem)) ∧
      s.Sets r (.tussock t) R.FR_TRIG 0 (.frTrig r t) (fun y => y.trace = s.trace ∧ y.mem = s.mem)) ∧
    -- the timer of a core that runs a bank, its packets buffered
    (k < 0xFC → (∀ e ∈ s.trace.src, e.1 = k) → s.hrOn = false → s.frTakes k = none → s.trLive k = true → x.on = true → x.asleep = false → x.br = [] → x.lost = 0 →
      (s.running k).isSome = true → x.ref.getD 0 + 1000 ≤ s.now → s.now < x.ref.getD 0 + 65536 → packLen x.pkts + 3 ≤ 512 →
      s.Does (.traceTsTimer i) (fun y => (y.trSrc k).ref = some s.now ∧ (y.trSrc k).pkts = x.pkts ++ [3 :: leBytes 2 (s.now - x.ref.getD 0)])) ∧
    -- the trigger of a recorder that runs
    (s.trace.src = [] → s.rb (.tussock t) R.FR_CFG F.FR_CFG_EN = true → f.triggered = false → f.stopped = false → f.err = false → f.left = none →
      s.Sets r (.tussock t) R.FR_TRIG 0 (.frTrig r t) (fun y => (y.frec t).triggered = true ∧ (y.frec t).trigPtr = (y.frec t).ptr ∧
        (y.frec t).left = some (64 * s.rf (.tussock t) R.FR_POST F.FR_POST_POST)))

/-! ### Clocks, power and reset (R4, R36, R417, R419, R420, R425 to R430, R444) -/

/-- R4, R17, R36, R83, R311, R419, R420, R425 to R430, R444: a PLL locks while its condition holds, and a loss of lock then is device-fatal;
the clock inputs show in REFCLK_OK, DISCIPLINED and PEAT_CLKF; a wake source that is enabled ends DORMANT through a warm reset to
BOOT once MAIN_PG is high; a Peat trip channel counts its windows; PERST# resets its link; a warm reset keeps global time, DRAM and
Peat's registers; a cold reset and an undervoltage keep the fuses; a read of a counter that clears on reading clears it. -/
def Obligations.ClocksPowerResets : Prop :=
  ∀ (s : State) (r : Req) (n : Fin 7) (k : Fin 8) (l : Fin 2) (sup : Fin 4) (ones : Nat) (straps : BitVec 8) (io33 within : Bool), s.Calm →
    let p := s.peat
    let m := s.mode
    let same (c : Instr) : Prop := s.Does c (fun y => y = s)
    let peat (c : Instr) (x : PeatSt) : Prop := s.Does c (fun y => y = { s with peat := x })
    let boots (y : State) (cause wake : Nat) : Prop :=
      y.mode.mode = .boot ∧ y.mode.wakeCause = wake ∧ y.rd .peat R.RST_CAUSE = BitVec.ofNat 32 cause ∧ y.now = s.now ∧
      (∀ a, a < 0xC00000000 → y.byte a = s.byte a) ∧ (∀ a, 0xC00000000 ≤ a → a < 0xC0E000000 → y.byte a = 0) ∧ ∀ q b, q < 252 → (y.bank q b).st = .off
    let wakes (src : Nat) (c : Instr) : Prop := p.exiting = none →
      ((s.rd .peat R.WAKE_EN).bit src = false → same c) ∧
      ((s.rd .peat R.WAKE_EN).bit src = true →
        (p.mainPg = false → s.Does c (fun y => y.mode = m ∧ y.peat.exiting = some s.mono ∧ y.peat.exitCode = src + 2 ∧ y.peat.pwrEn = true ∧
          (y.rd .peat R.WAKE_STATUS).bit src = true)) ∧
        (p.mainPg = true → s.Does c (fun y => boots y 3 (src + 2))))
    let cold (y : State) (v : Nat) : Prop := y.mode = {} ∧ y.ling = {} ∧ y.sward = {} ∧ y.mem = State.reset.mem ∧ y.gorse.secret = s.gorse.secret ∧
      y.gorse.digs = s.gorse.digs ∧ y.gorse.revoked = s.gorse.revoked ∧ y.peat.straps = v ∧ y.rd .gorse R.BOOT_INFO = BitVec.ofNat 32 v
    -- PLLs and clock inputs
    (s.pllWant n = false → same (.pllLock n) ∧ same (.pllLockLost n)) ∧
    (s.pllWant n = true → s.Does (.pllLock n) (fun y => y.pllLocked n = true ∧ y.peat.pllRun.testBit n = true ∧ y.regs = s.regs)) ∧
    (s.pllWant n = true → s.pllLocked n = false → same (.pllLockLost n)) ∧
    (s.pllWant n = true → s.pllLocked n = true → s.Mute → s.eth.egress = [] → m.safe = false → s.Does (.pllLockLost n) (fun y =>
      y.mode.safe = true ∧ y.pllLocked n = false ∧ (y.rd .peat R.PLL_STATUS).bit (16 + n.val) = true ∧
      y.rd .device R.SAFE_CAUSE = BitVec.ofNat 32 (2 ^ 31 + UnitId.peat.cls * 2 ^ 16 + 0x10))) ∧
    (p.refclk = true → p.straps.testBit 3 = false → peat (.peatDiscipline within) { p with disciplined := p.disciplined || within }) ∧
    (p.refclk = false ∨ p.straps.testBit 3 = true → same (.peatDiscipline within)) ∧
    peat .refclkLoss { p with refclk := false, disciplined := false } ∧ peat .refclkReturn { p with refclk := true } ∧
    (s.peatExt = true → s.Does .peatClkinFail (fun y => y.peatExt = false ∧ (y.rd .peat R.CLK_STATUS).bit 3 = true ∧ y.peat = { p with peatClkF := true })) ∧
    (s.peatExt = false → same .peatClkinFail) ∧
    -- wake sources
    (m.mode ≠ .dormant → same .wakeAlarm ∧ (m.dormEntry = false → same .wakeNLow)) ∧
    (m.mode = .dormant → (s.now < p.alarm → same .wakeAlarm) ∧ (p.alarm ≤ s.now → wakes 1 .wakeAlarm) ∧ wakes 3 .wakeNLow) ∧
    (m.mode ≠ .dormant ∨ p.exiting = none → peat .mainPgRise { p with mainPg := true }) ∧
    (∀ t, m.mode = .dormant → p.exiting = some t → s.Does .mainPgRise (fun y => boots y 3 p.exitCode)) ∧
    (m.mode ≠ .dormant ∨ p.exiting = none ∨ p.mainPg = true ∨ s.mono < p.pwrEnAt + 8000000 → same .pgLate) ∧
    (m.mode = .dormant → p.exiting.isSome = true → p.mainPg = false → p.pwrEnAt + 8000000 ≤ s.mono → s.Does .pgLate (fun y =>
      (y.rd .peat R.WAKE_STATUS).bit 8 = true ∧ y.mode = m ∧ y.peat = p)) ∧
    -- trip channels
    (let x := mapGet {} p.ptrip k
     let cnt := min ones (clampNat 16 256 (s.rf .peat R.PTRIP_CFG F.PTRIP_CFG_PWIN k))
     let bad : Prop := s.rf .peat R.PTRIP_THR F.PTRIP_THR_PHI k < cnt ∨ cnt < s.rf .peat R.PTRIP_THR F.PTRIP_THR_PLO k
     let deb := max 1 (s.rf .peat R.PTRIP_CFG F.PTRIP_CFG_PDEB k)
     let counts (d : Nat) : Prop := s.Does (.peatTripWindow k ones) (fun y => mapGet {} y.peat.ptrip k = { x with deb := d } ∧ y.mode = m ∧ y.regs = s.regs)
     (m.mode ≠ .dormant ∨ m.emulDormant = true ∨ x.run = false ∨ x.tripped = true → same (.peatTripWindow k ones)) ∧
     (m.mode = .dormant → m.emulDormant = false → x.run = true → x.tripped = false →
       (¬ bad → counts 0) ∧ (bad → x.deb + 1 < deb → counts (x.deb + 1)) ∧
       (bad → deb ≤ x.deb + 1 → p.exiting = none →
         ((s.rd .peat R.WAKE_EN).bit 4 = false → s.Does (.peatTripWindow k ones) (fun y => (mapGet {} y.peat.ptrip k).tripped = true ∧
           y.peat.brkLow = p.brkLow ||| x.brakes ∧ y.mode = m)) ∧
         ((s.rd .peat R.WAKE_EN).bit 4 = true → p.mainPg = true → s.Does (.peatTripWindow k ones) (fun y => boots y 3 6))))) ∧
    -- PERST#
    (s.linkUsed l = false → peat (.perstDeassert l) { p with perst := p.perst.filter (· != l.val) }) ∧
    (s.linkUsed l = true → m.mode ≠ .dormant → m.dormEntry = false → s.Does (.perstDeassert l) (fun y => y.peat.perst = p.perst.filter (· != l.val) ∧
      y = { s with peat := y.peat } ∧ (p.pcieRef.contains l.val = true → p.underV = false → y.peat.pllRun.testBit (4 + l.val) = true))) ∧
    (s.linkUsed l = true → m.mode = .dormant → p.exiting = none → p.mainPg = true → (s.rd .peat R.WAKE_EN).bit 2 = true →
      s.Does (.perstDeassert l) (fun y => boots y 3 4)) ∧
    ((s.rd .peat R.RST_CFG).bit l = false → s.Does (.perstAssert l) (fun y => l.val ∈ y.peat.perst ∧ y.pf l = {} ∧
      y.peat.pllLock.testBit (4 + l.val) = false ∧ ∀ a d, inBlock (.bar0 l) a = true → mapGet d y.regs a = d)) ∧
    ((s.rd .peat R.RST_CFG).bit l = true → s.Does (.perstAssert l) (fun y => l.val ∈ y.peat.perst ∧ boots y (4 + l.val) 1)) ∧
    -- warm and cold reset, and the supplies
    s.Sets r .device R.RESET_CTL 0 (.warmReset r) (fun y => boots y 1 1 ∧ y.fault.mclog = s.fault.mclog ∧
      (∀ a d, inBlock .peat a = true → a ≠ regAddr .peat R.RST_CAUSE 0 0 → mapGet d y.regs a = mapGet d s.regs a) ∧
      (s.attached = false → ∀ a d, inBlock .peat a = false → inBlock .eviUnit a = false → a ≠ regAddr .eth R.ETH_CFG 0 0 →
        a ≠ regAddr .gorse R.BOOT_STATUS 0 0 → a ≠ regAddr .gorse R.BOOT_INFO 0 0 → mapGet d y.regs a = d)) ∧
    s.Does (.coldReset straps io33) (fun y => cold y straps.toNat ∧ y.peat.underV = false ∧ y.peat.iovErr = (io33 != straps.toNat.testBit 7)) ∧
    (m.mode = .dormant → p.pwrEn = false → 2 ≤ sup.val → same (.supplyUndervoltage sup)) ∧
    (m.mode ≠ .dormant ∨ p.pwrEn = true ∨ sup.val < 2 → s.Does (.supplyUndervoltage sup) (fun y => cold y 0 ∧ y.peat.underV = true)) ∧
    (p.underV = false → same (.supplyRecovery straps io33)) ∧
    (p.underV = true → s.Does (.supplyRecovery straps io33) (fun y => cold y straps.toNat ∧ y.peat.underV = false)) ∧
    -- reads that clear (R4)
    (∀ (a : BitVec 48) (u : UnitId) (g : Reg) (i : Nat), a.toNat = regAddr u g i 0 → a.toNat < 2 ^ 40 → s.Granted r .read u g i 0 →
      (u, g) ∈ [(UnitId.device, R.MCLOG_OVF), (.eviUnit, R.EVI_MERGED), (.tripUnit, R.TRIP_CNT), (.act, R.ARM_DISC), (.hedgerow, R.HR_LOST), (.telCoder, R.TEL_LOST)] →
      (s.quiet r = false → s.Does (.rcRead r a) (fun y => y.resp = .ok (s.rd u g i) ∧ y.rd u g i = (s.rd u g i &&& BitVec.ofNat 32 (0xFFFFFFFF ^^^ g.rc)) ∧
        s.OnlyReg y u g i 0 ∧ y = { s with regs := y.regs, resp := y.resp })) ∧
      (s.quiet r = true → s.Does (.rcRead r a) (fun y => y = { s with resp := .ok (s.rd u g i) }))) ∧
    (∀ a : BitVec 48, a.toNat < 2 ^ 40 → unitAt a.toNat = none → s.Does (.rcRead r a) (fun y => y = { s with resp := .err 0 }))
end

