-- ==== Sys2Proof/Laws/Map.lean ====
section
/-! SUPPORT. Laws/Map.lean: what the finite maps of the state answer after an update, and that every update keeps their canonical
form. -/

namespace Sys2Proof

variable {α : Type}

@[simp] theorem mapGet_nil (d : α) (k : Nat) : mapGet d [] k = d := rfl

/-- After an insertion the key reads as the new value, and every other key as before, whatever the default. -/
theorem mapGet_mapInsert (d : α) (m : Map α) (k j : Nat) (v : α) :
    mapGet d (mapInsert k v m) j = if j = k then v else mapGet d m j := by
  induction m with
  | nil =>
    by_cases h : j = k
    · subst h; simp [mapInsert, mapGet]
    · simp [mapInsert, mapGet, h, Ne.symm h]
  | cons e r ih =>
    obtain ⟨a, x⟩ := e
    unfold mapInsert
    split
    · rename_i hlt
      by_cases ha : a = j
      · subst ha; have : a ≠ k := by omega
        simp [mapGet, this]
      · simp [mapGet, ha, ih]
    · split
      · rename_i hak
        subst hak
        by_cases h : j = a
        · subst h; simp [mapGet]
        · simp [mapGet, h, Ne.symm h]
      · by_cases h : j = k
        · subst h; simp [mapGet]
        · simp [mapGet, h, Ne.symm h]

/-- After an erasure the key reads as the default, and every other key as before. -/
theorem mapGet_mapErase (d : α) (m : Map α) (k j : Nat) :
    mapGet d (mapErase k m) j = if j = k then d else mapGet d m j := by
  induction m with
  | nil => simp [mapErase, mapGet]
  | cons e r ih =>
    obtain ⟨a, x⟩ := e
    unfold mapErase
    split
    · rename_i hak
      subst hak
      by_cases h : j = a
      · subst h; simp [ih]
      · simp [mapGet, ih, h, Ne.symm h]
    · rename_i hak
      by_cases h : a = j
      · subst h; simp [mapGet, hak]
      · simp [mapGet, h, ih]

section
variable [DecidableEq α]

/-- The key written reads as the value written. -/
@[simp] theorem mapGet_mapSet_self (d : α) (m : Map α) (k : Nat) (v : α) : mapGet d (mapSet d m k v) k = v := by
  unfold mapSet
  split
  · simp [mapGet_mapErase, *]
  · simp [mapGet_mapInsert]

/-- Every other key reads as before, under any default. -/
theorem mapGet_mapSet_ne (d d' : α) (m : Map α) {k j : Nat} (v : α) (h : j ≠ k) :
    mapGet d' (mapSet d m k v) j = mapGet d' m j := by
  unfold mapSet
  split
  · simp [mapGet_mapErase, h]
  · simp [mapGet_mapInsert, h]

/-- Both at once. -/
theorem mapGet_mapSet (d : α) (m : Map α) (k j : Nat) (v : α) :
    mapGet d (mapSet d m k v) j = if j = k then v else mapGet d m j := by
  by_cases h : j = k
  · subst h; simp
  · simp [h, mapGet_mapSet_ne]

end

/-- A key of a dropped range reads as the default, any other as before. -/
theorem mapGet_mapDrop (d : α) (p : Nat → Bool) (m : Map α) (k : Nat) :
    mapGet d (mapDrop p m) k = if p k then d else mapGet d m k := by
  induction m with
  | nil => simp [mapDrop]
  | cons e r ih =>
    obtain ⟨a, x⟩ := e
    unfold mapDrop at ih ⊢
    by_cases hp : p a
    · by_cases h : a = k
      · subst h; simp [hp, ih]
      · simp [hp, mapGet, h, ih]
    · by_cases h : a = k
      · subst h; simp [hp, mapGet]
      · simp [hp, mapGet, h, ih]

/-! ### The canonical form -/

theorem keysAbove_mono {k j : Nat} (m : Map α) (h : j ≤ k) (hk : keysAbove k m = true) : keysAbove j m = true := by
  induction m with
  | nil => rfl
  | cons e r ih => simp [keysAbove] at hk ⊢; exact ⟨by omega, ih hk.2⟩

theorem keysAbove_mapInsert {b k : Nat} (v : α) (m : Map α) (hb : b < k) (hk : keysAbove b m = true) :
    keysAbove b (mapInsert k v m) = true := by
  induction m with
  | nil => simp [mapInsert, keysAbove, hb]
  | cons e r ih =>
    simp only [keysAbove, Bool.and_eq_true, decide_eq_true_eq] at hk
    unfold mapInsert
    split
    · simp [keysAbove, hk.1, ih hk.2]
    · split
      · simp_all [keysAbove]
      · simp [keysAbove, hb, hk]

theorem keysAbove_mapErase {b k : Nat} (m : Map α) (hk : keysAbove b m = true) : keysAbove b (mapErase k m) = true := by
  induction m with
  | nil => rfl
  | cons e r ih =>
    simp only [keysAbove, Bool.and_eq_true, decide_eq_true_eq] at hk
    unfold mapErase
    split
    · exact ih hk.2
    · simp [keysAbove, hk.1, ih hk.2]

theorem keysAbove_filter {b : Nat} (q : Nat × α → Bool) (m : Map α) (hk : keysAbove b m = true) :
    keysAbove b (m.filter q) = true := by
  induction m with
  | nil => rfl
  | cons e r ih =>
    simp only [keysAbove, Bool.and_eq_true, decide_eq_true_eq] at hk
    by_cases h : q e <;> simp [h, keysAbove, hk.1, ih hk.2]

section
variable [DecidableEq α]

theorem mapWf_mapInsert (d : Nat → α) (m : Map α) (k : Nat) (v : α) (hv : v ≠ d k) (h : mapWf d m = true) :
    mapWf d (mapInsert k v m) = true := by
  induction m with
  | nil => simp [mapInsert, mapWf, keysAbove, hv]
  | cons e r ih =>
    simp only [mapWf, Bool.and_eq_true, decide_eq_true_eq] at h
    obtain ⟨⟨hk, hd⟩, hr⟩ := h
    unfold mapInsert
    split
    · rename_i hlt
      simp [mapWf, keysAbove_mapInsert v r hlt hk, hd, ih hr]
    · split
      · rename_i heq
        subst heq
        simp [mapWf, hk, hv, hr]
      · have : k < e.1 := by omega
        simp [mapWf, keysAbove, this, keysAbove_mono r (Nat.le_of_lt this) hk, hv, hk, hd, hr]

theorem mapWf_mapErase (d : Nat → α) (m : Map α) (k : Nat) (h : mapWf d m = true) : mapWf d (mapErase k m) = true := by
  induction m with
  | nil => rfl
  | cons e r ih =>
    simp only [mapWf, Bool.and_eq_true, decide_eq_true_eq] at h
    obtain ⟨⟨hk, hd⟩, hr⟩ := h
    unfold mapErase
    split
    · exact ih hr
    · simp [mapWf, keysAbove_mapErase r hk, hd, ih hr]

/-- A write keeps the canonical form: the default is never listed. -/
theorem mapWf_mapSet (d : Nat → α) (m : Map α) (k : Nat) (v : α) (h : mapWf d m = true) :
    mapWf d (mapSet (d k) m k v) = true := by
  unfold mapSet
  split
  · exact mapWf_mapErase d m k h
  · rename_i hv; exact mapWf_mapInsert d m k v hv h

/-- Dropping a range keeps it. -/
theorem mapWf_mapDrop (d : Nat → α) (p : Nat → Bool) (m : Map α) (h : mapWf d m = true) : mapWf d (mapDrop p m) = true := by
  induction m with
  | nil => rfl
  | cons e r ih =>
    simp only [mapWf, Bool.and_eq_true, decide_eq_true_eq] at h
    obtain ⟨⟨hk, hd⟩, hr⟩ := h
    unfold mapDrop at ih ⊢
    by_cases hp : p e.1
    · simp [hp, ih hr]
    · simp [hp, mapWf, keysAbove_filter _ r hk, hd, ih hr]

end

end Sys2Proof
end

