-- ==== Sys2Proof/Laws/State.lean ====
section
/-! SUPPORT. Laws/State.lean: what each update of the state leaves in each of its fields, and what each table reads as after a
write of it. -/

namespace Sys2Proof.Machine

variable (s : State)

/-! ### wr -/

@[simp] theorem State.wr_pending (u : UnitId) (r : Reg) (v : Word) (i j : Nat) : (s.wr u r v i j).pending = s.pending := rfl
@[simp] theorem State.wr_now (u : UnitId) (r : Reg) (v : Word) (i j : Nat) : (s.wr u r v i j).now = s.now := rfl
@[simp] theorem State.wr_mono (u : UnitId) (r : Reg) (v : Word) (i j : Nat) : (s.wr u r v i j).mono = s.mono := rfl
@[simp] theorem State.wr_freeCtr (u : UnitId) (r : Reg) (v : Word) (i j : Nat) : (s.wr u r v i j).freeCtr = s.freeCtr := rfl
@[simp] theorem State.wr_resp (u : UnitId) (r : Reg) (v : Word) (i j : Nat) : (s.wr u r v i j).resp = s.resp := rfl
@[simp] theorem State.wr_out (u : UnitId) (r : Reg) (v : Word) (i j : Nat) : (s.wr u r v i j).out = s.out := rfl
@[simp] theorem State.wr_regs (u : UnitId) (r : Reg) (v : Word) (i j : Nat) : (s.wr u r v i j).regs = mapSet (BitVec.ofNat 32 r.reset) s.regs (regAddr u r i j) v := rfl
@[simp] theorem State.wr_units (u : UnitId) (r : Reg) (v : Word) (i j : Nat) : (s.wr u r v i j).units = s.units := rfl
@[simp] theorem State.wr_latches (u : UnitId) (r : Reg) (v : Word) (i j : Nat) : (s.wr u r v i j).latches = s.latches := rfl
@[simp] theorem State.wr_tusUp (u : UnitId) (r : Reg) (v : Word) (i j : Nat) : (s.wr u r v i j).tusUp = s.tusUp := rfl
@[simp] theorem State.wr_mode (u : UnitId) (r : Reg) (v : Word) (i j : Nat) : (s.wr u r v i j).mode = s.mode := rfl
@[simp] theorem State.wr_sward (u : UnitId) (r : Reg) (v : Word) (i j : Nat) : (s.wr u r v i j).sward = s.sward := rfl
@[simp] theorem State.wr_fault (u : UnitId) (r : Reg) (v : Word) (i j : Nat) : (s.wr u r v i j).fault = s.fault := rfl
@[simp] theorem State.wr_peat (u : UnitId) (r : Reg) (v : Word) (i j : Nat) : (s.wr u r v i j).peat = s.peat := rfl
@[simp] theorem State.wr_time (u : UnitId) (r : Reg) (v : Word) (i j : Nat) : (s.wr u r v i j).time = s.time := rfl
@[simp] theorem State.wr_ling (u : UnitId) (r : Reg) (v : Word) (i j : Nat) : (s.wr u r v i j).ling = s.ling := rfl
@[simp] theorem State.wr_mem (u : UnitId) (r : Reg) (v : Word) (i j : Nat) : (s.wr u r v i j).mem = s.mem := rfl
@[simp] theorem State.wr_meas (u : UnitId) (r : Reg) (v : Word) (i j : Nat) : (s.wr u r v i j).meas = s.meas := rfl
@[simp] theorem State.wr_act (u : UnitId) (r : Reg) (v : Word) (i j : Nat) : (s.wr u r v i j).act = s.act := rfl
@[simp] theorem State.wr_eth (u : UnitId) (r : Reg) (v : Word) (i j : Nat) : (s.wr u r v i j).eth = s.eth := rfl
@[simp] theorem State.wr_sedge (u : UnitId) (r : Reg) (v : Word) (i j : Nat) : (s.wr u r v i j).sedge = s.sedge := rfl
@[simp] theorem State.wr_pcie (u : UnitId) (r : Reg) (v : Word) (i j : Nat) : (s.wr u r v i j).pcie = s.pcie := rfl
@[simp] theorem State.wr_tel (u : UnitId) (r : Reg) (v : Word) (i j : Nat) : (s.wr u r v i j).tel = s.tel := rfl
@[simp] theorem State.wr_gorse (u : UnitId) (r : Reg) (v : Word) (i j : Nat) : (s.wr u r v i j).gorse = s.gorse := rfl
@[simp] theorem State.wr_dap (u : UnitId) (r : Reg) (v : Word) (i j : Nat) : (s.wr u r v i j).dap = s.dap := rfl
@[simp] theorem State.wr_trace (u : UnitId) (r : Reg) (v : Word) (i j : Nat) : (s.wr u r v i j).trace = s.trace := rfl

/-! ### setUnit -/

@[simp] theorem State.setUnit_pending (u : UnitId) (x : UnitRt) : (s.setUnit u x).pending = s.pending := rfl
@[simp] theorem State.setUnit_now (u : UnitId) (x : UnitRt) : (s.setUnit u x).now = s.now := rfl
@[simp] theorem State.setUnit_mono (u : UnitId) (x : UnitRt) : (s.setUnit u x).mono = s.mono := rfl
@[simp] theorem State.setUnit_freeCtr (u : UnitId) (x : UnitRt) : (s.setUnit u x).freeCtr = s.freeCtr := rfl
@[simp] theorem State.setUnit_resp (u : UnitId) (x : UnitRt) : (s.setUnit u x).resp = s.resp := rfl
@[simp] theorem State.setUnit_out (u : UnitId) (x : UnitRt) : (s.setUnit u x).out = s.out := rfl
@[simp] theorem State.setUnit_regs (u : UnitId) (x : UnitRt) : (s.setUnit u x).regs = s.regs := rfl
@[simp] theorem State.setUnit_units (u : UnitId) (x : UnitRt) : (s.setUnit u x).units = mapSet {} s.units u.base x := rfl
@[simp] theorem State.setUnit_latches (u : UnitId) (x : UnitRt) : (s.setUnit u x).latches = s.latches := rfl
@[simp] theorem State.setUnit_tusUp (u : UnitId) (x : UnitRt) : (s.setUnit u x).tusUp = s.tusUp := rfl
@[simp] theorem State.setUnit_mode (u : UnitId) (x : UnitRt) : (s.setUnit u x).mode = s.mode := rfl
@[simp] theorem State.setUnit_sward (u : UnitId) (x : UnitRt) : (s.setUnit u x).sward = s.sward := rfl
@[simp] theorem State.setUnit_fault (u : UnitId) (x : UnitRt) : (s.setUnit u x).fault = s.fault := rfl
@[simp] theorem State.setUnit_peat (u : UnitId) (x : UnitRt) : (s.setUnit u x).peat = s.peat := rfl
@[simp] theorem State.setUnit_time (u : UnitId) (x : UnitRt) : (s.setUnit u x).time = s.time := rfl
@[simp] theorem State.setUnit_ling (u : UnitId) (x : UnitRt) : (s.setUnit u x).ling = s.ling := rfl
@[simp] theorem State.setUnit_mem (u : UnitId) (x : UnitRt) : (s.setUnit u x).mem = s.mem := rfl
@[simp] theorem State.setUnit_meas (u : UnitId) (x : UnitRt) : (s.setUnit u x).meas = s.meas := rfl
@[simp] theorem State.setUnit_act (u : UnitId) (x : UnitRt) : (s.setUnit u x).act = s.act := rfl
@[simp] theorem State.setUnit_eth (u : UnitId) (x : UnitRt) : (s.setUnit u x).eth = s.eth := rfl
@[simp] theorem State.setUnit_sedge (u : UnitId) (x : UnitRt) : (s.setUnit u x).sedge = s.sedge := rfl
@[simp] theorem State.setUnit_pcie (u : UnitId) (x : UnitRt) : (s.setUnit u x).pcie = s.pcie := rfl
@[simp] theorem State.setUnit_tel (u : UnitId) (x : UnitRt) : (s.setUnit u x).tel = s.tel := rfl
@[simp] theorem State.setUnit_gorse (u : UnitId) (x : UnitRt) : (s.setUnit u x).gorse = s.gorse := rfl
@[simp] theorem State.setUnit_dap (u : UnitId) (x : UnitRt) : (s.setUnit u x).dap = s.dap := rfl
@[simp] theorem State.setUnit_trace (u : UnitId) (x : UnitRt) : (s.setUnit u x).trace = s.trace := rfl

/-! ### setByte -/

@[simp] theorem State.setByte_pending (a : Nat) (b : Byte) : (s.setByte a b).pending = s.pending := rfl
@[simp] theorem State.setByte_now (a : Nat) (b : Byte) : (s.setByte a b).now = s.now := rfl
@[simp] theorem State.setByte_mono (a : Nat) (b : Byte) : (s.setByte a b).mono = s.mono := rfl
@[simp] theorem State.setByte_freeCtr (a : Nat) (b : Byte) : (s.setByte a b).freeCtr = s.freeCtr := rfl
@[simp] theorem State.setByte_resp (a : Nat) (b : Byte) : (s.setByte a b).resp = s.resp := rfl
@[simp] theorem State.setByte_out (a : Nat) (b : Byte) : (s.setByte a b).out = s.out := rfl
@[simp] theorem State.setByte_regs (a : Nat) (b : Byte) : (s.setByte a b).regs = s.regs := rfl
@[simp] theorem State.setByte_units (a : Nat) (b : Byte) : (s.setByte a b).units = s.units := rfl
@[simp] theorem State.setByte_latches (a : Nat) (b : Byte) : (s.setByte a b).latches = s.latches := rfl
@[simp] theorem State.setByte_tusUp (a : Nat) (b : Byte) : (s.setByte a b).tusUp = s.tusUp := rfl
@[simp] theorem State.setByte_mode (a : Nat) (b : Byte) : (s.setByte a b).mode = s.mode := rfl
@[simp] theorem State.setByte_sward (a : Nat) (b : Byte) : (s.setByte a b).sward = s.sward := rfl
@[simp] theorem State.setByte_fault (a : Nat) (b : Byte) : (s.setByte a b).fault = s.fault := rfl
@[simp] theorem State.setByte_peat (a : Nat) (b : Byte) : (s.setByte a b).peat = s.peat := rfl
@[simp] theorem State.setByte_time (a : Nat) (b : Byte) : (s.setByte a b).time = s.time := rfl
@[simp] theorem State.setByte_ling (a : Nat) (b : Byte) : (s.setByte a b).ling = s.ling := rfl
@[simp] theorem State.setByte_mem (a : Nat) (b : Byte) : (s.setByte a b).mem = { s.mem with mem := mapSet memDefault s.mem.mem a b } := rfl
@[simp] theorem State.setByte_meas (a : Nat) (b : Byte) : (s.setByte a b).meas = s.meas := rfl
@[simp] theorem State.setByte_act (a : Nat) (b : Byte) : (s.setByte a b).act = s.act := rfl
@[simp] theorem State.setByte_eth (a : Nat) (b : Byte) : (s.setByte a b).eth = s.eth := rfl
@[simp] theorem State.setByte_sedge (a : Nat) (b : Byte) : (s.setByte a b).sedge = s.sedge := rfl
@[simp] theorem State.setByte_pcie (a : Nat) (b : Byte) : (s.setByte a b).pcie = s.pcie := rfl
@[simp] theorem State.setByte_tel (a : Nat) (b : Byte) : (s.setByte a b).tel = s.tel := rfl
@[simp] theorem State.setByte_gorse (a : Nat) (b : Byte) : (s.setByte a b).gorse = s.gorse := rfl
@[simp] theorem State.setByte_dap (a : Nat) (b : Byte) : (s.setByte a b).dap = s.dap := rfl
@[simp] theorem State.setByte_trace (a : Nat) (b : Byte) : (s.setByte a b).trace = s.trace := rfl

/-! ### setPoison -/

@[simp] theorem State.setPoison_pending (a : Nat) (b : Bool) : (s.setPoison a b).pending = s.pending := rfl
@[simp] theorem State.setPoison_now (a : Nat) (b : Bool) : (s.setPoison a b).now = s.now := rfl
@[simp] theorem State.setPoison_mono (a : Nat) (b : Bool) : (s.setPoison a b).mono = s.mono := rfl
@[simp] theorem State.setPoison_freeCtr (a : Nat) (b : Bool) : (s.setPoison a b).freeCtr = s.freeCtr := rfl
@[simp] theorem State.setPoison_resp (a : Nat) (b : Bool) : (s.setPoison a b).resp = s.resp := rfl
@[simp] theorem State.setPoison_out (a : Nat) (b : Bool) : (s.setPoison a b).out = s.out := rfl
@[simp] theorem State.setPoison_regs (a : Nat) (b : Bool) : (s.setPoison a b).regs = s.regs := rfl
@[simp] theorem State.setPoison_units (a : Nat) (b : Bool) : (s.setPoison a b).units = s.units := rfl
@[simp] theorem State.setPoison_latches (a : Nat) (b : Bool) : (s.setPoison a b).latches = s.latches := rfl
@[simp] theorem State.setPoison_tusUp (a : Nat) (b : Bool) : (s.setPoison a b).tusUp = s.tusUp := rfl
@[simp] theorem State.setPoison_mode (a : Nat) (b : Bool) : (s.setPoison a b).mode = s.mode := rfl
@[simp] theorem State.setPoison_sward (a : Nat) (b : Bool) : (s.setPoison a b).sward = s.sward := rfl
@[simp] theorem State.setPoison_fault (a : Nat) (b : Bool) : (s.setPoison a b).fault = s.fault := rfl
@[simp] theorem State.setPoison_peat (a : Nat) (b : Bool) : (s.setPoison a b).peat = s.peat := rfl
@[simp] theorem State.setPoison_time (a : Nat) (b : Bool) : (s.setPoison a b).time = s.time := rfl
@[simp] theorem State.setPoison_ling (a : Nat) (b : Bool) : (s.setPoison a b).ling = s.ling := rfl
@[simp] theorem State.setPoison_mem (a : Nat) (b : Bool) : (s.setPoison a b).mem = { s.mem with poison := mapSet false s.mem.poison (a / 64) b } := rfl
@[simp] theorem State.setPoison_meas (a : Nat) (b : Bool) : (s.setPoison a b).meas = s.meas := rfl
@[simp] theorem State.setPoison_act (a : Nat) (b : Bool) : (s.setPoison a b).act = s.act := rfl
@[simp] theorem State.setPoison_eth (a : Nat) (b : Bool) : (s.setPoison a b).eth = s.eth := rfl
@[simp] theorem State.setPoison_sedge (a : Nat) (b : Bool) : (s.setPoison a b).sedge = s.sedge := rfl
@[simp] theorem State.setPoison_pcie (a : Nat) (b : Bool) : (s.setPoison a b).pcie = s.pcie := rfl
@[simp] theorem State.setPoison_tel (a : Nat) (b : Bool) : (s.setPoison a b).tel = s.tel := rfl
@[simp] theorem State.setPoison_gorse (a : Nat) (b : Bool) : (s.setPoison a b).gorse = s.gorse := rfl
@[simp] theorem State.setPoison_dap (a : Nat) (b : Bool) : (s.setPoison a b).dap = s.dap := rfl
@[simp] theorem State.setPoison_trace (a : Nat) (b : Bool) : (s.setPoison a b).trace = s.trace := rfl

/-! ### send -/

@[simp] theorem State.send_pending (o : Out) : (s.send o).pending = s.pending := rfl
@[simp] theorem State.send_now (o : Out) : (s.send o).now = s.now := rfl
@[simp] theorem State.send_mono (o : Out) : (s.send o).mono = s.mono := rfl
@[simp] theorem State.send_freeCtr (o : Out) : (s.send o).freeCtr = s.freeCtr := rfl
@[simp] theorem State.send_resp (o : Out) : (s.send o).resp = s.resp := rfl
@[simp] theorem State.send_out (o : Out) : (s.send o).out = o :: s.out := rfl
@[simp] theorem State.send_regs (o : Out) : (s.send o).regs = s.regs := rfl
@[simp] theorem State.send_units (o : Out) : (s.send o).units = s.units := rfl
@[simp] theorem State.send_latches (o : Out) : (s.send o).latches = s.latches := rfl
@[simp] theorem State.send_tusUp (o : Out) : (s.send o).tusUp = s.tusUp := rfl
@[simp] theorem State.send_mode (o : Out) : (s.send o).mode = s.mode := rfl
@[simp] theorem State.send_sward (o : Out) : (s.send o).sward = s.sward := rfl
@[simp] theorem State.send_fault (o : Out) : (s.send o).fault = s.fault := rfl
@[simp] theorem State.send_peat (o : Out) : (s.send o).peat = s.peat := rfl
@[simp] theorem State.send_time (o : Out) : (s.send o).time = s.time := rfl
@[simp] theorem State.send_ling (o : Out) : (s.send o).ling = s.ling := rfl
@[simp] theorem State.send_mem (o : Out) : (s.send o).mem = s.mem := rfl
@[simp] theorem State.send_meas (o : Out) : (s.send o).meas = s.meas := rfl
@[simp] theorem State.send_act (o : Out) : (s.send o).act = s.act := rfl
@[simp] theorem State.send_eth (o : Out) : (s.send o).eth = s.eth := rfl
@[simp] theorem State.send_sedge (o : Out) : (s.send o).sedge = s.sedge := rfl
@[simp] theorem State.send_pcie (o : Out) : (s.send o).pcie = s.pcie := rfl
@[simp] theorem State.send_tel (o : Out) : (s.send o).tel = s.tel := rfl
@[simp] theorem State.send_gorse (o : Out) : (s.send o).gorse = s.gorse := rfl
@[simp] theorem State.send_dap (o : Out) : (s.send o).dap = s.dap := rfl
@[simp] theorem State.send_trace (o : Out) : (s.send o).trace = s.trace := rfl

/-! ### answer -/

@[simp] theorem State.answer_pending (r : Resp) : (s.answer r).pending = s.pending := rfl
@[simp] theorem State.answer_now (r : Resp) : (s.answer r).now = s.now := rfl
@[simp] theorem State.answer_mono (r : Resp) : (s.answer r).mono = s.mono := rfl
@[simp] theorem State.answer_freeCtr (r : Resp) : (s.answer r).freeCtr = s.freeCtr := rfl
@[simp] theorem State.answer_resp (r : Resp) : (s.answer r).resp = r := rfl
@[simp] theorem State.answer_out (r : Resp) : (s.answer r).out = s.out := rfl
@[simp] theorem State.answer_regs (r : Resp) : (s.answer r).regs = s.regs := rfl
@[simp] theorem State.answer_units (r : Resp) : (s.answer r).units = s.units := rfl
@[simp] theorem State.answer_latches (r : Resp) : (s.answer r).latches = s.latches := rfl
@[simp] theorem State.answer_tusUp (r : Resp) : (s.answer r).tusUp = s.tusUp := rfl
@[simp] theorem State.answer_mode (r : Resp) : (s.answer r).mode = s.mode := rfl
@[simp] theorem State.answer_sward (r : Resp) : (s.answer r).sward = s.sward := rfl
@[simp] theorem State.answer_fault (r : Resp) : (s.answer r).fault = s.fault := rfl
@[simp] theorem State.answer_peat (r : Resp) : (s.answer r).peat = s.peat := rfl
@[simp] theorem State.answer_time (r : Resp) : (s.answer r).time = s.time := rfl
@[simp] theorem State.answer_ling (r : Resp) : (s.answer r).ling = s.ling := rfl
@[simp] theorem State.answer_mem (r : Resp) : (s.answer r).mem = s.mem := rfl
@[simp] theorem State.answer_meas (r : Resp) : (s.answer r).meas = s.meas := rfl
@[simp] theorem State.answer_act (r : Resp) : (s.answer r).act = s.act := rfl
@[simp] theorem State.answer_eth (r : Resp) : (s.answer r).eth = s.eth := rfl
@[simp] theorem State.answer_sedge (r : Resp) : (s.answer r).sedge = s.sedge := rfl
@[simp] theorem State.answer_pcie (r : Resp) : (s.answer r).pcie = s.pcie := rfl
@[simp] theorem State.answer_tel (r : Resp) : (s.answer r).tel = s.tel := rfl
@[simp] theorem State.answer_gorse (r : Resp) : (s.answer r).gorse = s.gorse := rfl
@[simp] theorem State.answer_dap (r : Resp) : (s.answer r).dap = s.dap := rfl
@[simp] theorem State.answer_trace (r : Resp) : (s.answer r).trace = s.trace := rfl

/-! ### setHealth -/

@[simp] theorem State.setHealth_pending (p : Nat) (h : Health) : (s.setHealth p h).pending = s.pending := rfl
@[simp] theorem State.setHealth_now (p : Nat) (h : Health) : (s.setHealth p h).now = s.now := rfl
@[simp] theorem State.setHealth_mono (p : Nat) (h : Health) : (s.setHealth p h).mono = s.mono := rfl
@[simp] theorem State.setHealth_freeCtr (p : Nat) (h : Health) : (s.setHealth p h).freeCtr = s.freeCtr := rfl
@[simp] theorem State.setHealth_resp (p : Nat) (h : Health) : (s.setHealth p h).resp = s.resp := rfl
@[simp] theorem State.setHealth_out (p : Nat) (h : Health) : (s.setHealth p h).out = s.out := rfl
@[simp] theorem State.setHealth_regs (p : Nat) (h : Health) : (s.setHealth p h).regs = s.regs := rfl
@[simp] theorem State.setHealth_units (p : Nat) (h : Health) : (s.setHealth p h).units = s.units := rfl
@[simp] theorem State.setHealth_latches (p : Nat) (h : Health) : (s.setHealth p h).latches = s.latches := rfl
@[simp] theorem State.setHealth_tusUp (p : Nat) (h : Health) : (s.setHealth p h).tusUp = s.tusUp := rfl
@[simp] theorem State.setHealth_mode (p : Nat) (h : Health) : (s.setHealth p h).mode = s.mode := rfl
@[simp] theorem State.setHealth_sward (p : Nat) (h : Health) : (s.setHealth p h).sward = s.sward := rfl
@[simp] theorem State.setHealth_fault (p : Nat) (h : Health) : (s.setHealth p h).fault = { s.fault with health := mapSet (healthReset p) s.fault.health p h } := rfl
@[simp] theorem State.setHealth_peat (p : Nat) (h : Health) : (s.setHealth p h).peat = s.peat := rfl
@[simp] theorem State.setHealth_time (p : Nat) (h : Health) : (s.setHealth p h).time = s.time := rfl
@[simp] theorem State.setHealth_ling (p : Nat) (h : Health) : (s.setHealth p h).ling = s.ling := rfl
@[simp] theorem State.setHealth_mem (p : Nat) (h : Health) : (s.setHealth p h).mem = s.mem := rfl
@[simp] theorem State.setHealth_meas (p : Nat) (h : Health) : (s.setHealth p h).meas = s.meas := rfl
@[simp] theorem State.setHealth_act (p : Nat) (h : Health) : (s.setHealth p h).act = s.act := rfl
@[simp] theorem State.setHealth_eth (p : Nat) (h : Health) : (s.setHealth p h).eth = s.eth := rfl
@[simp] theorem State.setHealth_sedge (p : Nat) (h : Health) : (s.setHealth p h).sedge = s.sedge := rfl
@[simp] theorem State.setHealth_pcie (p : Nat) (h : Health) : (s.setHealth p h).pcie = s.pcie := rfl
@[simp] theorem State.setHealth_tel (p : Nat) (h : Health) : (s.setHealth p h).tel = s.tel := rfl
@[simp] theorem State.setHealth_gorse (p : Nat) (h : Health) : (s.setHealth p h).gorse = s.gorse := rfl
@[simp] theorem State.setHealth_dap (p : Nat) (h : Health) : (s.setHealth p h).dap = s.dap := rfl
@[simp] theorem State.setHealth_trace (p : Nat) (h : Health) : (s.setHealth p h).trace = s.trace := rfl

/-! ### setIdent -/

@[simp] theorem State.setIdent_pending (p i : Nat) : (s.setIdent p i).pending = s.pending := rfl
@[simp] theorem State.setIdent_now (p i : Nat) : (s.setIdent p i).now = s.now := rfl
@[simp] theorem State.setIdent_mono (p i : Nat) : (s.setIdent p i).mono = s.mono := rfl
@[simp] theorem State.setIdent_freeCtr (p i : Nat) : (s.setIdent p i).freeCtr = s.freeCtr := rfl
@[simp] theorem State.setIdent_resp (p i : Nat) : (s.setIdent p i).resp = s.resp := rfl
@[simp] theorem State.setIdent_out (p i : Nat) : (s.setIdent p i).out = s.out := rfl
@[simp] theorem State.setIdent_regs (p i : Nat) : (s.setIdent p i).regs = s.regs := rfl
@[simp] theorem State.setIdent_units (p i : Nat) : (s.setIdent p i).units = s.units := rfl
@[simp] theorem State.setIdent_latches (p i : Nat) : (s.setIdent p i).latches = s.latches := rfl
@[simp] theorem State.setIdent_tusUp (p i : Nat) : (s.setIdent p i).tusUp = s.tusUp := rfl
@[simp] theorem State.setIdent_mode (p i : Nat) : (s.setIdent p i).mode = s.mode := rfl
@[simp] theorem State.setIdent_sward (p i : Nat) : (s.setIdent p i).sward = s.sward := rfl
@[simp] theorem State.setIdent_fault (p i : Nat) : (s.setIdent p i).fault = { s.fault with ident := mapSet p s.fault.ident p i } := rfl
@[simp] theorem State.setIdent_peat (p i : Nat) : (s.setIdent p i).peat = s.peat := rfl
@[simp] theorem State.setIdent_time (p i : Nat) : (s.setIdent p i).time = s.time := rfl
@[simp] theorem State.setIdent_ling (p i : Nat) : (s.setIdent p i).ling = s.ling := rfl
@[simp] theorem State.setIdent_mem (p i : Nat) : (s.setIdent p i).mem = s.mem := rfl
@[simp] theorem State.setIdent_meas (p i : Nat) : (s.setIdent p i).meas = s.meas := rfl
@[simp] theorem State.setIdent_act (p i : Nat) : (s.setIdent p i).act = s.act := rfl
@[simp] theorem State.setIdent_eth (p i : Nat) : (s.setIdent p i).eth = s.eth := rfl
@[simp] theorem State.setIdent_sedge (p i : Nat) : (s.setIdent p i).sedge = s.sedge := rfl
@[simp] theorem State.setIdent_pcie (p i : Nat) : (s.setIdent p i).pcie = s.pcie := rfl
@[simp] theorem State.setIdent_tel (p i : Nat) : (s.setIdent p i).tel = s.tel := rfl
@[simp] theorem State.setIdent_gorse (p i : Nat) : (s.setIdent p i).gorse = s.gorse := rfl
@[simp] theorem State.setIdent_dap (p i : Nat) : (s.setIdent p i).dap = s.dap := rfl
@[simp] theorem State.setIdent_trace (p i : Nat) : (s.setIdent p i).trace = s.trace := rfl

/-! ### setMode -/

@[simp] theorem State.setMode_pending (m : ModeSt) : (s.setMode m).pending = s.pending := rfl
@[simp] theorem State.setMode_now (m : ModeSt) : (s.setMode m).now = s.now := rfl
@[simp] theorem State.setMode_mono (m : ModeSt) : (s.setMode m).mono = s.mono := rfl
@[simp] theorem State.setMode_freeCtr (m : ModeSt) : (s.setMode m).freeCtr = s.freeCtr := rfl
@[simp] theorem State.setMode_resp (m : ModeSt) : (s.setMode m).resp = s.resp := rfl
@[simp] theorem State.setMode_out (m : ModeSt) : (s.setMode m).out = s.out := rfl
@[simp] theorem State.setMode_regs (m : ModeSt) : (s.setMode m).regs = s.regs := rfl
@[simp] theorem State.setMode_units (m : ModeSt) : (s.setMode m).units = s.units := rfl
@[simp] theorem State.setMode_latches (m : ModeSt) : (s.setMode m).latches = s.latches := rfl
@[simp] theorem State.setMode_tusUp (m : ModeSt) : (s.setMode m).tusUp = s.tusUp := rfl
@[simp] theorem State.setMode_mode (m : ModeSt) : (s.setMode m).mode = m := rfl
@[simp] theorem State.setMode_sward (m : ModeSt) : (s.setMode m).sward = s.sward := rfl
@[simp] theorem State.setMode_fault (m : ModeSt) : (s.setMode m).fault = s.fault := rfl
@[simp] theorem State.setMode_peat (m : ModeSt) : (s.setMode m).peat = s.peat := rfl
@[simp] theorem State.setMode_time (m : ModeSt) : (s.setMode m).time = s.time := rfl
@[simp] theorem State.setMode_ling (m : ModeSt) : (s.setMode m).ling = s.ling := rfl
@[simp] theorem State.setMode_mem (m : ModeSt) : (s.setMode m).mem = s.mem := rfl
@[simp] theorem State.setMode_meas (m : ModeSt) : (s.setMode m).meas = s.meas := rfl
@[simp] theorem State.setMode_act (m : ModeSt) : (s.setMode m).act = s.act := rfl
@[simp] theorem State.setMode_eth (m : ModeSt) : (s.setMode m).eth = s.eth := rfl
@[simp] theorem State.setMode_sedge (m : ModeSt) : (s.setMode m).sedge = s.sedge := rfl
@[simp] theorem State.setMode_pcie (m : ModeSt) : (s.setMode m).pcie = s.pcie := rfl
@[simp] theorem State.setMode_tel (m : ModeSt) : (s.setMode m).tel = s.tel := rfl
@[simp] theorem State.setMode_gorse (m : ModeSt) : (s.setMode m).gorse = s.gorse := rfl
@[simp] theorem State.setMode_dap (m : ModeSt) : (s.setMode m).dap = s.dap := rfl
@[simp] theorem State.setMode_trace (m : ModeSt) : (s.setMode m).trace = s.trace := rfl

/-! ### setTime -/

@[simp] theorem State.setTime_pending (t : TimeSt) : (s.setTime t).pending = s.pending := rfl
@[simp] theorem State.setTime_now (t : TimeSt) : (s.setTime t).now = s.now := rfl
@[simp] theorem State.setTime_mono (t : TimeSt) : (s.setTime t).mono = s.mono := rfl
@[simp] theorem State.setTime_freeCtr (t : TimeSt) : (s.setTime t).freeCtr = s.freeCtr := rfl
@[simp] theorem State.setTime_resp (t : TimeSt) : (s.setTime t).resp = s.resp := rfl
@[simp] theorem State.setTime_out (t : TimeSt) : (s.setTime t).out = s.out := rfl
@[simp] theorem State.setTime_regs (t : TimeSt) : (s.setTime t).regs = s.regs := rfl
@[simp] theorem State.setTime_units (t : TimeSt) : (s.setTime t).units = s.units := rfl
@[simp] theorem State.setTime_latches (t : TimeSt) : (s.setTime t).latches = s.latches := rfl
@[simp] theorem State.setTime_tusUp (t : TimeSt) : (s.setTime t).tusUp = s.tusUp := rfl
@[simp] theorem State.setTime_mode (t : TimeSt) : (s.setTime t).mode = s.mode := rfl
@[simp] theorem State.setTime_sward (t : TimeSt) : (s.setTime t).sward = s.sward := rfl
@[simp] theorem State.setTime_fault (t : TimeSt) : (s.setTime t).fault = s.fault := rfl
@[simp] theorem State.setTime_peat (t : TimeSt) : (s.setTime t).peat = s.peat := rfl
@[simp] theorem State.setTime_time (t : TimeSt) : (s.setTime t).time = t := rfl
@[simp] theorem State.setTime_ling (t : TimeSt) : (s.setTime t).ling = s.ling := rfl
@[simp] theorem State.setTime_mem (t : TimeSt) : (s.setTime t).mem = s.mem := rfl
@[simp] theorem State.setTime_meas (t : TimeSt) : (s.setTime t).meas = s.meas := rfl
@[simp] theorem State.setTime_act (t : TimeSt) : (s.setTime t).act = s.act := rfl
@[simp] theorem State.setTime_eth (t : TimeSt) : (s.setTime t).eth = s.eth := rfl
@[simp] theorem State.setTime_sedge (t : TimeSt) : (s.setTime t).sedge = s.sedge := rfl
@[simp] theorem State.setTime_pcie (t : TimeSt) : (s.setTime t).pcie = s.pcie := rfl
@[simp] theorem State.setTime_tel (t : TimeSt) : (s.setTime t).tel = s.tel := rfl
@[simp] theorem State.setTime_gorse (t : TimeSt) : (s.setTime t).gorse = s.gorse := rfl
@[simp] theorem State.setTime_dap (t : TimeSt) : (s.setTime t).dap = s.dap := rfl
@[simp] theorem State.setTime_trace (t : TimeSt) : (s.setTime t).trace = s.trace := rfl

/-! ### setPeat -/

@[simp] theorem State.setPeat_pending (x : PeatSt) : (s.setPeat x).pending = s.pending := rfl
@[simp] theorem State.setPeat_now (x : PeatSt) : (s.setPeat x).now = s.now := rfl
@[simp] theorem State.setPeat_mono (x : PeatSt) : (s.setPeat x).mono = s.mono := rfl
@[simp] theorem State.setPeat_freeCtr (x : PeatSt) : (s.setPeat x).freeCtr = s.freeCtr := rfl
@[simp] theorem State.setPeat_resp (x : PeatSt) : (s.setPeat x).resp = s.resp := rfl
@[simp] theorem State.setPeat_out (x : PeatSt) : (s.setPeat x).out = s.out := rfl
@[simp] theorem State.setPeat_regs (x : PeatSt) : (s.setPeat x).regs = s.regs := rfl
@[simp] theorem State.setPeat_units (x : PeatSt) : (s.setPeat x).units = s.units := rfl
@[simp] theorem State.setPeat_latches (x : PeatSt) : (s.setPeat x).latches = s.latches := rfl
@[simp] theorem State.setPeat_tusUp (x : PeatSt) : (s.setPeat x).tusUp = s.tusUp := rfl
@[simp] theorem State.setPeat_mode (x : PeatSt) : (s.setPeat x).mode = s.mode := rfl
@[simp] theorem State.setPeat_sward (x : PeatSt) : (s.setPeat x).sward = s.sward := rfl
@[simp] theorem State.setPeat_fault (x : PeatSt) : (s.setPeat x).fault = s.fault := rfl
@[simp] theorem State.setPeat_peat (x : PeatSt) : (s.setPeat x).peat = x := rfl
@[simp] theorem State.setPeat_time (x : PeatSt) : (s.setPeat x).time = s.time := rfl
@[simp] theorem State.setPeat_ling (x : PeatSt) : (s.setPeat x).ling = s.ling := rfl
@[simp] theorem State.setPeat_mem (x : PeatSt) : (s.setPeat x).mem = s.mem := rfl
@[simp] theorem State.setPeat_meas (x : PeatSt) : (s.setPeat x).meas = s.meas := rfl
@[simp] theorem State.setPeat_act (x : PeatSt) : (s.setPeat x).act = s.act := rfl
@[simp] theorem State.setPeat_eth (x : PeatSt) : (s.setPeat x).eth = s.eth := rfl
@[simp] theorem State.setPeat_sedge (x : PeatSt) : (s.setPeat x).sedge = s.sedge := rfl
@[simp] theorem State.setPeat_pcie (x : PeatSt) : (s.setPeat x).pcie = s.pcie := rfl
@[simp] theorem State.setPeat_tel (x : PeatSt) : (s.setPeat x).tel = s.tel := rfl
@[simp] theorem State.setPeat_gorse (x : PeatSt) : (s.setPeat x).gorse = s.gorse := rfl
@[simp] theorem State.setPeat_dap (x : PeatSt) : (s.setPeat x).dap = s.dap := rfl
@[simp] theorem State.setPeat_trace (x : PeatSt) : (s.setPeat x).trace = s.trace := rfl

/-! ### setDap -/

@[simp] theorem State.setDap_pending (d : DapSt) : (s.setDap d).pending = s.pending := rfl
@[simp] theorem State.setDap_now (d : DapSt) : (s.setDap d).now = s.now := rfl
@[simp] theorem State.setDap_mono (d : DapSt) : (s.setDap d).mono = s.mono := rfl
@[simp] theorem State.setDap_freeCtr (d : DapSt) : (s.setDap d).freeCtr = s.freeCtr := rfl
@[simp] theorem State.setDap_resp (d : DapSt) : (s.setDap d).resp = s.resp := rfl
@[simp] theorem State.setDap_out (d : DapSt) : (s.setDap d).out = s.out := rfl
@[simp] theorem State.setDap_regs (d : DapSt) : (s.setDap d).regs = s.regs := rfl
@[simp] theorem State.setDap_units (d : DapSt) : (s.setDap d).units = s.units := rfl
@[simp] theorem State.setDap_latches (d : DapSt) : (s.setDap d).latches = s.latches := rfl
@[simp] theorem State.setDap_tusUp (d : DapSt) : (s.setDap d).tusUp = s.tusUp := rfl
@[simp] theorem State.setDap_mode (d : DapSt) : (s.setDap d).mode = s.mode := rfl
@[simp] theorem State.setDap_sward (d : DapSt) : (s.setDap d).sward = s.sward := rfl
@[simp] theorem State.setDap_fault (d : DapSt) : (s.setDap d).fault = s.fault := rfl
@[simp] theorem State.setDap_peat (d : DapSt) : (s.setDap d).peat = s.peat := rfl
@[simp] theorem State.setDap_time (d : DapSt) : (s.setDap d).time = s.time := rfl
@[simp] theorem State.setDap_ling (d : DapSt) : (s.setDap d).ling = s.ling := rfl
@[simp] theorem State.setDap_mem (d : DapSt) : (s.setDap d).mem = s.mem := rfl
@[simp] theorem State.setDap_meas (d : DapSt) : (s.setDap d).meas = s.meas := rfl
@[simp] theorem State.setDap_act (d : DapSt) : (s.setDap d).act = s.act := rfl
@[simp] theorem State.setDap_eth (d : DapSt) : (s.setDap d).eth = s.eth := rfl
@[simp] theorem State.setDap_sedge (d : DapSt) : (s.setDap d).sedge = s.sedge := rfl
@[simp] theorem State.setDap_pcie (d : DapSt) : (s.setDap d).pcie = s.pcie := rfl
@[simp] theorem State.setDap_tel (d : DapSt) : (s.setDap d).tel = s.tel := rfl
@[simp] theorem State.setDap_gorse (d : DapSt) : (s.setDap d).gorse = s.gorse := rfl
@[simp] theorem State.setDap_dap (d : DapSt) : (s.setDap d).dap = d := rfl
@[simp] theorem State.setDap_trace (d : DapSt) : (s.setDap d).trace = s.trace := rfl

/-! ### setGorse -/

@[simp] theorem State.setGorse_pending (g : GorseSt) : (s.setGorse g).pending = s.pending := rfl
@[simp] theorem State.setGorse_now (g : GorseSt) : (s.setGorse g).now = s.now := rfl
@[simp] theorem State.setGorse_mono (g : GorseSt) : (s.setGorse g).mono = s.mono := rfl
@[simp] theorem State.setGorse_freeCtr (g : GorseSt) : (s.setGorse g).freeCtr = s.freeCtr := rfl
@[simp] theorem State.setGorse_resp (g : GorseSt) : (s.setGorse g).resp = s.resp := rfl
@[simp] theorem State.setGorse_out (g : GorseSt) : (s.setGorse g).out = s.out := rfl
@[simp] theorem State.setGorse_regs (g : GorseSt) : (s.setGorse g).regs = s.regs := rfl
@[simp] theorem State.setGorse_units (g : GorseSt) : (s.setGorse g).units = s.units := rfl
@[simp] theorem State.setGorse_latches (g : GorseSt) : (s.setGorse g).latches = s.latches := rfl
@[simp] theorem State.setGorse_tusUp (g : GorseSt) : (s.setGorse g).tusUp = s.tusUp := rfl
@[simp] theorem State.setGorse_mode (g : GorseSt) : (s.setGorse g).mode = s.mode := rfl
@[simp] theorem State.setGorse_sward (g : GorseSt) : (s.setGorse g).sward = s.sward := rfl
@[simp] theorem State.setGorse_fault (g : GorseSt) : (s.setGorse g).fault = s.fault := rfl
@[simp] theorem State.setGorse_peat (g : GorseSt) : (s.setGorse g).peat = s.peat := rfl
@[simp] theorem State.setGorse_time (g : GorseSt) : (s.setGorse g).time = s.time := rfl
@[simp] theorem State.setGorse_ling (g : GorseSt) : (s.setGorse g).ling = s.ling := rfl
@[simp] theorem State.setGorse_mem (g : GorseSt) : (s.setGorse g).mem = s.mem := rfl
@[simp] theorem State.setGorse_meas (g : GorseSt) : (s.setGorse g).meas = s.meas := rfl
@[simp] theorem State.setGorse_act (g : GorseSt) : (s.setGorse g).act = s.act := rfl
@[simp] theorem State.setGorse_eth (g : GorseSt) : (s.setGorse g).eth = s.eth := rfl
@[simp] theorem State.setGorse_sedge (g : GorseSt) : (s.setGorse g).sedge = s.sedge := rfl
@[simp] theorem State.setGorse_pcie (g : GorseSt) : (s.setGorse g).pcie = s.pcie := rfl
@[simp] theorem State.setGorse_tel (g : GorseSt) : (s.setGorse g).tel = s.tel := rfl
@[simp] theorem State.setGorse_gorse (g : GorseSt) : (s.setGorse g).gorse = g := rfl
@[simp] theorem State.setGorse_dap (g : GorseSt) : (s.setGorse g).dap = s.dap := rfl
@[simp] theorem State.setGorse_trace (g : GorseSt) : (s.setGorse g).trace = s.trace := rfl

/-! ### setCore -/

@[simp] theorem State.setCore_pending (p : Nat) (c : Core) : (s.setCore p c).pending = s.pending := rfl
@[simp] theorem State.setCore_now (p : Nat) (c : Core) : (s.setCore p c).now = s.now := rfl
@[simp] theorem State.setCore_mono (p : Nat) (c : Core) : (s.setCore p c).mono = s.mono := rfl
@[simp] theorem State.setCore_freeCtr (p : Nat) (c : Core) : (s.setCore p c).freeCtr = s.freeCtr := rfl
@[simp] theorem State.setCore_resp (p : Nat) (c : Core) : (s.setCore p c).resp = s.resp := rfl
@[simp] theorem State.setCore_out (p : Nat) (c : Core) : (s.setCore p c).out = s.out := rfl
@[simp] theorem State.setCore_regs (p : Nat) (c : Core) : (s.setCore p c).regs = s.regs := rfl
@[simp] theorem State.setCore_units (p : Nat) (c : Core) : (s.setCore p c).units = s.units := rfl
@[simp] theorem State.setCore_latches (p : Nat) (c : Core) : (s.setCore p c).latches = s.latches := rfl
@[simp] theorem State.setCore_tusUp (p : Nat) (c : Core) : (s.setCore p c).tusUp = s.tusUp := rfl
@[simp] theorem State.setCore_mode (p : Nat) (c : Core) : (s.setCore p c).mode = s.mode := rfl
@[simp] theorem State.setCore_sward (p : Nat) (c : Core) : (s.setCore p c).sward = s.sward := rfl
@[simp] theorem State.setCore_fault (p : Nat) (c : Core) : (s.setCore p c).fault = s.fault := rfl
@[simp] theorem State.setCore_peat (p : Nat) (c : Core) : (s.setCore p c).peat = s.peat := rfl
@[simp] theorem State.setCore_time (p : Nat) (c : Core) : (s.setCore p c).time = s.time := rfl
@[simp] theorem State.setCore_ling (p : Nat) (c : Core) : (s.setCore p c).ling = { s.ling with cores := mapSet {} s.ling.cores p c } := rfl
@[simp] theorem State.setCore_mem (p : Nat) (c : Core) : (s.setCore p c).mem = s.mem := rfl
@[simp] theorem State.setCore_meas (p : Nat) (c : Core) : (s.setCore p c).meas = s.meas := rfl
@[simp] theorem State.setCore_act (p : Nat) (c : Core) : (s.setCore p c).act = s.act := rfl
@[simp] theorem State.setCore_eth (p : Nat) (c : Core) : (s.setCore p c).eth = s.eth := rfl
@[simp] theorem State.setCore_sedge (p : Nat) (c : Core) : (s.setCore p c).sedge = s.sedge := rfl
@[simp] theorem State.setCore_pcie (p : Nat) (c : Core) : (s.setCore p c).pcie = s.pcie := rfl
@[simp] theorem State.setCore_tel (p : Nat) (c : Core) : (s.setCore p c).tel = s.tel := rfl
@[simp] theorem State.setCore_gorse (p : Nat) (c : Core) : (s.setCore p c).gorse = s.gorse := rfl
@[simp] theorem State.setCore_dap (p : Nat) (c : Core) : (s.setCore p c).dap = s.dap := rfl
@[simp] theorem State.setCore_trace (p : Nat) (c : Core) : (s.setCore p c).trace = s.trace := rfl

/-! ### setBank -/

@[simp] theorem State.setBank_pending (p b : Nat) (x : Bank) : (s.setBank p b x).pending = s.pending := rfl
@[simp] theorem State.setBank_now (p b : Nat) (x : Bank) : (s.setBank p b x).now = s.now := rfl
@[simp] theorem State.setBank_mono (p b : Nat) (x : Bank) : (s.setBank p b x).mono = s.mono := rfl
@[simp] theorem State.setBank_freeCtr (p b : Nat) (x : Bank) : (s.setBank p b x).freeCtr = s.freeCtr := rfl
@[simp] theorem State.setBank_resp (p b : Nat) (x : Bank) : (s.setBank p b x).resp = s.resp := rfl
@[simp] theorem State.setBank_out (p b : Nat) (x : Bank) : (s.setBank p b x).out = s.out := rfl
@[simp] theorem State.setBank_regs (p b : Nat) (x : Bank) : (s.setBank p b x).regs = s.regs := rfl
@[simp] theorem State.setBank_units (p b : Nat) (x : Bank) : (s.setBank p b x).units = s.units := rfl
@[simp] theorem State.setBank_latches (p b : Nat) (x : Bank) : (s.setBank p b x).latches = s.latches := rfl
@[simp] theorem State.setBank_tusUp (p b : Nat) (x : Bank) : (s.setBank p b x).tusUp = s.tusUp := rfl
@[simp] theorem State.setBank_mode (p b : Nat) (x : Bank) : (s.setBank p b x).mode = s.mode := rfl
@[simp] theorem State.setBank_sward (p b : Nat) (x : Bank) : (s.setBank p b x).sward = s.sward := rfl
@[simp] theorem State.setBank_fault (p b : Nat) (x : Bank) : (s.setBank p b x).fault = s.fault := rfl
@[simp] theorem State.setBank_peat (p b : Nat) (x : Bank) : (s.setBank p b x).peat = s.peat := rfl
@[simp] theorem State.setBank_time (p b : Nat) (x : Bank) : (s.setBank p b x).time = s.time := rfl
@[simp] theorem State.setBank_ling (p b : Nat) (x : Bank) : (s.setBank p b x).ling = { s.ling with banks := mapSet (bankReset p b) s.ling.banks (8 * p + b) x } := rfl
@[simp] theorem State.setBank_mem (p b : Nat) (x : Bank) : (s.setBank p b x).mem = s.mem := rfl
@[simp] theorem State.setBank_meas (p b : Nat) (x : Bank) : (s.setBank p b x).meas = s.meas := rfl
@[simp] theorem State.setBank_act (p b : Nat) (x : Bank) : (s.setBank p b x).act = s.act := rfl
@[simp] theorem State.setBank_eth (p b : Nat) (x : Bank) : (s.setBank p b x).eth = s.eth := rfl
@[simp] theorem State.setBank_sedge (p b : Nat) (x : Bank) : (s.setBank p b x).sedge = s.sedge := rfl
@[simp] theorem State.setBank_pcie (p b : Nat) (x : Bank) : (s.setBank p b x).pcie = s.pcie := rfl
@[simp] theorem State.setBank_tel (p b : Nat) (x : Bank) : (s.setBank p b x).tel = s.tel := rfl
@[simp] theorem State.setBank_gorse (p b : Nat) (x : Bank) : (s.setBank p b x).gorse = s.gorse := rfl
@[simp] theorem State.setBank_dap (p b : Nat) (x : Bank) : (s.setBank p b x).dap = s.dap := rfl
@[simp] theorem State.setBank_trace (p b : Nat) (x : Bank) : (s.setBank p b x).trace = s.trace := rfl

/-! ### setChan -/

@[simp] theorem State.setChan_pending (c : Nat) (x : Chan) : (s.setChan c x).pending = s.pending := rfl
@[simp] theorem State.setChan_now (c : Nat) (x : Chan) : (s.setChan c x).now = s.now := rfl
@[simp] theorem State.setChan_mono (c : Nat) (x : Chan) : (s.setChan c x).mono = s.mono := rfl
@[simp] theorem State.setChan_freeCtr (c : Nat) (x : Chan) : (s.setChan c x).freeCtr = s.freeCtr := rfl
@[simp] theorem State.setChan_resp (c : Nat) (x : Chan) : (s.setChan c x).resp = s.resp := rfl
@[simp] theorem State.setChan_out (c : Nat) (x : Chan) : (s.setChan c x).out = s.out := rfl
@[simp] theorem State.setChan_regs (c : Nat) (x : Chan) : (s.setChan c x).regs = s.regs := rfl
@[simp] theorem State.setChan_units (c : Nat) (x : Chan) : (s.setChan c x).units = s.units := rfl
@[simp] theorem State.setChan_latches (c : Nat) (x : Chan) : (s.setChan c x).latches = s.latches := rfl
@[simp] theorem State.setChan_tusUp (c : Nat) (x : Chan) : (s.setChan c x).tusUp = s.tusUp := rfl
@[simp] theorem State.setChan_mode (c : Nat) (x : Chan) : (s.setChan c x).mode = s.mode := rfl
@[simp] theorem State.setChan_sward (c : Nat) (x : Chan) : (s.setChan c x).sward = s.sward := rfl
@[simp] theorem State.setChan_fault (c : Nat) (x : Chan) : (s.setChan c x).fault = s.fault := rfl
@[simp] theorem State.setChan_peat (c : Nat) (x : Chan) : (s.setChan c x).peat = s.peat := rfl
@[simp] theorem State.setChan_time (c : Nat) (x : Chan) : (s.setChan c x).time = s.time := rfl
@[simp] theorem State.setChan_ling (c : Nat) (x : Chan) : (s.setChan c x).ling = s.ling := rfl
@[simp] theorem State.setChan_mem (c : Nat) (x : Chan) : (s.setChan c x).mem = { s.mem with chans := mapSet {} s.mem.chans c x } := rfl
@[simp] theorem State.setChan_meas (c : Nat) (x : Chan) : (s.setChan c x).meas = s.meas := rfl
@[simp] theorem State.setChan_act (c : Nat) (x : Chan) : (s.setChan c x).act = s.act := rfl
@[simp] theorem State.setChan_eth (c : Nat) (x : Chan) : (s.setChan c x).eth = s.eth := rfl
@[simp] theorem State.setChan_sedge (c : Nat) (x : Chan) : (s.setChan c x).sedge = s.sedge := rfl
@[simp] theorem State.setChan_pcie (c : Nat) (x : Chan) : (s.setChan c x).pcie = s.pcie := rfl
@[simp] theorem State.setChan_tel (c : Nat) (x : Chan) : (s.setChan c x).tel = s.tel := rfl
@[simp] theorem State.setChan_gorse (c : Nat) (x : Chan) : (s.setChan c x).gorse = s.gorse := rfl
@[simp] theorem State.setChan_dap (c : Nat) (x : Chan) : (s.setChan c x).dap = s.dap := rfl
@[simp] theorem State.setChan_trace (c : Nat) (x : Chan) : (s.setChan c x).trace = s.trace := rfl

/-! ### setAtEntry -/

@[simp] theorem State.setAtEntry_pending (a m v : Nat) : (s.setAtEntry a m v).pending = s.pending := rfl
@[simp] theorem State.setAtEntry_now (a m v : Nat) : (s.setAtEntry a m v).now = s.now := rfl
@[simp] theorem State.setAtEntry_mono (a m v : Nat) : (s.setAtEntry a m v).mono = s.mono := rfl
@[simp] theorem State.setAtEntry_freeCtr (a m v : Nat) : (s.setAtEntry a m v).freeCtr = s.freeCtr := rfl
@[simp] theorem State.setAtEntry_resp (a m v : Nat) : (s.setAtEntry a m v).resp = s.resp := rfl
@[simp] theorem State.setAtEntry_out (a m v : Nat) : (s.setAtEntry a m v).out = s.out := rfl
@[simp] theorem State.setAtEntry_regs (a m v : Nat) : (s.setAtEntry a m v).regs = s.regs := rfl
@[simp] theorem State.setAtEntry_units (a m v : Nat) : (s.setAtEntry a m v).units = s.units := rfl
@[simp] theorem State.setAtEntry_latches (a m v : Nat) : (s.setAtEntry a m v).latches = s.latches := rfl
@[simp] theorem State.setAtEntry_tusUp (a m v : Nat) : (s.setAtEntry a m v).tusUp = s.tusUp := rfl
@[simp] theorem State.setAtEntry_mode (a m v : Nat) : (s.setAtEntry a m v).mode = s.mode := rfl
@[simp] theorem State.setAtEntry_sward (a m v : Nat) : (s.setAtEntry a m v).sward = { s.sward with atab := mapSet (atDefault m) s.sward.atab (4096 * a + m) (v % 512) } := rfl
@[simp] theorem State.setAtEntry_fault (a m v : Nat) : (s.setAtEntry a m v).fault = s.fault := rfl
@[simp] theorem State.setAtEntry_peat (a m v : Nat) : (s.setAtEntry a m v).peat = s.peat := rfl
@[simp] theorem State.setAtEntry_time (a m v : Nat) : (s.setAtEntry a m v).time = s.time := rfl
@[simp] theorem State.setAtEntry_ling (a m v : Nat) : (s.setAtEntry a m v).ling = s.ling := rfl
@[simp] theorem State.setAtEntry_mem (a m v : Nat) : (s.setAtEntry a m v).mem = s.mem := rfl
@[simp] theorem State.setAtEntry_meas (a m v : Nat) : (s.setAtEntry a m v).meas = s.meas := rfl
@[simp] theorem State.setAtEntry_act (a m v : Nat) : (s.setAtEntry a m v).act = s.act := rfl
@[simp] theorem State.setAtEntry_eth (a m v : Nat) : (s.setAtEntry a m v).eth = s.eth := rfl
@[simp] theorem State.setAtEntry_sedge (a m v : Nat) : (s.setAtEntry a m v).sedge = s.sedge := rfl
@[simp] theorem State.setAtEntry_pcie (a m v : Nat) : (s.setAtEntry a m v).pcie = s.pcie := rfl
@[simp] theorem State.setAtEntry_tel (a m v : Nat) : (s.setAtEntry a m v).tel = s.tel := rfl
@[simp] theorem State.setAtEntry_gorse (a m v : Nat) : (s.setAtEntry a m v).gorse = s.gorse := rfl
@[simp] theorem State.setAtEntry_dap (a m v : Nat) : (s.setAtEntry a m v).dap = s.dap := rfl
@[simp] theorem State.setAtEntry_trace (a m v : Nat) : (s.setAtEntry a m v).trace = s.trace := rfl

/-! ### setSub -/

@[simp] theorem State.setSub_pending (t l : Nat) (x : Sub) : (s.setSub t l x).pending = s.pending := rfl
@[simp] theorem State.setSub_now (t l : Nat) (x : Sub) : (s.setSub t l x).now = s.now := rfl
@[simp] theorem State.setSub_mono (t l : Nat) (x : Sub) : (s.setSub t l x).mono = s.mono := rfl
@[simp] theorem State.setSub_freeCtr (t l : Nat) (x : Sub) : (s.setSub t l x).freeCtr = s.freeCtr := rfl
@[simp] theorem State.setSub_resp (t l : Nat) (x : Sub) : (s.setSub t l x).resp = s.resp := rfl
@[simp] theorem State.setSub_out (t l : Nat) (x : Sub) : (s.setSub t l x).out = s.out := rfl
@[simp] theorem State.setSub_regs (t l : Nat) (x : Sub) : (s.setSub t l x).regs = s.regs := rfl
@[simp] theorem State.setSub_units (t l : Nat) (x : Sub) : (s.setSub t l x).units = s.units := rfl
@[simp] theorem State.setSub_latches (t l : Nat) (x : Sub) : (s.setSub t l x).latches = s.latches := rfl
@[simp] theorem State.setSub_tusUp (t l : Nat) (x : Sub) : (s.setSub t l x).tusUp = s.tusUp := rfl
@[simp] theorem State.setSub_mode (t l : Nat) (x : Sub) : (s.setSub t l x).mode = s.mode := rfl
@[simp] theorem State.setSub_sward (t l : Nat) (x : Sub) : (s.setSub t l x).sward = s.sward := rfl
@[simp] theorem State.setSub_fault (t l : Nat) (x : Sub) : (s.setSub t l x).fault = s.fault := rfl
@[simp] theorem State.setSub_peat (t l : Nat) (x : Sub) : (s.setSub t l x).peat = s.peat := rfl
@[simp] theorem State.setSub_time (t l : Nat) (x : Sub) : (s.setSub t l x).time = s.time := rfl
@[simp] theorem State.setSub_ling (t l : Nat) (x : Sub) : (s.setSub t l x).ling = s.ling := rfl
@[simp] theorem State.setSub_mem (t l : Nat) (x : Sub) : (s.setSub t l x).mem = { s.mem with subs := mapSet {} s.mem.subs (t * 2 ^ 34 + l) x } := rfl
@[simp] theorem State.setSub_meas (t l : Nat) (x : Sub) : (s.setSub t l x).meas = s.meas := rfl
@[simp] theorem State.setSub_act (t l : Nat) (x : Sub) : (s.setSub t l x).act = s.act := rfl
@[simp] theorem State.setSub_eth (t l : Nat) (x : Sub) : (s.setSub t l x).eth = s.eth := rfl
@[simp] theorem State.setSub_sedge (t l : Nat) (x : Sub) : (s.setSub t l x).sedge = s.sedge := rfl
@[simp] theorem State.setSub_pcie (t l : Nat) (x : Sub) : (s.setSub t l x).pcie = s.pcie := rfl
@[simp] theorem State.setSub_tel (t l : Nat) (x : Sub) : (s.setSub t l x).tel = s.tel := rfl
@[simp] theorem State.setSub_gorse (t l : Nat) (x : Sub) : (s.setSub t l x).gorse = s.gorse := rfl
@[simp] theorem State.setSub_dap (t l : Nat) (x : Sub) : (s.setSub t l x).dap = s.dap := rfl
@[simp] theorem State.setSub_trace (t l : Nat) (x : Sub) : (s.setSub t l x).trace = s.trace := rfl

/-! ### setSector -/

@[simp] theorem State.setSector_pending (t l : Nat) (x : Option Sector) : (s.setSector t l x).pending = s.pending := rfl
@[simp] theorem State.setSector_now (t l : Nat) (x : Option Sector) : (s.setSector t l x).now = s.now := rfl
@[simp] theorem State.setSector_mono (t l : Nat) (x : Option Sector) : (s.setSector t l x).mono = s.mono := rfl
@[simp] theorem State.setSector_freeCtr (t l : Nat) (x : Option Sector) : (s.setSector t l x).freeCtr = s.freeCtr := rfl
@[simp] theorem State.setSector_resp (t l : Nat) (x : Option Sector) : (s.setSector t l x).resp = s.resp := rfl
@[simp] theorem State.setSector_out (t l : Nat) (x : Option Sector) : (s.setSector t l x).out = s.out := rfl
@[simp] theorem State.setSector_regs (t l : Nat) (x : Option Sector) : (s.setSector t l x).regs = s.regs := rfl
@[simp] theorem State.setSector_units (t l : Nat) (x : Option Sector) : (s.setSector t l x).units = s.units := rfl
@[simp] theorem State.setSector_latches (t l : Nat) (x : Option Sector) : (s.setSector t l x).latches = s.latches := rfl
@[simp] theorem State.setSector_tusUp (t l : Nat) (x : Option Sector) : (s.setSector t l x).tusUp = s.tusUp := rfl
@[simp] theorem State.setSector_mode (t l : Nat) (x : Option Sector) : (s.setSector t l x).mode = s.mode := rfl
@[simp] theorem State.setSector_sward (t l : Nat) (x : Option Sector) : (s.setSector t l x).sward = s.sward := rfl
@[simp] theorem State.setSector_fault (t l : Nat) (x : Option Sector) : (s.setSector t l x).fault = s.fault := rfl
@[simp] theorem State.setSector_peat (t l : Nat) (x : Option Sector) : (s.setSector t l x).peat = s.peat := rfl
@[simp] theorem State.setSector_time (t l : Nat) (x : Option Sector) : (s.setSector t l x).time = s.time := rfl
@[simp] theorem State.setSector_ling (t l : Nat) (x : Option Sector) : (s.setSector t l x).ling = s.ling := rfl
@[simp] theorem State.setSector_mem (t l : Nat) (x : Option Sector) : (s.setSector t l x).mem = { s.mem with sectors := mapSet none s.mem.sectors (t * 2 ^ 32 + l / 4) x } := rfl
@[simp] theorem State.setSector_meas (t l : Nat) (x : Option Sector) : (s.setSector t l x).meas = s.meas := rfl
@[simp] theorem State.setSector_act (t l : Nat) (x : Option Sector) : (s.setSector t l x).act = s.act := rfl
@[simp] theorem State.setSector_eth (t l : Nat) (x : Option Sector) : (s.setSector t l x).eth = s.eth := rfl
@[simp] theorem State.setSector_sedge (t l : Nat) (x : Option Sector) : (s.setSector t l x).sedge = s.sedge := rfl
@[simp] theorem State.setSector_pcie (t l : Nat) (x : Option Sector) : (s.setSector t l x).pcie = s.pcie := rfl
@[simp] theorem State.setSector_tel (t l : Nat) (x : Option Sector) : (s.setSector t l x).tel = s.tel := rfl
@[simp] theorem State.setSector_gorse (t l : Nat) (x : Option Sector) : (s.setSector t l x).gorse = s.gorse := rfl
@[simp] theorem State.setSector_dap (t l : Nat) (x : Option Sector) : (s.setSector t l x).dap = s.dap := rfl
@[simp] theorem State.setSector_trace (t l : Nat) (x : Option Sector) : (s.setSector t l x).trace = s.trace := rfl

/-! ### setEvb -/

@[simp] theorem State.setEvb_pending (t : Nat) (x : List Evb) : (s.setEvb t x).pending = s.pending := rfl
@[simp] theorem State.setEvb_now (t : Nat) (x : List Evb) : (s.setEvb t x).now = s.now := rfl
@[simp] theorem State.setEvb_mono (t : Nat) (x : List Evb) : (s.setEvb t x).mono = s.mono := rfl
@[simp] theorem State.setEvb_freeCtr (t : Nat) (x : List Evb) : (s.setEvb t x).freeCtr = s.freeCtr := rfl
@[simp] theorem State.setEvb_resp (t : Nat) (x : List Evb) : (s.setEvb t x).resp = s.resp := rfl
@[simp] theorem State.setEvb_out (t : Nat) (x : List Evb) : (s.setEvb t x).out = s.out := rfl
@[simp] theorem State.setEvb_regs (t : Nat) (x : List Evb) : (s.setEvb t x).regs = s.regs := rfl
@[simp] theorem State.setEvb_units (t : Nat) (x : List Evb) : (s.setEvb t x).units = s.units := rfl
@[simp] theorem State.setEvb_latches (t : Nat) (x : List Evb) : (s.setEvb t x).latches = s.latches := rfl
@[simp] theorem State.setEvb_tusUp (t : Nat) (x : List Evb) : (s.setEvb t x).tusUp = s.tusUp := rfl
@[simp] theorem State.setEvb_mode (t : Nat) (x : List Evb) : (s.setEvb t x).mode = s.mode := rfl
@[simp] theorem State.setEvb_sward (t : Nat) (x : List Evb) : (s.setEvb t x).sward = s.sward := rfl
@[simp] theorem State.setEvb_fault (t : Nat) (x : List Evb) : (s.setEvb t x).fault = s.fault := rfl
@[simp] theorem State.setEvb_peat (t : Nat) (x : List Evb) : (s.setEvb t x).peat = s.peat := rfl
@[simp] theorem State.setEvb_time (t : Nat) (x : List Evb) : (s.setEvb t x).time = s.time := rfl
@[simp] theorem State.setEvb_ling (t : Nat) (x : List Evb) : (s.setEvb t x).ling = s.ling := rfl
@[simp] theorem State.setEvb_mem (t : Nat) (x : List Evb) : (s.setEvb t x).mem = { s.mem with evb := mapSet [] s.mem.evb t x } := rfl
@[simp] theorem State.setEvb_meas (t : Nat) (x : List Evb) : (s.setEvb t x).meas = s.meas := rfl
@[simp] theorem State.setEvb_act (t : Nat) (x : List Evb) : (s.setEvb t x).act = s.act := rfl
@[simp] theorem State.setEvb_eth (t : Nat) (x : List Evb) : (s.setEvb t x).eth = s.eth := rfl
@[simp] theorem State.setEvb_sedge (t : Nat) (x : List Evb) : (s.setEvb t x).sedge = s.sedge := rfl
@[simp] theorem State.setEvb_pcie (t : Nat) (x : List Evb) : (s.setEvb t x).pcie = s.pcie := rfl
@[simp] theorem State.setEvb_tel (t : Nat) (x : List Evb) : (s.setEvb t x).tel = s.tel := rfl
@[simp] theorem State.setEvb_gorse (t : Nat) (x : List Evb) : (s.setEvb t x).gorse = s.gorse := rfl
@[simp] theorem State.setEvb_dap (t : Nat) (x : List Evb) : (s.setEvb t x).dap = s.dap := rfl
@[simp] theorem State.setEvb_trace (t : Nat) (x : List Evb) : (s.setEvb t x).trace = s.trace := rfl

/-! ### setDir -/

@[simp] theorem State.setDir_pending (k : Nat) (e : Option DirEnt) : (s.setDir k e).pending = s.pending := rfl
@[simp] theorem State.setDir_now (k : Nat) (e : Option DirEnt) : (s.setDir k e).now = s.now := rfl
@[simp] theorem State.setDir_mono (k : Nat) (e : Option DirEnt) : (s.setDir k e).mono = s.mono := rfl
@[simp] theorem State.setDir_freeCtr (k : Nat) (e : Option DirEnt) : (s.setDir k e).freeCtr = s.freeCtr := rfl
@[simp] theorem State.setDir_resp (k : Nat) (e : Option DirEnt) : (s.setDir k e).resp = s.resp := rfl
@[simp] theorem State.setDir_out (k : Nat) (e : Option DirEnt) : (s.setDir k e).out = s.out := rfl
@[simp] theorem State.setDir_regs (k : Nat) (e : Option DirEnt) : (s.setDir k e).regs = s.regs := rfl
@[simp] theorem State.setDir_units (k : Nat) (e : Option DirEnt) : (s.setDir k e).units = s.units := rfl
@[simp] theorem State.setDir_latches (k : Nat) (e : Option DirEnt) : (s.setDir k e).latches = s.latches := rfl
@[simp] theorem State.setDir_tusUp (k : Nat) (e : Option DirEnt) : (s.setDir k e).tusUp = s.tusUp := rfl
@[simp] theorem State.setDir_mode (k : Nat) (e : Option DirEnt) : (s.setDir k e).mode = s.mode := rfl
@[simp] theorem State.setDir_sward (k : Nat) (e : Option DirEnt) : (s.setDir k e).sward = s.sward := rfl
@[simp] theorem State.setDir_fault (k : Nat) (e : Option DirEnt) : (s.setDir k e).fault = s.fault := rfl
@[simp] theorem State.setDir_peat (k : Nat) (e : Option DirEnt) : (s.setDir k e).peat = s.peat := rfl
@[simp] theorem State.setDir_time (k : Nat) (e : Option DirEnt) : (s.setDir k e).time = s.time := rfl
@[simp] theorem State.setDir_ling (k : Nat) (e : Option DirEnt) : (s.setDir k e).ling = s.ling := rfl
@[simp] theorem State.setDir_mem (k : Nat) (e : Option DirEnt) : (s.setDir k e).mem = { s.mem with dir := mapSet none s.mem.dir k e } := rfl
@[simp] theorem State.setDir_meas (k : Nat) (e : Option DirEnt) : (s.setDir k e).meas = s.meas := rfl
@[simp] theorem State.setDir_act (k : Nat) (e : Option DirEnt) : (s.setDir k e).act = s.act := rfl
@[simp] theorem State.setDir_eth (k : Nat) (e : Option DirEnt) : (s.setDir k e).eth = s.eth := rfl
@[simp] theorem State.setDir_sedge (k : Nat) (e : Option DirEnt) : (s.setDir k e).sedge = s.sedge := rfl
@[simp] theorem State.setDir_pcie (k : Nat) (e : Option DirEnt) : (s.setDir k e).pcie = s.pcie := rfl
@[simp] theorem State.setDir_tel (k : Nat) (e : Option DirEnt) : (s.setDir k e).tel = s.tel := rfl
@[simp] theorem State.setDir_gorse (k : Nat) (e : Option DirEnt) : (s.setDir k e).gorse = s.gorse := rfl
@[simp] theorem State.setDir_dap (k : Nat) (e : Option DirEnt) : (s.setDir k e).dap = s.dap := rfl
@[simp] theorem State.setDir_trace (k : Nat) (e : Option DirEnt) : (s.setDir k e).trace = s.trace := rfl

/-! ### setTxn -/

@[simp] theorem State.setTxn_pending (k : Nat) (t : Option HomeTxn) : (s.setTxn k t).pending = s.pending := rfl
@[simp] theorem State.setTxn_now (k : Nat) (t : Option HomeTxn) : (s.setTxn k t).now = s.now := rfl
@[simp] theorem State.setTxn_mono (k : Nat) (t : Option HomeTxn) : (s.setTxn k t).mono = s.mono := rfl
@[simp] theorem State.setTxn_freeCtr (k : Nat) (t : Option HomeTxn) : (s.setTxn k t).freeCtr = s.freeCtr := rfl
@[simp] theorem State.setTxn_resp (k : Nat) (t : Option HomeTxn) : (s.setTxn k t).resp = s.resp := rfl
@[simp] theorem State.setTxn_out (k : Nat) (t : Option HomeTxn) : (s.setTxn k t).out = s.out := rfl
@[simp] theorem State.setTxn_regs (k : Nat) (t : Option HomeTxn) : (s.setTxn k t).regs = s.regs := rfl
@[simp] theorem State.setTxn_units (k : Nat) (t : Option HomeTxn) : (s.setTxn k t).units = s.units := rfl
@[simp] theorem State.setTxn_latches (k : Nat) (t : Option HomeTxn) : (s.setTxn k t).latches = s.latches := rfl
@[simp] theorem State.setTxn_tusUp (k : Nat) (t : Option HomeTxn) : (s.setTxn k t).tusUp = s.tusUp := rfl
@[simp] theorem State.setTxn_mode (k : Nat) (t : Option HomeTxn) : (s.setTxn k t).mode = s.mode := rfl
@[simp] theorem State.setTxn_sward (k : Nat) (t : Option HomeTxn) : (s.setTxn k t).sward = s.sward := rfl
@[simp] theorem State.setTxn_fault (k : Nat) (t : Option HomeTxn) : (s.setTxn k t).fault = s.fault := rfl
@[simp] theorem State.setTxn_peat (k : Nat) (t : Option HomeTxn) : (s.setTxn k t).peat = s.peat := rfl
@[simp] theorem State.setTxn_time (k : Nat) (t : Option HomeTxn) : (s.setTxn k t).time = s.time := rfl
@[simp] theorem State.setTxn_ling (k : Nat) (t : Option HomeTxn) : (s.setTxn k t).ling = s.ling := rfl
@[simp] theorem State.setTxn_mem (k : Nat) (t : Option HomeTxn) : (s.setTxn k t).mem = { s.mem with txn := mapSet none s.mem.txn k t } := rfl
@[simp] theorem State.setTxn_meas (k : Nat) (t : Option HomeTxn) : (s.setTxn k t).meas = s.meas := rfl
@[simp] theorem State.setTxn_act (k : Nat) (t : Option HomeTxn) : (s.setTxn k t).act = s.act := rfl
@[simp] theorem State.setTxn_eth (k : Nat) (t : Option HomeTxn) : (s.setTxn k t).eth = s.eth := rfl
@[simp] theorem State.setTxn_sedge (k : Nat) (t : Option HomeTxn) : (s.setTxn k t).sedge = s.sedge := rfl
@[simp] theorem State.setTxn_pcie (k : Nat) (t : Option HomeTxn) : (s.setTxn k t).pcie = s.pcie := rfl
@[simp] theorem State.setTxn_tel (k : Nat) (t : Option HomeTxn) : (s.setTxn k t).tel = s.tel := rfl
@[simp] theorem State.setTxn_gorse (k : Nat) (t : Option HomeTxn) : (s.setTxn k t).gorse = s.gorse := rfl
@[simp] theorem State.setTxn_dap (k : Nat) (t : Option HomeTxn) : (s.setTxn k t).dap = s.dap := rfl
@[simp] theorem State.setTxn_trace (k : Nat) (t : Option HomeTxn) : (s.setTxn k t).trace = s.trace := rfl

/-! ### setLoop -/

@[simp] theorem State.setLoop_pending (n : Nat) (x : LoopSt) : (s.setLoop n x).pending = s.pending := rfl
@[simp] theorem State.setLoop_now (n : Nat) (x : LoopSt) : (s.setLoop n x).now = s.now := rfl
@[simp] theorem State.setLoop_mono (n : Nat) (x : LoopSt) : (s.setLoop n x).mono = s.mono := rfl
@[simp] theorem State.setLoop_freeCtr (n : Nat) (x : LoopSt) : (s.setLoop n x).freeCtr = s.freeCtr := rfl
@[simp] theorem State.setLoop_resp (n : Nat) (x : LoopSt) : (s.setLoop n x).resp = s.resp := rfl
@[simp] theorem State.setLoop_out (n : Nat) (x : LoopSt) : (s.setLoop n x).out = s.out := rfl
@[simp] theorem State.setLoop_regs (n : Nat) (x : LoopSt) : (s.setLoop n x).regs = s.regs := rfl
@[simp] theorem State.setLoop_units (n : Nat) (x : LoopSt) : (s.setLoop n x).units = s.units := rfl
@[simp] theorem State.setLoop_latches (n : Nat) (x : LoopSt) : (s.setLoop n x).latches = s.latches := rfl
@[simp] theorem State.setLoop_tusUp (n : Nat) (x : LoopSt) : (s.setLoop n x).tusUp = s.tusUp := rfl
@[simp] theorem State.setLoop_mode (n : Nat) (x : LoopSt) : (s.setLoop n x).mode = s.mode := rfl
@[simp] theorem State.setLoop_sward (n : Nat) (x : LoopSt) : (s.setLoop n x).sward = s.sward := rfl
@[simp] theorem State.setLoop_fault (n : Nat) (x : LoopSt) : (s.setLoop n x).fault = s.fault := rfl
@[simp] theorem State.setLoop_peat (n : Nat) (x : LoopSt) : (s.setLoop n x).peat = s.peat := rfl
@[simp] theorem State.setLoop_time (n : Nat) (x : LoopSt) : (s.setLoop n x).time = s.time := rfl
@[simp] theorem State.setLoop_ling (n : Nat) (x : LoopSt) : (s.setLoop n x).ling = s.ling := rfl
@[simp] theorem State.setLoop_mem (n : Nat) (x : LoopSt) : (s.setLoop n x).mem = s.mem := rfl
@[simp] theorem State.setLoop_meas (n : Nat) (x : LoopSt) : (s.setLoop n x).meas = s.meas := rfl
@[simp] theorem State.setLoop_act (n : Nat) (x : LoopSt) : (s.setLoop n x).act = { s.act with loops := mapSet {} s.act.loops n x } := rfl
@[simp] theorem State.setLoop_eth (n : Nat) (x : LoopSt) : (s.setLoop n x).eth = s.eth := rfl
@[simp] theorem State.setLoop_sedge (n : Nat) (x : LoopSt) : (s.setLoop n x).sedge = s.sedge := rfl
@[simp] theorem State.setLoop_pcie (n : Nat) (x : LoopSt) : (s.setLoop n x).pcie = s.pcie := rfl
@[simp] theorem State.setLoop_tel (n : Nat) (x : LoopSt) : (s.setLoop n x).tel = s.tel := rfl
@[simp] theorem State.setLoop_gorse (n : Nat) (x : LoopSt) : (s.setLoop n x).gorse = s.gorse := rfl
@[simp] theorem State.setLoop_dap (n : Nat) (x : LoopSt) : (s.setLoop n x).dap = s.dap := rfl
@[simp] theorem State.setLoop_trace (n : Nat) (x : LoopSt) : (s.setLoop n x).trace = s.trace := rfl

/-! ### setPwm -/

@[simp] theorem State.setPwm_pending (m : Nat) (x : PwmSt) : (s.setPwm m x).pending = s.pending := rfl
@[simp] theorem State.setPwm_now (m : Nat) (x : PwmSt) : (s.setPwm m x).now = s.now := rfl
@[simp] theorem State.setPwm_mono (m : Nat) (x : PwmSt) : (s.setPwm m x).mono = s.mono := rfl
@[simp] theorem State.setPwm_freeCtr (m : Nat) (x : PwmSt) : (s.setPwm m x).freeCtr = s.freeCtr := rfl
@[simp] theorem State.setPwm_resp (m : Nat) (x : PwmSt) : (s.setPwm m x).resp = s.resp := rfl
@[simp] theorem State.setPwm_out (m : Nat) (x : PwmSt) : (s.setPwm m x).out = s.out := rfl
@[simp] theorem State.setPwm_regs (m : Nat) (x : PwmSt) : (s.setPwm m x).regs = s.regs := rfl
@[simp] theorem State.setPwm_units (m : Nat) (x : PwmSt) : (s.setPwm m x).units = s.units := rfl
@[simp] theorem State.setPwm_latches (m : Nat) (x : PwmSt) : (s.setPwm m x).latches = s.latches := rfl
@[simp] theorem State.setPwm_tusUp (m : Nat) (x : PwmSt) : (s.setPwm m x).tusUp = s.tusUp := rfl
@[simp] theorem State.setPwm_mode (m : Nat) (x : PwmSt) : (s.setPwm m x).mode = s.mode := rfl
@[simp] theorem State.setPwm_sward (m : Nat) (x : PwmSt) : (s.setPwm m x).sward = s.sward := rfl
@[simp] theorem State.setPwm_fault (m : Nat) (x : PwmSt) : (s.setPwm m x).fault = s.fault := rfl
@[simp] theorem State.setPwm_peat (m : Nat) (x : PwmSt) : (s.setPwm m x).peat = s.peat := rfl
@[simp] theorem State.setPwm_time (m : Nat) (x : PwmSt) : (s.setPwm m x).time = s.time := rfl
@[simp] theorem State.setPwm_ling (m : Nat) (x : PwmSt) : (s.setPwm m x).ling = s.ling := rfl
@[simp] theorem State.setPwm_mem (m : Nat) (x : PwmSt) : (s.setPwm m x).mem = s.mem := rfl
@[simp] theorem State.setPwm_meas (m : Nat) (x : PwmSt) : (s.setPwm m x).meas = s.meas := rfl
@[simp] theorem State.setPwm_act (m : Nat) (x : PwmSt) : (s.setPwm m x).act = { s.act with pwm := mapSet {} s.act.pwm m x } := rfl
@[simp] theorem State.setPwm_eth (m : Nat) (x : PwmSt) : (s.setPwm m x).eth = s.eth := rfl
@[simp] theorem State.setPwm_sedge (m : Nat) (x : PwmSt) : (s.setPwm m x).sedge = s.sedge := rfl
@[simp] theorem State.setPwm_pcie (m : Nat) (x : PwmSt) : (s.setPwm m x).pcie = s.pcie := rfl
@[simp] theorem State.setPwm_tel (m : Nat) (x : PwmSt) : (s.setPwm m x).tel = s.tel := rfl
@[simp] theorem State.setPwm_gorse (m : Nat) (x : PwmSt) : (s.setPwm m x).gorse = s.gorse := rfl
@[simp] theorem State.setPwm_dap (m : Nat) (x : PwmSt) : (s.setPwm m x).dap = s.dap := rfl
@[simp] theorem State.setPwm_trace (m : Nat) (x : PwmSt) : (s.setPwm m x).trace = s.trace := rfl

/-! ### setCh -/

@[simp] theorem State.setCh_pending (n : Nat) (x : ChSt) : (s.setCh n x).pending = s.pending := rfl
@[simp] theorem State.setCh_now (n : Nat) (x : ChSt) : (s.setCh n x).now = s.now := rfl
@[simp] theorem State.setCh_mono (n : Nat) (x : ChSt) : (s.setCh n x).mono = s.mono := rfl
@[simp] theorem State.setCh_freeCtr (n : Nat) (x : ChSt) : (s.setCh n x).freeCtr = s.freeCtr := rfl
@[simp] theorem State.setCh_resp (n : Nat) (x : ChSt) : (s.setCh n x).resp = s.resp := rfl
@[simp] theorem State.setCh_out (n : Nat) (x : ChSt) : (s.setCh n x).out = s.out := rfl
@[simp] theorem State.setCh_regs (n : Nat) (x : ChSt) : (s.setCh n x).regs = s.regs := rfl
@[simp] theorem State.setCh_units (n : Nat) (x : ChSt) : (s.setCh n x).units = s.units := rfl
@[simp] theorem State.setCh_latches (n : Nat) (x : ChSt) : (s.setCh n x).latches = s.latches := rfl
@[simp] theorem State.setCh_tusUp (n : Nat) (x : ChSt) : (s.setCh n x).tusUp = s.tusUp := rfl
@[simp] theorem State.setCh_mode (n : Nat) (x : ChSt) : (s.setCh n x).mode = s.mode := rfl
@[simp] theorem State.setCh_sward (n : Nat) (x : ChSt) : (s.setCh n x).sward = s.sward := rfl
@[simp] theorem State.setCh_fault (n : Nat) (x : ChSt) : (s.setCh n x).fault = s.fault := rfl
@[simp] theorem State.setCh_peat (n : Nat) (x : ChSt) : (s.setCh n x).peat = s.peat := rfl
@[simp] theorem State.setCh_time (n : Nat) (x : ChSt) : (s.setCh n x).time = s.time := rfl
@[simp] theorem State.setCh_ling (n : Nat) (x : ChSt) : (s.setCh n x).ling = s.ling := rfl
@[simp] theorem State.setCh_mem (n : Nat) (x : ChSt) : (s.setCh n x).mem = s.mem := rfl
@[simp] theorem State.setCh_meas (n : Nat) (x : ChSt) : (s.setCh n x).meas = { s.meas with ch := mapSet {} s.meas.ch n x } := rfl
@[simp] theorem State.setCh_act (n : Nat) (x : ChSt) : (s.setCh n x).act = s.act := rfl
@[simp] theorem State.setCh_eth (n : Nat) (x : ChSt) : (s.setCh n x).eth = s.eth := rfl
@[simp] theorem State.setCh_sedge (n : Nat) (x : ChSt) : (s.setCh n x).sedge = s.sedge := rfl
@[simp] theorem State.setCh_pcie (n : Nat) (x : ChSt) : (s.setCh n x).pcie = s.pcie := rfl
@[simp] theorem State.setCh_tel (n : Nat) (x : ChSt) : (s.setCh n x).tel = s.tel := rfl
@[simp] theorem State.setCh_gorse (n : Nat) (x : ChSt) : (s.setCh n x).gorse = s.gorse := rfl
@[simp] theorem State.setCh_dap (n : Nat) (x : ChSt) : (s.setCh n x).dap = s.dap := rfl
@[simp] theorem State.setCh_trace (n : Nat) (x : ChSt) : (s.setCh n x).trace = s.trace := rfl

/-! ### setEvi -/

@[simp] theorem State.setEvi_pending (n : Nat) (x : EviSt) : (s.setEvi n x).pending = s.pending := rfl
@[simp] theorem State.setEvi_now (n : Nat) (x : EviSt) : (s.setEvi n x).now = s.now := rfl
@[simp] theorem State.setEvi_mono (n : Nat) (x : EviSt) : (s.setEvi n x).mono = s.mono := rfl
@[simp] theorem State.setEvi_freeCtr (n : Nat) (x : EviSt) : (s.setEvi n x).freeCtr = s.freeCtr := rfl
@[simp] theorem State.setEvi_resp (n : Nat) (x : EviSt) : (s.setEvi n x).resp = s.resp := rfl
@[simp] theorem State.setEvi_out (n : Nat) (x : EviSt) : (s.setEvi n x).out = s.out := rfl
@[simp] theorem State.setEvi_regs (n : Nat) (x : EviSt) : (s.setEvi n x).regs = s.regs := rfl
@[simp] theorem State.setEvi_units (n : Nat) (x : EviSt) : (s.setEvi n x).units = s.units := rfl
@[simp] theorem State.setEvi_latches (n : Nat) (x : EviSt) : (s.setEvi n x).latches = s.latches := rfl
@[simp] theorem State.setEvi_tusUp (n : Nat) (x : EviSt) : (s.setEvi n x).tusUp = s.tusUp := rfl
@[simp] theorem State.setEvi_mode (n : Nat) (x : EviSt) : (s.setEvi n x).mode = s.mode := rfl
@[simp] theorem State.setEvi_sward (n : Nat) (x : EviSt) : (s.setEvi n x).sward = s.sward := rfl
@[simp] theorem State.setEvi_fault (n : Nat) (x : EviSt) : (s.setEvi n x).fault = s.fault := rfl
@[simp] theorem State.setEvi_peat (n : Nat) (x : EviSt) : (s.setEvi n x).peat = s.peat := rfl
@[simp] theorem State.setEvi_time (n : Nat) (x : EviSt) : (s.setEvi n x).time = s.time := rfl
@[simp] theorem State.setEvi_ling (n : Nat) (x : EviSt) : (s.setEvi n x).ling = s.ling := rfl
@[simp] theorem State.setEvi_mem (n : Nat) (x : EviSt) : (s.setEvi n x).mem = s.mem := rfl
@[simp] theorem State.setEvi_meas (n : Nat) (x : EviSt) : (s.setEvi n x).meas = { s.meas with evi := mapSet {} s.meas.evi n x } := rfl
@[simp] theorem State.setEvi_act (n : Nat) (x : EviSt) : (s.setEvi n x).act = s.act := rfl
@[simp] theorem State.setEvi_eth (n : Nat) (x : EviSt) : (s.setEvi n x).eth = s.eth := rfl
@[simp] theorem State.setEvi_sedge (n : Nat) (x : EviSt) : (s.setEvi n x).sedge = s.sedge := rfl
@[simp] theorem State.setEvi_pcie (n : Nat) (x : EviSt) : (s.setEvi n x).pcie = s.pcie := rfl
@[simp] theorem State.setEvi_tel (n : Nat) (x : EviSt) : (s.setEvi n x).tel = s.tel := rfl
@[simp] theorem State.setEvi_gorse (n : Nat) (x : EviSt) : (s.setEvi n x).gorse = s.gorse := rfl
@[simp] theorem State.setEvi_dap (n : Nat) (x : EviSt) : (s.setEvi n x).dap = s.dap := rfl
@[simp] theorem State.setEvi_trace (n : Nat) (x : EviSt) : (s.setEvi n x).trace = s.trace := rfl

/-! ### setThread -/

@[simp] theorem State.setThread_pending (t : Nat) (x : Thread) : (s.setThread t x).pending = s.pending := rfl
@[simp] theorem State.setThread_now (t : Nat) (x : Thread) : (s.setThread t x).now = s.now := rfl
@[simp] theorem State.setThread_mono (t : Nat) (x : Thread) : (s.setThread t x).mono = s.mono := rfl
@[simp] theorem State.setThread_freeCtr (t : Nat) (x : Thread) : (s.setThread t x).freeCtr = s.freeCtr := rfl
@[simp] theorem State.setThread_resp (t : Nat) (x : Thread) : (s.setThread t x).resp = s.resp := rfl
@[simp] theorem State.setThread_out (t : Nat) (x : Thread) : (s.setThread t x).out = s.out := rfl
@[simp] theorem State.setThread_regs (t : Nat) (x : Thread) : (s.setThread t x).regs = s.regs := rfl
@[simp] theorem State.setThread_units (t : Nat) (x : Thread) : (s.setThread t x).units = s.units := rfl
@[simp] theorem State.setThread_latches (t : Nat) (x : Thread) : (s.setThread t x).latches = s.latches := rfl
@[simp] theorem State.setThread_tusUp (t : Nat) (x : Thread) : (s.setThread t x).tusUp = s.tusUp := rfl
@[simp] theorem State.setThread_mode (t : Nat) (x : Thread) : (s.setThread t x).mode = s.mode := rfl
@[simp] theorem State.setThread_sward (t : Nat) (x : Thread) : (s.setThread t x).sward = s.sward := rfl
@[simp] theorem State.setThread_fault (t : Nat) (x : Thread) : (s.setThread t x).fault = s.fault := rfl
@[simp] theorem State.setThread_peat (t : Nat) (x : Thread) : (s.setThread t x).peat = s.peat := rfl
@[simp] theorem State.setThread_time (t : Nat) (x : Thread) : (s.setThread t x).time = s.time := rfl
@[simp] theorem State.setThread_ling (t : Nat) (x : Thread) : (s.setThread t x).ling = s.ling := rfl
@[simp] theorem State.setThread_mem (t : Nat) (x : Thread) : (s.setThread t x).mem = s.mem := rfl
@[simp] theorem State.setThread_meas (t : Nat) (x : Thread) : (s.setThread t x).meas = s.meas := rfl
@[simp] theorem State.setThread_act (t : Nat) (x : Thread) : (s.setThread t x).act = s.act := rfl
@[simp] theorem State.setThread_eth (t : Nat) (x : Thread) : (s.setThread t x).eth = s.eth := rfl
@[simp] theorem State.setThread_sedge (t : Nat) (x : Thread) : (s.setThread t x).sedge = { s.sedge with threads := mapSet {} s.sedge.threads t x } := rfl
@[simp] theorem State.setThread_pcie (t : Nat) (x : Thread) : (s.setThread t x).pcie = s.pcie := rfl
@[simp] theorem State.setThread_tel (t : Nat) (x : Thread) : (s.setThread t x).tel = s.tel := rfl
@[simp] theorem State.setThread_gorse (t : Nat) (x : Thread) : (s.setThread t x).gorse = s.gorse := rfl
@[simp] theorem State.setThread_dap (t : Nat) (x : Thread) : (s.setThread t x).dap = s.dap := rfl
@[simp] theorem State.setThread_trace (t : Nat) (x : Thread) : (s.setThread t x).trace = s.trace := rfl

/-! ### setEng -/

@[simp] theorem State.setEng_pending (e : Nat) (x : Eng) : (s.setEng e x).pending = s.pending := rfl
@[simp] theorem State.setEng_now (e : Nat) (x : Eng) : (s.setEng e x).now = s.now := rfl
@[simp] theorem State.setEng_mono (e : Nat) (x : Eng) : (s.setEng e x).mono = s.mono := rfl
@[simp] theorem State.setEng_freeCtr (e : Nat) (x : Eng) : (s.setEng e x).freeCtr = s.freeCtr := rfl
@[simp] theorem State.setEng_resp (e : Nat) (x : Eng) : (s.setEng e x).resp = s.resp := rfl
@[simp] theorem State.setEng_out (e : Nat) (x : Eng) : (s.setEng e x).out = s.out := rfl
@[simp] theorem State.setEng_regs (e : Nat) (x : Eng) : (s.setEng e x).regs = s.regs := rfl
@[simp] theorem State.setEng_units (e : Nat) (x : Eng) : (s.setEng e x).units = s.units := rfl
@[simp] theorem State.setEng_latches (e : Nat) (x : Eng) : (s.setEng e x).latches = s.latches := rfl
@[simp] theorem State.setEng_tusUp (e : Nat) (x : Eng) : (s.setEng e x).tusUp = s.tusUp := rfl
@[simp] theorem State.setEng_mode (e : Nat) (x : Eng) : (s.setEng e x).mode = s.mode := rfl
@[simp] theorem State.setEng_sward (e : Nat) (x : Eng) : (s.setEng e x).sward = s.sward := rfl
@[simp] theorem State.setEng_fault (e : Nat) (x : Eng) : (s.setEng e x).fault = s.fault := rfl
@[simp] theorem State.setEng_peat (e : Nat) (x : Eng) : (s.setEng e x).peat = s.peat := rfl
@[simp] theorem State.setEng_time (e : Nat) (x : Eng) : (s.setEng e x).time = s.time := rfl
@[simp] theorem State.setEng_ling (e : Nat) (x : Eng) : (s.setEng e x).ling = s.ling := rfl
@[simp] theorem State.setEng_mem (e : Nat) (x : Eng) : (s.setEng e x).mem = s.mem := rfl
@[simp] theorem State.setEng_meas (e : Nat) (x : Eng) : (s.setEng e x).meas = s.meas := rfl
@[simp] theorem State.setEng_act (e : Nat) (x : Eng) : (s.setEng e x).act = s.act := rfl
@[simp] theorem State.setEng_eth (e : Nat) (x : Eng) : (s.setEng e x).eth = s.eth := rfl
@[simp] theorem State.setEng_sedge (e : Nat) (x : Eng) : (s.setEng e x).sedge = { s.sedge with engs := mapSet {} s.sedge.engs e x } := rfl
@[simp] theorem State.setEng_pcie (e : Nat) (x : Eng) : (s.setEng e x).pcie = s.pcie := rfl
@[simp] theorem State.setEng_tel (e : Nat) (x : Eng) : (s.setEng e x).tel = s.tel := rfl
@[simp] theorem State.setEng_gorse (e : Nat) (x : Eng) : (s.setEng e x).gorse = s.gorse := rfl
@[simp] theorem State.setEng_dap (e : Nat) (x : Eng) : (s.setEng e x).dap = s.dap := rfl
@[simp] theorem State.setEng_trace (e : Nat) (x : Eng) : (s.setEng e x).trace = s.trace := rfl

/-! ### setFrame -/

@[simp] theorem State.setFrame_pending (f : Nat) (x : Frame) : (s.setFrame f x).pending = s.pending := rfl
@[simp] theorem State.setFrame_now (f : Nat) (x : Frame) : (s.setFrame f x).now = s.now := rfl
@[simp] theorem State.setFrame_mono (f : Nat) (x : Frame) : (s.setFrame f x).mono = s.mono := rfl
@[simp] theorem State.setFrame_freeCtr (f : Nat) (x : Frame) : (s.setFrame f x).freeCtr = s.freeCtr := rfl
@[simp] theorem State.setFrame_resp (f : Nat) (x : Frame) : (s.setFrame f x).resp = s.resp := rfl
@[simp] theorem State.setFrame_out (f : Nat) (x : Frame) : (s.setFrame f x).out = s.out := rfl
@[simp] theorem State.setFrame_regs (f : Nat) (x : Frame) : (s.setFrame f x).regs = s.regs := rfl
@[simp] theorem State.setFrame_units (f : Nat) (x : Frame) : (s.setFrame f x).units = s.units := rfl
@[simp] theorem State.setFrame_latches (f : Nat) (x : Frame) : (s.setFrame f x).latches = s.latches := rfl
@[simp] theorem State.setFrame_tusUp (f : Nat) (x : Frame) : (s.setFrame f x).tusUp = s.tusUp := rfl
@[simp] theorem State.setFrame_mode (f : Nat) (x : Frame) : (s.setFrame f x).mode = s.mode := rfl
@[simp] theorem State.setFrame_sward (f : Nat) (x : Frame) : (s.setFrame f x).sward = s.sward := rfl
@[simp] theorem State.setFrame_fault (f : Nat) (x : Frame) : (s.setFrame f x).fault = s.fault := rfl
@[simp] theorem State.setFrame_peat (f : Nat) (x : Frame) : (s.setFrame f x).peat = s.peat := rfl
@[simp] theorem State.setFrame_time (f : Nat) (x : Frame) : (s.setFrame f x).time = s.time := rfl
@[simp] theorem State.setFrame_ling (f : Nat) (x : Frame) : (s.setFrame f x).ling = s.ling := rfl
@[simp] theorem State.setFrame_mem (f : Nat) (x : Frame) : (s.setFrame f x).mem = s.mem := rfl
@[simp] theorem State.setFrame_meas (f : Nat) (x : Frame) : (s.setFrame f x).meas = s.meas := rfl
@[simp] theorem State.setFrame_act (f : Nat) (x : Frame) : (s.setFrame f x).act = s.act := rfl
@[simp] theorem State.setFrame_eth (f : Nat) (x : Frame) : (s.setFrame f x).eth = { s.eth with frames := mapSet {} s.eth.frames f x } := rfl
@[simp] theorem State.setFrame_sedge (f : Nat) (x : Frame) : (s.setFrame f x).sedge = s.sedge := rfl
@[simp] theorem State.setFrame_pcie (f : Nat) (x : Frame) : (s.setFrame f x).pcie = s.pcie := rfl
@[simp] theorem State.setFrame_tel (f : Nat) (x : Frame) : (s.setFrame f x).tel = s.tel := rfl
@[simp] theorem State.setFrame_gorse (f : Nat) (x : Frame) : (s.setFrame f x).gorse = s.gorse := rfl
@[simp] theorem State.setFrame_dap (f : Nat) (x : Frame) : (s.setFrame f x).dap = s.dap := rfl
@[simp] theorem State.setFrame_trace (f : Nat) (x : Frame) : (s.setFrame f x).trace = s.trace := rfl

/-! ### setEPort -/

@[simp] theorem State.setEPort_pending (p : Nat) (x : EPort) : (s.setEPort p x).pending = s.pending := rfl
@[simp] theorem State.setEPort_now (p : Nat) (x : EPort) : (s.setEPort p x).now = s.now := rfl
@[simp] theorem State.setEPort_mono (p : Nat) (x : EPort) : (s.setEPort p x).mono = s.mono := rfl
@[simp] theorem State.setEPort_freeCtr (p : Nat) (x : EPort) : (s.setEPort p x).freeCtr = s.freeCtr := rfl
@[simp] theorem State.setEPort_resp (p : Nat) (x : EPort) : (s.setEPort p x).resp = s.resp := rfl
@[simp] theorem State.setEPort_out (p : Nat) (x : EPort) : (s.setEPort p x).out = s.out := rfl
@[simp] theorem State.setEPort_regs (p : Nat) (x : EPort) : (s.setEPort p x).regs = s.regs := rfl
@[simp] theorem State.setEPort_units (p : Nat) (x : EPort) : (s.setEPort p x).units = s.units := rfl
@[simp] theorem State.setEPort_latches (p : Nat) (x : EPort) : (s.setEPort p x).latches = s.latches := rfl
@[simp] theorem State.setEPort_tusUp (p : Nat) (x : EPort) : (s.setEPort p x).tusUp = s.tusUp := rfl
@[simp] theorem State.setEPort_mode (p : Nat) (x : EPort) : (s.setEPort p x).mode = s.mode := rfl
@[simp] theorem State.setEPort_sward (p : Nat) (x : EPort) : (s.setEPort p x).sward = s.sward := rfl
@[simp] theorem State.setEPort_fault (p : Nat) (x : EPort) : (s.setEPort p x).fault = s.fault := rfl
@[simp] theorem State.setEPort_peat (p : Nat) (x : EPort) : (s.setEPort p x).peat = s.peat := rfl
@[simp] theorem State.setEPort_time (p : Nat) (x : EPort) : (s.setEPort p x).time = s.time := rfl
@[simp] theorem State.setEPort_ling (p : Nat) (x : EPort) : (s.setEPort p x).ling = s.ling := rfl
@[simp] theorem State.setEPort_mem (p : Nat) (x : EPort) : (s.setEPort p x).mem = s.mem := rfl
@[simp] theorem State.setEPort_meas (p : Nat) (x : EPort) : (s.setEPort p x).meas = s.meas := rfl
@[simp] theorem State.setEPort_act (p : Nat) (x : EPort) : (s.setEPort p x).act = s.act := rfl
@[simp] theorem State.setEPort_eth (p : Nat) (x : EPort) : (s.setEPort p x).eth = { s.eth with ports := mapSet {} s.eth.ports p x } := rfl
@[simp] theorem State.setEPort_sedge (p : Nat) (x : EPort) : (s.setEPort p x).sedge = s.sedge := rfl
@[simp] theorem State.setEPort_pcie (p : Nat) (x : EPort) : (s.setEPort p x).pcie = s.pcie := rfl
@[simp] theorem State.setEPort_tel (p : Nat) (x : EPort) : (s.setEPort p x).tel = s.tel := rfl
@[simp] theorem State.setEPort_gorse (p : Nat) (x : EPort) : (s.setEPort p x).gorse = s.gorse := rfl
@[simp] theorem State.setEPort_dap (p : Nat) (x : EPort) : (s.setEPort p x).dap = s.dap := rfl
@[simp] theorem State.setEPort_trace (p : Nat) (x : EPort) : (s.setEPort p x).trace = s.trace := rfl

/-! ### setEgress -/

@[simp] theorem State.setEgress_pending (c : Nat) (q : List Nat) : (s.setEgress c q).pending = s.pending := rfl
@[simp] theorem State.setEgress_now (c : Nat) (q : List Nat) : (s.setEgress c q).now = s.now := rfl
@[simp] theorem State.setEgress_mono (c : Nat) (q : List Nat) : (s.setEgress c q).mono = s.mono := rfl
@[simp] theorem State.setEgress_freeCtr (c : Nat) (q : List Nat) : (s.setEgress c q).freeCtr = s.freeCtr := rfl
@[simp] theorem State.setEgress_resp (c : Nat) (q : List Nat) : (s.setEgress c q).resp = s.resp := rfl
@[simp] theorem State.setEgress_out (c : Nat) (q : List Nat) : (s.setEgress c q).out = s.out := rfl
@[simp] theorem State.setEgress_regs (c : Nat) (q : List Nat) : (s.setEgress c q).regs = s.regs := rfl
@[simp] theorem State.setEgress_units (c : Nat) (q : List Nat) : (s.setEgress c q).units = s.units := rfl
@[simp] theorem State.setEgress_latches (c : Nat) (q : List Nat) : (s.setEgress c q).latches = s.latches := rfl
@[simp] theorem State.setEgress_tusUp (c : Nat) (q : List Nat) : (s.setEgress c q).tusUp = s.tusUp := rfl
@[simp] theorem State.setEgress_mode (c : Nat) (q : List Nat) : (s.setEgress c q).mode = s.mode := rfl
@[simp] theorem State.setEgress_sward (c : Nat) (q : List Nat) : (s.setEgress c q).sward = s.sward := rfl
@[simp] theorem State.setEgress_fault (c : Nat) (q : List Nat) : (s.setEgress c q).fault = s.fault := rfl
@[simp] theorem State.setEgress_peat (c : Nat) (q : List Nat) : (s.setEgress c q).peat = s.peat := rfl
@[simp] theorem State.setEgress_time (c : Nat) (q : List Nat) : (s.setEgress c q).time = s.time := rfl
@[simp] theorem State.setEgress_ling (c : Nat) (q : List Nat) : (s.setEgress c q).ling = s.ling := rfl
@[simp] theorem State.setEgress_mem (c : Nat) (q : List Nat) : (s.setEgress c q).mem = s.mem := rfl
@[simp] theorem State.setEgress_meas (c : Nat) (q : List Nat) : (s.setEgress c q).meas = s.meas := rfl
@[simp] theorem State.setEgress_act (c : Nat) (q : List Nat) : (s.setEgress c q).act = s.act := rfl
@[simp] theorem State.setEgress_eth (c : Nat) (q : List Nat) : (s.setEgress c q).eth = { s.eth with egress := mapSet [] s.eth.egress c q } := rfl
@[simp] theorem State.setEgress_sedge (c : Nat) (q : List Nat) : (s.setEgress c q).sedge = s.sedge := rfl
@[simp] theorem State.setEgress_pcie (c : Nat) (q : List Nat) : (s.setEgress c q).pcie = s.pcie := rfl
@[simp] theorem State.setEgress_tel (c : Nat) (q : List Nat) : (s.setEgress c q).tel = s.tel := rfl
@[simp] theorem State.setEgress_gorse (c : Nat) (q : List Nat) : (s.setEgress c q).gorse = s.gorse := rfl
@[simp] theorem State.setEgress_dap (c : Nat) (q : List Nat) : (s.setEgress c q).dap = s.dap := rfl
@[simp] theorem State.setEgress_trace (c : Nat) (q : List Nat) : (s.setEgress c q).trace = s.trace := rfl

/-! ### setTi -/

@[simp] theorem State.setTi_pending (n : Nat) (x : Ti) : (s.setTi n x).pending = s.pending := rfl
@[simp] theorem State.setTi_now (n : Nat) (x : Ti) : (s.setTi n x).now = s.now := rfl
@[simp] theorem State.setTi_mono (n : Nat) (x : Ti) : (s.setTi n x).mono = s.mono := rfl
@[simp] theorem State.setTi_freeCtr (n : Nat) (x : Ti) : (s.setTi n x).freeCtr = s.freeCtr := rfl
@[simp] theorem State.setTi_resp (n : Nat) (x : Ti) : (s.setTi n x).resp = s.resp := rfl
@[simp] theorem State.setTi_out (n : Nat) (x : Ti) : (s.setTi n x).out = s.out := rfl
@[simp] theorem State.setTi_regs (n : Nat) (x : Ti) : (s.setTi n x).regs = s.regs := rfl
@[simp] theorem State.setTi_units (n : Nat) (x : Ti) : (s.setTi n x).units = s.units := rfl
@[simp] theorem State.setTi_latches (n : Nat) (x : Ti) : (s.setTi n x).latches = s.latches := rfl
@[simp] theorem State.setTi_tusUp (n : Nat) (x : Ti) : (s.setTi n x).tusUp = s.tusUp := rfl
@[simp] theorem State.setTi_mode (n : Nat) (x : Ti) : (s.setTi n x).mode = s.mode := rfl
@[simp] theorem State.setTi_sward (n : Nat) (x : Ti) : (s.setTi n x).sward = s.sward := rfl
@[simp] theorem State.setTi_fault (n : Nat) (x : Ti) : (s.setTi n x).fault = s.fault := rfl
@[simp] theorem State.setTi_peat (n : Nat) (x : Ti) : (s.setTi n x).peat = s.peat := rfl
@[simp] theorem State.setTi_time (n : Nat) (x : Ti) : (s.setTi n x).time = s.time := rfl
@[simp] theorem State.setTi_ling (n : Nat) (x : Ti) : (s.setTi n x).ling = s.ling := rfl
@[simp] theorem State.setTi_mem (n : Nat) (x : Ti) : (s.setTi n x).mem = s.mem := rfl
@[simp] theorem State.setTi_meas (n : Nat) (x : Ti) : (s.setTi n x).meas = s.meas := rfl
@[simp] theorem State.setTi_act (n : Nat) (x : Ti) : (s.setTi n x).act = s.act := rfl
@[simp] theorem State.setTi_eth (n : Nat) (x : Ti) : (s.setTi n x).eth = s.eth := rfl
@[simp] theorem State.setTi_sedge (n : Nat) (x : Ti) : (s.setTi n x).sedge = s.sedge := rfl
@[simp] theorem State.setTi_pcie (n : Nat) (x : Ti) : (s.setTi n x).pcie = { s.pcie with tis := mapSet {} s.pcie.tis n x } := rfl
@[simp] theorem State.setTi_tel (n : Nat) (x : Ti) : (s.setTi n x).tel = s.tel := rfl
@[simp] theorem State.setTi_gorse (n : Nat) (x : Ti) : (s.setTi n x).gorse = s.gorse := rfl
@[simp] theorem State.setTi_dap (n : Nat) (x : Ti) : (s.setTi n x).dap = s.dap := rfl
@[simp] theorem State.setTi_trace (n : Nat) (x : Ti) : (s.setTi n x).trace = s.trace := rfl

/-! ### setPf -/

@[simp] theorem State.setPf_pending (l : Nat) (x : Pf) : (s.setPf l x).pending = s.pending := rfl
@[simp] theorem State.setPf_now (l : Nat) (x : Pf) : (s.setPf l x).now = s.now := rfl
@[simp] theorem State.setPf_mono (l : Nat) (x : Pf) : (s.setPf l x).mono = s.mono := rfl
@[simp] theorem State.setPf_freeCtr (l : Nat) (x : Pf) : (s.setPf l x).freeCtr = s.freeCtr := rfl
@[simp] theorem State.setPf_resp (l : Nat) (x : Pf) : (s.setPf l x).resp = s.resp := rfl
@[simp] theorem State.setPf_out (l : Nat) (x : Pf) : (s.setPf l x).out = s.out := rfl
@[simp] theorem State.setPf_regs (l : Nat) (x : Pf) : (s.setPf l x).regs = s.regs := rfl
@[simp] theorem State.setPf_units (l : Nat) (x : Pf) : (s.setPf l x).units = s.units := rfl
@[simp] theorem State.setPf_latches (l : Nat) (x : Pf) : (s.setPf l x).latches = s.latches := rfl
@[simp] theorem State.setPf_tusUp (l : Nat) (x : Pf) : (s.setPf l x).tusUp = s.tusUp := rfl
@[simp] theorem State.setPf_mode (l : Nat) (x : Pf) : (s.setPf l x).mode = s.mode := rfl
@[simp] theorem State.setPf_sward (l : Nat) (x : Pf) : (s.setPf l x).sward = s.sward := rfl
@[simp] theorem State.setPf_fault (l : Nat) (x : Pf) : (s.setPf l x).fault = s.fault := rfl
@[simp] theorem State.setPf_peat (l : Nat) (x : Pf) : (s.setPf l x).peat = s.peat := rfl
@[simp] theorem State.setPf_time (l : Nat) (x : Pf) : (s.setPf l x).time = s.time := rfl
@[simp] theorem State.setPf_ling (l : Nat) (x : Pf) : (s.setPf l x).ling = s.ling := rfl
@[simp] theorem State.setPf_mem (l : Nat) (x : Pf) : (s.setPf l x).mem = s.mem := rfl
@[simp] theorem State.setPf_meas (l : Nat) (x : Pf) : (s.setPf l x).meas = s.meas := rfl
@[simp] theorem State.setPf_act (l : Nat) (x : Pf) : (s.setPf l x).act = s.act := rfl
@[simp] theorem State.setPf_eth (l : Nat) (x : Pf) : (s.setPf l x).eth = s.eth := rfl
@[simp] theorem State.setPf_sedge (l : Nat) (x : Pf) : (s.setPf l x).sedge = s.sedge := rfl
@[simp] theorem State.setPf_pcie (l : Nat) (x : Pf) : (s.setPf l x).pcie = { s.pcie with fn := mapSet {} s.pcie.fn l x } := rfl
@[simp] theorem State.setPf_tel (l : Nat) (x : Pf) : (s.setPf l x).tel = s.tel := rfl
@[simp] theorem State.setPf_gorse (l : Nat) (x : Pf) : (s.setPf l x).gorse = s.gorse := rfl
@[simp] theorem State.setPf_dap (l : Nat) (x : Pf) : (s.setPf l x).dap = s.dap := rfl
@[simp] theorem State.setPf_trace (l : Nat) (x : Pf) : (s.setPf l x).trace = s.trace := rfl

/-! ### setAdm -/

@[simp] theorem State.setAdm_pending (l : Nat) (x : Adm) : (s.setAdm l x).pending = s.pending := rfl
@[simp] theorem State.setAdm_now (l : Nat) (x : Adm) : (s.setAdm l x).now = s.now := rfl
@[simp] theorem State.setAdm_mono (l : Nat) (x : Adm) : (s.setAdm l x).mono = s.mono := rfl
@[simp] theorem State.setAdm_freeCtr (l : Nat) (x : Adm) : (s.setAdm l x).freeCtr = s.freeCtr := rfl
@[simp] theorem State.setAdm_resp (l : Nat) (x : Adm) : (s.setAdm l x).resp = s.resp := rfl
@[simp] theorem State.setAdm_out (l : Nat) (x : Adm) : (s.setAdm l x).out = s.out := rfl
@[simp] theorem State.setAdm_regs (l : Nat) (x : Adm) : (s.setAdm l x).regs = s.regs := rfl
@[simp] theorem State.setAdm_units (l : Nat) (x : Adm) : (s.setAdm l x).units = s.units := rfl
@[simp] theorem State.setAdm_latches (l : Nat) (x : Adm) : (s.setAdm l x).latches = s.latches := rfl
@[simp] theorem State.setAdm_tusUp (l : Nat) (x : Adm) : (s.setAdm l x).tusUp = s.tusUp := rfl
@[simp] theorem State.setAdm_mode (l : Nat) (x : Adm) : (s.setAdm l x).mode = s.mode := rfl
@[simp] theorem State.setAdm_sward (l : Nat) (x : Adm) : (s.setAdm l x).sward = s.sward := rfl
@[simp] theorem State.setAdm_fault (l : Nat) (x : Adm) : (s.setAdm l x).fault = s.fault := rfl
@[simp] theorem State.setAdm_peat (l : Nat) (x : Adm) : (s.setAdm l x).peat = s.peat := rfl
@[simp] theorem State.setAdm_time (l : Nat) (x : Adm) : (s.setAdm l x).time = s.time := rfl
@[simp] theorem State.setAdm_ling (l : Nat) (x : Adm) : (s.setAdm l x).ling = s.ling := rfl
@[simp] theorem State.setAdm_mem (l : Nat) (x : Adm) : (s.setAdm l x).mem = s.mem := rfl
@[simp] theorem State.setAdm_meas (l : Nat) (x : Adm) : (s.setAdm l x).meas = s.meas := rfl
@[simp] theorem State.setAdm_act (l : Nat) (x : Adm) : (s.setAdm l x).act = s.act := rfl
@[simp] theorem State.setAdm_eth (l : Nat) (x : Adm) : (s.setAdm l x).eth = s.eth := rfl
@[simp] theorem State.setAdm_sedge (l : Nat) (x : Adm) : (s.setAdm l x).sedge = s.sedge := rfl
@[simp] theorem State.setAdm_pcie (l : Nat) (x : Adm) : (s.setAdm l x).pcie = { s.pcie with adm := mapSet {} s.pcie.adm l x } := rfl
@[simp] theorem State.setAdm_tel (l : Nat) (x : Adm) : (s.setAdm l x).tel = s.tel := rfl
@[simp] theorem State.setAdm_gorse (l : Nat) (x : Adm) : (s.setAdm l x).gorse = s.gorse := rfl
@[simp] theorem State.setAdm_dap (l : Nat) (x : Adm) : (s.setAdm l x).dap = s.dap := rfl
@[simp] theorem State.setAdm_trace (l : Nat) (x : Adm) : (s.setAdm l x).trace = s.trace := rfl

/-! ### setJob -/

@[simp] theorem State.setJob_pending (j : Nat) (x : Option Job) : (s.setJob j x).pending = s.pending := rfl
@[simp] theorem State.setJob_now (j : Nat) (x : Option Job) : (s.setJob j x).now = s.now := rfl
@[simp] theorem State.setJob_mono (j : Nat) (x : Option Job) : (s.setJob j x).mono = s.mono := rfl
@[simp] theorem State.setJob_freeCtr (j : Nat) (x : Option Job) : (s.setJob j x).freeCtr = s.freeCtr := rfl
@[simp] theorem State.setJob_resp (j : Nat) (x : Option Job) : (s.setJob j x).resp = s.resp := rfl
@[simp] theorem State.setJob_out (j : Nat) (x : Option Job) : (s.setJob j x).out = s.out := rfl
@[simp] theorem State.setJob_regs (j : Nat) (x : Option Job) : (s.setJob j x).regs = s.regs := rfl
@[simp] theorem State.setJob_units (j : Nat) (x : Option Job) : (s.setJob j x).units = s.units := rfl
@[simp] theorem State.setJob_latches (j : Nat) (x : Option Job) : (s.setJob j x).latches = s.latches := rfl
@[simp] theorem State.setJob_tusUp (j : Nat) (x : Option Job) : (s.setJob j x).tusUp = s.tusUp := rfl
@[simp] theorem State.setJob_mode (j : Nat) (x : Option Job) : (s.setJob j x).mode = s.mode := rfl
@[simp] theorem State.setJob_sward (j : Nat) (x : Option Job) : (s.setJob j x).sward = s.sward := rfl
@[simp] theorem State.setJob_fault (j : Nat) (x : Option Job) : (s.setJob j x).fault = s.fault := rfl
@[simp] theorem State.setJob_peat (j : Nat) (x : Option Job) : (s.setJob j x).peat = s.peat := rfl
@[simp] theorem State.setJob_time (j : Nat) (x : Option Job) : (s.setJob j x).time = s.time := rfl
@[simp] theorem State.setJob_ling (j : Nat) (x : Option Job) : (s.setJob j x).ling = s.ling := rfl
@[simp] theorem State.setJob_mem (j : Nat) (x : Option Job) : (s.setJob j x).mem = s.mem := rfl
@[simp] theorem State.setJob_meas (j : Nat) (x : Option Job) : (s.setJob j x).meas = s.meas := rfl
@[simp] theorem State.setJob_act (j : Nat) (x : Option Job) : (s.setJob j x).act = s.act := rfl
@[simp] theorem State.setJob_eth (j : Nat) (x : Option Job) : (s.setJob j x).eth = s.eth := rfl
@[simp] theorem State.setJob_sedge (j : Nat) (x : Option Job) : (s.setJob j x).sedge = s.sedge := rfl
@[simp] theorem State.setJob_pcie (j : Nat) (x : Option Job) : (s.setJob j x).pcie = { s.pcie with jobs := mapSet none s.pcie.jobs j x } := rfl
@[simp] theorem State.setJob_tel (j : Nat) (x : Option Job) : (s.setJob j x).tel = s.tel := rfl
@[simp] theorem State.setJob_gorse (j : Nat) (x : Option Job) : (s.setJob j x).gorse = s.gorse := rfl
@[simp] theorem State.setJob_dap (j : Nat) (x : Option Job) : (s.setJob j x).dap = s.dap := rfl
@[simp] theorem State.setJob_trace (j : Nat) (x : Option Job) : (s.setJob j x).trace = s.trace := rfl

/-! ### setTag -/

@[simp] theorem State.setTag_pending (t : Nat) (x : Option Tag) : (s.setTag t x).pending = s.pending := rfl
@[simp] theorem State.setTag_now (t : Nat) (x : Option Tag) : (s.setTag t x).now = s.now := rfl
@[simp] theorem State.setTag_mono (t : Nat) (x : Option Tag) : (s.setTag t x).mono = s.mono := rfl
@[simp] theorem State.setTag_freeCtr (t : Nat) (x : Option Tag) : (s.setTag t x).freeCtr = s.freeCtr := rfl
@[simp] theorem State.setTag_resp (t : Nat) (x : Option Tag) : (s.setTag t x).resp = s.resp := rfl
@[simp] theorem State.setTag_out (t : Nat) (x : Option Tag) : (s.setTag t x).out = s.out := rfl
@[simp] theorem State.setTag_regs (t : Nat) (x : Option Tag) : (s.setTag t x).regs = s.regs := rfl
@[simp] theorem State.setTag_units (t : Nat) (x : Option Tag) : (s.setTag t x).units = s.units := rfl
@[simp] theorem State.setTag_latches (t : Nat) (x : Option Tag) : (s.setTag t x).latches = s.latches := rfl
@[simp] theorem State.setTag_tusUp (t : Nat) (x : Option Tag) : (s.setTag t x).tusUp = s.tusUp := rfl
@[simp] theorem State.setTag_mode (t : Nat) (x : Option Tag) : (s.setTag t x).mode = s.mode := rfl
@[simp] theorem State.setTag_sward (t : Nat) (x : Option Tag) : (s.setTag t x).sward = s.sward := rfl
@[simp] theorem State.setTag_fault (t : Nat) (x : Option Tag) : (s.setTag t x).fault = s.fault := rfl
@[simp] theorem State.setTag_peat (t : Nat) (x : Option Tag) : (s.setTag t x).peat = s.peat := rfl
@[simp] theorem State.setTag_time (t : Nat) (x : Option Tag) : (s.setTag t x).time = s.time := rfl
@[simp] theorem State.setTag_ling (t : Nat) (x : Option Tag) : (s.setTag t x).ling = s.ling := rfl
@[simp] theorem State.setTag_mem (t : Nat) (x : Option Tag) : (s.setTag t x).mem = s.mem := rfl
@[simp] theorem State.setTag_meas (t : Nat) (x : Option Tag) : (s.setTag t x).meas = s.meas := rfl
@[simp] theorem State.setTag_act (t : Nat) (x : Option Tag) : (s.setTag t x).act = s.act := rfl
@[simp] theorem State.setTag_eth (t : Nat) (x : Option Tag) : (s.setTag t x).eth = s.eth := rfl
@[simp] theorem State.setTag_sedge (t : Nat) (x : Option Tag) : (s.setTag t x).sedge = s.sedge := rfl
@[simp] theorem State.setTag_pcie (t : Nat) (x : Option Tag) : (s.setTag t x).pcie = { s.pcie with tags := mapSet none s.pcie.tags t x } := rfl
@[simp] theorem State.setTag_tel (t : Nat) (x : Option Tag) : (s.setTag t x).tel = s.tel := rfl
@[simp] theorem State.setTag_gorse (t : Nat) (x : Option Tag) : (s.setTag t x).gorse = s.gorse := rfl
@[simp] theorem State.setTag_dap (t : Nat) (x : Option Tag) : (s.setTag t x).dap = s.dap := rfl
@[simp] theorem State.setTag_trace (t : Nat) (x : Option Tag) : (s.setTag t x).trace = s.trace := rfl

/-! ### setStr -/

@[simp] theorem State.setStr_pending (n : Nat) (x : Stream) : (s.setStr n x).pending = s.pending := rfl
@[simp] theorem State.setStr_now (n : Nat) (x : Stream) : (s.setStr n x).now = s.now := rfl
@[simp] theorem State.setStr_mono (n : Nat) (x : Stream) : (s.setStr n x).mono = s.mono := rfl
@[simp] theorem State.setStr_freeCtr (n : Nat) (x : Stream) : (s.setStr n x).freeCtr = s.freeCtr := rfl
@[simp] theorem State.setStr_resp (n : Nat) (x : Stream) : (s.setStr n x).resp = s.resp := rfl
@[simp] theorem State.setStr_out (n : Nat) (x : Stream) : (s.setStr n x).out = s.out := rfl
@[simp] theorem State.setStr_regs (n : Nat) (x : Stream) : (s.setStr n x).regs = s.regs := rfl
@[simp] theorem State.setStr_units (n : Nat) (x : Stream) : (s.setStr n x).units = s.units := rfl
@[simp] theorem State.setStr_latches (n : Nat) (x : Stream) : (s.setStr n x).latches = s.latches := rfl
@[simp] theorem State.setStr_tusUp (n : Nat) (x : Stream) : (s.setStr n x).tusUp = s.tusUp := rfl
@[simp] theorem State.setStr_mode (n : Nat) (x : Stream) : (s.setStr n x).mode = s.mode := rfl
@[simp] theorem State.setStr_sward (n : Nat) (x : Stream) : (s.setStr n x).sward = s.sward := rfl
@[simp] theorem State.setStr_fault (n : Nat) (x : Stream) : (s.setStr n x).fault = s.fault := rfl
@[simp] theorem State.setStr_peat (n : Nat) (x : Stream) : (s.setStr n x).peat = s.peat := rfl
@[simp] theorem State.setStr_time (n : Nat) (x : Stream) : (s.setStr n x).time = s.time := rfl
@[simp] theorem State.setStr_ling (n : Nat) (x : Stream) : (s.setStr n x).ling = s.ling := rfl
@[simp] theorem State.setStr_mem (n : Nat) (x : Stream) : (s.setStr n x).mem = s.mem := rfl
@[simp] theorem State.setStr_meas (n : Nat) (x : Stream) : (s.setStr n x).meas = s.meas := rfl
@[simp] theorem State.setStr_act (n : Nat) (x : Stream) : (s.setStr n x).act = s.act := rfl
@[simp] theorem State.setStr_eth (n : Nat) (x : Stream) : (s.setStr n x).eth = s.eth := rfl
@[simp] theorem State.setStr_sedge (n : Nat) (x : Stream) : (s.setStr n x).sedge = s.sedge := rfl
@[simp] theorem State.setStr_pcie (n : Nat) (x : Stream) : (s.setStr n x).pcie = s.pcie := rfl
@[simp] theorem State.setStr_tel (n : Nat) (x : Stream) : (s.setStr n x).tel = { s.tel with str := mapSet {} s.tel.str n x } := rfl
@[simp] theorem State.setStr_gorse (n : Nat) (x : Stream) : (s.setStr n x).gorse = s.gorse := rfl
@[simp] theorem State.setStr_dap (n : Nat) (x : Stream) : (s.setStr n x).dap = s.dap := rfl
@[simp] theorem State.setStr_trace (n : Nat) (x : Stream) : (s.setStr n x).trace = s.trace := rfl

/-! ### setTout -/

@[simp] theorem State.setTout_pending (t : Nat) (x : TOut) : (s.setTout t x).pending = s.pending := rfl
@[simp] theorem State.setTout_now (t : Nat) (x : TOut) : (s.setTout t x).now = s.now := rfl
@[simp] theorem State.setTout_mono (t : Nat) (x : TOut) : (s.setTout t x).mono = s.mono := rfl
@[simp] theorem State.setTout_freeCtr (t : Nat) (x : TOut) : (s.setTout t x).freeCtr = s.freeCtr := rfl
@[simp] theorem State.setTout_resp (t : Nat) (x : TOut) : (s.setTout t x).resp = s.resp := rfl
@[simp] theorem State.setTout_out (t : Nat) (x : TOut) : (s.setTout t x).out = s.out := rfl
@[simp] theorem State.setTout_regs (t : Nat) (x : TOut) : (s.setTout t x).regs = s.regs := rfl
@[simp] theorem State.setTout_units (t : Nat) (x : TOut) : (s.setTout t x).units = s.units := rfl
@[simp] theorem State.setTout_latches (t : Nat) (x : TOut) : (s.setTout t x).latches = s.latches := rfl
@[simp] theorem State.setTout_tusUp (t : Nat) (x : TOut) : (s.setTout t x).tusUp = s.tusUp := rfl
@[simp] theorem State.setTout_mode (t : Nat) (x : TOut) : (s.setTout t x).mode = s.mode := rfl
@[simp] theorem State.setTout_sward (t : Nat) (x : TOut) : (s.setTout t x).sward = s.sward := rfl
@[simp] theorem State.setTout_fault (t : Nat) (x : TOut) : (s.setTout t x).fault = s.fault := rfl
@[simp] theorem State.setTout_peat (t : Nat) (x : TOut) : (s.setTout t x).peat = s.peat := rfl
@[simp] theorem State.setTout_time (t : Nat) (x : TOut) : (s.setTout t x).time = s.time := rfl
@[simp] theorem State.setTout_ling (t : Nat) (x : TOut) : (s.setTout t x).ling = s.ling := rfl
@[simp] theorem State.setTout_mem (t : Nat) (x : TOut) : (s.setTout t x).mem = s.mem := rfl
@[simp] theorem State.setTout_meas (t : Nat) (x : TOut) : (s.setTout t x).meas = s.meas := rfl
@[simp] theorem State.setTout_act (t : Nat) (x : TOut) : (s.setTout t x).act = s.act := rfl
@[simp] theorem State.setTout_eth (t : Nat) (x : TOut) : (s.setTout t x).eth = s.eth := rfl
@[simp] theorem State.setTout_sedge (t : Nat) (x : TOut) : (s.setTout t x).sedge = s.sedge := rfl
@[simp] theorem State.setTout_pcie (t : Nat) (x : TOut) : (s.setTout t x).pcie = s.pcie := rfl
@[simp] theorem State.setTout_tel (t : Nat) (x : TOut) : (s.setTout t x).tel = { s.tel with out := mapSet {} s.tel.out t x } := rfl
@[simp] theorem State.setTout_gorse (t : Nat) (x : TOut) : (s.setTout t x).gorse = s.gorse := rfl
@[simp] theorem State.setTout_dap (t : Nat) (x : TOut) : (s.setTout t x).dap = s.dap := rfl
@[simp] theorem State.setTout_trace (t : Nat) (x : TOut) : (s.setTout t x).trace = s.trace := rfl

/-! ### setTrSrc -/

@[simp] theorem State.setTrSrc_pending (i : Nat) (x : TrSrc) : (s.setTrSrc i x).pending = s.pending := rfl
@[simp] theorem State.setTrSrc_now (i : Nat) (x : TrSrc) : (s.setTrSrc i x).now = s.now := rfl
@[simp] theorem State.setTrSrc_mono (i : Nat) (x : TrSrc) : (s.setTrSrc i x).mono = s.mono := rfl
@[simp] theorem State.setTrSrc_freeCtr (i : Nat) (x : TrSrc) : (s.setTrSrc i x).freeCtr = s.freeCtr := rfl
@[simp] theorem State.setTrSrc_resp (i : Nat) (x : TrSrc) : (s.setTrSrc i x).resp = s.resp := rfl
@[simp] theorem State.setTrSrc_out (i : Nat) (x : TrSrc) : (s.setTrSrc i x).out = s.out := rfl
@[simp] theorem State.setTrSrc_regs (i : Nat) (x : TrSrc) : (s.setTrSrc i x).regs = s.regs := rfl
@[simp] theorem State.setTrSrc_units (i : Nat) (x : TrSrc) : (s.setTrSrc i x).units = s.units := rfl
@[simp] theorem State.setTrSrc_latches (i : Nat) (x : TrSrc) : (s.setTrSrc i x).latches = s.latches := rfl
@[simp] theorem State.setTrSrc_tusUp (i : Nat) (x : TrSrc) : (s.setTrSrc i x).tusUp = s.tusUp := rfl
@[simp] theorem State.setTrSrc_mode (i : Nat) (x : TrSrc) : (s.setTrSrc i x).mode = s.mode := rfl
@[simp] theorem State.setTrSrc_sward (i : Nat) (x : TrSrc) : (s.setTrSrc i x).sward = s.sward := rfl
@[simp] theorem State.setTrSrc_fault (i : Nat) (x : TrSrc) : (s.setTrSrc i x).fault = s.fault := rfl
@[simp] theorem State.setTrSrc_peat (i : Nat) (x : TrSrc) : (s.setTrSrc i x).peat = s.peat := rfl
@[simp] theorem State.setTrSrc_time (i : Nat) (x : TrSrc) : (s.setTrSrc i x).time = s.time := rfl
@[simp] theorem State.setTrSrc_ling (i : Nat) (x : TrSrc) : (s.setTrSrc i x).ling = s.ling := rfl
@[simp] theorem State.setTrSrc_mem (i : Nat) (x : TrSrc) : (s.setTrSrc i x).mem = s.mem := rfl
@[simp] theorem State.setTrSrc_meas (i : Nat) (x : TrSrc) : (s.setTrSrc i x).meas = s.meas := rfl
@[simp] theorem State.setTrSrc_act (i : Nat) (x : TrSrc) : (s.setTrSrc i x).act = s.act := rfl
@[simp] theorem State.setTrSrc_eth (i : Nat) (x : TrSrc) : (s.setTrSrc i x).eth = s.eth := rfl
@[simp] theorem State.setTrSrc_sedge (i : Nat) (x : TrSrc) : (s.setTrSrc i x).sedge = s.sedge := rfl
@[simp] theorem State.setTrSrc_pcie (i : Nat) (x : TrSrc) : (s.setTrSrc i x).pcie = s.pcie := rfl
@[simp] theorem State.setTrSrc_tel (i : Nat) (x : TrSrc) : (s.setTrSrc i x).tel = s.tel := rfl
@[simp] theorem State.setTrSrc_gorse (i : Nat) (x : TrSrc) : (s.setTrSrc i x).gorse = s.gorse := rfl
@[simp] theorem State.setTrSrc_dap (i : Nat) (x : TrSrc) : (s.setTrSrc i x).dap = s.dap := rfl
@[simp] theorem State.setTrSrc_trace (i : Nat) (x : TrSrc) : (s.setTrSrc i x).trace = { s.trace with src := mapSet {} s.trace.src i x } := rfl

/-! ### setFrec -/

@[simp] theorem State.setFrec_pending (t : Nat) (x : FrSt) : (s.setFrec t x).pending = s.pending := rfl
@[simp] theorem State.setFrec_now (t : Nat) (x : FrSt) : (s.setFrec t x).now = s.now := rfl
@[simp] theorem State.setFrec_mono (t : Nat) (x : FrSt) : (s.setFrec t x).mono = s.mono := rfl
@[simp] theorem State.setFrec_freeCtr (t : Nat) (x : FrSt) : (s.setFrec t x).freeCtr = s.freeCtr := rfl
@[simp] theorem State.setFrec_resp (t : Nat) (x : FrSt) : (s.setFrec t x).resp = s.resp := rfl
@[simp] theorem State.setFrec_out (t : Nat) (x : FrSt) : (s.setFrec t x).out = s.out := rfl
@[simp] theorem State.setFrec_regs (t : Nat) (x : FrSt) : (s.setFrec t x).regs = s.regs := rfl
@[simp] theorem State.setFrec_units (t : Nat) (x : FrSt) : (s.setFrec t x).units = s.units := rfl
@[simp] theorem State.setFrec_latches (t : Nat) (x : FrSt) : (s.setFrec t x).latches = s.latches := rfl
@[simp] theorem State.setFrec_tusUp (t : Nat) (x : FrSt) : (s.setFrec t x).tusUp = s.tusUp := rfl
@[simp] theorem State.setFrec_mode (t : Nat) (x : FrSt) : (s.setFrec t x).mode = s.mode := rfl
@[simp] theorem State.setFrec_sward (t : Nat) (x : FrSt) : (s.setFrec t x).sward = s.sward := rfl
@[simp] theorem State.setFrec_fault (t : Nat) (x : FrSt) : (s.setFrec t x).fault = s.fault := rfl
@[simp] theorem State.setFrec_peat (t : Nat) (x : FrSt) : (s.setFrec t x).peat = s.peat := rfl
@[simp] theorem State.setFrec_time (t : Nat) (x : FrSt) : (s.setFrec t x).time = s.time := rfl
@[simp] theorem State.setFrec_ling (t : Nat) (x : FrSt) : (s.setFrec t x).ling = s.ling := rfl
@[simp] theorem State.setFrec_mem (t : Nat) (x : FrSt) : (s.setFrec t x).mem = s.mem := rfl
@[simp] theorem State.setFrec_meas (t : Nat) (x : FrSt) : (s.setFrec t x).meas = s.meas := rfl
@[simp] theorem State.setFrec_act (t : Nat) (x : FrSt) : (s.setFrec t x).act = s.act := rfl
@[simp] theorem State.setFrec_eth (t : Nat) (x : FrSt) : (s.setFrec t x).eth = s.eth := rfl
@[simp] theorem State.setFrec_sedge (t : Nat) (x : FrSt) : (s.setFrec t x).sedge = s.sedge := rfl
@[simp] theorem State.setFrec_pcie (t : Nat) (x : FrSt) : (s.setFrec t x).pcie = s.pcie := rfl
@[simp] theorem State.setFrec_tel (t : Nat) (x : FrSt) : (s.setFrec t x).tel = s.tel := rfl
@[simp] theorem State.setFrec_gorse (t : Nat) (x : FrSt) : (s.setFrec t x).gorse = s.gorse := rfl
@[simp] theorem State.setFrec_dap (t : Nat) (x : FrSt) : (s.setFrec t x).dap = s.dap := rfl
@[simp] theorem State.setFrec_trace (t : Nat) (x : FrSt) : (s.setFrec t x).trace = { s.trace with fr := mapSet {} s.trace.fr t x } := rfl

/-! ### Tables read back -/

theorem State.rd_wr_self (u : UnitId) (r : Reg) (v : Word) (i j : Nat) : (s.wr u r v i j).rd u r i j = v := by
  simp [State.rd]

theorem State.rd_wr_ne (u u' : UnitId) (r r' : Reg) (v : Word) (i j i' j' : Nat)
    (h : regAddr u' r' i' j' ≠ regAddr u r i j) : (s.wr u r v i j).rd u' r' i' j' = s.rd u' r' i' j' := by
  simp [State.rd, mapGet_mapSet_ne _ _ _ _ h]

@[simp] theorem State.unit_setUnit_self (u : UnitId) (x : UnitRt) : (s.setUnit u x).unit u = x := by simp [State.unit]

theorem State.unit_setUnit_ne (u u' : UnitId) (x : UnitRt) (h : u'.base ≠ u.base) : (s.setUnit u x).unit u' = s.unit u' := by
  simp [State.unit, mapGet_mapSet_ne _ _ _ _ h]

@[simp] theorem State.bank_setBank_self (p b : Nat) (x : Bank) : (s.setBank p b x).bank p b = x := by simp [State.bank]

theorem State.bank_setBank_ne (p b q k : Nat) (x : Bank) (h : 8 * q + k ≠ 8 * p + b) :
    (s.setBank p b x).bank q k = s.bank q k := by
  simp [State.bank, mapGet_mapSet_ne _ _ _ _ h]

@[simp] theorem State.core_setCore_self (p : Nat) (c : Core) : (s.setCore p c).core p = c := by simp [State.core]

theorem State.core_setCore_ne (p q : Nat) (c : Core) (h : q ≠ p) : (s.setCore p c).core q = s.core q := by
  simp [State.core, mapGet_mapSet_ne _ _ _ _ h]

@[simp] theorem State.core_setBank (p b q : Nat) (x : Bank) : (s.setBank p b x).core q = s.core q := rfl
@[simp] theorem State.bank_setCore (p q k : Nat) (c : Core) : (s.setCore p c).bank q k = s.bank q k := rfl
@[simp] theorem State.bank_wr (u : UnitId) (r : Reg) (v : Word) (i j q k : Nat) : (s.wr u r v i j).bank q k = s.bank q k := rfl
@[simp] theorem State.core_wr (u : UnitId) (r : Reg) (v : Word) (i j q : Nat) : (s.wr u r v i j).core q = s.core q := rfl
@[simp] theorem State.unit_wr (u u' : UnitId) (r : Reg) (v : Word) (i j : Nat) : (s.wr u r v i j).unit u' = s.unit u' := rfl
@[simp] theorem State.rd_setBank (p b : Nat) (x : Bank) (u : UnitId) (r : Reg) (i j : Nat) :
    (s.setBank p b x).rd u r i j = s.rd u r i j := rfl
@[simp] theorem State.rd_setCore (p : Nat) (c : Core) (u : UnitId) (r : Reg) (i j : Nat) :
    (s.setCore p c).rd u r i j = s.rd u r i j := rfl
@[simp] theorem State.rd_setUnit (u' : UnitId) (x : UnitRt) (u : UnitId) (r : Reg) (i j : Nat) :
    (s.setUnit u' x).rd u r i j = s.rd u r i j := rfl
@[simp] theorem State.rd_answer (x : Resp) (u : UnitId) (r : Reg) (i j : Nat) : (s.answer x).rd u r i j = s.rd u r i j := rfl

@[simp] theorem State.byte_setByte_self (a : Nat) (b : Byte) : (s.setByte a b).byte a = b := by simp [State.byte]

theorem State.byte_setByte_ne (a a' : Nat) (b : Byte) (h : a' ≠ a) : (s.setByte a b).byte a' = s.byte a' := by
  simp [State.byte, mapGet_mapSet_ne _ _ _ _ h]

/-! ### Memory keeps its canonical form -/

theorem Memory.wf_reset : Memory.wf State.reset.mem.mem = true := rfl

theorem Memory.wf_setByte (a : Nat) (b : Byte) (h : Memory.wf s.mem.mem = true) : Memory.wf (s.setByte a b).mem.mem = true :=
  mapWf_mapSet (fun _ => memDefault) s.mem.mem a b h

theorem Memory.wf_setBytes (a : Nat) (d : List Byte) (h : Memory.wf s.mem.mem = true) : Memory.wf (s.setBytes a d).mem.mem = true := by
  induction d generalizing s a with
  | nil => exact h
  | cons b r ih => exact ih (s.setByte a b) (a + 1) (Memory.wf_setByte s a b h)

theorem Memory.wf_clearBytes (lo hi : Nat) (h : Memory.wf s.mem.mem = true) : Memory.wf (s.clearBytes lo hi).mem.mem = true :=
  mapWf_mapDrop (fun _ => memDefault) (fun a => lo ≤ a && a < hi) s.mem.mem h

/-- A run of bytes written reads back, and every other byte as before. -/
theorem State.byte_setBytes (a : Nat) (d : List Byte) (k : Nat) :
    (s.setBytes a d).byte k = if a ≤ k ∧ k < a + d.length then d.getD (k - a) 0 else s.byte k := by
  induction d generalizing s a with
  | nil =>
    simp [State.setBytes]
  | cons b r ih =>
    simp only [State.setBytes, ih, List.length_cons]
    by_cases h : k = a
    · subst h; simp
    · rw [State.byte_setByte_ne s a k b h]
      by_cases h2 : a ≤ k ∧ k < a + (r.length + 1)
      · have h3 : a + 1 ≤ k ∧ k < a + 1 + r.length := by omega
        obtain ⟨n, hn⟩ : ∃ n, k - a = n + 1 := ⟨k - a - 1, by omega⟩
        simp [h2, h3, hn, show k - (a + 1) = n by omega]
      · have h3 : ¬ (a + 1 ≤ k ∧ k < a + 1 + r.length) := by omega
        simp only [h2, h3, if_false]

theorem State.byte_clearBytes (lo hi k : Nat) :
    (s.clearBytes lo hi).byte k = if lo ≤ k ∧ k < hi then memDefault else s.byte k := by
  simp [State.byte, State.clearBytes, mapGet_mapDrop]


end Sys2Proof.Machine
end

