-- ==== Sys2Proof/Laws/Run.lean ====
section
/-! SUPPORT. Laws/Run.lean: what a command comes to while nothing traces, and what surrounds an instruction of a ready context. -/

namespace Sys2Proof.Machine

variable {s t x : State}

/-! ### Trace -/

/-- The registers that decide whether a source may emit. -/
def traceReg (a : Nat) : Prop :=
  (∃ k, k < 16 ∧ a = regAddr .hedgerow R.HR_SRC_EN k 0) ∨ ∃ t ∈ [6, 13, 20, 27], a = regAddr (.tussock t) R.FR_CFG 0 0

theorem any_congr {α : Type} {f g : α → Bool} {l : List α} (h : ∀ a ∈ l, f a = g a) : l.any f = l.any g := by
  induction l with
  | nil => rfl
  | cons a r ih =>
    simp only [List.any_cons]
    rw [h a (by simp), ih (fun b hb => h b (by simp [hb]))]

/-- Whether sources may emit follows from those registers alone. -/
theorem State.tracing_congr (h : ∀ a d, traceReg a → mapGet d t.regs a = mapGet d s.regs a) : t.tracing = s.tracing := by
  have h1 : ∀ k ∈ List.range 16, (t.rd .hedgerow R.HR_SRC_EN k != 0) = (s.rd .hedgerow R.HR_SRC_EN k != 0) := by
    intro k hk
    have := h (regAddr .hedgerow R.HR_SRC_EN k 0) (BitVec.ofNat 32 R.HR_SRC_EN.reset) (Or.inl ⟨k, by simpa using hk, rfl⟩)
    simp [State.rd, this]
  have h2 : ∀ k ∈ [6, 13, 20, 27], t.rb (.tussock k) R.FR_CFG F.FR_CFG_EN = s.rb (.tussock k) R.FR_CFG F.FR_CFG_EN := by
    intro k hk
    have := h (regAddr (.tussock k) R.FR_CFG 0 0) (BitVec.ofNat 32 R.FR_CFG.reset) (Or.inr ⟨k, hk, rfl⟩)
    simp [State.rb, State.rf, State.rd, this]
  unfold State.tracing
  rw [any_congr h1, any_congr h2]

/-- With nothing traced, and no machine check of Gorse's core, a command's outcome is the state its meaning reached: the queue is left
alone and no time passes. -/
theorem State.done_eq (ht : x.tracing = false) (hv : x.gorse.vfail = s.gorse.vfail)
    (hm : (x.core 252).mcActive = (s.core 252).mcActive) :
    x.done s = .next { x with pending := s.pending, mono := s.mono, now := x.now % 2 ^ 64 } := by
  simp [State.done, State.traced, ht, hv, hm]

/-- And that state itself, where its meaning left queue and interval count alone. -/
theorem State.done_self (ht : x.tracing = false) (hv : x.gorse.vfail = s.gorse.vfail)
    (hm : (x.core 252).mcActive = (s.core 252).mcActive) (hp : x.pending = s.pending) (hq : x.mono = s.mono)
    (hn : x.now < 2 ^ 64) : x.done s = .next x := by
  rw [State.done_eq ht hv hm, ← hp, ← hq, Nat.mod_eq_of_lt hn]

/-- A command always answers a next state, with the queue it was given. -/
theorem State.done_next (x s : State) : ∃ t, x.done s = .next t ∧ t.pending = s.pending ∧ t.mono = s.mono ∧ t.now < 2 ^ 64 :=
  ⟨_, rfl, rfl, rfl, Nat.mod_lt _ (by decide)⟩

/-! ### Performance counters -/

/-- A performance counter moves, and no other register. -/
theorem State.perf_regs (p k n : Nat) (hk : k < 6) (a : Nat) (d : Word) (h : ¬ isPerf p a) :
    mapGet d (s.perf p k n).regs a = mapGet d s.regs a := by
  have hl : a ≠ regAddr (.core p) R.PERF_LO k 0 := fun e => h ⟨k, hk, Or.inl e⟩
  have hh : a ≠ regAddr (.core p) R.PERF_HI k 0 := fun e => h ⟨k, hk, Or.inr e⟩
  unfold State.perf
  split
  · simp [State.bump64, mapGet_mapSet_ne, hl, hh]
  · rfl

/-- Nothing but registers changes with it. -/
theorem State.perf_rest (p k n : Nat) : s.perf p k n = { s with regs := (s.perf p k n).regs } := by
  unfold State.perf
  split <;> rfl

/-- The registers that switch trace are no performance counters. -/
theorem traceReg_not_perf {p a : Nat} (h : traceReg a) : ¬ isPerf p a := by
  rintro ⟨k, hk, e | e⟩ <;> rcases h with ⟨j, hj, rfl⟩ | ⟨u, hu, rfl⟩ <;>
    simp only [regAddr, UnitId.base, R.HR_SRC_EN, R.FR_CFG, R.PERF_LO, R.PERF_HI] at e <;> omega

theorem trcCtl_not_perf (p i : Nat) : ¬ isPerf p (regAddr (.core i) R.TRC_CTL_C 0 0) := by
  rintro ⟨k, hk, e | e⟩ <;> simp only [regAddr, UnitId.base, R.TRC_CTL_C, R.PERF_LO, R.PERF_HI] at e <;> omega

theorem hrSrcEn_not_perf (p k : Nat) (h : k < 16) : ¬ isPerf p (regAddr .hedgerow R.HR_SRC_EN k 0) :=
  traceReg_not_perf (Or.inl ⟨k, h, rfl⟩)

theorem frCfg_not_perf (p u : Nat) : ¬ isPerf p (regAddr (.tussock u) R.FR_CFG 0 0) := by
  rintro ⟨k, hk, e | e⟩ <;> simp only [regAddr, UnitId.base, R.FR_CFG, R.PERF_LO, R.PERF_HI] at e <;> omega

/-- Whether the source of a core emits follows from registers that are no performance counters, and the debugger's class. -/
theorem State.trLive_congr {p q : Nat} (hp : p < 253) (h : ∀ a d, ¬ isPerf q a → mapGet d t.regs a = mapGet d s.regs a)
    (hd : t.dap = s.dap) : t.trLive (trId p) = s.trLive (trId p) := by
  have hrd : ∀ (u : UnitId) (g : Reg) (i j : Nat), ¬ isPerf q (regAddr u g i j) → t.rd u g i j = s.rd u g i j :=
    fun u g i j hn => h _ _ hn
  have hc : ∀ i, i < 0xFC ∨ i = 0x1E0 → t.trCtl i = s.trCtl i := by
    intro i hi
    unfold State.trCtl
    split
    · exact hrd _ _ _ _ (trcCtl_not_perf q i)
    · split
      · omega
      · rfl
  have hi : trId p < 0xFC ∨ trId p = 0x1E0 := by unfold trId; split <;> omega
  have hs : t.srcEn (trId p) = s.srcEn (trId p) := by
    unfold State.srcEn
    rw [hrd _ _ _ _ (hrSrcEn_not_perf q _ (by omega)), hd]
  have hf : t.frTakes (trId p) = s.frTakes (trId p) := by
    unfold State.frTakes State.rb State.rf
    rw [hrd _ _ _ _ (frCfg_not_perf q _), hc _ hi]
  unfold State.trLive
  rw [hc _ hi, hs, hf]

/-! ### The scheduler -/

theorem foldl_max_le {f : Nat → Nat} {m n : Nat} {l : List Nat} (hm : m ≤ n) (h : ∀ k ∈ l, f k ≤ n) :
    l.foldl (fun m b => max m (f b)) m ≤ n := by
  induction l generalizing m with
  | nil => exact hm
  | cons a r ih => exact ih (Nat.max_le.2 ⟨hm, h a (by simp)⟩) (fun k hk => h k (by simp [hk]))

theorem le_foldl_max {f : Nat → Nat} {m b : Nat} {l : List Nat} (h : f b ≤ m ∨ b ∈ l) :
    f b ≤ l.foldl (fun m b => max m (f b)) m := by
  induction l generalizing m with
  | nil => simpa using h
  | cons a r ih =>
    refine ih ?_
    rcases h with h | h
    · exact Or.inl (Nat.le_trans h (Nat.le_max_left _ _))
    · rcases List.mem_cons.1 h with rfl | h
      · exact Or.inl (Nat.le_max_right _ _)
      · right; exact h

/-- A running bank that no other READY or RUNNING bank outranks is chosen again (R264). -/
theorem State.choose_keeps {p b : Nat} (hb : b < 4) (hr : (s.bank p b).st = .running) (h : s.Keeps p b) :
    s.choose p = some b ∧ s.running p = some b := by
  have h' : ∀ k, k < 4 → k ≠ b → (s.bank p k).st ≠ .running ∧ ((s.bank p k).st = .ready → (s.bank p k).epri ≤ (s.bank p b).epri) := by
    rcases h with h | h
    · omega
    · exact h
  have hrun : s.running p = some b := by
    have h4 : b = 0 ∨ b = 1 ∨ b = 2 ∨ b = 3 := by omega
    have f : ∀ k, k < 4 → k ≠ b → ((s.bank p k).st == BState.running) = false :=
      fun k hk hn => by simpa using (h' k hk hn).1
    unfold State.running
    rcases h4 with rfl | rfl | rfl | rfl
    · simp [List.find?, hr]
    · simp [List.find?, hr, f 0]
    · simp [List.find?, hr, f 0, f 1]
    · simp [List.find?, hr, f 0, f 1, f 2]
  refine ⟨?_, hrun⟩
  have hmem : b ∈ [0, 1, 2, 3].filter (fun k => runnable (s.bank p k)) := by
    simp [runnable, hr]; omega
  have hmax : ([0, 1, 2, 3].filter (fun k => runnable (s.bank p k))).foldl (fun m k => max m (s.bank p k).epri) 0 = (s.bank p b).epri := by
    apply Nat.le_antisymm
    · refine foldl_max_le (f := fun k => (s.bank p k).epri) (by omega) ?_
      intro k hk
      by_cases hkb : k = b
      · subst hkb; exact Nat.le_refl _
      · have hk2 := List.mem_filter.1 hk
        have hk4 : k < 4 := by have := hk2.1; simp at this; omega
        have hrb := hk2.2
        simp only [runnable, Bool.or_eq_true, beq_iff_eq] at hrb
        rcases hrb with hrb | hrb
        · exact (h' k hk4 hkb).2 hrb
        · exact absurd hrb (h' k hk4 hkb).1
    · exact le_foldl_max (f := fun k => (s.bank p k).epri) (Or.inr hmem)
  unfold State.choose
  simp only [hrun, hmax]
  rw [if_pos]
  simp only [List.contains_iff_mem, List.mem_filter, beq_self_eq_true, and_true]
  exact List.mem_filter.1 hmem

/-- Then a decision of the scheduler changes nothing. -/
theorem State.resched_keeps {p b : Nat} (hr : b < 4 → (s.bank p b).st = .running) (hm : b = 4 → (s.core p).mcActive = true) (hb : b < 5)
    (h : s.Keeps p b) : s.resched p = s := by
  unfold State.resched
  split
  · rename_i hs
    by_cases h4 : b = 4
    · simp [State.schedulable, hm h4] at hs
    · obtain ⟨hc, hr2⟩ := State.choose_keeps (by omega) (hr (by omega)) h
      simp [hc, hr2]
  · rfl

end Sys2Proof.Machine
end

