-- ==== Sys2Proof/Laws/Ling.lean ====
section
/-! SUPPORT. Laws/Ling.lean: an instruction of a ready context runs its body and retires; what that changes. -/

namespace Sys2Proof.Machine

variable {s y : State} {p : Fin 253} {b : Fin 5} {i : Ins} {body : State → InsRes × State}

theorem Bank.nextExc_nil (x : Bank) (h : x.exc = []) : x.nextExc = none := by simp [Bank.nextExc, h]

/-- In a ready context an instruction that is legal, allowed in its place and privileged enough runs its body (R241, R250, R251). -/
theorem State.Ready.ins (h : s.Ready p b) (hi : i.ill = false) (hs : i.slotOk = true ∨ (s.bank p b).slot = false)
    (hp : i.priv ≤ s.level p b) :
    s.ins p b i body = (body s).2.finish p b i 0 (body s).2 (body s).1 := by
  have hb : s.boundary p b = none := by simp [State.boundary, Bank.nextExc_nil _ h.noExc, h.noDebug]
  have hu : s.unreserve p b = (.done, s) := by simp [State.unreserve, h.noResv]
  have ht : s.trBefore p b = s := by simp [State.trBefore, h.untraced]
  have hc : s.checked1 p b i body = (body s).2.finish p b i 0 (body s).2 (body s).1 := by
    have hsl : ((s.bank p b).slot ∧ !i.slotOk) = False := by rcases hs with e | e <;> simp [e]
    simp only [State.checked1, h.noRepeat, ne_eq, not_true_eq_false, false_and, if_false, hi, hsl, Bool.false_eq_true, or_self,
      Nat.not_lt.2 hp, Bank.busy, h.noLoads, List.any_nil, Bool.and_false, ht]
    simp
  simp [State.ins, h.issues, hb, hu, h.fetched, h.noDebug, hc]

/-- What a completed instruction leaves in its bank (R240, R241). -/
def Bank.after (x : Bank) (i : Ins) : GoTo → Bank
  | .next => { x with pc := x.npc, npc := x.npc + 4, slot := i.cf && x.hidden == 0, lsm := none }
  | .jump t => { x with pc := x.npc, npc := t, slot := i.cf && x.hidden == 0, lsm := none }
  | .annul => { x with pc := x.npc + 4, npc := x.npc + 8, slot := false, lsm := none }
  | .set => x

/-- The same bank as retiring builds it. -/
theorem Bank.after_eq (x : Bank) (i : Ins) (f : GoTo) (hx : x.stepping = false) :
    ({ x with pc := (match f with | .next => (x.npc, x.npc + 4) | .jump t => (x.npc, t) | .annul => (x.npc + 4, x.npc + 8) | .set => (x.pc, x.npc) : Word × Word).1,
              npc := (match f with | .next => (x.npc, x.npc + 4) | .jump t => (x.npc, t) | .annul => (x.npc + 4, x.npc + 8) | .set => (x.pc, x.npc) : Word × Word).2,
              hidden := x.hidden,
              slot := if f = .set then x.slot else i.cf && f != .annul && x.hidden == 0,
              lsm := if f = .set then x.lsm else none,
              stepping := false, stepHit := x.stepHit } : Bank) = x.after i f := by
  have h1 : (GoTo.next != GoTo.annul) = true := rfl
  have h2 : ∀ t, (GoTo.jump t != GoTo.annul) = true := fun t => rfl
  cases x
  simp only at hx
  subst hx
  cases f <;> simp [Bank.after, h1, h2]

/-- Trace after the instruction does nothing where the core's source emits nothing. -/
theorem State.trAfter_off {q : Nat} (h : y.trLive (trId q) = false) : y.trAfter q = y := by simp [State.trAfter, h]

/-- Retiring writes the bank and counts; the scheduler keeps the context. -/
theorem State.retire_eq (f : GoTo) (hl : y.trLive (trId p) = false) (hi : b.val < 4 → (y.bank p b).st = .running)
    (hm : b.val = 4 → (y.core p).mcActive = true) (hk : y.Keeps p b) (hs : (y.bank p b).stepping = false) :
    y.retire p b i 0 f =
      ((((y.setBank p b ((y.bank p b).after i f)).freeN.2).perf p 1).perf p 0 (Config.freeNat y.freeCtr)) := by
  have hb : ∀ (z : Bank), z = (y.bank p b).after i f →
      (let t := ((((y.setBank p b z).freeN.2).perf p 1).perf p 0 (Config.freeNat y.freeCtr)); (t.trAfter p).resched p = t) := by
    intro z hz
    have hst : z.st = (y.bank p b).st ∧ z.epri = (y.bank p b).epri := by subst hz; cases f <;> exact ⟨rfl, rfl⟩
    have hbank : ∀ (t : State), t.ling = (y.setBank p b z).ling → t.bank p b = z ∧
        (∀ k, 8 * p.val + k ≠ 8 * p.val + b.val → t.bank p k = y.bank p k) ∧ t.core p = y.core p := by
      intro t ht
      have hb1 : ∀ k, t.bank p k = (y.setBank p b z).bank p k := fun k => by simp [State.bank, ht]
      have hc1 : t.core p = (y.setBank p b z).core p := by simp [State.core, ht]
      exact ⟨by rw [hb1]; simp, fun k hk => by rw [hb1, State.bank_setBank_ne _ _ _ _ _ _ hk], by rw [hc1]; rfl⟩
    intro t
    have hling : t.ling = (y.setBank p b z).ling := by
      simp only [t]; rw [State.perf_rest, State.perf_rest]; rfl
    obtain ⟨h1, h2, h3⟩ := hbank t hling
    have hlive : t.trLive (trId p) = false := by
      rw [← hl]
      refine State.trLive_congr (q := p) (by omega) ?_ ?_
      · intro a d ha
        simp only [t]
        rw [State.perf_regs p 0 _ (by omega) a d ha, State.perf_regs p 1 _ (by omega) a d ha]
        rfl
      · simp only [t]; rw [State.perf_rest, State.perf_rest]; rfl
    rw [State.trAfter_off hlive]
    refine State.resched_keeps (b := b) ?_ ?_ b.isLt ?_
    · intro h4; rw [h1, hst.1]; exact hi h4
    · intro h4; rw [h3]; exact hm h4
    · rcases hk with hk | hk
      · exact Or.inl hk
      · right
        intro k h4 hkb
        rw [h2 k (by omega), h1, hst.2]
        exact hk k h4 hkb
  have hr : y.retire p b i 0 f =
      ((((((y.setBank p b ((y.bank p b).after i f)).freeN.2).perf p 1).perf p 0 (Config.freeNat y.freeCtr)).trAfter p).resched p) := by
    have := Bank.after_eq (y.bank p b) i f hs
    unfold State.retire
    simp only [if_false, hs, Bool.false_and, Bool.or_false, if_true, show ¬ (1 < 0) by omega]
    rw [← this]
    rfl
  rw [hr]
  exact hb _ rfl

/-! ### What may change -/

/-- A write of its own bank is all a context needs. -/
theorem State.onlyCtx_setBank (s : State) (p b : Nat) (x : Bank) : s.OnlyCtx (s.setBank p b x) p b where
  rest := rfl
  banks := fun q k h => State.bank_setBank_ne s p b q k x h
  cores := fun _ _ => rfl
  regs := fun _ _ _ => rfl

theorem State.onlyCtx_setCore (s : State) (p b : Nat) (c : Core) : s.OnlyCtx (s.setCore p c) p b where
  rest := rfl
  banks := fun _ _ _ => rfl
  cores := fun q h => State.core_setCore_ne s p q c h
  regs := fun _ _ _ => rfl

theorem State.onlyCtx_refl (s : State) (p b : Nat) : s.OnlyCtx s p b where
  rest := rfl
  banks := fun _ _ _ => rfl
  cores := fun _ _ => rfl
  regs := fun _ _ _ => rfl

theorem State.onlyCtx_perf (s : State) (p b k n : Nat) (hk : k < 6) : s.OnlyCtx (s.perf p k n) p b := by
  have h := State.perf_rest (s := s) p k n
  refine ⟨?_, ?_, ?_, fun a d ha => State.perf_regs p k n hk a d ha⟩
  · conv => lhs; rw [h]
    rw [h]
  · intro q j _; rw [h]; rfl
  · intro q _; rw [h]; rfl

theorem State.onlyCtx_freeN (s : State) (p b : Nat) : s.OnlyCtx s.freeN.2 p b where
  rest := rfl
  banks := fun _ _ _ => rfl
  cores := fun _ _ => rfl
  regs := fun _ _ _ => rfl

/-- Such changes compose. -/
theorem State.OnlyCtx.trans {s t u : State} {p b : Nat} (h : s.OnlyCtx t p b) (k : t.OnlyCtx u p b) : s.OnlyCtx u p b where
  rest := by
    have h1 := h.rest
    have k1 := k.rest
    rw [h1] at k1
    exact k1
  banks := fun q j hn => (k.banks q j hn).trans (h.banks q j hn)
  cores := fun q hn => (k.cores q hn).trans (h.cores q hn)
  regs := fun a d hn => (k.regs a d hn).trans (h.regs a d hn)

/-- What a ready context may read elsewhere is left alone by such a change. -/
theorem State.OnlyCtx.fields {s t : State} {p b : Nat} (h : s.OnlyCtx t p b) :
    t.pending = s.pending ∧ t.mono = s.mono ∧ t.now = s.now ∧ t.gorse = s.gorse ∧ t.dap = s.dap ∧ t.mem = s.mem := by
  rw [h.rest]; exact ⟨rfl, rfl, rfl, rfl, rfl, rfl⟩

/-- An instruction of a ready context whose body comes to `f` in a state `y`: it retires there, and the command answers that state. `y`
may differ from `s` wherever it leaves the context running, the other banks' claims on the core, trace and time alone. -/
theorem State.Ready.completesAt {s y : State} {p : Fin 253} {b : Fin 5} {i : Ins} {body : State → InsRes × State} {f : GoTo}
    (h : s.Ready p b) (hi : i.ill = false) (hs : i.slotOk = true ∨ (s.bank p b).slot = false) (hp : i.priv ≤ s.level p b)
    (hbody : body s = (.done f, y)) (hlive : y.trLive (trId p) = false) (htr : y.tracing = false)
    (hbanks : ∀ k, (y.bank p k).st = (s.bank p k).st ∧ (y.bank p k).epri = (s.bank p k).epri)
    (hstep : (y.bank p b).stepping = (s.bank p b).stepping) (hmc : ∀ q, (y.core q).mcActive = (s.core q).mcActive)
    (hv : y.gorse.vfail = s.gorse.vfail) (hpd : y.pending = s.pending) (hmo : y.mono = s.mono) (hno : y.now = s.now) :
    ∃ t, (s.ins p b i body).done s = .next t ∧ y.OnlyCtx t p b ∧ t.bank p b = (y.bank p b).after i f ∧ t.core p = y.core p := by
  rw [h.ins hi hs hp, hbody]
  have hiss := h.issues
  have hrun : b.val < 4 → (y.bank p b).st = .running := by
    intro h4
    rw [(hbanks b).1]
    have : b.val ≠ 4 := by omega
    simp [State.issues, this] at hiss
    exact hiss.2.1
  have hact : b.val = 4 → (y.core p).mcActive = true := by
    intro h4
    rw [hmc]
    simp [State.issues, h4] at hiss
    exact hiss.2
  have hkeep : y.Keeps p b := by
    rcases h.keeps with hk | hk
    · exact Or.inl hk
    · right
      intro k h4 hkb
      rw [(hbanks k).1, (hbanks k).2, (hbanks b).2]
      exact hk k h4 hkb
  have hret := State.retire_eq (i := i) f hlive hrun hact hkeep (by rw [hstep]; exact h.noStep)
  simp only [State.finish]
  rw [hret]
  generalize hz : ((((y.setBank p b ((y.bank p b).after i f)).freeN.2).perf p 1).perf p 0 (Config.freeNat y.freeCtr)) = t
  have ht : y.OnlyCtx t p b := by
    rw [← hz]
    exact (((State.onlyCtx_setBank y p b _).trans (State.onlyCtx_freeN _ p b)).trans (State.onlyCtx_perf _ p b 1 _ (by omega))).trans
      (State.onlyCtx_perf _ p b 0 _ (by omega))
  have hling : t.ling = (y.setBank p b ((y.bank p b).after i f)).ling := by
    rw [← hz, State.perf_rest, State.perf_rest]; rfl
  have hb2 : t.bank p b = (y.bank p b).after i f := by
    have : t.bank p b = (y.setBank p b ((y.bank p b).after i f)).bank p b := by simp [State.bank, hling]
    rw [this]; simp
  have hcq : ∀ q, t.core q = y.core q := fun q => by
    have : t.core q = (y.setBank p b ((y.bank p b).after i f)).core q := by simp [State.core, hling]
    rw [this]; rfl
  refine ⟨t, State.done_self ?_ ?_ ?_ (by rw [ht.fields.1, hpd]) (by rw [ht.fields.2.1, hmo]) ?_, ht, hb2, hcq p⟩
  · rw [State.tracing_congr (s := y) (fun a d ha => ht.regs a d (traceReg_not_perf ha))]
    exact htr
  · rw [ht.fields.2.2.2.1, hv]
  · rw [hcq, hmc]
  · rw [ht.fields.2.2.1, hno]; exact h.calm.2

/-- The same for a body that differs from `s` in its own context only. -/
theorem State.Ready.completes {s y : State} {p : Fin 253} {b : Fin 5} {i : Ins} {body : State → InsRes × State} {f : GoTo}
    (h : s.Ready p b) (hi : i.ill = false) (hs : i.slotOk = true ∨ (s.bank p b).slot = false) (hp : i.priv ≤ s.level p b)
    (hbody : body s = (.done f, y)) (hy : s.OnlyCtx y p b) (hst : (y.bank p b).st = (s.bank p b).st)
    (hep : (y.bank p b).epri = (s.bank p b).epri) (hstep : (y.bank p b).stepping = (s.bank p b).stepping)
    (hmc : (y.core p).mcActive = (s.core p).mcActive) :
    ∃ t, (s.ins p b i body).done s = .next t ∧ s.OnlyCtx t p b ∧ t.bank p b = (y.bank p b).after i f ∧ t.core p = y.core p := by
  have hlive : y.trLive (trId p) = false := by
    rw [← h.untraced]
    exact State.trLive_congr p.isLt (fun a d ha => hy.regs a d ha) hy.fields.2.2.2.2.1
  have htr : y.tracing = false := by
    rw [State.tracing_congr (s := s) (fun a d ha => hy.regs a d (traceReg_not_perf ha))]
    exact h.calm.1
  have hbanks : ∀ k, (y.bank p k).st = (s.bank p k).st ∧ (y.bank p k).epri = (s.bank p k).epri := by
    intro k
    by_cases hk : k = b.val
    · subst hk; exact ⟨hst, hep⟩
    · rw [hy.banks p k (by omega)]; exact ⟨rfl, rfl⟩
  have hmq : ∀ q, (y.core q).mcActive = (s.core q).mcActive := by
    intro q
    by_cases hq : q = p.val
    · subst hq; exact hmc
    · rw [hy.cores q hq]
  obtain ⟨t, h1, h2, h3, h4⟩ := h.completesAt (f := f) hi hs hp hbody hlive htr hbanks hstep hmq (by rw [hy.fields.2.2.2.1])
    hy.fields.1 hy.fields.2.1 hy.fields.2.2.1
  exact ⟨t, h1, hy.trans h2, h3, h4⟩

end Sys2Proof.Machine
end

