-- ==== Sys2Proof/Tests/Slice0.lean ====
section
/-! SUPPORT. Tests/Slice0.lean: states that meet the hypotheses of the statements, refusals of ill-formed commands, and small checks. -/

open Sys2Proof Sys2Proof.Machine

namespace Sys2Proof.Tests

set_option Elab.async false

/-! ### What the structures of Safety.lean ask, as one Boolean each, so that a concrete state can be shown to meet them -/

/-- `State.Calm`. -/
def calmB (s : State) : Bool := !s.tracing && decide (s.now < 2 ^ 64)

theorem calm_of {s : State} (h : calmB s = true) : s.Calm := by
  simpa [calmB, State.Calm] using h

/-- `State.Keeps`. -/
def keepsB (s : State) (p b : Nat) : Bool :=
  b == 4 || (List.range 4).all (fun k => k == b ||
    ((s.bank p k).st != .running && ((s.bank p k).st != .ready || decide ((s.bank p k).epri ≤ (s.bank p b).epri))))

theorem keeps_of {s : State} {p b : Nat} (h : keepsB s p b = true) : s.Keeps p b := by
  simp only [keepsB, Bool.or_eq_true, beq_iff_eq, List.all_eq_true, List.mem_range, Bool.and_eq_true, bne_iff_ne, ne_eq,
    decide_eq_true_eq] at h
  rcases h with h | h
  · exact .inl h
  · refine .inr (fun k hk hb => ?_)
    rcases h k hk with h | ⟨h1, h2⟩
    · exact absurd h hb
    · exact ⟨h1, fun hr => h2.resolve_left (fun hn => hn hr)⟩

/-- `State.Ready`. -/
def readyB (s : State) (p : Fin 253) (b : Fin 5) : Bool :=
  calmB s && (!s.trLive (trId p) && (s.issues p b && (decide ((s.bank p b).exc = []) && (!(s.bank p b).resv &&
    (decide (s.fetchPc p b = (none, s)) && (!s.dbgOn p b && (!(s.bank p b).stepping && (decide ((s.bank p b).hidden = 0) &&
      (decide ((s.bank p b).pend = []) && keepsB s p b)))))))))

theorem ready_of {s : State} {p : Fin 253} {b : Fin 5} (h : readyB s p b = true) : s.Ready p b := by
  simp only [readyB, Bool.and_eq_true, Bool.not_eq_true', decide_eq_true_eq] at h
  obtain ⟨h1, h2, h3, h4, h5, h6, h7, h8, h9, h10, h11⟩ := h
  exact ⟨calm_of h1, h2, h3, h4, h5, h6, h7, h8, h9, h10, keeps_of h11⟩

/-- The route of a request, where its master has a router. -/
def routeB (s : State) (m a : Nat) : Bool := (s.masterRouter m).all (fun r => s.routed r (s.targetUnit a).router)

theorem route_of {s : State} {m a : Nat} (h : routeB s m a = true) (r : Nat) (hr : s.masterRouter m = some r) :
    s.routed r (s.targetUnit a).router = true := by
  simpa [routeB, hr] using h

/-- An address in a scratch array. -/
def inScratch (s : State) (a : Nat) : Bool := match s.place a with
  | .scratch _ _ => true
  | _ => false

theorem scratch_of {s : State} {a : Nat} (h : inScratch s a = true) : ∃ t o, s.place a = .scratch t o := by
  unfold inScratch at h
  split at h
  · exact ⟨_, _, by assumption⟩
  · cases h

/-- The address a translation gives. -/
def transB (r : TrRes) (pa : Nat) (cached : Bool) : Bool := match r with
  | .ok x a => x == pa && !(cached && a.dev)
  | _ => false

theorem trans_of {r : TrRes} {pa : Nat} {c : Bool} (h : transB r pa c = true) : ∃ a, (c = true → a.dev = false) ∧ r = .ok pa a := by
  unfold transB at h
  split at h
  · rename_i x a
    simp only [Bool.and_eq_true, beq_iff_eq, Bool.not_eq_true', Bool.and_eq_false_imp] at h
    exact ⟨a, h.2, by rw [h.1]⟩
  · cases h

/-- `State.Scratch`. -/
def scratchB (s : State) (p : Fin 253) (b : Fin 5) (va : Word) (accs : List Nat) (op : AccOp) (pa : Nat) : Bool :=
  transB (s.translate p (s.ctxBank p b) (s.level p b) va.toNat accs) pa false && (decide (pa % 64 = va.toNat % 64) && (inScratch s pa &&
    (routeB s (s.coreReq p (s.level p b)).master.toNat pa &&
      (decide (s.guardAcc pa (s.coreReq p (s.level p b)) op (some (coreUnit p)) = (none, s)) &&
        (decide (s.memDown pa = none) && (!s.testOut p pa && (!s.poisoned pa && decide ((s.bank p b).dev = none))))))))

theorem atScratch {s : State} {p : Fin 253} {b : Fin 5} {va : Word} {accs : List Nat} {op : AccOp} {pa : Nat}
    (h : scratchB s p b va accs op pa = true) : s.Scratch p b va accs op pa := by
  simp only [scratchB, Bool.and_eq_true, Bool.not_eq_true', decide_eq_true_eq] at h
  obtain ⟨h1, h2, h3, h4, h5, h6, h7, h8, h9⟩ := h
  obtain ⟨a, -, ha⟩ := trans_of h1
  exact ⟨⟨a, ha⟩, h2, scratch_of h3, route_of h4, h5, h6, h7, h8, h9⟩

/-- `State.L1Hit`. -/
def l1HitB (s : State) (p : Fin 253) (b : Fin 5) (va : Word) (pa : Nat) : Bool :=
  transB (s.translate p (s.ctxBank p b) (s.level p b) va.toNat [0]) pa true && (decide (pa % 64 = va.toNat % 64) &&
    (decide (s.place pa = .dram) && (l1Has s.ling.l1d p (pa / 64) && (decide ((s.sub (coreAgent p) (pa / 64)).data ≠ []) &&
      (!(s.sub (coreAgent p) (pa / 64)).poison && !s.testOut p pa)))))

theorem l1Hit_of {s : State} {p : Fin 253} {b : Fin 5} {va : Word} {pa : Nat} (h : l1HitB s p b va pa = true) : s.L1Hit p b va pa := by
  simp only [l1HitB, Bool.and_eq_true, Bool.not_eq_true', decide_eq_true_eq] at h
  obtain ⟨h1, h2, h3, h4, h5, h6, h7⟩ := h
  obtain ⟨a, hd, ha⟩ := trans_of h1
  exact ⟨⟨a, hd rfl, ha⟩, h2, h3, h4, h5, h6, h7⟩

/-- `State.ScratchFor`. -/
def scratchForB (s : State) (r : Req) (src : Option UnitId) (a : Nat) (op : AccOp) : Bool :=
  inScratch s a && (routeB s r.master.toNat a && (decide (s.guardAcc a r op src = (none, s)) && decide (s.memDown a = none)))

theorem scratchFor_of {s : State} {r : Req} {src : Option UnitId} {a : Nat} {op : AccOp} (h : scratchForB s r src a op = true) :
    s.ScratchFor r src a op := by
  simp only [scratchForB, Bool.and_eq_true, decide_eq_true_eq] at h
  exact ⟨scratch_of h.1, route_of h.2.1, h.2.2.1, h.2.2.2⟩

/-- `State.Issues`. -/
def issuesB (s : State) (e : Fin 64) (ecc : Ecc) (t : Nat) (m : Mw) : Bool :=
  calmB s && (!s.trLive (0x100 + e) && (s.engIssues e && (decide (s.nextThread e = some t) && (decide (s.thMw t = m) &&
    (decide (s.csBad e (s.thread t).pc = 0) &&
      (decide (s.mwCause e t m (BitVec.ofNat 32 (natBits (s.csWord e (s.thread t).pc).toNat 127 96)) ecc = none) &&
        (decide (ecc = .clean ∨ m.ctxReads = []) && (decide ((s.thread t).berr = none) &&
          (decide ((s.thread t).excAct = true ∨ ∀ n ∈ s.engHits e (s.thread t).pc, (s.cmp (.engine e) n).1.bit 8 = false) &&
            decide (∀ o ∈ (s.thread t).ops, o.id < (s.thread t).nextOp))))))))))

theorem issues_of {s : State} {e : Fin 64} {ecc : Ecc} {t : Nat} {m : Mw} (h : issuesB s e ecc t m = true) : s.Issues e ecc t m := by
  simp only [issuesB, Bool.and_eq_true, Bool.not_eq_true', decide_eq_true_eq] at h
  obtain ⟨h1, h2, h3, h4, h5, h6, h7, h8, h9, h10, h11⟩ := h
  exact ⟨calm_of h1, h2, h3, h4, h5, h6, h7, h8, h9, h10, h11⟩

/-- `State.Runs`. -/
def runsB (s : State) (l : Fin 2) (op : Nat) (c : AdmCmd) (n : Nat) : Bool :=
  decide ((s.adm l).prog = [c]) && (decide (c.ph = 0) && (c.wellFormed && (decide (c.op = op) && (decide (n = c.num 4 2 % 2048) &&
    (decide ((s.ti n).st = 1 ∨ (s.ti n).st = 2) && decide ((s.ti n).link = l))))))

theorem runs_of {s : State} {l : Fin 2} {op : Nat} {c : AdmCmd} {n : Nat} (h : runsB s l op c n = true) : s.Runs l op c n := by
  simp only [runsB, Bool.and_eq_true, decide_eq_true_eq] at h
  obtain ⟨h1, h2, h3, h4, h5, h6, h7⟩ := h
  exact ⟨h1, h2, h3, h4, h5, h6, h7⟩

/-! ### Ling states: core 0, bank 0, one fetched line, half of the Tussock's L2 as scratch -/

def bank0 : Bank := { st := .running, pc := 0x100, npc := 0x104 }
def line0 : List Byte := (List.range 64).map (fun i => BitVec.ofNat 8 (0x81 + i))
def regsOf (l : List Word) : Map Word := ((List.range l.length).map (fun i => (i + 1, l.getD i 0))).filter (fun e => e.2 != 0)
def wins : Map Word := (List.range 90).map (fun i => (i, BitVec.ofNat 32 (i + 1000)))

/-- Core 0 with bank 0 as `x`: segment 0 translates to the scratch array, whose access table lets identity 0 in. -/
def cpu (x : Bank) : State :=
  let r0 := State.reset.wf (.core 0) R.M_CTL F.S_CTL_SEG 0xC
  let r1 := (r0.wf (.core 0) R.H_CTL F.S_CTL_SEG 0xC).wf (.core 0) R.S_CTL F.S_CTL_SEG 0xC
  { State.reset with ling := { banks := [(0, x)], l1i := [(4, { ways := [(0, 805306373)], ptr := 1 })] },
                     regs := (r1.wf (.tussock 0) R.L2_WAYS F.L2_WAYS_SCRATCH 8).regs,
                     sward := { atab := [(0x10000, 0x1C0)] } }

def withG (l : List Word) : Bank := { bank0 with g := regsOf l }
def aluS : State := cpu (withG [0x80000000, 0xFFFFFFFF, 0x12345678, 5, 0x2A5])
def memS : State := (cpu (withG [0x200, 0x10, 0x87868584, 0x240, 0x204])).setBytes 0xC00000200 line0
def resS : State := (cpu { withG [0x200, 0x10, 0x87868584, 0x240, 0x204] with ldxGran := some 0x30000008 }).setBytes 0xC00000200 line0

/-- The same with untranslated DRAM, its first lines in the caches. -/
def dramS (g : List Word) : State :=
  let s := cpu (withG g)
  let s : State := { s with regs := [], ling := { s.ling with l1i := [(4, { ways := [(0, 5)], ptr := 1 })], l1d := [(8, { ways := [(0, 9)], ptr := 1 })] } }
  let s := (s.setSub 0 8 { st := .s, data := line0 }).setSub 0 4 { st := .s, data := line0 }
  ((s.setSector 0 8 (some { way := 9 })).setSector 0 4 (some { way := 8 })).setAtEntry 0 0 0x1C0

/-! ### Witnesses: arithmetic, loads and stores -/

theorem witness_AluRegister : aluS.Ready 0 0 := ready_of (by decide +kernel)
theorem witness_AluDivision : aluS.Ready 0 0 ∧ aluS.gpr 0 0 4 ≠ 0 ∧ aluS.gpr 0 0 6 = 0 ∧ aluS.gpr 0 0 1 = 0x80000000 ∧
    aluS.gpr 0 0 2 = 0xFFFFFFFF := ⟨witness_AluRegister, by decide +kernel⟩
theorem witness_AluBits : aluS.Ready 0 0 ∧ (0 : BitVec 5) = 0 := ⟨witness_AluRegister, rfl⟩
theorem witness_AluImmediate : aluS.Ready 0 0 ∧ (0 : BitVec 5) = 0 ∧ (0x007F : BitVec 16).toNat < 128 :=
  ⟨witness_AluRegister, by decide⟩

theorem memS_ready : memS.Ready 0 0 := ready_of (by decide +kernel)
theorem witness_Loads : memS.Ready 0 0 ∧ formIll true (.imm 3 1 0x38) = false ∧ (memS.formAddr 0 0 (.imm 3 1 0x38)).toNat % 4 = 0 ∧
    memS.Scratch 0 0 (memS.formAddr 0 0 (.imm 3 1 0x38)) [0] .read 0xC00000238 :=
  ⟨memS_ready, by decide, by decide +kernel, atScratch (by decide +kernel)⟩
theorem witness_Loads_hit : (dramS [0x200]).Ready 0 0 ∧ (dramS [0x200]).L1Hit 0 0 ((dramS [0x200]).formAddr 0 0 (.imm 3 1 0)) 0x200 :=
  ⟨ready_of (by decide +kernel), l1Hit_of (by decide +kernel)⟩
theorem witness_Stores : memS.Ready 0 0 ∧ formIll false (.imm 3 1 4) = false ∧ (memS.formAddr 0 0 (.imm 3 1 4)).toNat % 4 = 0 ∧
    memS.Scratch 0 0 (memS.formAddr 0 0 (.imm 3 1 4)) [1] .write 0xC00000204 :=
  ⟨memS_ready, by decide, by decide +kernel, atScratch (by decide +kernel)⟩
theorem witness_Atomics : memS.Ready 0 0 ∧ (memS.gpr 0 0 1).toNat % 4 = 0 ∧ memS.Scratch 0 0 (memS.gpr 0 0 1) [0, 1] .own 0xC00000200 ∧
    memS.ownStores 0 (0xC00000200 / 64) = false ∧ memS.Scratch 0 0 (memS.gpr 0 0 1) [0] .read 0xC00000200 ∧
    memS.Scratch 0 0 (memS.gpr 0 0 1) [0, 1] .write 0xC00000200 ∧ (memS.bank 0 0).ldxGran ≠ some (0xC00000200 / 64) :=
  ⟨memS_ready, by decide +kernel, atScratch (by decide +kernel), by decide +kernel, atScratch (by decide +kernel),
   atScratch (by decide +kernel), by decide +kernel⟩
theorem witness_Atomics_reserved : resS.Ready 0 0 ∧ resS.Scratch 0 0 (resS.gpr 0 0 1) [0, 1] .write 0xC00000200 ∧
    (resS.bank 0 0).ldxGran = some (0xC00000200 / 64) :=
  ⟨ready_of (by decide +kernel), atScratch (by decide +kernel), by decide +kernel⟩
theorem witness_LoadStoreMultiple : memS.Ready 0 0 ∧ (memS.gpr 0 0 1).toNat % 4 = 0 ∧ (memS.bank 0 0).lsm = none ∧
    lsmIll true 0 1 0x8001 = false ∧ lsmIll false 0 1 0x8001 = false ∧
    (∀ k : Fin 2, memS.Scratch 0 0 (memS.gpr 0 0 1 + BitVec.ofNat 32 (4 * k.val)) [0] .read (0xC00000200 + 4 * k.val) ∧
      memS.Scratch 0 0 (memS.gpr 0 0 1 + BitVec.ofNat 32 (4 * k.val)) [1] .write (0xC00000200 + 4 * k.val)) ∧
    ∀ r, r < 16 → (0x8001 : BitVec 16).getLsbD r = true → r = 0 ∨ r = 15 := by
  refine ⟨memS_ready, by decide +kernel, by decide +kernel, by decide, by decide, fun k => ?_, by decide⟩
  match k with
  | 0 => exact ⟨atScratch (by decide +kernel), atScratch (by decide +kernel)⟩
  | 1 => exact ⟨atScratch (by decide +kernel), atScratch (by decide +kernel)⟩

/-! ### Witnesses: control, special registers, MAC, events, windows, exceptions -/

theorem witness_Branches : memS.Ready 0 0 ∧ (memS.bank 0 0).slot = false ∧ (0 : BitVec 5) = 0 ∧ (1 : BitVec 5) ≠ 0 :=
  ⟨memS_ready, by decide +kernel⟩
theorem witness_Jumps : memS.Ready 0 0 ∧ (memS.bank 0 0).slot = false ∧ (memS.gpr 0 0 1).toNat % 4 = 0 :=
  ⟨memS_ready, by decide +kernel⟩
theorem witness_Repeats : memS.Ready 0 0 ∧ (memS.bank 0 0).slot = false ∧ 0 < 1 := ⟨memS_ready, by decide +kernel⟩

def srS (pl : Nat) : State := cpu { withG [1, 2] with pl := pl, bwin := 0x145, eset := [(1, { epc := 5 }), (2, { epc := 6 }), (3, { epc := 7 })] }
theorem witness_SpecialRegisters : (srS 2).Ready 0 0 ∧ (0 : Fin 5).val < 4 ∧ (0 : Fin 253).val < 252 ∧ 1 ≤ ((srS 2).bank 0 0).pl ∧
    2 ≤ ((srS 2).bank 0 0).pl := ⟨ready_of (by decide +kernel), by decide +kernel⟩

def macS : State := { memS with ling := { memS.ling with cores := [(0, { mac := { k := [(3, 0x80000000)], mctl := 0x303 }, macOwner := some (0, 0) })] } }
theorem macS_ready : macS.Ready 0 0 := ready_of (by decide +kernel)
theorem witness_MacAccumulate : macS.Ready 0 0 ∧ macS.macOwn 0 0 = true ∧ (3 : BitVec 5).toNat < 4 ∧ (15 : BitVec 5).toNat < 16 ∧
    (macS.gpr 0 0 1).toNat % 4 = 0 ∧ macS.Scratch 0 0 (macS.gpr 0 0 1) [0] .read 0xC00000200 :=
  ⟨macS_ready, by decide +kernel, by decide, by decide, by decide +kernel, atScratch (by decide +kernel)⟩
theorem witness_MacMove : macS.Ready 0 0 ∧ macS.macOwn 0 0 = true ∧ (3 : BitVec 5).toNat < 4 ∧ (15 : BitVec 5).toNat < 16 ∧
    memS.Ready 0 0 ∧ (memS.core 0).macOwner = none :=
  ⟨macS_ready, by decide +kernel, by decide, by decide, memS_ready, by decide +kernel⟩

def evS (flag : Bool) : State :=
  let s := cpu { withG [1, 0x10000001] with flag := flag }
  { s with now := 5, ling := { s.ling with banks := s.ling.banks ++ [(8, { st := .waiting, wait := .wfe }), (9, { st := .ready })] } }
theorem witness_Events : (evS true).Ready 0 0 ∧ ((evS true).bank 0 0).flag = true ∧ 0 ≤ (lo32 (evS true).now - (evS true).gpr 0 0 1).toInt ∧
    (evS false).Ready 0 0 ∧ ((evS false).bank 0 0).flag = false ∧ (1 ≠ (0 : Fin 253).val ∧ ((evS false).core 1).lastRun < 4 ∧
      ((evS false).gpr 0 0 2).fld ⟨31, 30⟩ = 0 ∧ (evS false).coreOf (((evS false).gpr 0 0 2).fld ⟨11, 0⟩) = some 1 ∧
      ((evS false).bank 1 (((evS false).gpr 0 0 2).fld ⟨29, 28⟩)).st ≠ .off) :=
  ⟨ready_of (by decide +kernel), by decide +kernel, by decide +kernel, ready_of (by decide +kernel), by decide +kernel, by decide +kernel⟩

def winS (d r c : Nat) : State := cpu { withG [0x200] with depth := d, resident := r, cwp := c, w := wins }
theorem witness_Windows : (winS 65534 4 6).Ready 0 0 ∧ (0 : Fin 5).val < 4 ∧ ((winS 65534 4 6).bank 0 0).trap = false ∧
    ((winS 65534 4 6).bank 0 0).cwp < 7 ∧ ((winS 65534 4 6).bank 0 0).depth < 65535 ∧ ((winS 65534 4 6).bank 0 0).resident < 5 ∧
    (winS 1 1 0).Ready 0 0 ∧ 0 < ((winS 1 1 0).bank 0 0).depth ∧ 0 < ((winS 1 1 0).bank 0 0).resident :=
  ⟨ready_of (by decide +kernel), by decide, by decide +kernel, by decide +kernel, by decide +kernel, by decide +kernel,
   ready_of (by decide +kernel), by decide +kernel⟩

def excS (pl : Nat) : State := cpu { withG [0x201] with pl := pl, depth := 65534, resident := 4, cwp := 6, edepth := 14 }
theorem witness_ExceptionEntry : (excS 0).Ready 0 0 ∧ (let x := (excS 0).bank 0 0
    x.trap = false ∧ x.edepth < 15 ∧ x.depth < 65535 ∧ x.resident < 5 ∧ x.slot = false ∧ x.cwp < 7 ∧ x.lsm = none ∧ x.pl < 4 ∧ x.pl = 0) ∧
    (1 : BitVec 5) ≠ 0 ∧ ((excS 0).gpr 0 0 1).toNat % 4 ≠ 0 :=
  ⟨ready_of (by decide +kernel), by decide +kernel, by decide, by decide +kernel⟩

def retS : State := cpu { bank0 with pl := 1, depth := 1, resident := 1, edepth := 1, w := wins, eset := [(1, { epc := 0x800, enpc := 0x804, estat := 1 })] }
theorem witness_ExceptionReturn : retS.Ready 0 0 ∧ (let x := retS.bank 0 0
    1 ≤ x.pl ∧ x.slot = false ∧ x.trap = false ∧ 0 < x.edepth ∧ 0 < x.depth ∧ 0 < x.resident ∧ x.cwp < 7 ∧ x.filled = [] ∧ x.mon = false ∧
      (retS.core 0).macOwner ≠ some (0, x.edepth) ∧ (x.es x.pl).eprog = 0) :=
  ⟨ready_of (by decide +kernel), by decide +kernel⟩

theorem witness_FencesAndTlb : memS.Ready 0 0 ∧ (memS.bank 0 0).storesOut = 0 ∧ (memS.bank 0 0).puts = [] ∧ (memS.bank 0 0).walk = none ∧
    (∀ pl : Fin 4, 1 ≤ pl.val → (srS pl).Ready 0 0 ∧ ((srS pl).bank 0 0).pl = pl) ∧ ((srS 1).gpr 0 0 2).bit 31 = false := by
  refine ⟨memS_ready, by decide +kernel, by decide +kernel, by decide +kernel, fun pl h => ?_, by decide +kernel⟩
  match pl with
  | 0 => exact absurd h (by decide)
  | 1 => exact ⟨ready_of (by decide +kernel), by decide +kernel⟩
  | 2 => exact ⟨ready_of (by decide +kernel), by decide +kernel⟩
  | 3 => exact ⟨ready_of (by decide +kernel), by decide +kernel⟩

theorem witness_RangeOperations : (let s := dramS [0x200, 0x240]
    s.Ready 0 0 ∧ 1 ≤ (s.bank 0 0).pl ∧ (s.gpr 0 0 2).toNat ≤ (s.gpr 0 0 2).toNat ∧
    ((s.gpr 0 0 1).toNat < (s.gpr 0 0 2).toNat ∧ (s.gpr 0 0 2).toNat ≤ (s.gpr 0 0 1).toNat / 64 * 64 + 64 ∧ s.place 0x200 = .dram ∧
      s.sector (coreAgent 0) 8 = some { way := 9 } ∧ (s.sub (coreAgent 0) 8).st = .s) ∧
    ∀ acc : Fin 2, transB (s.translate 0 (s.ctxBank 0 0) (s.level 0 0) 0x200 [acc.val]) 0x200 true = true) :=
  ⟨ready_of (by decide +kernel), by decide +kernel, by decide +kernel, by decide +kernel, by decide +kernel⟩

theorem witness_OtherBanks : (srS 2).Ready 0 0 ∧ 2 ≤ (srS 2).level 0 0 ∧ ((srS 2).bank 0 (((srS 2).bank 0 0).bwin.fld ⟨1, 0⟩)).pend = [] ∧
    ((srS 2).bank 0 0).bwin.fld ⟨1, 0⟩ ≠ 0 := ⟨ready_of (by decide +kernel), by decide +kernel⟩

/-! ### Witnesses: a core's own engines -/

def pl0 : PendLoad := { va := 0x23E, pa := 0xC0000023E, rd := 3, size := 2, signed := true }
def leS (x : Bank) : State := (cpu x).setBytes 0xC00000200 line0
def leA : State := leS { bank0 with pend := [pl0], tctl := 1, wsp := 0x240, depth := 6, resident := 5, w := wins }
def leB : State := { leS { bank0 with st := .waiting, wait := .waitt 7, wsp := 0x240, depth := 1, resident := 0 } with now := 7 }
def leC : State :=
  let s := (leS { bank0 with epri := 1 }).wf (.core 0) R.SCHED_CFG F.SCHED_CFG_QUANT 3
  { s with mono := 100000, ling := { s.ling with banks := s.ling.banks ++ [(1, { st := .ready, epri := 1 })] } }

theorem witness_LingEngines : leA.Calm ∧ leA.answers (.core 0) = true ∧
    ((leA.bank 0 0).pend = [pl0] ∧ leA.Scratch 0 0 pl0.va [0] .read 0xC0000023E ∧ pl0.pa % 64 + pl0.size ≤ 64 ∧ 0 < pl0.size) ∧
    ((leA.bank 0 0).st ≠ .off ∧ (leA.bank 0 0).tctl.bit 0 = true ∧ 0 ≤ (lo32 leA.now - (leA.bank 0 0).tcmpAt 0).toInt) ∧
    (5 ≤ (leA.bank 0 0).resident ∧ (leA.bank 0 0).exc = [] ∧ leA.Scratch 0 0 (leA.bank 0 0).wsp [1] .write 0xC00000240) :=
  ⟨calm_of (by decide +kernel), by decide +kernel, ⟨by decide +kernel, atScratch (by decide +kernel), by decide, by decide⟩,
   by decide +kernel, by decide +kernel, by decide +kernel, atScratch (by decide +kernel)⟩
theorem witness_LingEngines_wait : leB.Calm ∧ leB.answers (.core 0) = true ∧
    ((leB.bank 0 0).st = .waiting ∧ (leB.bank 0 0).wait = .waitt 7 ∧ 0 ≤ (lo32 leB.now - 7).toInt) ∧
    (1 ≤ (leB.bank 0 0).depth ∧ (leB.bank 0 0).resident = 0 ∧ (leB.bank 0 0).cwp < 7 ∧ leB.Scratch 0 0 ((leB.bank 0 0).wsp - 64) [0] .read 0xC00000200) :=
  ⟨calm_of (by decide +kernel), by decide +kernel, by decide +kernel, by decide +kernel, by decide +kernel, by decide +kernel,
   atScratch (by decide +kernel)⟩
theorem witness_LingEngines_quantum : leC.Calm ∧ leC.answers (.core 0) = true ∧ leC.Keeps 0 0 ∧ (leC.bank 0 0).st = .running ∧
    leC.schedulable 0 = true ∧ leC.rf (.core 0) R.SCHED_CFG F.SCHED_CFG_QUANT ≠ 0 ∧
    (leC.core 0).runStart + leC.quantNs 0 (leC.rf (.core 0) R.SCHED_CFG F.SCHED_CFG_QUANT) ≤ leC.mono ∧
    (leC.bank 0 1).st = .ready ∧ (leC.bank 0 1).epri = (leC.bank 0 0).epri :=
  ⟨calm_of (by decide +kernel), by decide +kernel, keeps_of (by decide +kernel), by decide +kernel⟩

def walkS : State :=
  let s := leS { bank0 with pl := 1, walk := some { va := 0x12345678, acc := 0, pl := 1, engine := false } }
  let s : State := { s with regs := ((s.wf (.core 0) R.S_TTB F.S_TTB_BASE (0xC00000000 / 2 ^ 15)).wf (.core 0) R.S_TTB ⟨0, 0⟩ 1).regs }
  s.setBytes (0xC00000000 + 8 * 0x123) (leBytes 8 0x500000A100300002)
theorem witness_TableWalk : walkS.Calm ∧ ((walkS.bank 0 0).walk = some { va := 0x12345678, acc := 0, pl := 1, engine := false } ∧
      (walkS.bank 0 0).dev = none ∧ (walkS.ttb 0 0 0).bit 0 = true ∧ walkS.s2On 0 0 0 = false) ∧
    (let a := (walkS.ttb 0 0 0).fld F.S_TTB_BASE * 2 ^ 15 + 8 * ((0x12345678 : Word).toNat / 2 ^ 20)
     let e := walkS.leAt a 8
     inScratch walkS a = true ∧ walkS.testOut 0 a = false ∧ walkS.memDown a = none ∧ walkS.poisoned a = false ∧
     routeB walkS (walkS.coreReq 0 1).master.toNat a = true ∧ walkS.guardAcc a (walkS.coreReq 0 1) .read (some (coreUnit 0)) = (none, walkS) ∧
     e % 4 = 2 ∧ natBits e 55 40 = 0 ∧ natBits e 19 2 = 0) :=
  ⟨calm_of (by decide +kernel), by decide +kernel, by decide +kernel⟩
/-! ### Witnesses: the block as a whole, registers, units, modes -/

/-- Gorse as a requester, which every access table lets in at reset. -/
def gor : Req := { master := 0x1C0, priv := 3, epoch := 0 }
/-- Another master that they let in. -/
def hst : Req := { master := 0x181, priv := 3, epoch := 0 }

/-- All Tussocks out of reset. -/
def up (s : State) : State := { s with tusUp := List.range 28 }
def sU : State := up State.reset
def sSteady : State := { sU with mode := { mode := .steady } }

/-- Grant master `m` everything at level U. -/
def letIn (s : State) (m : Nat) : State := (List.range 128).foldl (fun (s : State) a => s.setAtEntry a m 0x1C0) s

theorem sU_calm : sU.Calm := calm_of (by decide +kernel)
theorem sSteady_calm : sSteady.Calm := calm_of (by decide +kernel)

theorem witness_StepRunsFront : ({ State.reset with pending := [.energyUpdate, .modeSwap] } : State).pending = .energyUpdate :: [.modeSwap] := rfl
theorem witness_StepIdle : State.reset.pending = [] ∧ ({ State.reset with mode := { mode := .dormant } } : State).pending = [] := ⟨rfl, rfl⟩
theorem witness_EveryCommandCompletes : ({ State.reset with now := 2 ^ 64 - 1, pending := [.unitReset gor (.core 251) false] } : State).Inv :=
  ⟨by decide, by decide +kernel⟩
theorem witness_QueueDrains : let s : State := { State.reset with pending := [.energyUpdate, .modeSwap, .energyUpdate] }
    s.Inv ∧ s.pending = [.energyUpdate, .modeSwap] ++ [.energyUpdate] := ⟨⟨by decide, by decide +kernel⟩, rfl⟩

theorem witness_RegisterWrites : sU.Calm ∧ (UnitId.core 251).valid = true ∧ (BitVec.ofNat 48 (regAddr (.core 251) R.VEC_M 0 0)).toNat = regAddr (.core 251) R.VEC_M 0 0 ∧
    sU.Granted gor .write (.core 251) R.VEC_M 0 0 ∧ 0x100 ≤ R.VEC_M.off ∧ regWritable R.VEC_M ≠ 0 ∧ plainReg (.core 251) R.VEC_M = true ∧
    sU.ident 251 < 252 := by unfold State.Granted; exact ⟨sU_calm, by decide +kernel⟩
theorem witness_RegisterWrites_none : sU.Granted gor .write .device R.MODE_STATUS 0 0 ∧ 0x100 ≤ R.MODE_STATUS.off ∧ regWritable R.MODE_STATUS = 0 := by
  unfold State.Granted; decide +kernel
theorem witness_RegisterPairs : let s := sU.setAtEntry UnitId.peat.atid 0x181 0x1C0
    s.Calm ∧ (R.GT_SET_LO, R.GT_SET_HI) ∈ loHiOf .peat ∧ s.Granted gor .read .peat R.GT_SET_LO 0 0 ∧ gor.debug = false ∧
    s.Granted gor .read .peat R.GT_SET_HI 0 0 ∧ hst.debug = false ∧ hst.master ≠ gor.master ∧ s.Granted hst .read .peat R.GT_SET_HI 0 0 := by
  unfold State.Granted; exact ⟨calm_of (by decide +kernel), by decide +kernel⟩

/-- The hypotheses of a refusal with code `c` for requester `r` at MODE_REQ. -/
def deniedB (s : State) (r : Req) (c : Nat) : Bool :=
  let a := regAddr .device R.MODE_REQ 0 0
  let e := s.atEntry UnitId.device.atid r.master.toNat
  decide (unitAt a = some (.device, 0x100)) && (routeB s r.master.toNat a && (decide (s.mode.mode ≠ .dormant ∧ s.peat.underV = false) &&
    (!gorseOnly a && decide (c = if r.epoch.toNat ≠ e % 16 then 1 else if r.priv.toNat < e / 16 % 4 then 2 else if e.testBit 7 then 0 else 3))))

theorem witness_AccessDenied : sU.Calm ∧ sU.Mute ∧ deniedB sU { gor with epoch := 15 } 1 = true ∧ deniedB sU { gor with priv := 2 } 2 = true ∧
    deniedB sU { master := 0xFFF, priv := 0, epoch := 0 } 3 = true ∧
    (let s : State := { sU with sward := { viol := [(routerQuad UnitId.device.router, List.replicate 16 ⟨1, 2, 3, 1, 5, 6, 7⟩)] } }
     s.Calm ∧ s.Mute ∧ deniedB s { gor with epoch := 1 } 1 = true ∧ 16 ≤ (mapGet [] s.sward.viol (routerQuad UnitId.device.router)).length) := by
  unfold State.Mute; exact ⟨sU_calm, by decide +kernel, by decide +kernel, by decide +kernel, by decide +kernel, calm_of (by decide +kernel),
    by decide +kernel, by decide +kernel⟩

theorem witness_ConfigurationDigest : sU.Calm ∧ (UnitId.sw 1).valid = true ∧ gor.debug = false ∧
    sU.Granted gor .read (.sw 1) R.CFG_DIGEST_LO 0 0 ∧ sU.Granted gor .read (.sw 1) R.CFG_DIGEST_HI 0 0 := by
  unfold State.Granted; exact ⟨sU_calm, by decide +kernel⟩

theorem witness_UnitReset : sU.Calm ∧ (UnitId.core 250).valid = true ∧ UnitId.core 250 ≠ .device ∧
    sU.Granted gor .write (.core 250) R.RESET_CTL 0 0 ∧ (sU.unit (.core 250)).hold = false ∧ (sU.unit (.core 250)).dead = false := by
  unfold State.Granted; exact ⟨sU_calm, by decide +kernel⟩

def sOff : State := [UnitId.core 2, .eth].foldl (fun (s : State) u => s.wf u R.PWR_REQ F.PWR_REQ_TARGET 3) sSteady
theorem witness_UnitPower : sOff.Calm ∧ (let u := UnitId.core 2
    u.valid = true ∧ sOff.mode.mode ≠ .dormant ∧ sOff.inReset u = false ∧ sOff.attached = false ∧ (sOff.unit u).pstate = .on ∧ sOff.idle u = true ∧
    3 ≤ sOff.obeys u ∧ sOff.mem.subs = [] ∧ sOff.isOff u = false) ∧
    (let s := sU.setUnit .eth { pstate := .transition }
     s.Calm ∧ (s.unit .eth).pstate = .transition) ∧ (sU.setUnit .eth { pstate := .off }).isOff .eth = true :=
  ⟨calm_of (by decide +kernel), by decide +kernel, ⟨calm_of (by decide +kernel), by decide +kernel⟩, by decide +kernel⟩

theorem witness_UnitHealth : sU.Calm ∧ sU.checked (.core 2) = true ∧ sU.now % 2000 = 0 ∧ sU.silent [] (.core 2) = false ∧
    sU.silent [.core 2] (.core 2) = true ∧ (sU.unit (.core 2)).missed < 3 ∧
    ∀ u ∈ [UnitId.mio, .hedgerow, .dap, .telCoder, .core 8], (let s := sU.setUnit u { missed := 3 }
      calmB s = true ∧ u.valid = true ∧ s.checked u = true ∧ 3 ≤ (s.unit u).missed ∧ s.fault.mclog.length < 32 ∧
      ((s.rd .device R.FAULT_EVT_D).bit 31 = false ∧ ∀ q, q < 4 → (s.rd (.quad q) R.FAULT_EVT_Q).bit 31 = false) ∧
      (u ∈ [UnitId.mio, .hedgerow, .dap, .telCoder] ∨
        u = .core 8 ∧ s.siblingDue u = false ∧ s.health 8 = .spare ∧ s.mode.mode = .boot ∧ s.mode.trans = none)) :=
  ⟨sU_calm, by decide +kernel, by decide +kernel, by decide +kernel, by decide +kernel, by decide +kernel, by decide +kernel⟩

theorem witness_ModeRequests : sSteady.Calm ∧ sSteady.mode.trans = none ∧ sSteady.mode.rcvWant = false ∧ sSteady.eth.egress = [] ∧
    sSteady.mode.mode = .steady ∧ sSteady.mode.mode ≠ .surge ∧ sSteady.Granted gor .write .device R.MODE_REQ 0 0 ∧
    (let s : State := { sU with mode := { mode := .surge } }
     s.Calm ∧ s.mode.mode ≠ .steady ∧ s.Granted gor .write .device R.MODE_REQ 0 0) ∧
    (sU.Calm ∧ sU.mode.mode = .boot ∧ (sU.rd .gorse R.BOOT_STATUS).bit 31 = false ∧ sU.Granted gor .write .device R.MODE_REQ 0 0) ∧
    (let s : State := { sU with mode := { mode := .steady, trans := some { target := .maintenance } } }
     s.Calm ∧ s.mode.trans.isSome = true ∧ s.mode.pending = none ∧ s.Granted gor .write .device R.MODE_REQ 0 0) := by
  unfold State.Granted
  exact ⟨sSteady_calm, by decide +kernel, by decide +kernel, by decide +kernel, by decide +kernel, by decide +kernel, by decide +kernel,
    ⟨calm_of (by decide +kernel), by decide +kernel⟩, ⟨sU_calm, by decide +kernel⟩, calm_of (by decide +kernel), by decide +kernel⟩

def trans (x : Trans) (plan : Option Nat) : State :=
  { sU with mode := { mode := .steady, trans := some x }, now := 5, tusUp := [0], sward := { sU.sward with loading := plan } }
theorem witness_ModeTransitions : (∀ x ∈ [trans { target := .surge } (some 2), trans { target := .surge, ts := some 5 } none,
      trans { target := .recovery, ts := some 5, device := true } none, trans { target := .steady, swapped := true, needClk := true, needTus := true } none],
      calmB x = true ∧ x.mode.pending = none ∧ x.eth.egress = []) ∧
    Mode.surge.plan = some 2 ∧ (trans { target := .surge } (some 2)).sward.loading = some 2 ∧
    27 ∉ (trans { target := .steady, swapped := true, needClk := true, needTus := true } none).tusUp ∧
    (let s : State := { sSteady with mode := { mode := .steady, vReload := true }, sward := { sU.sward with loading := some 3 } }
     calmB s = true ∧ s.mode.vReload = true ∧ s.sward.loading = some 3 ∧ s.mode.trans = none ∧ s.mode.rcvWant = false) ∧
    (let s : State := { sSteady with mode := { mode := .steady, dormEntry := true } }
     calmB s = true ∧ s.mode.dormEntry = true ∧ s.attached = false ∧ s.peat.exiting = none ∧ s.trace.src = [] ∧ s.hrOn = false) ∧
    (let s := sU.wf .device R.MODE_REQ F.MODE_REQ_DP_EN 0
     calmB s = true ∧ s.dpOn = false ∧ s.pathEmpty = true) :=
  ⟨by decide +kernel, by decide +kernel, by decide +kernel, by decide +kernel, by decide +kernel, by decide +kernel, by decide +kernel⟩

/-! ### Witnesses: Sward, windows to the host, memory, time -/

def viol0 : Viol := ⟨1, 2, 3, 1, 0x50, 7, 0x123456789⟩
theorem witness_SwardRegisters : sU.Calm ∧ atabWritable 0 ((0x10FFF1FF : Word).toNat / 2 ^ 24) = true ∧ atabWritable 0 ((0xFF1C0033 : Word).toNat / 2 ^ 24) = false ∧
    sU.Granted gor .write (.sw 0) R.ATAB_WRITE 0 0 ∧ gor.debug = false ∧ mapGet [] sU.sward.viol 0 = [] ∧
    sU.Granted gor .read (.sw 0) R.VIOL_POP 0 0 ∧ sU.Granted gor .read (.sw 0) R.SEM 31 0 ∧ sU.Granted gor .write (.sw 0) R.SEM_REL 0 0 ∧
    sU.Granted gor .write (.sw 0) R.PMON_CTL 7 0 ∧
    (let s : State := { sU with sward := { viol := [(0, [viol0])] } }
     s.Calm ∧ mapGet [] s.sward.viol 0 = [viol0] ∧ s.Granted gor .read (.sw 0) R.VIOL_POP 0 0) := by
  unfold State.Granted
  exact ⟨sU_calm, by decide +kernel, by decide +kernel, by decide +kernel, by decide +kernel, by decide +kernel, by decide +kernel,
    by decide +kernel, by decide +kernel, by decide +kernel, calm_of (by decide +kernel), by decide +kernel⟩

def hasV (s : State) : State := { s with sward := { s.sward with shadowValid := true, shadowPlan := 3, shadow := [(5, 7)] } }
def sV : State := hasV sSteady
def ueS (n : Nat) : State := { sV with sward := { sV.sward with linkUe := [(0 + 1, List.replicate n 0)] } }
def txn0 : Txn := { req := gor, addr := 0xC00000100, what := .read 8, tag := 4, quad := 0, since := 0 }
def scrS (s : State) : State := s.wf (.tussock 0) R.L2_WAYS F.L2_WAYS_SCRATCH 8
theorem witness_SwardMesh : sV.Calm ∧ linkNbr 0 1 = some 1 ∧ sV.linkOff 0 1 = false ∧ sV.Mute ∧
    (sV.linkErrs 1).length < max 1 (sV.rf (.sw (routerQuad 0)) R.SW_CTL F.SW_CTL_LINK_UE_MAX) ∧
    (ueS 3).Calm ∧ max 1 ((ueS 3).rf (.sw (routerQuad 0)) R.SW_CTL F.SW_CTL_LINK_UE_MAX) ≤ ((ueS 3).linkErrs 1).length ∧ (ueS 3).Settled ∧
    (0 = localRouter 0 ((1 + 0) / 4 % 4) ((1 + 0) / 16) ∧ sV.Settled ∧ sV.Granted gor .write (.sw 0) R.LINK_DIS_LO 0 0) ∧
    (let s : State := { sU with sward := { bcasts := [⟨0, 4095, 9⟩] } }
     s.Calm ∧ s.sward.bcasts = ⟨0, 4095, 9⟩ :: [] ∧ s.now % 32 = 0) ∧
    (let s : State := { sU with mono := 20000000, sward := { txns := [txn0] } }
     s.Calm ∧ txn0.timedOut = false ∧ txn0.since + s.txnNs txn0.quad ≤ s.mono) ∧
    (let s : State := scrS { sU with sward := { txns := [{ txn0 with timedOut := true }] } }
     s.Calm ∧ inScratch s txn0.addr = true ∧ s.memReady txn0.addr = true) ∧
    (let s : State := { (sU.wf (.sw 0) R.PMON_CTL F.PMON_CTL_TRACE_EN 1 7) with mono := 1024 }
     s.Calm ∧ s.rb (.sw 0) R.PMON_CTL F.PMON_CTL_TRACE_EN 7 = true ∧ s.answers (.sw 0) = true ∧
      mapGet 0 s.trace.pmonAt 7 + 32 * max 1 (s.rf (.sw 0) R.PMON_CTL F.PMON_CTL_INTERVAL 7) ≤ s.mono) := by
  unfold State.Mute State.Settled State.Granted
  exact ⟨calm_of (by decide +kernel), by decide +kernel, by decide +kernel, by decide +kernel, by decide +kernel, calm_of (by decide +kernel),
    by decide +kernel, by decide +kernel, by decide +kernel, ⟨calm_of (by decide +kernel), by decide +kernel⟩,
    ⟨calm_of (by decide +kernel), by decide +kernel⟩, ⟨calm_of (by decide +kernel), by decide +kernel⟩, calm_of (by decide +kernel), by decide +kernel⟩

def ioS : State := (sU.setAtEntry UnitId.peat.atid 0x180 0x1C0).setAtEntry (UnitId.sw 2).atid 0x180 0x1C0
theorem witness_TargetRequests : (let s := scrS ioS
    s.Calm ∧ s.place 0xD80000000 = .nowhere ∧ inScratch s 0xC000FFFFC = true ∧ routeB s 0x1C0 0xC000FFFFC = true ∧
    (∀ k ∈ [TReq.read 4, .write [1, 2, 3, 4] false, .atomic 2 1 2], s.guardAcc 0xC000FFFFC gor (TReq.op k) none = (none, s)) ∧
    s.memDown 0xC000FFFFC = none ∧ s.MemOk) := by
  unfold State.MemOk
  exact ⟨calm_of (by decide +kernel), by decide +kernel⟩

def linkS : State := (ioS.wf .pcie R.OB_CTL F.OB_CTL_OB_EN 1).setPf 0 { up := true, bme := true }
def hostReq : Req := { master := 0x180, priv := 1, epoch := 0 }
theorem witness_HostWindows : linkS.Calm ∧ linkS.Granted gor .write .pcie R.OB_BASE_HI 0 0 ∧ linkS.place 0x1000000000 = .outbound ∧
    linkS.guardAcc 0x1000000000 gor .write = (none, linkS) ∧ linkS.obUp = true ∧ linkS.guardAcc 0x1000000000 gor .read = (none, linkS) ∧
    (linkS.pcie.obBase + (0x1000000000 - 2 ^ 36)) % 2 ^ 64 % 4096 + 64 ≤ 4096 ∧ linkS.tagsUsed 0 < linkS.tagLimit ∧
    (ioS.Calm ∧ ioS.obUp = false ∧ ioS.guardAcc 0x1000000000 gor .write = (none, ioS) ∧ (ioS.pf 0).up = false ∧ ioS.linkUsed 1 = false) ∧
    (linkS.linkUsed 0 = true ∧ (linkS.pf 0).up = true ∧ linkS.Granted hostReq .read .peat R.FAULT_MASK 0 0 ∧
      linkS.Granted hostReq .write (.sw 2) R.SW_CTL 0 0 ∧ 0x100 ≤ R.SW_CTL.off ∧ regWritable R.SW_CTL ≠ 0 ∧ plainReg (.sw 2) R.SW_CTL = true ∧
      unitAt (0x0E00000000 + 0x3FFFFFC) = none) := by
  unfold State.Granted
  exact ⟨calm_of (by decide +kernel), by decide +kernel, by decide +kernel, by decide +kernel, by decide +kernel, by decide +kernel,
    by decide +kernel, by decide +kernel, ⟨calm_of (by decide +kernel), by decide +kernel⟩, by decide +kernel⟩

theorem witness_StackedMemory : sU.Calm ∧ (sU.rd (.slice 0) R.REG_ATTR 255).bit 31 = false ∧
    (∀ g ∈ [R.REG_BASE, R.REG_SIZE, R.REG_ATTR], sU.busAt gor (regAddr (.slice 0) g 255 0) .write none = (.reg (.slice 0) g 255 0, sU)) ∧
    (let s := sU.wr (.slice 0) R.REG_ATTR 0x80000000 255
     s.Calm ∧ (s.rd (.slice 0) R.REG_ATTR 255).bit 31 = true ∧ s.Granted gor .write (.slice 0) R.REG_ATTR 255 0) ∧
    (let s : State := { (sU.setChan 31 { initDone := true }) with mono := 16 * 214 }
     s.Calm ∧ s.rf (.slice 31) R.SCRUB_CTL F.SCRUB_CTL_INTERVAL ≠ 0 ∧ s.answers (.slice 31) = true ∧ (s.chan 31).initDone = true ∧
      (s.chan 31).selfRef = false ∧ (s.chan 31).scrubAt + 16 * s.rf (.slice 31) R.SCRUB_CTL F.SCRUB_CTL_INTERVAL ≤ s.mono ∧ s.Mute) ∧
    (let s : State := { ((sU.setChan 31 { initDone := true }).wf (.slice 31) R.PWR_REQ F.PWR_REQ_TARGET 2) with mono := 100000000 }
     s.Calm ∧ 2 ≤ s.obeys (.slice 31) ∧ s.idle (.slice 31) = true ∧ s.answers (.slice 31) = true ∧ s.attached = false ∧
      (s.unit (.slice 31)).pstate = .on) ∧
    (let s := sU.setChan 31 { selfRef := true, exiting := true }
     s.Calm ∧ s.sward.txns = [] ∧ (s.chan 31).selfRef = true ∧ (s.chan 31).exiting = true ∧ s.answers (.slice 31) = true) := by
  unfold State.Granted State.Mute
  exact ⟨sU_calm, by decide +kernel, by decide +kernel, ⟨calm_of (by decide +kernel), by decide +kernel⟩,
    ⟨calm_of (by decide +kernel), by decide +kernel⟩, ⟨calm_of (by decide +kernel), by decide +kernel⟩, calm_of (by decide +kernel), by decide +kernel⟩

theorem witness_TimeAndWays : sU.Calm ∧ sU.time.step = none ∧ sU.Granted gor .write .peat R.GT_STEP 0 0 ∧ sU.Granted gor .write .peat R.GT_RATE 0 0 ∧
    sU.mode.mode = .boot ∧ sU.Granted gor .write .peat R.GT_SET_HI 0 0 ∧
    ((0x00000408 : Word).fld F.L2_WAYS_SCRATCH + (0x00000408 : Word).fld F.L2_WAYS_LOCKW ≤ 12 ∧ mapGet 0 sU.mem.conv 27 = 0 ∧
      sU.Granted gor .write (.tussock 27) R.L2_WAYS 0 0) ∧ 12 < (0x00000D0D : Word).fld F.L2_WAYS_SCRATCH + (0x00000D0D : Word).fld F.L2_WAYS_LOCKW ∧
    (let s : State := { sU with time := { step := some (-5, 32) }, now := 32 }
     s.Calm ∧ s.time.step = some (-5, 32) ∧ 32 ≤ s.now ∧ s.tel.str = [] ∧ s.Granted gor .write .peat R.GT_STEP 0 0) ∧
    (sSteady.Calm ∧ sSteady.mode.mode ≠ .boot ∧ sSteady.Granted gor .write .peat R.GT_SET_HI 0 0) ∧
    (let s : State := { sU with time := { set := some (2 ^ 64 - 1, 32) }, now := 32 }
     s.Calm ∧ s.time.set = some (2 ^ 64 - 1, 32) ∧ 32 ≤ s.now) ∧
    (let s : State := { sU with mem := { conv := [(27, 2 ^ 32)] } }
     s.Calm ∧ 0 < mapGet 0 s.mem.conv 27 ∧ mapGet 0 s.mem.conv 27 ≤ 2 ^ 32 ∧ s.mem.sectors = [] ∧ s.sward.txns = []) := by
  unfold State.Granted
  exact ⟨sU_calm, by decide +kernel, by decide +kernel, by decide +kernel, by decide +kernel, by decide +kernel, by decide +kernel, by decide +kernel,
    ⟨calm_of (by decide +kernel), by decide +kernel⟩, ⟨sSteady_calm, by decide +kernel⟩, ⟨calm_of (by decide +kernel), by decide +kernel⟩,
    calm_of (by decide +kernel), by decide +kernel⟩
/-! ### Witnesses: Sedge. Engine 0 runs one thread at a microword of a segment over Tussock 0's scratch -/

def mwBits (m : Mw) : BitVec 128 := BitVec.ofNat 128 (m.next * 2 ^ 114 + m.csel * 2 ^ 110 + m.cbits * 2 ^ 106 + m.wait * 2 ^ 100 + m.wto * 2 ^ 96 +
  m.opa * 2 ^ 90 + b2n m.setc * 2 ^ 89 + b2n m.r88 * 2 ^ 88 + m.dst * 2 ^ 80 + m.s1 * 2 ^ 72 + m.s2 * 2 ^ 64 + m.opb * 2 ^ 58 + m.db * 2 ^ 50 +
  m.ab * 2 ^ 42 + m.len * 2 ^ 36 + m.mod * 2 ^ 32 + m.imm.toNat)
def mw0 : Mw := { next := 0x20, csel := 0, cbits := 0, wait := 0, wto := 0, opa := 0, setc := false, r88 := false, dst := 4, s1 := 1, s2 := 2,
                  opb := 0, db := 5, ab := 1, len := 0, mod := 0, imm := 0 }
/-- Operation B `o` with v1 as its argument. -/
def mb (o mod len : Nat) (imm : Word) : Mw := { mw0 with opb := o, mod := mod, len := len, imm := imm }
def th (a : Word) : Thread := { st := 1, v := regsOf [a, 0, 3, 4, 0xFFFF0001, 6, 7, 8], nextOp := 3 }
def engS : State :=
  let s := (((scrS sU).setAtEntry 16 0x100 0x1C0).setAtEntry 16 0x140 0x1C0).setEngState 0 1
  let s := (s.setAtEntry UnitId.act.atid 0x100 0x1C0).setAtEntry UnitId.telCoder.atid 0x100 0x1C0
  ((s.setBytes 0xC00000200 line0).wr (.engine 0) R.SEG_BASE 0xC000000).wf (.engine 0) R.SEG_LIMIT F.SEG_LIMIT_SIZE 16
def atMw (s : State) (x : Thread) (m : Mw) : State :=
  { s with sedge := { s.sedge with cs := [(0x10, mwBits m)] } }.setThread 0 { x with pc := 0x10 }

theorem witness_SedgeAlu : (let m := { mw0 with opa := 2, setc := true, csel := 1, cbits := 4 }
    (atMw engS (th 1) m).Issues 0 .clean 0 m ∧ m.opb = 0) ∧ (atMw engS (th 1) mw0).Issues 0 .clean 0 mw0 ∧ mw0.opa = 0 ∧ mw0.opb = 0 :=
  ⟨⟨issues_of (by decide +kernel), rfl⟩, issues_of (by decide +kernel), rfl, rfl⟩

theorem witness_SedgeOperations_lost : (let s := atMw engS (th 5) (mb 0x20 0 0 0)
    let s' : State := { s with sedge := { s.sedge with engs := [(0, { lost := true })] } }
    s'.Issues 0 .clean 0 (mb 0x20 0 0 0) ∧ (s'.eng 0).lost = true) := ⟨issues_of (by decide +kernel), by decide +kernel⟩

/-- Engine 0 issues microword `m` of a thread whose v1 is `a`, and keeps its identity. -/
def opB (s : State) (x : Thread) (m : Mw) : Bool := issuesB (atMw s x m) 0 .clean 0 m && (decide (m.opa = 0 ∧ m.csel = 0) && !((atMw s x m).eng 0).lost)

theorem witness_SedgeOperations_mem : (∀ x ∈ [(0x01, AccOp.read), (0x02, .write), (0x03, .own)],
      let m := mb x.1 0 (if x.1 = 3 then 2 else 3) 0x30
      let s := atMw engS (th 0x200) m
      opB engS (th 0x200) m = true ∧ 256 * (s.rd (.engine 0) R.SEG_BASE 0).toNat + (s.spec 0 m 1 + m.imm).toNat = 0xC00000230 ∧
      scratchForB s (s.reqOf (.engine 0)) (some (.engine 0)) 0xC00000230 x.2 = true ∧ s.poisoned 0xC00000230 = false) ∧
    0xC00000230 % 64 + 4 * (3 + 1) ≤ 64 ∧ 0xC00000230 % 4 = 0 := ⟨by decide +kernel, by decide⟩

def tblKey : List Word := [0xFFFF0001, 6]
def tblS : State :=
  ((engS.wf .eth R.TBL_CFG F.TBL_CFG_EN 1 1).wf .eth R.TBL_CFG F.TBL_CFG_KEYW 2 1).wf .eth R.TBL_CFG F.TBL_CFG_LOG2_BUCKETS 10 1
def tblFill (l : List Byte) : State :=
  let b := tblS.buckets 1 (keyHash tblKey)
  let q := natBits (keyHash tblKey).toNat 31 30
  (tblS.fcFill q (tblS.bucketAddr 1 b.1) l false).fcFill q (tblS.bucketAddr 1 b.2) (List.replicate 256 0) false
def tblHit : State := tblFill (leBytes 4 0xFFFF0001 ++ leBytes 4 6 ++ List.replicate 36 0 ++ leBytes 4 0x80000009 ++ List.replicate 208 0)
theorem witness_SedgeOperations_look : (let m := mb 0x08 1 1 0
    m.len + 1 = tblHit.tblKeyw 1 ∧
    (let s := atMw tblHit (th 0) m
     opB tblHit (th 0) m = true ∧ s.tblOn 1 = true ∧ (s.look 1 ((List.range 2).map (fun k => s.spec 0 m (m.db + k))) (keyHash tblKey)).isSome = true ∧
      (s.look 1 tblKey (keyHash tblKey)) ≠ some none) ∧
    (let s := atMw (tblFill (List.replicate 256 0)) (th 0) m
     opB (tblFill (List.replicate 256 0)) (th 0) m = true ∧ s.tblOn 1 = true ∧ s.look 1 tblKey (keyHash tblKey) = some none)) := by decide +kernel

def ovfS : State := let s := engS.wr .pcie R.TI_OVF 0x0C00000A
  { s with pcie := { s.pcie with ctxo := [(7, 0x80050001)] } }
theorem witness_SedgeOperations_ctx : (∀ x ∈ [(0x09, AccOp.write), (0x0A, .read)],
      let s := atMw ovfS (th 7) (mb x.1 0 0 0)
      let o := (s.ovfOf (256 * thOwner 0 + 7)).getD 0
      opB ovfS (th 7) (mb x.1 0 0 0) = true ∧ (s.ovfOf (256 * thOwner 0 + 7)).isSome = true ∧
      scratchForB s (s.reqOf (.group 0)) (some (.group 0)) o x.2 = true ∧ o % 64 = 0 ∧ ∀ k, k < 8 → s.poisoned (o + 64 * k) = false) := by decide +kernel

def pktF : Frame := { data := (List.range 100).map (BitVec.ofNat 8), cells := 1, prec := [0, 0, 0, 0, 7, 0, 0, 0], ti := 5 }
def withF (s : State) (f : Frame) : State := let s := s.setFrame 3 f
  { s with eth := { s.eth with nextFrame := 9 } }
def pktS : State := { withF engS pktF with mode := { mode := .steady } }
def pth (a : Word) : Thread := { th a with pkt := some 3 }
theorem witness_SedgeOperations_pkt : (∀ m ∈ [mb 0x10 0 3 0, mb 0x11 0 3 0],
      opB pktS (pth 84) m = true ∧ ((atMw pktS (pth 84) m).spec 0 m 1 + m.imm).toNat = 84) ∧ 84 % 4 = 0 ∧ 84 + 4 * (3 + 1) ≤ 0x80000000 ∧
    (∀ m ∈ [mb 0x13 0 0 0, mb 0x14 1 0 0, mb 0x18 0 0 0, mb 0x20 0 0 0], opB pktS (pth 5) m = true ∧
      (let s := atMw pktS (pth 5) m
       (s.thread 0).pkt = some 3 ∧ (s.frame 3).disp = false ∧ (s.frame 3).tail = true ∧ (s.frame 3).bad = false ∧ (s.frame 3).poison = false ∧
        (s.rd .eth R.EXQ_CFG 1).bit 7 = false ∧ s.qp 5 = none ∧ (mapGet {} s.eth.keys 5).valid = false)) := by decide +kernel

def fwdS (q : List Nat) : State :=
  { pktS with eth := { pktS.eth with ports := [(0, { up := true, lanes := 0xFF })], egress := [(0, q)] } }
theorem witness_SedgeOperations_fwd : (let m := mb 0x12 0 0 0
    let s := atMw (fwdS []) (pth 0x5) m
    opB (fwdS []) (pth 0x5) m = true ∧ 3 < s.eth.nextFrame ∧ s.dest (s.spec 0 m 1) = some (0, 0, 0, 5) ∧ s.linkUp 0 = true ∧ s.egressRoom 0 0 = true) := by decide +kernel

def keyS : State := { withF engS pktF with eth := { (withF engS pktF).eth with keys := [(7, ⟨List.replicate 32 1, 5, 5, false, true⟩)] } }
theorem witness_SedgeOperations_crypt : (let m := mb 0x20 0 0 (14 + 2 ^ 8 * 2 + 2 ^ 14 * 22 + 2 ^ 22 * 30)
    opB keyS (pth 7) m = true ∧ (let s := atMw keyS (pth 7) m
      let r := s.crypt (s.frame 3).ti (s.frame 3).data (m.mod == 1) (s.spec 0 m 1) m.imm
      r.1 = 0 ∧ r.2.isSome = true ∧ cellsFor (r.2.getD []).length ≤ (s.frame 3).cells)) := by decide +kernel

def qpD : Qp := { cqLog := 6, sqTail := 3, sqHead := 2, mode := 2, sqBase := 0x1000 }
theorem witness_SedgeOperations_queue : opB engS (th 0x1005) (mb 0x19 0 3 0) = true ∧ engS.qp 0x1005 = none ∧ 0x1005 < 2 ^ 15 ∧
    (let s := engS.setQp 0x1005 (some qpD)
     opB s (th 0x1005) (mb 0x19 0 3 0) = true ∧ s.qp 0x1005 = some qpD ∧ qpD.err = false ∧ qpD.closing = false ∧ qpD.sqEmpty = false ∧
      qpD.cqRoom = true) ∧ opB engS (th 5) (mb 0x1A 0 0 0) = true ∧ (th 5).rsv = [] := by decide +kernel

theorem witness_SedgeOperations_evt : (∀ k ∈ [0, 1, 2], opB engS (th 5) (mb 0x28 k 0 0) = true) ∧
    (let s := atMw engS (th 5) (mb 0x28 0 0 0)
     s.guardAcc UnitId.act.base (s.reqOf (.engine 0)) .write (some (.engine 0)) = (none, s) ∧ s.answers .act = true ∧ (mapGet [] s.act.fcq 0).length < 4) ∧
    (let s := atMw engS (th 5) (mb 0x28 2 0 0)
     s.guardAcc UnitId.telCoder.base (s.reqOf (.engine 0)) .write (some (.engine 0)) = (none, s) ∧ s.answers .telCoder = true ∧ s.strF F.STR_CFG_EN 5 = 0) ∧
    engS.answers (.er 0) = true ∧ engS.rf (.er 0) R.ER_ROUTE F.ER_ROUTE_EN 5 = 0 ∧
    (let s := engS.wr (.er 0) R.ER_ROUTE 0x80000007 5
     opB s (th 5) (mb 0x28 1 0 0) = true ∧ s.rf (.er 0) R.ER_ROUTE F.ER_ROUTE_EN 5 = 1 ∧ s.rf (.er 0) R.ER_ROUTE F.ER_ROUTE_KIND 5 = 0) := by decide +kernel

def cntS : State := (engS.wr .eth R.CNTB_BASE 0xC000000 1).wf .eth R.CNTB_SIZE F.CNTB_SIZE_SIZE 100 1
theorem witness_SedgeOperations_cnt : opB engS (th 5) (mb 0x29 1 0 0) = true ∧ engS.rf .eth R.CNTB_SIZE F.CNTB_SIZE_SIZE 1 ≤ 0 ∧
    opB cntS (th 5) (mb 0x29 1 0 99) = true ∧ 99 < cntS.rf .eth R.CNTB_SIZE F.CNTB_SIZE_SIZE 1 ∧
    (let s := atMw cntS (th 5) (mb 0x29 1 0 99)
     scratchForB s (s.reqOf (.engine 0)) (some (.engine 0)) (256 * (s.rd .eth R.CNTB_BASE 1).toNat + 8 * 99) .write = true) := by decide +kernel

def op1 : Op := { id := 2, code := 1, mod := 0, dst := 3, len := 2, target := 5, ti := 0, res := some (0, [0x11, 0x22]) }
def op2 : Op := { op1 with id := 1, dst := 14 }
theorem witness_SedgeOperations_end : opB engS (th 5) (mb 0x30 1 0 0) = true ∧ opB engS (th 5) (mb 0x3F 0 0 0) = true ∧ (th 5).ops = [] ∧ (th 5).pkt = none ∧
    (th 5).ctx = none ∧ opB engS { th 5 with ops := [op1] } (mb 0x3F 0 0 0) = true := by decide +kernel

theorem witness_OperationCompletes : (let s := engS.setThread 1023 { th 5 with ops := [op2] }
    s.Calm ∧ (s.thread 1023).ops = [] ++ op2 :: [] ∧ op2.res = some (0, [0x11, 0x22]) ∧ (s.thread 1023).st ≠ 4 ∧ [0x11, 0x22].length = op2.len ∧
      op2.dst + op2.len ≤ 16) ∧
    (let s := engS.setThread 1023 { th 5 with ops := [op2, op1] }
     s.Calm ∧ (s.thread 1023).ops = [op2] ++ op1 :: [] ∧ op2.id ≠ op1.id ∧ op2.target = op1.target) :=
  ⟨⟨calm_of (by decide +kernel), by decide +kernel⟩, calm_of (by decide +kernel), by decide +kernel⟩

def thrS (w wto : Nat) (x : Thread) (mono : Nat) : State :=
  { (atMw (engS.wf (.engine 0) R.WTO F.WTO_TIME 5 1) x { mw0 with wait := w, wto := wto }) with mono := mono, now := mono }
/-- Thread 0 waits for an event of WAIT `w`. -/
def waitsB (s : State) : Bool :=
  calmB s && decide ((s.thread 0).st ≠ 0 ∧ (s.thread 0).st ≠ 4 ∧ s.waitTrue 0 (s.thMw 0).wait = false ∧ s.answers (.engine (s.thEng 0)) = true ∧ (s.thMw 0).wait ≠ 0)
def dEnt (c : Option Nat) : DispEnt := { frame := 3, ctx := c, sel := 2, word := 0xABCD }
def dispS (c : Option Nat) : State := { pktS with eth := { pktS.eth with dispq := [(0, [dEnt c])] } }.setCtxWord 7 0 0x80000005
theorem witness_SedgeThreads : (∀ n ∈ [76, 77], let s := thrS 5 1 { th 5 with st := 2, v := [(14, 77)] } n
      calmB s = true ∧ (s.thread 0).st = 2 ∧ decide (0 ≤ (BitVec.ofNat 32 s.now - (s.thread 0).vreg 14).toInt) = decide (n = 77)) ∧
    waitsB (thrS 2 1 (th 5) 39) = true ∧ waitsB (thrS 2 1 (th 5) 40) = true ∧ (thrS 2 1 (th 5) 40).rf (.engine 0) R.WTO F.WTO_TIME 1 = 5 ∧
    waitsB (thrS 2 1 { th 5 with excAct := true } 40) = true ∧
    (∀ c ∈ [none, some 7], let s := dispS c
      calmB s = true ∧ s.dispq 0 = [dEnt c] ∧ s.dispatches 0 0 = true ∧ s.freeThread 0 = some 0) ∧
    ((dispS (some 7)).ctxWord 7 0).bit 30 = false ∧ ((dispS (some 7)).ctxWord 7 0).bit 31 = true := by decide +kernel

def engK (k : Nat) : State := (engS.setEngState 0 k).wf (.engine 0) R.ENG_STATUS F.ENG_STATUS_CS_VALID 1
def engAd (k : Nat) : State :=
  let s := ((engK k).wf (.engine 0) R.ENG_STATUS F.ENG_STATUS_ADOPTED 1).wf (.engine 0) R.ENG_STATUS F.ENG_STATUS_ADOPTER 1
  { ((s.wf (.engine 1) R.ENG_STATUS F.ENG_STATUS_ADOPTING 1).setEngState 1 1) with mono := 100000 }
def parS : State :=
  let s := atMw engS (th 0) mw0
  let s : State := { s with mode := { mode := .steady }, sward := { s.sward with shadowValid := true, shadowPlan := 3 }, sedge := { s.sedge with csPar := [(0x10, 6)] } }
  (List.range 4).foldl (fun (s : State) e => s.setEngState e 1) s
theorem witness_SedgeEngines : (engK 0).Calm ∧ (∀ k ∈ [1, 3], (engK 0).engCmdOk 0 k = true) ∧ (engK 1).engCmdOk 0 2 = true ∧ (engAd 0).engCmdOk 0 4 = true ∧
    (∀ k ∈ [1, 3, 4], (engK 3).engCmdOk 0 k = false) ∧ (engK 3).engCmdOk 0 2 = false ∧ ((engK 0).eng 0).lost = false ∧
    (∀ k ∈ [0, 1, 3], calmB (engK k) = true ∧ (engK k).busAt gor (regAddr (.engine 0) R.ENG_CTL 0 0) .write none = (.reg (.engine 0) R.ENG_CTL 0 0, engK k)) ∧
    (calmB (engAd 0) = true ∧ (engAd 0).busAt gor (regAddr (.engine 0) R.ENG_CTL 0 0) .write none = (.reg (.engine 0) R.ENG_CTL 0 0, engAd 0)) :=
  ⟨calm_of (by decide +kernel), by decide +kernel⟩
theorem witness_SedgeEngines_end : (let s : State := { (engK 2) with mono := 100000 }
    calmB s = true ∧ s.engState 0 = 2 ∧ (∀ t ∈ s.engThreads 0, (s.thread t).st = 0) ∧ (s.eng 0).since + 100000 ≤ s.mono) ∧
    (let s := (engK 2).setThread 15 (th 5)
     calmB s = true ∧ s.engState 0 = 2 ∧ ∃ t ∈ s.engThreads 0, (s.thread t).st ≠ 0) ∧
    (calmB (engAd 5) = true ∧ (engAd 5).engState 0 = 5 ∧ (engAd 5).ownerIdle 0 = true ∧ ((engAd 5).eng 0).since + 100000 ≤ (engAd 5).mono ∧
      ∀ k, k < 16 → ((engAd 5).thread (16 * 0 + k)).st = 0) := by decide +kernel
theorem witness_SedgeEngines_parity : parS.Calm ∧ parS.engIssues 0 = true ∧ parS.nextThread 0 = some 0 ∧ parS.csBad 0 (parS.thread 0).pc ≠ 0 ∧
    parS.adoptee 0 = none ∧ parS.adopterFor 0 = some 1 ∧ mapGet 0 parS.fault.renewals (0x100 + 0) < 15 ∧ parS.Mute ∧ parS.Settled := by
  unfold State.Mute State.Settled; exact ⟨calm_of (by decide +kernel), by decide +kernel⟩
theorem witness_SedgeEngines_windows : masterClass gor.master.toNat = 5 ∧ (engK 0).Granted gor .write (.engine 0) R.CS_IMAGE 0 0 ∧
    (engK 0).Granted gor .write (.engine 0) R.CS_ERR_INJ 0 0 ∧
    (let s := engS.setAtEntry (UnitId.engine 0).atid 0x181 0x1C0
     s.Calm ∧ masterClass hst.master.toNat ≠ 5 ∧ s.Granted hst .write (.engine 0) R.CS_IMAGE 0 0) ∧
    (∀ x ∈ [(0x3FFC0, 64), (0x3FFF0, 16), (0x5FFFC, 4), (0x40000, 64)], let a := 0xD00000000 + x.1
      (engK 0).answers (.group 0) = true ∧ (engK 0).stalled (.ctx 0) = false ∧ routeB (engK 0) gor.master.toNat a = true ∧
      (engK 0).guardAcc a gor .write none = (none, engK 0)) ∧ (engK 0).adopted 0 = false ∧ (engK 0).engState 0 = 0 ∧ (engK 1).engState 0 ≠ 0 ∧
    (engK 1).guardAcc 0xD00040000 gor .write none = (none, engK 1) := by
  unfold State.Granted; exact ⟨by decide, by decide +kernel, by decide +kernel, ⟨calm_of (by decide +kernel), by decide +kernel⟩, by decide +kernel⟩
/-! ### Witnesses: Ethernet ports and the packet path -/

/-- STEADY, later in time; the fetcher, the path and the lookup cache may use Tussock 0's scratch. -/
def netS : State :=
  let s : State := { (scrS sSteady).setAtEntry 16 0x182 0x1C0 with now := 1000, mono := 5000 }
  s
def portsS (l : Map EPort) (s : State) : State := { s with eth := { s.eth with ports := l } }
def pUp : State := portsS [(0, ⟨true, 0xF, false⟩), (1, ⟨true, 0xF0, false⟩)] netS
def ethBody : List Byte := (List.range 70).map (fun i => BitVec.ofNat 8 (i * 7))
def rxS : State :=
  let s := ((pUp.wr .eth R.MAX_FRAME 1518).wf .eth R.ETH_CFG F.ETH_CFG_CUT_EN 0xFF).wf .eth R.TBL_CFG F.TBL_CFG_EN 1 0
  (s.wf .eth R.TBL_CFG F.TBL_CFG_KEYW 11 0).wf .eth R.TBL_CFG F.TBL_CFG_LOG2_BUCKETS 10 0
def partS : State := { rxS with eth := { rxS.eth with frames := [(3, { data := ethBody, tail := false, cells := 1, rx := true })], part := [(0, some 3)], nextFrame := 4 } }

theorem witness_EthernetPath_ports : pUp.Calm ∧ pUp.eth.egress = [] ∧ (0x02000002 : Word).toNat % 4 ≠ (pUp.rd .eth R.ETH_CFG).toNat % 4 ∧
    (0 : Word).toNat % 4 = (pUp.rd .eth R.ETH_CFG).toNat % 4 ∧ pUp.Granted gor .write .eth R.ETH_CFG 0 0 ∧ pUp.Granted gor .write .eth R.FC_INV 0 0 ∧
    pUp.mode.mode ≠ .boot ∧ pUp.mode.mode ≠ .dormant ∧ (∀ x ∈ [3, 7], pUp.portExists (x / pUp.portWidth) = true ∧ (pUp.ePort (x / pUp.portWidth)).lanes.testBit x = true) ∧
    (sSteady.ePort 0).lanes.testBit 0 = false ∧
    (let s := portsS [(1, ⟨false, 0xF0, true⟩)] netS
     calmB s = true ∧ (s.ePort 1).training = true ∧ s.portExists 1 = true ∧ s.answers .eth = true ∧ s.mode.mode ≠ .boot) := by
  unfold State.Granted; exact ⟨calm_of (by decide +kernel), by decide +kernel⟩

theorem witness_EthernetPath_receive : rxS.Calm ∧ rxS.linkUp 7 = false ∧ rxS.linkUp 0 = true ∧ (ethBody.take 63).length < 64 ∧
    64 ≤ (List.replicate 1519 (0 : Byte)).length ∧ rxS.maxFrame < (List.replicate 1519 (0 : Byte)).length ∧
    64 ≤ (ethBody ++ [1, 2, 3, 4]).length ∧ (ethBody ++ [1, 2, 3, 4]).length ≤ rxS.maxFrame ∧ [1, 2, 3, 4] ≠ fcs ethBody ∧
    (rxS.dpOn = true ∧ rxS.rf .eth R.ETH_CFG F.ETH_CFG_ERR_ACTION = 0 ∧ rxS.tblOn 0 = true ∧ rxS.eth.fcache = []) ∧
    (let d := ethBody ++ fcs ethBody
     64 ≤ d.length ∧ d.length ≤ rxS.maxFrame ∧ d.drop (d.length - 4) = fcs (d.take (d.length - 4)) ∧
      rxS.usedCells + cellsFor (d.take (d.length - 4)).length ≤ rxS.bufCells) ∧
    ((rxS.rf .eth R.ETH_CFG F.ETH_CFG_CUT_EN).testBit 0 = true ∧ mapGet none rxS.eth.part 0 = none ∧ rxS.usedCells + cellsFor 256 ≤ rxS.bufCells) ∧
    partS.Calm ∧ mapGet none partS.eth.part 0 = some 3 ∧ partS.eth.frames.any (fun e => e.1 == 3) = true ∧ partS.eth.txCut = [] :=
  ⟨calm_of (by decide +kernel), by decide +kernel, by decide +kernel, by decide +kernel, by decide +kernel, by decide +kernel, by decide +kernel,
   by decide +kernel, by decide +kernel, by decide +kernel, by decide +kernel, by decide +kernel, calm_of (by decide +kernel), by decide +kernel⟩

def opL : Op := { id := 2, code := 8, mod := 1, dst := 3, len := 5, target := 5, ti := 0 }
def lookS : State :=
  let s := ((netS.wf .eth R.TBL_CFG F.TBL_CFG_EN 1 1).wf .eth R.TBL_CFG F.TBL_CFG_KEYW 2 1).wf .eth R.TBL_CFG F.TBL_CFG_LOG2_BUCKETS 10 1
  let s := s.wr .eth R.TBL_BASE 0xC000000 1
  let h := keyHash tblKey
  let s := s.setBytes (s.bucketAddr 1 (s.buckets 1 h).1 + 64) (leBytes 4 0xFFFF0001 ++ leBytes 4 6 ++ List.replicate 36 0 ++ leBytes 4 0x80000009 ++ List.replicate 16 0)
  { s.setThread 0 { st := 1, ops := [opL] } with eth := { s.eth with looks := [⟨1, tblKey, h, .op 0 2⟩] } }
theorem witness_EthernetPath_fill : lookS.Calm ∧ lookS.eth.looks = [⟨1, tblKey, keyHash tblKey, .op 0 opL.id⟩] ∧ (lookS.thread 0).ops = [opL] ∧
    opL.res = none ∧ lookS.eth.fcache = [] ∧
    (let b := lookS.buckets 1 (keyHash tblKey)
     scratchForB lookS (lookS.reqOf .eth) none (lookS.bucketAddr 1 b.1) .read = true ∧
     scratchForB lookS (lookS.reqOf .eth) none (lookS.bucketAddr 1 b.2) .read = true ∧
     findEntry (lookS.bytes (lookS.bucketAddr 1 b.1) 256) tblKey = some (1, [0x80000009, 0, 0, 0, 0])) :=
  ⟨calm_of (by decide +kernel), by decide +kernel, by decide +kernel, by decide, by decide +kernel, by decide +kernel⟩

def pauseS (n : Nat) : State := { pUp with eth := { pUp.eth with pauseOut := [(0, some n)], pauseIn := [(0, some n)] } }
theorem witness_EthernetPath_pause : (pauseS 5000).Calm ∧ mapGet none (pauseS 5000).eth.pauseOut 0 = some 5000 ∧ 5000 ≤ (pauseS 5000).mono ∧
    (pauseS 5000).linkUp 0 = true ∧ ([0, 1, 2, 3, 4, 5, 6, 0xFFFF] : List (BitVec 16)).length = 8 ∧ mapGet none (pauseS 5000).eth.pauseIn 0 = some 5000 :=
  ⟨calm_of (by decide +kernel), by decide +kernel⟩

def qpF : Qp := { cqLog := 6, sqTail := 3, sqHead := 2, mode := 0, sqBase := 0x1000 }
def descF : List Byte := leBytes 8 0x4000 ++ leBytes 2 100 ++ List.replicate 22 0
def fetchS (x : Qp) (df : Nat) : State :=
  let s := { pUp with pcie := { pUp.pcie with tis := [(5, { st := 2, qpCount := 1 })] } }.setPf 0 { up := true, bme := true }
  let s := (s.setQp 5 (some x)).setShape 5 { deficit := df, active := 1 }
  { s with eth := { s.eth with drr := 5, drrIn := true } }
theorem witness_EthernetPath_send : (∀ k ∈ [(none, 0), (some descF, 104), (some descF, 103)], let x : Qp := { qpF with desc := k.1 }
    let s := fetchS x k.2
    calmB s = true ∧ s.dpOn = true ∧ s.answers .eth = true ∧ s.eth.drrIn = true ∧ s.eth.drr = 5 ∧ s.tiList.filter (fun n => s.nodeReady n) = [5] ∧
    s.fetchQp 5 = some 0 ∧ s.qp (5 + 2048 * 0) = some x ∧
    (let a := x.sqBase + 32 * (x.sqHead % 2 ^ x.sqLog)
     let l := (s.ti 5).link
     s.linkReady l = true ∧ (s.pf l).atsEn = false ∧ a % 4096 ≤ 4064 ∧ s.tagsUsed l < s.tagLimit) ∧
    s.badSend x.mode descF = false ∧ (descLen descF + 4 ≤ (s.shape 5).deficit ↔ k.2 = 104) ∧ 5 < 2048) := by decide +kernel

def shapeS (n : Nat) : State := { (netS.wr .eth R.SHAPE 0x55 5) with now := n, eth := { netS.eth with shapeNew := [5, 3] } }
def sendS : State := { pUp with eth := { pUp.eth with egress := [(0, [3, 7])], frames := [(3, { data := ethBody }), (7, { data := ethBody })], nextFrame := 9,
                                                      txts := [(0, [(1, 0x80000001), (2, 5)])] } }
theorem witness_EthernetPath_transmit : (shapeS 1000).Calm ∧ (shapeS 1000).now % 1000 = 0 ∧ (shapeS 1001).now % 1000 ≠ 0 ∧ sendS.Calm ∧
    (sendS.linkUp 0 = true ∧ mapGet none sendS.eth.txCut 0 = none ∧ sendS.egress 0 = 3 :: [7] ∧ sendS.txReady 0 0 = true ∧
      (∀ k, k < 8 → 0 < k → sendS.txReady 0 k = false) ∧ (sendS.frame 3).tail = true ∧ (sendS.frame 3).bad = false ∧
      natBits (sendS.rd .eth R.PTP_CFG 0).toNat 31 30 = 0) ∧
    gor.debug = false ∧ mapGet [] sendS.eth.txts 0 = (1, 0x80000001) :: [(2, 5)] ∧ mapGet [] sendS.eth.txts 7 = [] ∧
    sendS.Granted gor .read .eth R.TXTS_POP 0 0 ∧ sendS.Granted gor .read .eth R.TXTS_POP 7 0 := by
  unfold State.Granted; exact ⟨calm_of (by decide +kernel), by decide +kernel, by decide +kernel, calm_of (by decide +kernel), by decide +kernel⟩

def injS (n : Nat) : State :=
  let s := ((pUp.wr .eth R.INJ_BASE 0xC000000 0).wr .eth R.INJ_CFG 0x84 0).wr .eth R.INJ_PROD 3 0
  s.setBytes 0xC00000000 (leBytes 4 n ++ leBytes 4 0x1800 ++ List.replicate 56 0 ++ ethBody)
theorem witness_EthernetPath_inject : (∀ n ∈ [14, 70, 13], let s := injS n
      let cfg := s.rd .eth R.INJ_CFG 0
      calmB s = true ∧ cfg.bit 7 = true ∧ (s.rd .eth R.INJ_PROD 0).toNat ≠ (s.rd .eth R.INJ_CONS 0).toNat ∧
      scratchForB s (s.reqOf .eth) none 0xC00000000 .read = true ∧ 256 * (s.rd .eth R.INJ_BASE 0).toNat + 0 = 0xC00000000 ∧
      s.leAt 0xC00000000 4 % 16384 = n ∧ n ≤ s.maxFrame - 4 ∧ n ≤ ringSlot cfg - 64 ∧
      s.dest (BitVec.ofNat 32 (s.leAt 0xC00000004 4)) = some (0, 0, 3, 0) ∧ s.linkUp 0 = true) ∧
    (injS 70).Granted gor .write .eth R.INJ_PROD 15 0 ∧ (injS 70).Granted gor .write .eth R.KEY_COMMIT 0 0 := by
  unfold State.Granted; decide +kernel
/-! ### Witnesses: queues in host memory, translation, tenant interfaces -/

def pfH : Pf := { up := true, bme := true, msixEn := true, atsEn := true, pasidEn := true }
def tenS (l : Map Ti) : State := { netS with pcie := { netS.pcie with tis := l, fn := [(0, pfH), (1, pfH)], nextTag := 9, nextJob := 4 } }
def qpH : Qp := { sqBase := 0x1000, cqBase := 0x2000, rqBase := 0x3000 }
def tiH : Ti := { st := 2, qpCount := 4, vecFirst := 3, vecCount := 4, pasid := some 7 }
def qsS (x : Qp) : State := tenS [(5, { tiH with qps := [(1, some x)] })]

theorem witness_HostQueues_doorbells : netS.barUp 1 = false ∧ (qsS qpH).barUp 0 = true ∧ (qsS qpH).qp 2047 = none ∧
    (∀ k ∈ [0, 65530], let x : Qp := { qpH with sqHead := k, cqp := 5, cqHead := 2 }
      let s := qsS x
      calmB s = true ∧ (s.ti 5).st = 2 ∧ (s.ti 5).link = 0 ∧ s.qp (5 + 2048 * 1) = some x ∧ x.err = false ∧ x.closing = false ∧ x.armed = false) ∧
    ((64 + 65536 - 0) % 65536 ≤ min (2 ^ qpH.sqLog) 65535 ∧ min (2 ^ qpH.sqLog) 65535 < (65 + 65536 - 0) % 65536) ∧
    ((0x80000004 : Word).bit 31 = true ∧ 4 ≤ min (2 ^ qpH.sqLog) 65535 ∧ (5 : Word).bit 31 = false) ∧ (qpH.cqp + 65536 - qpH.cqHead) % 65536 = 0 ∧
    ((5 + 65536 - 2) % 65536 < (5 + 65536 - 1) % 65536 ∧ (5 + 65536 - 5) % 65536 ≤ (5 + 65536 - 2) % 65536) := by decide +kernel

def vecS (m t : Nat) : State :=
  let s := qsS { qpH with cqp := 5, cqHead := 2, armed := true, vec := 2, modCount := m, modTime := t, armAt := 3000 }
  { s with pcie := { s.pcie with msix := [(4 * 5 + 3, 0)] } }
theorem witness_HostQueues_vector : (∀ k ∈ [(3, 9), (4, 2), (0, 9), (4, 3)], let s := vecS k.1 k.2
      calmB s = true ∧ s.qp (5 + 2048 * 1) = some { qpH with cqp := 5, cqHead := 2, armed := true, vec := 2, modCount := k.1, modTime := k.2, armAt := 3000 } ∧
      ((max 1 k.1 ≤ (5 + 65536 - 2) % 65536 ∨ max 3000 qpH.nzAt + 1000 * k.2 ≤ s.mono) ↔ k ≠ (4, 3)) ∧
      (s.ti 5).st = 2 ∧ (s.pf (s.ti 5).link).msixEn = true ∧ s.linkReady 0 = true ∧ (s.msixWord (4 * (3 + 2) + 3)).bit 0 = false) ∧
    (2 : Nat) ≠ 0xFFFF := by decide +kernel

def jobH : Job := { what := .sqDesc (5 + 2048), link := 0, ti := some 5, addr := 0x12340, len := 32, data := [], write := false }
def tagH : Tag := { link := 0, job := some 3, page := some 0x12000 }
def atsH (pri : List Nat) : State := let s := qsS { qpH with busy := true }
  { s with pcie := { s.pcie with jobs := [(3, some jobH)], tags := [(8, some tagH)], pri := pri } }
theorem witness_HostQueues_translation : (atsH [3]).Calm ∧ (atsH [3]).tag 8 = some tagH ∧ (atsH [3]).job 3 = some jobH ∧
    (jobH.ti = some 5 ∧ jobH.started = false ∧ jobH.write = false ∧ 0 < jobH.len ∧ jobH.addr % 4096 + jobH.len ≤ 4096 ∧
      0x12000 = jobH.addr / 4096 * 4096) ∧ (atsH [3]).pcie.atc = [] ∧ ((atsH [3]).pf 0).atsEn = true ∧ (atsH [3]).linkReady 0 = true ∧
    (atsH [3]).tagsUsed 0 < (atsH [3]).tagLimit ∧ (atsH [3]).pcie.pri = [3] := ⟨calm_of (by decide +kernel), by decide +kernel⟩

def invH (js : List Nat) (jb : Map (Option Job)) : State := let s := qsS qpH
  { s with pcie := { s.pcie with invs := [⟨0, 3, js⟩], jobs := jb } }
def inv32 : State := let s := qsS qpH
  { s with pcie := { s.pcie with invs := (List.range 32).map (fun i => ⟨0, i, []⟩) } }
theorem witness_HostQueues_invalidation : (invH [3] []).Calm ∧ (((invH [3] []).pcie.invs.filter (fun w => w.link == 0)).length < 32) ∧
    32 ≤ (inv32.pcie.invs.filter (fun w => w.link == 0)).length ∧ (invH [3] []).pcie.invs = [⟨0, 3, [3]⟩] ∧ (∀ j ∈ [3], (invH [3] []).job j = none) ∧
    ∃ j ∈ [3], (invH [3] [(3, some jobH)]).job j ≠ none := ⟨calm_of (by decide +kernel), by decide +kernel⟩

def jobO : Job := { what := .outbound 0x1C0, link := 0, ti := none, addr := 0x5000, len := 4, data := [0, 0, 0, 0], write := false, started := true, open_ := 1 }
def tagO : Tag := { link := 0, job := some 3, off := 0, len := 4 }
def outH : State := let s := qsS qpH
  { s with pcie := { s.pcie with jobs := [(3, some jobO)], tags := [(8, some tagO)] } }
def linkH (s : State) : State := { s with peat := { s.peat with perst := [], pcieRef := [0, 1], straps := 16 } }
theorem witness_HostQueues_completion : outH.Calm ∧ outH.tag 8 = some tagO ∧ tagO.page = none ∧ tagO.job = some 3 ∧ outH.job 3 = some jobO ∧
    (jobO.what = .outbound 0x1C0 ∧ jobO.open_ = 1 ∧ jobO.failed = false ∧ tagO.off = 0 ∧ tagO.len = ([1, 2, 3, 4] : List Byte).length ∧
      jobO.data.length = ([1, 2, 3, 4] : List Byte).length) ∧
    (∀ l : Fin 2, (linkH netS).linkUsed l = true ∧ l.val ∉ (linkH netS).peat.perst ∧ l.val ∈ (linkH netS).peat.pcieRef ∧ (linkH netS).answers .pcie = true) ∧
    netS.pcie.tis = [] ∧
    (let s := qsS qpH
     s.mem.net = [] ∧ s.eth.frames = [] ∧ s.sedge.threads = [] ∧ (s.ti 5).st ≠ 0 ∧ (s.ti 5).link = 0 ∧ s.pcie.tis = [(5, s.ti 5)] ∧ s.barUp 0 = true) ∧
    (let s := tenS [(5, { tiH with ctxQuota := 4 })]
     s.Granted gor .write .pcie R.CTXO_DATA 0 0 ∧ ¬ ((0x80050003 : Word).bit 31 = true ∧ (s.ti ((0x80050003 : Word).toNat / 65536 % 2048)).ctxQuota ≤ (0x80050003 : Word).toNat % 4096) ∧
      ((0x80050004 : Word).bit 31 = true ∧ (s.ti ((0x80050004 : Word).toNat / 65536 % 2048)).ctxQuota ≤ (0x80050004 : Word).toNat % 4096)) := by
  unfold State.Granted; exact ⟨calm_of (by decide +kernel), by decide +kernel⟩

/-- An admin command of TI 5. -/
def adm0 (op : Nat) (rest : List Nat) : AdmCmd :=
  { data := (([op, 0, 9, 0, 5, 0, 0, 0] ++ rest ++ List.replicate 64 0).take 64).map (BitVec.ofNat 8), head := 3 }
def admBase (tis : Map Ti) (a : Adm) : State :=
  let s := tenS tis
  let s := { s with pcie := { s.pcie with adm := [(0, a)] } }
  let s := ((s.wr (.bar0 0) R.ADM_CTL 0x44).wr (.bar0 0) R.ADM_SQ_BASE_LO 0x10000).wr (.bar0 0) R.ADM_CQ_BASE_LO 0x20000
  let s := (s.wr (.bar0 0) R.ADM_CQ_HEAD 2).wr (.bar0 0) R.ADM_SQ_TAIL 7
  (s.wf .pcie R.TI_OVF F.TI_OVF_OVF_SHIFT 16).wf .pcie R.ADM_KEY_RANGE F.ADM_KEY_RANGE_COUNT 20
def tiB : Ti := { tiH with ctxQuota := 5 }
def tiC : Ti := { tiB with st := 1, pasid := none }
def admS (t : Ti) (c : AdmCmd) : State := admBase [(5, t)] { prog := [c], cqTail := 4 }
def ringS : State := admBase [] { en := true, sqHead := 3, cqTail := 4 }
def nb (n k : Nat) : List Nat := (leBytes n k).map BitVec.toNat

theorem witness_TenantInterfaces_ring : ringS.Calm ∧ ringS.barUp 0 = true ∧ ((0x80000013 : Word).toNat % 65536 + 65536 - (ringS.adm 0).sqHead) % 65536 ≤ 2 ^ ringS.admSqLog 0 ∧
    (4 ≤ ringS.admSqLog 0 ∧ ringS.admSqLog 0 ≤ 12 ∧ 4 ≤ ringS.admCqLog 0 ∧ ringS.admCqLog 0 ≤ 12) ∧
    ringS.bar64 0 R.ADM_SQ_BASE_LO R.ADM_SQ_BASE_HI ≠ 0 ∧ ringS.bar64 0 R.ADM_CQ_BASE_LO R.ADM_CQ_BASE_HI ≠ 0 ∧
    (((ringS.adm 0).cqTail + 65536 - 4) % 65536 ≤ ((ringS.adm 0).cqTail + 65536 - (ringS.rd (.bar0 0) R.ADM_CQ_HEAD).toNat) % 65536 ∧ (ringS.adm 0).cqTail < 65536) ∧
    (let a := ringS.adm 0
     a.en = true ∧ (ringS.rd (.bar0 0) R.ADM_SQ_TAIL).toNat ≠ a.sqHead ∧ a.prog.length + a.fetching < 64 ∧ ringS.admCqFree 0 ≠ 0 ∧ ringS.linkReady 0 = true ∧
      ringS.tagsUsed 0 < ringS.tagLimit ∧ (ringS.bar64 0 R.ADM_SQ_BASE_LO R.ADM_SQ_BASE_HI + 64 * (a.sqHead % 2 ^ ringS.admSqLog 0)) % 4096 ≤ 4032) :=
  ⟨calm_of (by decide +kernel), by decide +kernel⟩

theorem witness_TenantInterfaces_create : (∀ x ∈ [({} : Ti), { tiB with link := 1 }, tiB], let c := adm0 1 [0]
      let s := admS x c
      calmB s = true ∧ (s.adm 0).prog = [c] ∧ c.ph = 0 ∧ c.wellFormed = true ∧ c.op = 1 ∧ c.tiOf = some 5 ∧ (s.ti 5) = x) ∧
    (∀ c ∈ [adm0 2 [], adm0 3 [0], adm0 3 ([1, 0, 0, 0] ++ nb 4 10000), adm0 4 [0x34, 2, 1, 0, 2], adm0 4 [0x34, 2, 1, 0, 1]],
      calmB (admS tiB c) = true ∧ runsB (admS tiB c) 0 c.op c 5 = true ∧ c.num 12 4 ≤ 10000) ∧
    ((adm0 3 [0]).byte 8 % 2 = 0 ∧ (adm0 3 [1]).byte 8 % 2 = 1) ∧
    ((adm0 4 [0x34, 2, 1, 0, 2]).byte 12 / 2 % 2 = 1 ∧ tiB.st = 2 ∧ tiB.qps = []) ∧
    (let c := adm0 4 [0x34, 2, 1, 0, 1]
     let s := admS tiC c
     runsB s 0 4 c 5 = true ∧ c.byte 12 / 2 % 2 = 0 ∧ (s.ti 5).st = 1 ∧ (s.pf 0).pasidEn = true ∧ s.pcie.tis = [(5, s.ti 5)]) := by decide +kernel

def qpcfg (i : Nat) : List Nat := nb 8 0x40000 ++ nb 8 0x50000 ++ nb 8 0x60000 ++ [i, 6, 16, 8] ++ nb 2 2 ++ [3, 0] ++ nb 2 77 ++ [0x21, 0x05]
theorem witness_TenantInterfaces_resources :
    (∀ c ∈ [adm0 0x10 [16], adm0 0x10 [17], adm0 0x11 (qpcfg 2), adm0 0x13 [5], adm0 0x13 [2], adm0 0x14 [3, 0, 5, 1], adm0 0x15 (nb 4 2097152),
        adm0 0x16 (nb 2 100 ++ nb 2 256), adm0 0x17 [], adm0 0x18 []], calmB (admS tiB c) = true ∧ runsB (admS tiB c) 0 c.op c 5 = true) ∧
    (let s := admS tiB (adm0 0x10 [16])
     (adm0 0x10 [16]).byte 8 ≤ 16 ∧ s.pool 5 (·.qpCount) + 16 ≤ 16384 ∧ (s.ti 5).qps = [] ∧ 16 < (adm0 0x10 [17]).byte 8) ∧
    (let c := adm0 0x11 (qpcfg 2)
     let s := admS tiB c
     let t0 := s.ti 5
     let x : Qp := { sqBase := c.num 8 8, rqBase := c.num 16 8, cqBase := c.num 24 8, sqLog := c.byte 33, rqLog := c.byte 34, cqLog := c.byte 35,
                     vec := c.num 36 2, modCount := c.byte 38, modTime := c.num 40 2 % 1024, mode := c.byte 42 % 4, sel := c.byte 42 / 16, eng := c.byte 43 % 64 }
     t0.st = 2 ∧ s.qp (5 + 2048 * c.byte 32) = none ∧ c.byte 32 < t0.qpCount ∧ c.byte 32 < 16 ∧ (6 ≤ x.sqLog ∧ x.sqLog ≤ 16 ∧ 6 ≤ x.rqLog ∧
      x.rqLog ≤ 16 ∧ 6 ≤ x.cqLog ∧ x.cqLog ≤ 16) ∧ x.vec < t0.vecCount ∧ x.mode ≠ 3 ∧ x.sqBase % 64 = 0 ∧ x.rqBase % 64 = 0 ∧ x.cqBase % 64 = 0) ∧
    (let c := adm0 0x11 (qpcfg 2)
     runsB (admS tiC c) 0 0x11 c 5 = true ∧ ((admS tiC c).ti 5).st = 1) ∧
    (let c := adm0 0x12 [1]
     let s := admS { tiB with qps := [(1, some qpH)] } c
     calmB s = true ∧ runsB s 0 0x12 c 5 = true ∧ c.byte 8 < 16 ∧ s.qp (5 + 2048 * 1) = some qpH ∧ qpH.pend = [] ∧ qpH.busy = false) ∧
    (let s := admS tiB (adm0 0x13 [5])
     5 ≤ s.ctxMax ∧ s.pool 5 (·.ctxQuota) + 5 ≤ 16384 ∧ (s.ti 5).ctxQuota ≤ (adm0 0x13 [5]).num 8 2 ∧ (adm0 0x13 [2]).num 8 2 < (s.ti 5).ctxQuota ∧
      s.pcie.ctxo = []) ∧
    ((adm0 0x15 (nb 4 2097152)).num 8 4 ≤ 2097152 ∧ (adm0 0x16 (nb 2 100 ++ nb 2 256)).num 10 2 ≤ 256 ∧ netS.twoLinks = false ∧ 100 + 256 ≤ 4096 ∧
      (let s := admS tiB (adm0 0x16 [])
       s.pcie.tis = [(5, s.ti 5)])) := by decide +kernel

theorem witness_TenantInterfaces_keys : (∀ k ∈ [19, 20], let c := adm0 0x20 (nb 2 k ++ [1, 0] ++ nb 4 0x99)
      let d := adm0 0x21 (nb 2 k)
      let s := admS tiB c
      calmB s = true ∧ runsB s 0 0x20 c 5 = true ∧ runsB (admS tiB d) 0 0x21 d 5 = true ∧ c.num 8 2 % 32768 = k ∧ d.num 8 2 % 32768 = k ∧
      s.rf .pcie R.ADM_KEY_RANGE F.ADM_KEY_RANGE_FIRST = 0 ∧ s.rf .pcie R.ADM_KEY_RANGE F.ADM_KEY_RANGE_COUNT = 20 ∧ (mapGet {} s.eth.keys k).valid = false) := by
  decide +kernel

def laterS (op arg : Nat) : State := admS { tiB with qps := [(1, some qpH), (3, some qpH)] } { adm0 op (nb 2 100 ++ nb 2 256) with ph := 1, due := 1000, arg := arg, result := 4 }
def drainS : State :=
  let s := admS { tiB with ctxQuota := 2 } { adm0 0x13 [2] with ph := 2, arg := 2, result := 3 }
  let s := { s with pcie := { s.pcie with ctxo := [(77, 0x80050004)] } }
  (s.setAtEntry 16 0x140 0x1C0).wf .pcie R.TI_OVF F.TI_OVF_OVF_BASE 0xC0000
theorem witness_TenantInterfaces_later : (∀ op ∈ [0x10, 0x13, 0x14, 0x15, 0x16, 0x17, 0x18], let s := laterS op 2
      let c : AdmCmd := { adm0 op (nb 2 100 ++ nb 2 256) with ph := 1, due := 1000, arg := 2, result := 4 }
      calmB s = true ∧ (s.adm 0).prog = [c] ∧ c.ph = 1 ∧ c.due ≤ s.now ∧ 5 = c.num 4 2 % 2048 ∧ c.op = op) ∧
    (let c : AdmCmd := { adm0 0x13 [2] with ph := 2, arg := 2, result := 3 }
     calmB drainS = true ∧ (drainS.adm 0).prog = [c] ∧ c.ph = 2 ∧ drainS.pcie.ctxo = [(77, 0x80050004)] ∧ (0x80050004 : Word).bit 31 = true ∧
      (0x80050004 : Word).toNat / 65536 % 2048 = 5 ∧ c.arg ≤ (0x80050004 : Word).toNat % 4096 ∧ (drainS.ctxWord 77 0).bit 30 = false ∧
      scratchForB drainS (drainS.reqOf (.group (77 / 256 / 4))) none (drainS.ovfAddr 5 4) .write = true) := by decide +kernel

def rstH (x : TiReset) : State := admS { tiB with st := 3, rst := some x, qps := [(1, some qpH)] } { adm0 (if x.destroy then 2 else 3) [] with ph := 4 }
def rst0 : TiReset := { squash := false, since := 3000, limit := 5000 }
def rstT : State :=
  let s := rstH { rst0 with squash := true }
  { s.setThread 3 { th 5 with pkt := some 2 } with mono := 103000, eth := { s.eth with frames := [(2, { data := [1], ti := 5, disp := true })] } }
theorem witness_TenantInterfaces_reset : ((rstH rst0).Calm ∧ ((rstH rst0).ti 5).rst = some rst0 ∧ rst0.squash = false ∧ rst0.limit ≤ (rstH rst0).mono) ∧
    (rstT.Calm ∧ (rstT.ti 5).rst = some { rst0 with squash := true } ∧ (rstT.thread 3).pkt = some 2 ∧ (rstT.frame 2).ti = 5 ∧ (rstT.thread 3).st ≠ 0 ∧
      (rstT.thread 3).rsv = [] ∧ rst0.since + 100000 ≤ rstT.mono) ∧
    (∀ d ∈ [false, true], let x : TiReset := { rst0 with squash := true, turned := true, destroy := d }
      let s := rstH x
      calmB s = true ∧ (s.ti 5).rst = some x ∧ (s.adm 0).prog = [{ adm0 (if d then 2 else 3) [] with ph := 4 }] ∧
      (adm0 (if d then 2 else 3) []).num 4 2 % 2048 = 5 ∧ (s.ti 5).link = 0 ∧ s.tiQuiet 5 = true ∧ x.owed = true) :=
  ⟨⟨calm_of (by decide +kernel), by decide +kernel⟩, ⟨calm_of (by decide +kernel), by decide +kernel⟩, by decide +kernel⟩
/-! ### Witnesses: the measurement front-end -/

def grpS (ctl st : Nat) : State := (netS.wr (.chGroup 2) R.GRP_CTL (BitVec.ofNat 32 ctl)).wr (.chGroup 2) R.GRP_STATUS (BitVec.ofNat 32 st)
def measS (f : MeasSt → MeasSt) (s : State) : State := { s with meas := f s.meas }
def tripS (s : State) : State := (s.wr .tripUnit R.TRIP_CFG 0xC0211003 3).wr .act R.TRIP_MAP 0x21 3

theorem witness_MeasurementFrontEnd_clocks : (grpS 0x1401 0).Calm ∧ (grpS 0x1401 0).mode.mode ≠ .dormant ∧
    (∀ k ∈ [0x1400, 0x1403], (let s := grpS k 0
      s.Granted gor .write (.chGroup 2) R.GRP_CTL 0 0)) ∧
    ((regWritten R.GRP_CTL ((grpS 0x1401 0).rd (.chGroup 2) R.GRP_CTL) 0).bit 0 = false ∧
      (regWritten R.GRP_CTL ((grpS 0x1400 0).rd (.chGroup 2) R.GRP_CTL) 0x1403).bit 0 = true ∧ ((grpS 0x1400 0).rd (.chGroup 2) R.GRP_CTL).bit 0 = false ∧
      (regWritten R.GRP_CTL ((grpS 0x1400 0).rd (.chGroup 2) R.GRP_CTL) 0x1403).bit 1 = true) ∧
    (let s := tripS (grpS 0x1401 1)
     calmB s = true ∧ s.grpEn 2 = true ∧ s.rf (.chGroup 2) R.GRP_CTL F.GRP_CTL_DRIVE = 0 ∧ s.clkFault 2 = false ∧ (s.rd .tripUnit R.TRIP_EVT).bit 31 = false ∧
      3 ∈ s.tripsOf 2 ∧ s.rb .tripUnit R.TRIP_CFG F.TRIP_CFG_EN 3 = true ∧ s.rb .tripUnit R.TRIP_CFG F.TRIP_CFG_CLKF_TRIP 3 = true ∧
      s.rf .tripUnit R.TRIP_STATUS F.TRIP_STATUS_TRIPPED 3 = 0) ∧
    ((grpS 0x1401 0).grpEn 2 = true ∧ (grpS 0x1401 0).clkOk 2 = false) ∧
    (let s := measS (fun m => { m with edge := [(2, some 5000)] }) (grpS 0x1403 0)
     calmB s = true ∧ mapGet none s.meas.edge 2 = some 5000 ∧ 5000 ≤ s.mono) := by
  unfold State.Granted; exact ⟨calm_of (by decide +kernel), by decide +kernel⟩

def chOn (x : ChSt) : State := measS (fun m => { m with ch := [(33, x)] }) ((grpS 0x1401 1).wr (chUnit 33) R.CH_CFG 0x90080000 1)
def bitsT (n : Nat) : List Bool := List.replicate n true
def warm (order n : Nat) : Sinc := ((({} : Sinc).feed order (bitsT n)).2.feed order (bitsT n)).2
theorem witness_MeasurementFrontEnd_channels : (∀ x ∈ [({} : ChSt), { filt := warm 2 8, seq := 65535, first := false, uid := 8 }], let s := chOn x
      calmB s = true ∧ s.rf (chUnit 33) R.CH_CFG F.CH_CFG_EN 1 = 1 ∧ s.grpEn (33 / 16) = true ∧ s.clkOk (33 / 16) = true ∧
      (bitsT 8).length = clampNat 8 1024 (s.rf (chUnit 33) R.CH_CFG F.CH_CFG_DEC 1) ∧ s.rf (chUnit 33) R.CH_CFG F.CH_CFG_TEL_EN 1 = 0 ∧
      ((x.filt.feed (s.rf (chUnit 33) R.CH_CFG F.CH_CFG_ORDER 1 + 1) (bitsT 8)).1 = none ↔ x.filt = {})) ∧
    gor.debug = false ∧ (chOn {}).Granted gor .write (chUnit 33) R.CH_CFG 1 0 ∧ (chOn {}).Granted gor .read (chUnit 33) R.CH_LAST 1 0 ∧
    (let old := (chOn {}).rd (chUnit 33) R.CH_CFG 1
     (regWritten R.CH_CFG old 0x90080000).bit 31 = true ∧ old.fld F.CH_CFG_ORDER = (regWritten R.CH_CFG old 0x90080000).fld F.CH_CFG_ORDER ∧
     old.fld F.CH_CFG_ORDER ≠ (regWritten R.CH_CFG old 0xA0080000).fld F.CH_CFG_ORDER) := by
  unfold State.Granted; decide +kernel

def flit0 : SFlit := { set := 5, tus := 6, addr := 0xC03000040, data := line0, mark := none }
def ssetS (cfg : Nat) : State := netS.wr .mfe R.SSET_CFG (BitVec.ofNat 32 cfg) 5
def flitS (x : SFlit) : State :=
  let s := (netS.wf (.tussock 6) R.L2_WAYS F.L2_WAYS_SCRATCH 8).setAtEntry 22 (netS.masterId .mfe) 0x1C0
  measS (fun m => { m with flits := [{ x with set := 4 }, x, { x with addr := x.addr + 64 }] }) (s.setBank 54 1 { st := .waiting, epri := 2 })
theorem witness_MeasurementFrontEnd_sets : (∀ k ∈ [0, 0xA0060003], let s := ssetS k
      calmB s = true ∧ s.answers .mfe = true ∧ s.Granted gor .write .mfe R.SSET_TRIG 0 0 ∧ s.Granted gor .write .mfe R.SSET_CFG 5 0) ∧
    (ssetS 0).rf .mfe R.SSET_CFG F.SSET_CFG_EN 5 = 0 ∧ (ssetS 0xA0060003).rf .mfe R.SSET_CFG F.SSET_CFG_EN 5 = 1 ∧
    ((0x80110001 : Word).bit 31 = true ∧ 16 < (0x80110001 : Word).fld F.SSET_CFG_COUNT) ∧
    (¬ ((0x80100001 : Word).fld F.SSET_CFG_COUNT = 0 ∨ 16 < (0x80100001 : Word).fld F.SSET_CFG_COUNT ∨ (0x80100001 : Word).fld F.SSET_CFG_CONN = 0)) ∧
    (∀ mk ∈ [none, some (netS.ident 54, 1, 3)], let x : SFlit := { flit0 with mark := mk }
      let s := flitS x
      calmB s = true ∧ s.meas.flits.find? (fun f => f.set == 5) = some x ∧ x.addr % 64 = 0 ∧ x.data.length = 64 ∧
      scratchForB s (s.reqOf .mfe) none x.addr .write = true ∧ s.coreOf (netS.ident 54) = some 54 ∧ (s.bank 54 1).st ≠ .off) := by
  unfold State.Granted; decide +kernel

def tripF (d : Nat) (f : Sinc) : State :=
  let s := (tripS (grpS 0x1401 1)).wr .tripUnit R.TRIP_THR 0x00FFFF80 3
  measS (fun m => { m with trip := [(3, f)] }) (s.wf .tripUnit R.TRIP_STATUS F.TRIP_STATUS_DEB_CNT d 3)
theorem witness_MeasurementFrontEnd_trips : (∀ k ∈ [(0, ({} : Sinc)), (0, warm 2 16), (15, warm 2 16)], let s := tripF k.1 k.2
      calmB s = true ∧ s.rf .tripUnit R.TRIP_CFG F.TRIP_CFG_EN 3 = 1 ∧ s.answers .tripUnit = true ∧ s.grpEn (s.rf .tripUnit R.TRIP_CFG F.TRIP_CFG_SRC 3 / 16) = true ∧
      s.clkOk (s.rf .tripUnit R.TRIP_CFG F.TRIP_CFG_SRC 3 / 16) = true ∧ (bitsT 16).length = clampNat 16 64 (s.rf .tripUnit R.TRIP_CFG F.TRIP_CFG_DEC 3) ∧
      (((mapGet {} s.meas.trip 3).feed 2 (bitsT 16)).1 = none ↔ k.2 = {}) ∧
      (k.2 ≠ {} → sext 16 (s.rf .tripUnit R.TRIP_THR F.TRIP_THR_THR_HI 3) < ((mapGet {} s.meas.trip 3).feed 2 (bitsT 16)).1.getD 0) ∧
      1 < s.rf .tripUnit R.TRIP_CFG F.TRIP_CFG_DEB 3 ∧ s.rf .tripUnit R.TRIP_CFG F.TRIP_CFG_DEB 3 ≤ 15 ∧
      s.rf .tripUnit R.TRIP_STATUS F.TRIP_STATUS_TRIPPED 3 = 0 ∧ (s.rd .tripUnit R.TRIP_EVT).bit 31 = false ∧
      (s.rf .act R.TRIP_MAP F.TRIP_MAP_BRAKES 3).testBit 5 = true) ∧
    netS.Granted gor .write .tripUnit R.TRIP_STATUS 31 0 ∧ netS.Granted gor .write .tripUnit R.TRIP_CFG 31 0 := by
  unfold State.Granted; decide +kernel

/-- Event input 7, enabled with edge choice `cfg` and a glitch filter of three samples, its level from `st`. -/
def eviS (x : EviSt) (cfg st irq stuck : Nat) : State :=
  let s := ((netS.wr .eviUnit R.EVI_CFG (BitVec.ofNat 32 cfg) 7).wr .eviUnit R.EVI_STATUS (BitVec.ofNat 32 st) 7).wr .eviUnit R.EVI_IRQ (BitVec.ofNat 32 irq) 7
  measS (fun m => { m with evi := [(7, x)], winStart := 0 }) (s.wr .eviUnit R.EVI_STUCK (BitVec.ofNat 32 stuck) 7)
def eviE : EviSt := { started := true, cnt := 3, since := 950, ts := some 20, winCnt := 3, lastIrq := some 4999 }
def level7 (s : State) : Bool := s.rb .eviUnit R.EVI_STATUS F.EVI_STATUS_LEVEL 7
theorem witness_MeasurementFrontEnd_inputs : (∀ x ∈ [({} : EviSt), { started := true, cnt := 0, rawRun := 1 }, { started := true, cnt := 2, raw := true }],
      let s := eviS x 0x80020000 0 0 0
      calmB s = true ∧ s.eviF F.EVI_CFG_EN 7 = 1 ∧ s.eviF F.EVI_CFG_GLITCH 7 + 1 = 3 ∧ (s.eviSt 7) = x ∧ (x.cnt < 3)) ∧
    (∀ k ∈ [(0, 0), (0, 0x80000000), (1, 0)], let s := eviS { eviE with lastIrq := none } (0x80020000 + 0x10000000 * k.1) k.2 0 0
      s.eviF F.EVI_CFG_EN 7 = 1 ∧ s.eviF F.EVI_CFG_GLITCH 7 + 1 ≤ (s.eviSt 7).cnt ∧ s.rb .eviUnit R.EVI_IRQ F.EVI_IRQ_IRQ_EDGE 7 = false) ∧
    ((eviS eviE 0x80020000 0 0 0).eviF F.EVI_CFG_EDGE 7 = 0 ∧ level7 (eviS eviE 0x80020000 0 0 0) = false ∧ level7 (eviS eviE 0x80020000 0x80000000 0 0) = true) ∧
    (let s := eviS eviE 0x80020064 0 0x80000000 0
     s.rb .eviUnit R.EVI_IRQ F.EVI_IRQ_IRQ_EDGE 7 = true ∧ s.gapOver 7 = false ∧ s.eviF F.EVI_CFG_GLITCH 7 + 1 ≤ (s.eviSt 7).cnt) := by decide +kernel

theorem witness_MeasurementFrontEnd_times : (∀ n ∈ [2000500], let s : State := { eviS { started := true, changed := 500 } 0x80020000 0 0 2 with now := n }
      calmB s = true ∧ s.eviF F.EVI_CFG_EN 7 = 1 ∧ (s.eviSt 7).started = true ∧ min 60000 (s.rf .eviUnit R.EVI_STUCK F.EVI_STUCK_STUCK_TIME 7) = 2 ∧
      (s.eviSt 7).changed + 2 * 1000000 ≤ s.now ∧ s.rb .eviUnit R.EVI_STATUS F.EVI_STATUS_STUCK 7 = false ∧ s.rb .eviUnit R.EVI_IRQ F.EVI_IRQ_IRQ_STUCK 7 = false) ∧
    (let s : State := { eviS { winCnt := 7 } 0x80020000 0 0 0 with now := 1000000000 }
     calmB s = true ∧ s.meas.winStart + clampNat 1 1000 (s.rf .eviUnit R.EVI_FREQ_WIN F.EVI_FREQ_WIN_MS) * 1000000 ≤ s.now ∧
      (3 : Word).fld F.EVI_FREQ_WIN_MS ≠ s.rf .eviUnit R.EVI_FREQ_WIN F.EVI_FREQ_WIN_MS ∧ s.Granted gor .write .eviUnit R.EVI_FREQ_WIN 0 0) ∧
    (let s := (eviS { pend := true } 0x80020000 0 0x80000405 0).wr (.er 1) R.ER_ROUTE 0x80000000 5
     calmB s = true ∧ (s.eviSt 7).pend = true ∧ s.gapOver 7 = true ∧ s.answers (.er (s.rf .eviUnit R.EVI_IRQ F.EVI_IRQ_EVT_Q 7)) = true ∧
      s.rf (.er (s.rf .eviUnit R.EVI_IRQ F.EVI_IRQ_EVT_Q 7)) R.ER_ROUTE F.ER_ROUTE_EN (s.rf .eviUnit R.EVI_IRQ F.EVI_IRQ_EVT_SRC 7) = 1 ∧
      s.rf (.er (s.rf .eviUnit R.EVI_IRQ F.EVI_IRQ_EVT_Q 7)) R.ER_ROUTE F.ER_ROUTE_KIND (s.rf .eviUnit R.EVI_IRQ F.EVI_IRQ_EVT_SRC 7) = 0) ∧
    netS.eviF F.EVI_CFG_EN 47 = 0 ∧ netS.Granted gor .write .eviUnit R.EVI_CFG 47 0 ∧ netS.Granted gor .read .eviUnit R.EVI_COUNT 47 0 := by
  unfold State.Granted; decide +kernel
/-! ### Witnesses: control loops, actuators, forecast events, power intent, telemetry -/

def actS (f : ActSt → ActSt) (s : State) : State := { s with act := f s.act }
def aw (g : Reg) (v : Nat) (i : Nat) (s : State) : State := s.wr .act g (BitVec.ofNat 32 v) i
/-- Loop 5 over sample set 2, with a period of 5 us, phase `ph`, deadline `dl`, at 10 us. -/
def loopS (cfg ph dl st : Nat) (x : LoopSt) : State :=
  let s : State := { netS with now := 10000 }
  let s := aw R.LOOP_CFG cfg 5 (aw R.LOOP_PER 10 5 (aw R.LOOP_PHASE ph 5 (aw R.LOOP_DL dl 5 (aw R.LOOP_STAT st 5 s))))
  let s := aw R.LOOP_PWM_LO 0x81 5 (aw R.LOOP_PWM_HI 1 5 (aw R.LOOP_BRK 0x00130011 5 s))
  (actS (fun a => { a with loops := [(5, x)] }) s).wr .mfe R.SSET_CFG 0xA0060003 2
theorem witness_LoopsAndActuators_instants : (∀ x ∈ [({} : LoopSt), { open_ := some 9500 }], let s := loopS 0x80050002 0 1000 0 x
      calmB s = true ∧ s.loopsRun = true ∧ s.loopEn 5 = true ∧ s.now % max 1 (s.loopPer 5) = s.loopPhase 5 ∧ x.first ≤ s.now ∧ x.last ≠ some s.now ∧
      s.loop 5 = x ∧ s.now < 9500 + s.loopDl 5 ∧ s.Granted gor .write .act R.LOOP_CFG 5 0 ∧ s.Granted gor .write .act R.LOOP_ARM 0 0) ∧
    (let s := loopS 0x80050002 0 1000 0 {}
     s.rf .mfe R.SSET_CFG F.SSET_CFG_EN ((s.rd .act R.LOOP_CFG 5).fld F.LOOP_CFG_SSET) = 1 ∧ s.answers .mfe = true ∧
      0 < s.rf .mfe R.SSET_CFG F.SSET_CFG_COUNT ((s.rd .act R.LOOP_CFG 5).fld F.LOOP_CFG_SSET)) := by
  unfold State.Granted; decide +kernel

/-- LOOP_CFG.EN of loop 5 may be set with `v`. -/
def enableOkB (s : State) (v : Word) : Bool :=
  let ss := v.fld F.LOOP_CFG_SSET
  decide (s.loopPer 5 ≠ 0 ∧ s.loopPhase 5 < s.loopPer 5 ∧ 100 ≤ s.loopDl 5 ∧ s.loopDl 5 < s.loopPer 5) && (s.rb .mfe R.SSET_CFG F.SSET_CFG_EN ss &&
    (List.range 64).all (fun k => k == 5 || !s.loopEn k || (s.rf .act R.LOOP_CFG F.LOOP_CFG_SSET k != ss && (s.loopPwm k &&& s.loopPwm 5) == 0)))
theorem witness_LoopsAndActuators_enable : (∀ k ∈ [(0, 100), (4999, 1000), (0, 99), (5000, 1000), (0, 5000)], let s := loopS 0x50002 (k.1) (k.2) 0 {}
      calmB s = true ∧ (s.rd .act R.LOOP_CFG 5).bit 31 = false ∧ s.Granted gor .write .act R.LOOP_CFG 5 0 ∧
      enableOkB s 0x50002 = decide (k ∈ [(0, 100), (4999, 1000)])) ∧
    (let s := loopS 0x80050002 0 1000 0 { open_ := some 9001 }
     9001 ≤ s.now ∧ s.now < 9001 + s.loopDl 5 ∧ s.loopEn 5 = true ∧ (s.rd .act R.LOOP_CFG 5).bit 31 = true) ∧
    (loopS 0x80050002 0 1000 0 { open_ := some 9000 }).loopDl 5 + 9000 ≤ 10000 := by
  unfold State.Granted; decide +kernel

theorem witness_LoopsAndActuators_deadline : (∀ st ∈ [0x80000000, 0x0000FFFF], let s := loopS 0x80050002 0 1000 st { open_ := some 9000 }
      calmB s = true ∧ (s.loop 5).open_ = some 9000 ∧ 9000 + s.loopDl 5 ≤ s.now ∧ s.mode.safe = false ∧
      s.rb .act R.LOOP_STAT F.LOOP_STAT_ARMED 5 = decide (st = 0x80000000)) ∧
    (let s := loopS 0x80050002 0 1000 0 { open_ := some 9001 }
     s.now < 9001 + s.loopDl 5) ∧ (loopS 0x80050002 0 1000 0 {}).loopPwm 5 = 0x100000081 := by decide +kernel

def pwmS (x : PwmSt) (c : Nat) : State :=
  actS (fun a => { a with pwm := [(7, x)] }) (aw R.PWM_CFG c 7 (aw R.PWM_PER 100 7 (aw R.PWM_DUTY 0x3FFFFF 7 { netS with now := 10000 })))
theorem witness_LoopsAndActuators_pwm : (∀ c ∈ [0, 0x80000000], let s := pwmS {} c
      calmB s = true ∧ s.pwmOwner 7 = none ∧ s.rb .act R.PWM_CFG F.PWM_CFG_EN 7 = decide (c ≠ 0) ∧ s.Granted gor .write .act R.PWM_PER 7 0 ∧
      s.Granted gor .write .act R.PWM_DUTY 7 0 ∧ s.Granted gor .write .act R.PWM_CFG 7 0) ∧
    (loopS 0x80050002 0 1000 0 {}).pwmOwner 7 ≠ none ∧
    (∀ x ∈ [({ shadowNew := true, per := 20000 } : PwmSt), { pend := some (4444, 3), per := 20000 }, { per := 20000 }], let s := pwmS x 0x80000000
      calmB s = true ∧ s.rb .act R.PWM_CFG F.PWM_CFG_EN 7 = true ∧ (s.pwm 7).safe = none ∧ (s.pwm 7).start + (s.pwm 7).per ≤ s.mono * 4) := by
  unfold State.Granted; decide +kernel

def brkS (at_ : Nat) (f : List Nat) : State :=
  actS (fun a => { a with relAt := [(3, some at_)], force := f }) (aw R.BRK_CFG 0x80000005 3 (aw R.BRK_STAT 0x88000007 3 netS))
theorem witness_LoopsAndActuators_brakes : (∀ at_ ∈ [5000, 5001], let s := brkS at_ []
      calmB s = true ∧ mapGet none s.act.relAt 3 = some at_ ∧ (at_ ≤ s.mono ↔ at_ = 5000) ∧ s.act.force.contains 3 = false ∧
      s.Granted gor .write .act R.BRK_SET 0 0 ∧ s.Granted gor .write .act R.BRK_REL 0 0 ∧ s.rb .act R.BRK_CFG F.BRK_CFG_EN 3 = true) ∧
    (brkS 5000 [3]).act.force.contains 3 = true ∧ (0x8 : BitVec 16).getLsbD 3 = true ∧ (0x8 : BitVec 16).getLsbD 15 = false := by
  unfold State.Granted; decide +kernel

/-- A forecast event of TI 5, class 7. -/
def fcEv (mag rel : Nat) : DWord := BitVec.ofNat 64 (2 ^ 53 * 5 + 2 ^ 45 * 7 + 2 ^ 41 * mag + 2 ^ 40 * rel + 0x1234)
def fcS (ok : Bool) (l : List (DWord × Nat × Nat)) : State :=
  actS (fun a => { a with fcq := [(3, l)] }) { netS with pcie := { netS.pcie with tis := [(5, { st := 2, fcast := if ok then 2 ^ 7 else 0 })] } }
def fcOne : List (DWord × Nat × Nat) := [(fcEv 4 0, 2, 3), (fcEv 2 1, 0, 0), (fcEv 1 0, 0, 0), (fcEv 1 0, 0, 0)]
theorem witness_ForecastAndTelemetry_events : (∀ ok ∈ [false, true], let s := aw R.FCB_MAP 0x8004000F 7 (fcS ok fcOne)
      calmB s = true ∧ mapGet [] s.act.fcq 3 = (fcEv 4 0, 2, 3) :: fcOne.tail ∧ fcOne.tail[3]? = none ∧
      (s.ti ((fcEv 4 0).toNat / 2 ^ 53)).fcast.testBit ((fcEv 4 0).toNat / 2 ^ 45 % 256) = ok ∧ (∀ q, q < 4 → (s.rd .act R.FC_RING_CFG q).bit 31 = false) ∧
      (s.rd .act R.FCB_MAP 7).bit 31 = true ∧ (fcEv 4 0).toNat.testBit 40 = false ∧ (s.rd .act R.FCB_MAP 7).fld F.FCB_MAP_MIN_MAG ≤ (fcEv 4 0).toNat / 2 ^ 41 % 16 ∧
      ((s.rd .act R.FCB_MAP 7).fld F.FCB_MAP_BRAKES).testBit 3 = true ∧ (s.rd .act R.PINT_CTL).bit 31 = false) ∧
    (let s := actS (fun a => { a with pint := { held := [fcEv 4 0], lastK2 := some 5000 } }) (aw R.PINT_CTL 0x80400000 0 (aw R.PINT_GAP 1 0 (fcS true fcOne)))
     let ctl := s.rd .act R.PINT_CTL
     calmB s = true ∧ ctl.bit 31 = true ∧ ctl.fld F.PINT_CTL_MIN_MAG ≠ 0 ∧ ctl.fld F.PINT_CTL_MIN_MAG ≤ 4 ∧ s.act.pint.held.length < 4 ∧ s.pintGapOver = false) ∧
    (let s := (fcS true fcOne).wf (.tussock 0) R.L2_WAYS F.L2_WAYS_SCRATCH 8
     let s := actS (fun a => { a with ringSeq := [(0, 0xFFFFFFFF)] }) (aw R.FC_RING_CFG 0xA0000005 0 ((s.wf (.tussock 6) R.L2_WAYS F.L2_WAYS_SCRATCH 8).setAtEntry 22 (s.masterId .act) 0x1C0))
     let a := 0xC00000000 + (7 * 0 + 6) * 0x800000 + 64 * (s.rf .act R.FC_RING_CFG F.FC_RING_CFG_OFF 0) +
       16 * (0xFFFFFFFF % 2 ^ clampNat 4 10 (s.rf .act R.FC_RING_CFG F.FC_RING_CFG_LOG2 0))
     calmB s = true ∧ mapGet 0 s.act.ringSeq 0 = 0xFFFFFFFF ∧ (s.rd .act R.FCB_MAP 7).bit 31 = false ∧ (s.rd .act R.PINT_CTL).bit 31 = false ∧
      (∀ k, k < 4 → k ≠ 0 → (s.rd .act R.FC_RING_CFG k).bit 31 = false) ∧ (s.rd .act R.FC_RING_CFG 0).bit 31 = true ∧
      (s.rd .act R.FC_RING_WAKE 0).bit 31 = false ∧ scratchForB s (s.reqOf .act) none a .write = true) := ⟨by decide +kernel, by decide +kernel, by decide +kernel⟩

def pintS (ctl : Nat) (x : PintSt) : State := actS (fun a => { a with pint := x }) (aw R.PINT_CTL ctl 0 (aw R.PINT_GAP 1 0 { pUp with now := 2000 }))
theorem witness_ForecastAndTelemetry_intent : (∀ x ∈ [({} : PintSt), { waiting := true, held := [fcEv 4 0], lastK2 := some 4000 }, { waiting := true, lastK2 := some 4500 }],
      let s := pintS 0x80000001 x
      let ctl := s.rd .act R.PINT_CTL
      calmB s = true ∧ ctl.bit 31 = true ∧ 1000 * ctl.fld F.PINT_CTL_PERIOD ≠ 0 ∧ s.now % (1000 * ctl.fld F.PINT_CTL_PERIOD) = 0 ∧ x.nextPer ≠ s.now + 1 ∧
      s.answers .act = true ∧ s.act.pint = x ∧ s.Granted gor .write .act R.PINT_CTL 0 0) ∧
    (pintS 0x80000001 { waiting := true, lastK2 := some 4000 }).pintGapOver = true ∧ (pintS 0x80000001 { waiting := true, lastK2 := some 4500 }).pintGapOver = false ∧
    (pintS 0x80000001 {}).linkUp ((((pintS 0x80000001 {}).rd .act R.PINT_CTL)).fld F.PINT_CTL_PORT) = true := by
  unfold State.Granted; decide +kernel

def telW (g : Reg) (v : Nat) (i : Nat) (s : State) : State := s.wr .telCoder g (BitVec.ofNat 32 v) i
def strS (cfg : Nat) (x : Stream) : State :=
  let s := telW R.STR_CFG cfg 9 (telW R.STR_SRC 0x40000002 9 (telW R.STR_ARG 7 9 { pUp with now := 2000 }))
  { (s.wr .eviUnit R.EVI_COUNT 12345 7) with tel := { s.tel with str := [(9, x)] } }
def smp0 : Sample := { x := 0, t := 900, first := true }
def strX : Stream := { smp := [smp0, { x := 3, t := 901 }], cfg := 0x80000105, src := 0x40000002, bseq := 65535 }
theorem witness_ForecastAndTelemetry_streams : (∀ x ∈ [({} : Stream), { q := [5001, 5002, 5003, 5004], startNext := true }, { q := [5000, 5002, 5003, 5004] }],
      let s := strS 0x80000105 x
      let src := s.rd .telCoder R.STR_SRC 9
      calmB s = true ∧ s.strF F.STR_CFG_EN 9 = 1 ∧ src.fld F.STR_SRC_KIND = 1 ∧ 1000 * src.fld F.STR_SRC_PERIOD ≠ 0 ∧
      s.now % (1000 * src.fld F.STR_SRC_PERIOD) = 0 ∧ x.next ≠ s.now + 1 ∧ s.answers .telCoder = true ∧ x.smp = [] ∧
      ((x.q.filter (fun t => decide (s.mono < t))).length < 4 ↔ x ≠ { q := [5001, 5002, 5003, 5004], startNext := true })) ∧
    (∀ n ∈ [900 + 1000 * strX.cfg.fld F.STR_CFG_FLUSH + 1999, 900 + 1000 * strX.cfg.fld F.STR_CFG_FLUSH + 2000], let s : State := { strS 0x80000105 strX with now := n }
      calmB s = true ∧ (s.str 9).smp = smp0 :: strX.smp.tail ∧ (s.str 9).cfg.fld F.STR_CFG_FLUSH ≠ 0) ∧
    (∀ k ∈ [R.STR_CFG, R.STR_SRC, R.STR_ARG], (strS 0x80000105 strX).Granted gor .write .telCoder k 9 0) ∧
    (let s := telW R.TOUT_CFG 0x80000001 2 (strS 0x80000105 { strX with cfg := 0x80000405 })
     (s.rf .telCoder R.TOUT_CFG F.TOUT_CFG_EN 2 = 1) ∧ (s.tout 2).q.length < 32) ∧
    ((strS 0x105 {}).str 9).smp = [] ∧ (strS 0x105 {}).strF F.STR_CFG_EN 9 = 0 ∧ (0x80000105 : Word).bit 31 = true := by
  unfold State.Granted; decide +kernel

def rec0 : TRec := { hdr := [1, 2, 3, 4], body := List.replicate 20 7, stream := 9 }
def toutS (x : TOut) (cfg : Nat) : State :=
  let s := telW R.TOUT_CFG cfg 2 (telW R.TOUT_A 0x200 2 (telW R.TOUT_B 0xC 2 { pUp with now := 2000 }))
  { (s.setAtEntry 16 (s.masterId .telCoder) 0x1C0) with tel := { s.tel with out := [(2, x)] } }
theorem witness_ForecastAndTelemetry_targets : (∀ f ∈ [[], [rec0]], let x : TOut := { q := [rec0, rec0], frame := f, since := 4000 }
      let s := toutS x 0x80000001
      let cfg := s.rd .telCoder R.TOUT_CFG 2
      calmB s = true ∧ s.tout 2 = x ∧ cfg.bit 31 = true ∧ cfg.fld F.TOUT_CFG_KIND < 2 ∧ cfg.fld F.TOUT_CFG_HOLD ≠ 0 ∧
      12 + (x.frame.flatMap (fun y => y.bytes true)).length + (rec0.bytes true).length ≤ 1472) ∧
    (let x : TOut := { q := [rec0], idx := 65535 }
     let s := toutS x 0xC0000501
     let cfg := s.rd .telCoder R.TOUT_CFG 2
     let lg := clampNat 4 12 (cfg.fld F.TOUT_CFG_LOG2)
     let d := slotBytes rec0 x.idx lg
     let a := (s.rd .telCoder R.TOUT_A 2).toNat / 512 * 512 + 2 ^ 32 * ((s.rd .telCoder R.TOUT_B 2).toNat % 256) + 512 * (x.idx % 2 ^ lg)
     calmB s = true ∧ cfg.bit 31 = true ∧ cfg.fld F.TOUT_CFG_KIND = 2 ∧ 0 < d.length ∧ (s.rd .telCoder R.TOUT_C 2).bit 31 = false ∧
      ∀ k, k < d.length / 64 → scratchForB s (s.reqOf .telCoder) none (a + 64 * k) .write = true) ∧
    (∀ k ∈ [(4000, 0x80000001), (4000, 0xA0000001), (4001, 0x80000001)], let s := toutS { frame := [rec0], since := k.1 } k.2
      let cfg := s.rd .telCoder R.TOUT_CFG 2
      calmB s = true ∧ (s.tout 2).frame ≠ [] ∧ ((s.tout 2).since + 1000 * cfg.fld F.TOUT_CFG_HOLD ≤ s.mono ↔ k.1 = 4000) ∧
      s.linkUp (cfg.fld F.TOUT_CFG_PORT) = true ∧ (cfg.fld F.TOUT_CFG_KIND = 1 ↔ k.2 = 0xA0000001) ∧ s.rf .telCoder R.TEL_CTL F.TEL_CTL_TEL_UDP = 0) := by decide +kernel
/-! ### Witnesses: coherence. Line 0x100, whose home is slice 0; caching agents 0 and 5 -/

def homeS : State :=
  let s := (netS.setBytes (64 * 0x100) line0).setBytes (64 * 0x100 + 64) [1, 2, 3]
  { s with mem := { s.mem with chans := [(0, { initDone := true })] } }
def msgS (src dst : Nat) (x : CohMsg) (s : State) : State := { s with mem := { s.mem with net := [⟨src, dst, 0x100, x⟩] } }
def dirS (e : DirEnt) : State := homeS.setDir 0x100 (some e)
def lineK (s : State) : Bool := s.lineKey 0x100 == 0x100 && (lkChan 0x100 == 0 && s.homeUp 0x100)
def freshB (s : State) : Bool := decide (s.txnOf 0x100 = none ∧ mapGet none s.mem.heldWay (Machine.setKey 0x100) = none)
def entS : DirEnt := ⟨.s, 0, [0, 5], false, 2⟩
def entO : DirEnt := ⟨.o, 5, [0], false, 2⟩
def entM : DirEnt := ⟨.m, 0, [], false, 2⟩

/-- The message `x` of agent 0 is the one on its way, to the home. -/
def asksB (s : State) (x : CohMsg) : Bool := calmB s && (lineK s && decide (s.mem.net = [⟨0, 100, 0x100, x⟩]))
theorem witness_Coherence_requests : (let s := msgS 0 100 (.getS 3) (homeS.setTxn 0x100 (some { rq := ⟨.getM, 5, 0x100, 0⟩, since := 100 }))
      asksB s (.getS 3) = true ∧ s.txnOf 0x100 = some { rq := ⟨.getM, 5, 0x100, 0⟩, since := 100 }) ∧
    (∀ m ∈ [CohMsg.getS 0, .getM 0], asksB (msgS 0 100 m homeS) m = true ∧ freshB (msgS 0 100 m homeS) = true ∧
      (msgS 0 100 m homeS).dirEnt 0x100 = none ∧ (msgS 0 100 m homeS).dirRoom 0x100 = .free 0) ∧
    (∀ m ∈ [CohMsg.getS 0, .getM 0, .upg true 0], ∀ e ∈ [entS, entO, entM, ⟨.s, 0, [5], false, 2⟩], asksB (msgS 0 100 m (dirS e)) m = true ∧
      freshB (msgS 0 100 m (dirS e)) = true ∧ (msgS 0 100 m (dirS e)).dirEnt 0x100 = some e ∧ e.ovf = false) ∧
    (0 ∈ entS.sharers ∧ entM.st ≠ .s ∧ entM.owner = 0) := by decide +kernel

def evbC (o : Bool) : Evb := { line := 0x100, data := List.replicate 64 9, dirty := 5, putO := o, cmph := false, poison := false }
theorem witness_Coherence_puts : (∀ o ∈ [false, true], (asksB (msgS 0 100 (.put (evbC o)) homeS) (.put (evbC o)) = true ∧ homeS.dirEnt 0x100 = none) ∧
      (let s := msgS 0 100 (.put (evbC o)) (dirS { entM with st := if o then .o else .m, sharers := if o then [5] else [] })
       asksB s (.put (evbC o)) = true ∧ s.txnOf 0x100 = none ∧ s.regAttr (64 * 0x100) F.REG_ATTR_SW_ONLY = 0) ∧
      ((evbC o).line = 0x100 ∧ (evbC o).putO = o ∧ (evbC o).keep = false ∧ (evbC o).data.length = 64)) := by decide +kernel

def txnH : HomeTxn := { rq := ⟨.getM, 5, 0x100, 0⟩, since := 100 }
def txnHS (x : HomeTxn) (m : CohMsg) : State := msgS 0 100 m (homeS.setTxn 0x100 (some x))
def openB (x : HomeTxn) (m : CohMsg) : Bool := asksB (txnHS x m) m && decide ((txnHS x m).txnOf 0x100 = some x ∧
  mapGet [] (txnHS x m).mem.queue 0x100 = [] ∧ mapGet [] (txnHS x m).mem.retryq 0 = [])
theorem witness_Coherence_acks : openB { txnH with acks := [0, 5] } .invAck = true ∧ openB { txnH with acks := [0], fwd := some 5 } .invAck = true ∧
    openB { txnH with acks := [0] } .invAck = true ∧ openB { txnH with acks := [5], fwd := some 0 } (.fwdAck [] 5 false) = true ∧
    openB { txnH with acks := [5], fwd := some 0 } (.fwdAck line0 5 false) = true ∧ openB { txnH with rq := ⟨.getM, 0, 0x100, 0⟩, needDone := true } .done = true ∧
    (∀ m ∈ [CohMsg.stashAck, .stashNack], openB { txnH with rq := ⟨.wrFull line0 true, 200 + 0x1C0, 0x100, 0⟩, stash := some 0 } m = true) ∧
    (txnH.cmpSent = false ∧ txnH.expired = false ∧ txnH.evict = false ∧ txnH.rq.req = .getM ∧ line0.length = 64) := by decide +kernel

theorem witness_Coherence_error : homeS.Calm ∧ homeS.homeUp 0x100 = true ∧ 29 ≤ (31 : Fin 32).val ∧ homeS.Mute ∧ homeS.eth.egress = [] ∧
    homeS.rb (.slice 0) R.DIR_ERR F.DIR_ERR_VALID = false := by unfold State.Mute; exact ⟨calm_of (by decide +kernel), by decide +kernel⟩

def hintS (stash : Nat) : State := (homeS.wr homeUnit0 R.STASH_BASE 0 0).wr homeUnit0 R.STASH_CFG (BitVec.ofNat 32 stash) 0
theorem witness_Coherence_cacheless : lineK homeS = true ∧ homeS.txnOf 0x100 = none ∧ homeS.dirEnt 0x100 = none ∧ (dirS entO).txnOf 0x100 = none ∧
    (dirS entO).dirEnt 0x100 = some entO ∧ homeS.stashHint 0x100 0x1C0 = none ∧ (calmB (hintS 0x80000105) = true ∧ lineK (hintS 0x80000105) = true) ∧
    (hintS 0x80000105).txnOf 0x100 = none ∧ (hintS 0x80000105).dirEnt 0x100 = none ∧
    (let g := ((hintS 0x80000105).stashHint 0x100 0x140)
     g.isSome = true ∧ (hintS 0x80000105).stashable (g.getD 0) = true) ∧ (63 : Fin 64).val + [(1 : Byte)].length ≤ 64 := by decide +kernel

def subC (x : Sub) : State := (homeS.setSub 0 0x100 x).setSector 0 0x100 (some { way := 1 })
def sub0 (st : SubSt) : Sub := { st := st, data := line0, dirty := 3 }
/-- The message `x` is on its way to agent 0, whose sub-block is `b`. -/
def getsB (x : CohMsg) (b : Sub) : Bool :=
  let s := msgS 100 0 x (subC b)
  calmB s && decide (s.mem.net = [⟨100, 0, 0x100, x⟩] ∧ s.sub 0 0x100 = b ∧ s.stq 0 = [] ∧ s.evbOf 0 = [] ∧ s.sector 0 0x100 ≠ none)
theorem witness_Coherence_forwards : (∀ st ∈ [SubSt.m, .o], ∀ m ∈ [CohMsg.fwdS 31, .fwdM 31, .fwdRd 31, .fwdFlush, .fwdKill, .inv, .stash line0 true],
      getsB m (sub0 st) = true ∧ getsB m { sub0 st with hold := some 5001 } = true ∧ (subC (sub0 st)).inHold 0 0x100 = false ∧
      (subC { sub0 st with hold := some 5001 }).inHold 0 0x100 = true) := by decide +kernel
theorem witness_Coherence_replies : (∀ st ∈ [SubSt.s, .um, .im], getsB .inv (sub0 st) = true) ∧
    (let s := (msgS 100 0 (.stash line0 true) (subC (sub0 .s))).setEvb 0 [evbC false]
     calmB s = true ∧ s.mem.net = [⟨100, 0, 0x100, .stash line0 true⟩] ∧ ∃ e ∈ s.evbOf 0, e.line = 0x100) ∧
    (∀ st ∈ [SubSt.is, .im, .um], transient (sub0 st) = true ∧ getsB (.data line0 9 true) { sub0 st with gotCmp := true } = true ∧
      getsB (.data line0 9 true) (sub0 st) = true ∧ getsB (.cmp true false) { sub0 st with data := [] } = true ∧ getsB (.cmp true false) (sub0 st) = true) ∧
    getsB (.retry 3) (sub0 .im) = true ∧ getsB .putAck {} = true ∧ getsB .stale {} = true ∧
    (let s := subC { sub0 .im with retryAt := some 5000 }
     calmB s = true ∧ (s.sub 0 0x100).retryAt = some 5000 ∧ 5000 ≤ s.mono ∧ transient (s.sub 0 0x100) = true) := by decide +kernel

theorem witness_Coherence_timers : (let s : State := { homeS with mem := { homeS.mem with heldWay := [(setKey 0x100, some 5000)] } }
      calmB s = true ∧ mapGet none s.mem.heldWay (setKey (s.lineKey 0x100)) = some 5000 ∧ 5000 ≤ s.mono) ∧
    (let s := subC { sub0 .m with hold := some 5000 }
     calmB s = true ∧ s.inHold 0 0x100 = false ∧ s.mem.held = []) ∧
    (let s := subC { sub0 .m with hold := some 5000 }
     let t : State := { s with mem := { s.mem with held := [⟨100, 0, 0x100, .fwdKill⟩] } }
     calmB t = true ∧ t.inHold 0 0x100 = false ∧ t.mem.held = [⟨100, 0, 0x100, .fwdKill⟩] ∧ (t.sub 0 0x100).st = .m) ∧
    (let x : HomeTxn := { rq := ⟨.getS, 3, 0x100, 0⟩, since := 0 }
     let s : State := { homeS.setTxn 0x100 (some x) with mono := homeS.txnNs 0 }
     calmB s = true ∧ lineK s = true ∧ s.txnOf 0x100 = some x ∧ x.expired = false ∧ x.since + s.txnNs (lkChan 0x100 / 8) ≤ s.mono ∧ x.rq.who < 29 ∧
      x.evict = false ∧ x.cmpSent = false ∧ s.dirEnt 0x100 = none) := by decide +kernel
/-! ### Witnesses: banks, event routers, faults and spares -/

def fltS (f : FaultSt → FaultSt) (s : State) : State := { s with fault := f s.fault }
def core5 (cfg : Nat) : State := (netS.wr (.core 5) R.BANK_START 0x12347 1).wr (.core 5) R.BANK_CFG (BitVec.ofNat 32 cfg) 1
def routeS (v pend : Nat) : State :=
  let s := ((core5 0x80000001).setBank 5 1 { st := .waiting, wait := .wfe, epri := 1, pc := 0x100, npc := 0x104 }).wr (.er 0) R.ER_ROUTE (BitVec.ofNat 32 v) 33
  (s.wr (.er 0) R.ER_PEND (BitVec.ofNat 32 pend) 1).wr (.er 0) R.BSET_LO 0x60 3
def cor : Req := { master := 5, priv := 1, epoch := 0 }
theorem witness_EventRoutersAndFaults_banks : (∀ c ∈ [2, 0x80000001], let s := core5 c
      calmB s = true ∧ s.Granted gor .write (.core 5) R.BANK_CFG 1 0 ∧ (s.rd (.core 5) R.BANK_CFG 1).bit 31 = decide (c ≠ 2)) := by
  unfold State.Granted; decide +kernel
theorem witness_EventRoutersAndFaults_routes : (∀ k ∈ [(0x04000005, 0), (0xB4000005, 0), (0xB4000005, 2), (0xC4000003, 0)], let s := routeS k.1 k.2
      let route := s.rd (.er 0) R.ER_ROUTE 33
      calmB s = true ∧ s.answers (.er 0) = true ∧ s.Granted gor .write (.er 0) R.ER_RAISE 0 0 ∧ s.Granted gor .write (.er 0) R.ER_ROUTE 33 0 ∧
      route.bit 31 = decide (k.1 ≠ 0x04000005) ∧ route.bit 30 = decide (k.1 = 0xC4000003) ∧ s.erPend 0 33 = decide (k.2 = 2) ∧
      (k.1 = 0xB4000005 → s.coreOf (route.fld F.ER_ROUTE_TARGET) = some 5 ∧ (s.bank 5 (route.fld F.ER_ROUTE_BANK)).st = .waiting)) ∧
    ((routeS 0xC4000003 0).inBset 0 3 5 = true ∧ (routeS 0xC4000003 0).coreOf 5 = some 5) ∧
    ((0x8000003E : Word).bit 30 = false ∧ (0x8000003E : Word).fld F.ER_ROUTE_TARGET = 62 ∧ 62 < (0x8000003F : Word).fld F.ER_ROUTE_TARGET ∧
      (0xC00003FF : Word).bit 30 = true) := by unfold State.Granted; decide +kernel

/-- Source `m` is pending at router 0 for `r` and bank `k`. -/
def mineB (s : State) (r : Req) (k m : Nat) : Bool := s.erPend 0 m && decide ((s.rd (.er 0) R.ER_ROUTE m).bit 30 = false ∧
  s.rf (.er 0) R.ER_ROUTE F.ER_ROUTE_TARGET m = r.master.toNat ∧ s.rf (.er 0) R.ER_ROUTE F.ER_ROUTE_BANK m = k)
theorem witness_EventRoutersAndFaults_claim : (let s := (routeS 0xB4000005 6).setAtEntry (UnitId.er 0).atid 5 0x1D0
      calmB s = true ∧ s.quiet cor = false ∧ s.Granted cor .read (.er 0) R.ER_CLAIM 1 0 ∧ mineB s cor 1 33 = true ∧
      (List.range 33).all (fun j => !mineB s cor 1 j) = true ∧ s.Granted cor .read (.er 0) R.ER_CLAIM 3 0 ∧
      (List.range 1024).all (fun j => !mineB s cor 3 j) = true) := by unfold State.Granted; decide +kernel

def subst0 : Subst := { dead := 2, spare := 8, ident := 2, step := 3 }
theorem witness_EventRoutersAndFaults_spare : (let s := fltS (fun f => { f with subst := [(0, some subst0)] }) netS
      calmB s = true ∧ mapGet none s.fault.subst 0 = some subst0 ∧ (∀ b ∈ s.sward.bcasts, b.master ≠ subst0.ident) ∧ subst0.spare < 252) := by decide +kernel

def healthS (l : List (Nat × Health)) (i : List (Nat × Nat)) : State :=
  fltS (fun f => { f with health := l, ident := i, renewals := [(8, 14)], ckptReq := [(5, 6)] }) (core5 2)
theorem witness_EventRoutersAndFaults_readmit : (∀ x ∈ [([(5, Health.dead)], []), ([(5, .quarantine)], []), ([(5, .testing)], [(5, 0xFFF)]), ([(5, .testing), (8, .active)], [(5, 0xFFF), (8, 5)]),
        ([(5, .active)], [])], let s := healthS x.1 x.2
      calmB s = true ∧ s.Granted gor .write (.quad 0) R.READMIT 0 0 ∧ s.Granted gor .write (.core 5) R.CKPT_CTL 0 0) ∧
    (let s := healthS [(5, .testing), (8, .active)] [(5, 0xFFF), (8, 5)]
     s.health 5 = .testing ∧ (∀ c, c < 9 → s.health (9 * (5 / 9) + c) ≠ .spare) ∧ s.freeIdent 5 = some 8 ∧ mapGet 0 s.fault.renewals 8 = 14) ∧
    (∃ c, c < 9 ∧ (healthS [(5, .testing)] [(5, 0xFFF)]).health (9 * (5 / 9) + c) = .spare) ∧ (healthS [] []).health 5 ≠ .testing := by
  unfold State.Granted; decide +kernel

def sramS (a : SramArr) (used : Bool) : State :=
  fltS (fun f => { f with sramStall := if used then [] else [(a, 1)], sramUsed := if used then [a] else [] }) netS
theorem witness_EventRoutersAndFaults_sram : (∀ a ∈ [SramArr.l2 0, .dir 3, .ctx 1, .fcache 0, .gorse], calmB netS = true ∧ netS.answers a.owner = true ∧ a ∉ netS.fault.sramUsed ∧
        (∀ e ∈ netS.fault.sramStall, e.1 ≠ a) ∧ calmB (sramS a true) = true ∧ a ∈ (sramS a true).fault.sramUsed ∧ (sramS a true).answers a.owner = true ∧
        (sramS a true).eth.egress = [] ∧ (a, 1) ∈ (sramS a false).fault.sramStall ∧ (sramS a false).sward.txns = [] ∧ (sramS a false).fault.mclog.length < 32) ∧
    (sramS .gorse true).Mute ∧ (sramS (.dir 3) true).Mute := by unfold State.Mute; decide +kernel

def wdS (u : UnitId) (d cfg : Nat) : State :=
  let w := BitVec.ofNat 32 cfg
  fltS (fun f => { f with wd := [(u.base, { due := some d })] }) (((netS.wr (.core 5) R.WD_CTL w).wr (.tussock 1) R.TWD_CTL w).wr .peat R.DWD_CTL w)
theorem witness_EventRoutersAndFaults_watchdogs : (∀ u ∈ [UnitId.core 5, .tussock 1, .peat], (wdS u 5001 0x80000003).wdDue u = false ∧
      (let s := wdS u 5000 0x80000003
       calmB s = true ∧ s.wdDue u = true ∧ s.answers u = true ∧ (s.wdCfg u).1.toNat / 2 ^ 28 % 4 = 0 ∧ (s.wdCfg u).1.bit 31 = true ∧ s.fault.mclog.length < 32 ∧
        s.wdPaused u = false)) ∧
    (wdS .peat 5000 0x90000003).wdDue .peat = true ∧ ((wdS .peat 5000 0x90000003).wdCfg .peat).1.toNat / 2 ^ 28 % 4 ≠ 0 ∧ (wdS (.core 5) 5000 0x80000003).Mute ∧
    ((wdS (.core 5) 5000 0x80000003).Granted gor .write (.core 5) R.WD_KICK 0 0 ∧ (wdS (.tussock 1) 5000 0x80000003).Granted gor .write (.tussock 1) R.TWD_KICK 0 0 ∧
      (wdS .peat 5000 0x80000003).Granted gor .write .peat R.DWD_KICK 0 0) := by unfold State.Granted State.Mute; decide +kernel

theorem witness_EventRoutersAndFaults_log : netS.Calm ∧ netS.quiet gor = false ∧ netS.fault.mclog = [] ∧ netS.Granted gor .read .device R.MCLOG_POP 0 0 ∧
    (let s := fltS (fun f => { f with mclog := [[7, 8, 9], [1]] }) netS
     calmB s = true ∧ s.fault.mclog = [7, 8, 9] :: [[1]] ∧ s.Granted gor .read .device R.MCLOG_POP 0 0) := by
  unfold State.Granted; exact ⟨calm_of (by decide +kernel), by decide +kernel⟩
/-! ### Witnesses: Gorse, the debug port, trace -/

def gorS (f : GorseSt → GorseSt) (s : State) : State := { s with gorse := f s.gorse }
def strapS (n : Nat) (s : State) : State := { s with peat := { s.peat with straps := n } }
def initS (s : State) : State := { s with mem := { s.mem with chans := (List.range 32).map (fun i => (i, { initDone := true })) } }
/-- A slot record with SEQ 9 and one entry. -/
def slotRec : List Byte :=
  let h := ascii [0x48, 0x46, 0x49, 0x52, 1, 0, 1, 0] ++ leBytes 4 9 ++ leBytes 4 0 ++ leBytes 4 0x100000 ++ leBytes 4 320 ++ ascii [1, 0, 0, 0, 0, 0, 0, 0]
  h ++ leBytes 4 (flashCrc h)
def slotF : List (Nat × List Byte) := [(0, slotRec)]
def candF : Cand := ⟨0, slotF, 9, [⟨0x100000, 320, 1⟩]⟩
def bootS (n : Nat) : State := initS (strapS n sU)
theorem witness_GorseServices_boot : (∀ n ∈ [0, 1, 2], let s := bootS n
      calmB s = true ∧ s.mode.mode = .boot ∧ s.gorse.started = false ∧ s.answers .gorse = true ∧ s.strapBoot = n ∧ s.dramReady = true) ∧
    flashCands [] = [] ∧ flashCands slotF = candF :: [] ∧ sSteady.mode.mode ≠ .boot := by decide +kernel

def imgB : Img := { role := 1, entry := 0xC0010003 }
def imgC : Img := { role := 2, engines := 0x20, tag := 0x77, len := 64 }
def readyS : State := gorS (fun g => { g with ready := true, imgs := [imgC, imgB] }) (initS sU)
def waitS (n : Nat) : State := gorS (fun g => { g with started := true, waitPush := some 0 }) (bootS n)
def linkS2 (s : State) : State := { s with pcie := { s.pcie with fn := [(0, { up := true, bme := true })] } }
theorem witness_GorseServices_push : (readyS.Calm ∧ readyS.gorse.ready = true ∧ readyS.mode.mode = .boot ∧ readyS.coreOf 0 = some 0 ∧
      readyS.gorse.imgs.find? (fun i => i.role == 1) = some imgB) ∧ sU.gorse.ready = false ∧
    (calmB (waitS 1) = true ∧ (waitS 1).waitsPush = true ∧ (waitS 1).linkUsed 0 = true ∧ (waitS 1).linkReady 0 = false) ∧
    (calmB (linkS2 (waitS 2)) = true ∧ (linkS2 (waitS 2)).waitsPush = true ∧ (linkS2 (waitS 2)).linkUsed 0 = true ∧ (linkS2 (waitS 2)).linkReady 0 = true ∧
      (linkS2 (waitS 2)).dramReady = true ∧ slotCand [] 0 2 = none ∧ slotCand slotF 0 2 = some { candF with slot := 2 }) ∧
    (∀ t ∈ [9999999999, 10000000000], let s : State := { waitS 2 with mono := t }
      calmB s = true ∧ s.gorse.waitPush = some 0 ∧ s.strapBoot = 2 ∧ s.mode.mode = .boot ∧ s.gorse.ready = false ∧ s.dramReady = true) :=
  ⟨⟨calm_of (by decide +kernel), by decide +kernel⟩, by decide +kernel⟩

def mas0 : Req := { master := 0, priv := 3, epoch := 0 }
def keyG (l : Bool) (o : Nat) : State := gorS (fun g => { g with keyReq := some (0, 1), keyOwner := o }) (readyS.wf .gorse R.BOOT_STATUS F.BOOT_STATUS_KEY_LOCK (if l then 1 else 0))
theorem witness_GorseServices_keys : (let s := readyS.setAtEntry UnitId.gorse.atid 0 0x1C0
      calmB s = true ∧ s.Granted mas0 .write .gorse R.KEY_REQ 0 0 ∧ s.keyLocked = false ∧ ¬ s.gorse.imgs.length ≤ (1 : Word).fld F.KEY_REQ_INDEX ∧
      s.gorse.keyReq.isSome = false) ∧
    (readyS.gorse.imgs.length ≤ (2 : Word).fld F.KEY_REQ_INDEX ∧ readyS.Granted gor .write .gorse R.KEY_REQ 0 0 ∧ readyS.Granted gor .write .gorse R.KEY_CTL 0 0 ∧
      readyS.gorse.keyReq = none) ∧
    (∀ l ∈ [false, true], calmB (keyG l 0) = true ∧ (keyG l 0).gorse.keyReq = some (0, 1) ∧ (keyG l 0).keyLocked = l ∧ (keyG l 0).gorse.imgs[1]? = some imgB) ∧
    (∀ o ∈ [0, 0x1C0], (keyG false o).Granted gor .read .gorse R.KEY_OUT 11 0 ∧ (gor.master.toNat = (keyG false o).gorse.keyOwner ↔ o = 0x1C0)) := by
  unfold State.Granted; decide +kernel

def attS (a : Nat) : State := gorS (fun g => { g with attest := some (a, 55) }) (scrS sU)
theorem witness_GorseServices_attest : (∀ a ∈ [0xC00000040, 0xFFFFFFFC0], calmB (attS a) = true ∧ (attS a).gorse.attest = some (a, 55)) ∧
    (attS 0).place 0xFFFFFFFC0 = .nowhere ∧ scratchForB (attS 0) ((attS 0).reqOf .gorse) (some .gorse) 0xC00000040 .read = true ∧
    scratchForB (attS 0) ((attS 0).reqOf .gorse) (some .gorse) (0xC00000040 + 64) .write = true ∧ (attS 0xC00000040).poisoned 0xC00000040 = false ∧
    ((attS 0xC00000040).setPoison 0xC00000040 true).poisoned 0xC00000040 = true ∧ sU.gorse.attest = none ∧ sU.Granted gor .write .gorse R.ATTEST_REQ 0 0 := by
  unfold State.Granted; decide +kernel

theorem witness_GorseServices_reload : (readyS.gorse.reload = none ∧ readyS.engState 5 = engStopped ∧ (readyS.csImg 5).isSome = true ∧ readyS.csImg 6 = none ∧
      readyS.Granted gor .write .gorse R.CS_RELOAD 0 0) ∧
    (let s := gorS (fun g => { g with reload := some 5 }) readyS
     calmB s = true ∧ s.gorse.reload = some 5 ∧ s.csImg 5 = some imgC ∧ imgC.len ≤ 262144) := by
  unfold State.Granted; decide +kernel

/-! The debug port. A public key and a signature of the message of class 3 over a challenge of zeros (computed apart from the model). -/
def dapS (f : DapSt → DapSt) (s : State) : State := { s with dap := f s.dap }
def authKey : List Byte := beBytes 48 0xE8F725B39F016B185A1D514C359A2ADBE322F414F6021790E39F60518BE257C96909728C1F4DDDBADC0F1D9034AFEE81 ++
  beBytes 48 0xF5FD5A74B12A758D8FFF8B3D30A3AA45735388223B94E92135D31C48A5C7C405C7BAC9F7B120513AA6E82E212E45B5FE
def authSig : List Byte := let r := beBytes 48 0x67D249C88F8645B7B0E6EF46B61E5390903BC267D7F2BEBFDBE07718CEACD2D4FF1865B600AD01D4DF41CE8FF4EB5127
  r ++ r
def authS : State := gorS (fun g => { g with digs := [(0, sha384 authKey)] }) (dapS (fun d => { d with busy := some (3, authKey, authSig) }) (strapS 4 netS))
theorem witness_DebugPort_grant : authS.Calm ∧ authS.dap.busy = some (3, authKey, authSig) ∧ authS.authOk 3 authKey authSig = true ∧ 3 % 8 ≠ 0 :=
  ⟨calm_of (by decide +kernel), by decide +kernel, by decide +kernel, by decide⟩

def tap0 : Req := { master := 0x180, priv := 3, epoch := 0 }
theorem witness_DebugPort_auth : (UnitId.dap.findReg 0xFFC = none ∧ (0x25C : Nat) = 0x210 + 0x40 * 1 + 4 * 3) ∧ (1 : Word).fld F.AUTH_REQ_CLASS ≠ 0 ∧
    netS.dap.busy = none ∧ netS.dap.fails ≠ 8 ∧ netS.attached = false ∧
    (let s := dapS (fun d => { d with fails := 8, busy := some (3, [], []) }) netS
     calmB s = true ∧ s.dap.fails = 8 ∧ s.authOk 3 [] [] = false) ∧
    (let s := netS.setAtEntry UnitId.dap.atid 0x180 0x1C0
     calmB s = true ∧ s.Granted tap0 .write .dap R.AUTH_REQ 0 0 ∧ s.Granted tap0 .write .dap R.DAP_CTL 0 0 ∧ s.Granted tap0 .write .dap R.DRE_CMD 1 0) := by
  unfold State.Granted; decide +kernel

def dreB (c : Nat) (lo : Word) (acc : Map (Option DreAcc)) : State :=
  let s := dapS (fun d => { d with cls := c, host := true, dre := acc }) (netS.setAtEntry 16 0x1C1 0x1C0)
  ((s.wr .dap R.DRE_ADDR_LO lo 0).wr .dap R.DRE_ADDR_HI 0x8000000C 0).wr .dap R.DRE_ADDR_LO lo 1 |>.wr .dap R.DRE_ADDR_HI 0xC 1
def dreA (w : Bool) (a : Nat) : DreAcc := { write := w, wide := false, addr := a, data := if w then [1, 2, 3, 4] else [], since := 0 }
theorem witness_DebugPort_engines : (∀ k : Fin 2, let s := dreB 2 0x10 []
      calmB s = true ∧ s.dreAcc k = none ∧ s.dap.cls ≠ 0 ∧ s.dap.host = true ∧ s.dreAllowed 0xC00000010 true = true ∧
      (s.rd .dap R.DRE_ADDR_LO k).toNat + 2 ^ 32 * s.rf .dap R.DRE_ADDR_HI F.DRE_ADDR_HI_ADDR k = 0xC00000010) ∧
    (0xC00000010 % 16 = 0 ∧ (dreB 2 0x12 []).dreAllowed 0xC00000012 false = true ∧ 0xC00000012 % 4 ≠ 0) ∧ (dreB 1 0x10 []).dreAllowed 0xC00000010 true = false ∧
    (∀ w ∈ [false, true], let s := dreB 2 0x10 [(0, some (dreA w 0xC00000010))]
      calmB s = true ∧ s.dreAcc 0 = some (dreA w 0xC00000010) ∧ (dreA w 0).issued = false ∧ (dreA true 0).data.length = 4 ∧
      scratchForB s dreReq (some .dap) 0xC00000010 (if w then .write else .read) = true ∧ s.rb .dap R.DRE_ADDR_HI F.DRE_ADDR_HI_INC 0 = true ∧
      s.rb .dap R.DRE_ADDR_HI F.DRE_ADDR_HI_INC 1 = false) ∧
    (let s := dreB 2 0x10 [(1, some (dreA true 0xFFFFFFFF0))]
     calmB s = true ∧ s.dreAcc 1 = some (dreA true 0xFFFFFFFF0) ∧ s.place 0xFFFFFFFF0 = .nowhere) := by decide +kernel

def hltS (x : Bank) : State := (netS.wr (.core 5) R.DBG_CTL 0x80000000).setBank 5 1 x
theorem witness_DebugPort_halt : (∀ x ∈ [({ st := .off } : Bank), { st := .waiting, wait := .wfe }, { st := .running, pc := 0x100 }], let s := hltS x
      calmB s = true ∧ s.Granted gor .write (.core 5) R.DBG_CTL 0 0 ∧ s.bank 5 1 = x) ∧
    ((2 : BitVec 4).toNat.testBit 1 = true ∧ (2 : BitVec 4).toNat.testBit 3 = false) ∧ (hltS {}).rb (.core 5) R.DBG_CTL F.DBG_CTL_DBG_EN = true ∧
    netS.mode.emulDormant = false ∧ ∀ u, (sSteady.unit u).emulated = false := by
  unfold State.Granted
  exact ⟨by decide +kernel, by decide +kernel, by decide +kernel, by decide +kernel, fun u => rfl⟩

def trcS (f : TraceSt → TraceSt) (s : State) : State := { s with trace := f s.trace }
def hrS (v : Nat) (s : State) : State := s.wr .hedgerow R.HR_CTL (BitVec.ofNat 32 v)
def trN : State := { netS with now := 3000, mono := 50000 }
def flitT (since : Nat) : State := trcS (fun t => { t with src := [(5, { pkts := [[1, 2, 3], List.replicate 63 4], since := since })] }) (hrS 0x80000000 trN)
theorem witness_Trace_flit : (∀ n ∈ [49000, 49001], let s := flitT n
      s.tracing = false ∧ s.now < 2 ^ 64 ∧ (s.trSrc 5).pkts ≠ [] ∧ (s.trSrc 5).since = n ∧ s.hrOn = true ∧ (∀ k ∈ (s.trSrc 5).pkts, k.length ≤ 63) ∧ s.trLive 5 = false) := by
  decide +kernel

def ringT (full : Bool) : State :=
  let s := (hrS 0xA0000000 trN).setAtEntry 0x49 (trN.masterId .hedgerow) 0x1C0
  let s := ((s.wr .pcie R.OB_CTL 1).wr .hedgerow R.RING_BASE_HI 0x80).wf .hedgerow R.HR_STATUS F.HR_STATUS_FULL (b2n full)
  let s := trcS (fun t => { t with hr := { line := [1, 2, 3], since := 40000 } }) s
  { s with pcie := { s.pcie with fn := [(0, { up := true, bme := true })] } }
theorem witness_Trace_ring : (∀ b ∈ [false, true], let s := ringT b
      s.tracing = false ∧ s.now < 2 ^ 64 ∧ s.trace.hr.line ≠ [] ∧ s.trace.hr.since + 10000 ≤ s.mono ∧ s.hrOn = true ∧ s.ringFull = b) ∧
    (let s := ringT false
     let at_ := s.ringBase + (s.rd .hedgerow R.RING_WPTR).toNat
     (s.rd .hedgerow R.RING_WPTR).toNat + 64 < s.ringLen ∧ s.place at_ = .outbound ∧ s.guardAcc at_ (s.reqOf .hedgerow) .write = (none, s) ∧ s.obUp = true) := by
  decide +kernel

def frT (x : FrSt) : State := trcS (fun t => { t with fr := [(6, x), (28, x)] }) ((trN.wr (.tussock 6) R.FR_CFG 0x80000000).wr (.tussock 6) R.FR_POST 3)
theorem witness_Trace_recorder : (let s := trcS (fun t => { t with fr := [(28, { left := some 0 })] }) trN
      s.tracing = false ∧ (s.frec 28).left = some 0 ∧ s.Granted gor .write (.tussock 27) R.FR_TRIG 0 0) ∧
    (let s := frT { ptr := 0x3FFFF }
     s.now < 2 ^ 64 ∧ s.trace.src = [] ∧ s.rb (.tussock 6) R.FR_CFG F.FR_CFG_EN = true ∧ (s.frec 6).triggered = false ∧ (s.frec 6).stopped = false ∧ (s.frec 6).err = false ∧
      (s.frec 6).left = none ∧ s.Granted gor .write (.tussock 6) R.FR_TRIG 0 0) := by unfold State.Granted; decide +kernel

def timT : State :=
  let s := (((trN.wr (.core 5) R.TRC_CTL_C 0x8FF00000).wr .hedgerow R.HR_SRC_EN 0x20)).setBank 5 0 { st := .running, pc := 0x100, npc := 0x104 }
  { trcS (fun t => { t with src := [(5, { on := true, ref := some 0 })] }) s with now := 65535 }
theorem witness_Trace_timer : timT.now < 2 ^ 64 ∧ (∀ e ∈ timT.trace.src, e.1 = 5) ∧ timT.hrOn = false ∧ timT.frTakes 5 = none ∧ timT.trLive 5 = true ∧ (timT.trSrc 5).on = true ∧
    (timT.trSrc 5).asleep = false ∧ (timT.trSrc 5).br = [] ∧ (timT.trSrc 5).lost = 0 ∧ (timT.running 5).isSome = true ∧ 0 + 1000 ≤ timT.now ∧ timT.now < 0 + 65536 ∧
    (timT.trSrc 5).ref = some 0 ∧ packLen (timT.trSrc 5).pkts + 3 ≤ 512 := by decide +kernel
/-! ### Witnesses: clocks, power and reset -/

def peatS (f : PeatSt → PeatSt) (s : State) : State := { s with peat := f s.peat }
def pllS (run lock straps : Nat) : State := peatS (fun p => { p with pllRun := run, pllLock := lock, perst := [], pcieRef := [0, 1], straps := straps }) netS
theorem witness_ClocksPowerResets_plls : (pllS 0 0 0).Calm ∧ (pllS 0 0 0).pllWant 3 = false ∧
    (∀ n ∈ [0, 1, 2, 3, 4, 5, 6], (pllS 127 0 0x10).pllWant n = true ∧ (pllS 127 0 0x10).pllLocked n = false ∧ (pllS 127 127 0x10).pllLocked n = true) ∧
    (pllS 127 127 0x10).Mute ∧ (pllS 127 127 0x10).eth.egress = [] ∧ (pllS 127 127 0x10).mode.safe = false ∧ netS.peat.refclk = true ∧
    netS.peat.straps.testBit 3 = false ∧ (pllS 0 0 8).peat.straps.testBit 3 = true ∧
    (pllS 0 0 8).peatExt = true ∧ (peatS (fun p => { p with peatClkF := true }) (pllS 0 0 8)).peatExt = false := by
  unfold State.Mute; exact ⟨calm_of (by decide +kernel), by decide +kernel⟩

def dormS (wake : Nat) (pg : Bool) (ex : Option Nat) (mono : Nat) : State :=
  let s : State := { netS with mode := { mode := .dormant }, mono := mono }
  (peatS (fun p => { p with mainPg := pg, exiting := ex, alarm := 1000, pwrEnAt := 0, ptrip := [(7, { run := true, brakes := 3, deb := 1 })] }) s).wr .peat R.WAKE_EN (BitVec.ofNat 32 wake)
theorem witness_ClocksPowerResets_wake : netS.mode.mode ≠ .dormant ∧ netS.mode.dormEntry = false ∧
    (∀ w ∈ [0, 2 ^ 1 + 2 ^ 3], ∀ pg ∈ [false, true], let s := dormS w pg none 5000
      calmB s = true ∧ s.mode.mode = .dormant ∧ s.peat.alarm ≤ s.now ∧ s.peat.exiting = none ∧ s.peat.mainPg = pg ∧
      (s.rd .peat R.WAKE_EN).bit 1 = decide (w ≠ 0) ∧ (s.rd .peat R.WAKE_EN).bit 3 = decide (w ≠ 0)) ∧
    (∀ m ∈ [7999999, 8000000], let s := dormS 0 false (some 3) m
      calmB s = true ∧ s.mode.mode = .dormant ∧ s.peat.exiting = some 3 ∧ s.peat.mainPg = false ∧ (s.peat.pwrEnAt + 8000000 ≤ s.mono ↔ m = 8000000)) := by decide +kernel

def ptripS (wake deb : Nat) : State :=
  let s := ((dormS wake true none 5000).wf .peat R.PTRIP_CFG F.PTRIP_CFG_PWIN 32 7).wf .peat R.PTRIP_CFG F.PTRIP_CFG_PDEB deb 7
  (s.wf .peat R.PTRIP_THR F.PTRIP_THR_PHI 20 7).wf .peat R.PTRIP_THR F.PTRIP_THR_PLO 5 7
theorem witness_ClocksPowerResets_trips : (∀ d ∈ [2, 3], ∀ w ∈ [0, 2 ^ 4], let s := ptripS w d
      let x := mapGet {} s.peat.ptrip 7
      calmB s = true ∧ s.mode.mode = .dormant ∧ s.mode.emulDormant = false ∧ x.run = true ∧ x.tripped = false ∧ s.peat.exiting = none ∧ s.peat.mainPg = true ∧
      clampNat 16 256 (s.rf .peat R.PTRIP_CFG F.PTRIP_CFG_PWIN 7) = 32 ∧ (x.deb + 1 < max 1 (s.rf .peat R.PTRIP_CFG F.PTRIP_CFG_PDEB 7) ↔ d = 3) ∧
      (s.rf .peat R.PTRIP_THR F.PTRIP_THR_PHI 7 = 20 ∧ s.rf .peat R.PTRIP_THR F.PTRIP_THR_PLO 7 = 5) ∧ (s.rd .peat R.WAKE_EN).bit 4 = decide (w ≠ 0)) ∧
    netS.mode.mode ≠ .dormant := by decide +kernel

theorem witness_ClocksPowerResets_links : (let s := linkH netS
      s.linkUsed 1 = true ∧ s.mode.mode ≠ .dormant ∧ s.mode.dormEntry = false ∧ s.peat.pcieRef.contains 1 = true ∧ s.peat.underV = false) ∧
    netS.linkUsed 1 = false ∧
    (let s := dormS (2 ^ 2) true none 5000
     calmB s = true ∧ s.linkUsed 0 = true ∧ s.mode.mode = .dormant ∧ s.peat.exiting = none ∧ s.peat.mainPg = true ∧ (s.rd .peat R.WAKE_EN).bit 2 = true) ∧
    (netS.rd .peat R.RST_CFG).bit 0 = false ∧ ((netS.wr .peat R.RST_CFG 3).rd .peat R.RST_CFG).bit 1 = true := by decide +kernel

theorem witness_ClocksPowerResets_resets : netS.Granted gor .write .device R.RESET_CTL 0 0 ∧ netS.attached = false ∧
    (let s := peatS (fun p => { p with pwrEn := false }) (dormS 0 false none 5000)
     s.mode.mode = .dormant ∧ s.peat.pwrEn = false ∧ 2 ≤ (2 : Fin 4).val) ∧ netS.peat.underV = false ∧
    (peatS (fun p => { p with underV := true }) netS).peat.underV = true := by unfold State.Granted; decide +kernel

theorem witness_ClocksPowerResets_clears : (∀ e ∈ [(UnitId.device, R.MCLOG_OVF, 0), (.eviUnit, R.EVI_MERGED, 47), (.tripUnit, R.TRIP_CNT, 31), (.act, R.ARM_DISC, 0),
        (.hedgerow, R.HR_LOST, 0), (.telCoder, R.TEL_LOST, 0)], let s := netS.wr e.1 e.2.1 5 e.2.2
      calmB s = true ∧ (BitVec.ofNat 48 (regAddr e.1 e.2.1 e.2.2 0)).toNat = regAddr e.1 e.2.1 e.2.2 0 ∧ regAddr e.1 e.2.1 e.2.2 0 < 2 ^ 40 ∧
      s.Granted gor .read e.1 e.2.1 e.2.2 0) ∧ netS.quiet gor = false ∧
    netS.quiet { master := 0x180, priv := 3, epoch := 0, debug := true } = true ∧ unitAt (0xFFFFFFFFFF : BitVec 48).toNat = none := by
  unfold State.Granted; decide +kernel
/-! ### Refusals: for each check of WellFormed.lean a command that it refuses, and one at the boundary that it takes -/

theorem test_wf_refuses_units : (Instr.unitReset gor (.core 252) false).wf = false ∧ (Instr.unitReset gor (.core 251) false).wf = true ∧
    (Instr.holdWrite gor (.engine 64) true).wf = false ∧ (Instr.cfgDigestRead gor (.bar0 0)).wf = false ∧ (Instr.unitEnterIdle (.slice 32)).wf = false ∧
    (Instr.unitEnterRetain (.tussock 28)).wf = false ∧ (Instr.unitEnterOff (.group 16)).wf = false ∧ (Instr.unitPowerUpDone (.quad 4)).wf = false ∧
    (Instr.unitDeclaredDead (.chGroup 8)).wf = false ∧ (Instr.healthTick [.eth, .sw 4]).wf = false := by decide
theorem test_wf_refuses_arrays : (Instr.sramBankFail (.l2 28) 0).wf = false ∧ (Instr.sramBankFail (.dir 32) 0).wf = false ∧ (Instr.sramBankFail (.ctx 16) 0).wf = false ∧
    (Instr.sramRepairDone (.fcache 4) 0 []).wf = false ∧ (Instr.sramRepairDone (.fcache 3) 0 []).wf = true := by decide
theorem test_wf_refuses_sizes : (Instr.targetRequest gor none 0 (.read 0) 0).wf = false ∧ (Instr.targetRequest gor none 0 (.fetch 65) 0).wf = false ∧
    (Instr.targetRequest gor none 0 (.write [] false) 0).wf = false ∧ (Instr.targetRequest gor none 0 (.atomic 3 0 0) 0).wf = false ∧
    (Instr.targetRequest gor none 0 (.read 64) 0).wf = true ∧ (Instr.csWindowWrite gor 0 0 (List.replicate 65 0)).wf = false ∧
    (Instr.ctxWindowWrite gor 0 0 (List.replicate 65 0) false).wf = false ∧ (Instr.wrpart 0x1C0 0 0 (List.replicate 65 0) .clean).wf = false ∧
    (Instr.pfcFrameReceive 0 0 (List.replicate 7 0)).wf = false := by decide
theorem test_wf_refuses_data : (Instr.outboundAccess gor 0 4 (some (List.replicate 4097 0)) false).wf = false ∧
    (Instr.pcieCompletionArrival 0 (some (List.replicate 4097 0)) false).wf = false ∧ (Instr.frameReceive 0 (List.replicate 16385 0)).wf = false ∧
    (Instr.cutThroughDispatch 0 (List.replicate 16385 0)).wf = false ∧ (Instr.frameTailArrival 0 (List.replicate 16385 0)).wf = false := by decide +kernel
theorem test_wf_refuses_segments : (Instr.gorseBoot [(0, [1, 2]), (1, [3])]).wf = false ∧ (Instr.pushGo 0 [] [(8, [1]), (4, [2])]).wf = false ∧
    (Instr.pushGo 0 [(8, [1]), (4, [2])] []).wf = false ∧ (Instr.pushWaitTimeout [(8, [1]), (8, [2])]).wf = false ∧
    (Instr.gorseBoot [(0, [1, 2]), (2, [3])]).wf = true := by decide

/-! ### Words, checks by published values, and single steps -/

/-- The table gives no row any bits, so no word spells a command and withFetchWord leaves the state. -/
theorem test_words_spell_nothing (n w : Nat) (s : State) : decodeTableWord n w = none ∧ s.withFetchWord n w = s := ⟨rfl, rfl⟩

def digits9 : List Byte := ascii [0x31, 0x32, 0x33, 0x34, 0x35, 0x36, 0x37, 0x38, 0x39]
/-- The check values of CRC-32 (the FCS), CRC-32C and the CRC-64 of ECMA-182 over the nine digits. -/
theorem test_crc_check_values : fcs digits9 = leBytes 4 0xCBF43926 ∧ flashCrc digits9 = 0xE3069283 ∧ crc64 digits9 = 0x6C40DF5F0B497347 := by decide +kernel
/-- The example of FIPS 180 for SHA-384. -/
theorem test_sha384_abc : ofBe (sha384 (ascii [0x61, 0x62, 0x63])) =
    0xCB00753F45A35E8BB5A03D699AC65007272C32AB0EDED1631A8B605A43FF5BED8086072BA1E7CC2358BAECA134C825A7 := by decide +kernel
/-- Test case 14 of the GCM specification: AES-256, key, nonce and plaintext block of zeros. -/
theorem test_gcm_case_14 : (let r := gcmSeal (List.replicate 32 0) (List.replicate 12 0) [] (List.replicate 16 0)
    ofBe r.1 = 0xCEA7403D4D606B6E074EC5D3BAF39D18 ∧ ofBe r.2 = 0xD0D1C8A799996BF0265B98B5D48AB919) := by decide +kernel

/-- The word of v`d` of thread 0 after the next microword of engine 0, with its flags Z, N, C. -/
def vAfter (c : Instr) (s : State) (d : Nat) : Option (Word × Bool × Bool × Bool) := match exec c s with
  | .next t => some ((t.thread 0).vreg d, (t.thread 0).z, (t.thread 0).n, (t.thread 0).c)
  | _ => none
/-- R94: ADD that wraps to zero sets Z and C; SUB of a greater word clears C and sets N. Source 1 is v1, source 2 is v2, DST is v4. -/
theorem test_alu_flags :
    vAfter (.opaAdd 0 .clean) (atMw engS { th 0xFFFFFFFF with v := regsOf [0xFFFFFFFF, 1] } { mw0 with opa := 2, setc := true }) 4 = some (0, true, false, true) ∧
    vAfter (.opaSub 0 .clean) (atMw engS { th 0 with v := regsOf [3, 5] } { mw0 with opa := 3, setc := true }) 4 = some (0xFFFFFFFE, false, true, false) := by
  decide +kernel
/-- R4: a write replaces the fields that can be written and no other bit, and its reply carries no error. -/
theorem test_register_write : (match exec (.registerWrite gor (BitVec.ofNat 48 (regAddr (.core 251) R.VEC_M 0 0)) 0xFFFFFFFF) sU with
    | .next t => (t.rd (.core 251) R.VEC_M, t.resp)
    | _ => (0, .ok 0)) = (BitVec.ofNat 32 (regWritable R.VEC_M), .ok 0) := by decide +kernel
/-- A step on an empty queue idles; with a command in front it runs it on the rest. -/
theorem test_step_front : (match step ({ State.reset with pending := [.modeSwap, .energyUpdate] } : State) with
    | .next t => t.pending
    | _ => []) = [.energyUpdate] := by decide +kernel

end Sys2Proof.Tests
end

/-! What a command comes to that leaves nothing to the trace, and the 64-bit register pairs of R25: which register latches which, and what
reads of LO and HI answer. -/

namespace Sys2Proof.Machine

variable {s t x : State} {r : Req} {u : UnitId} {g : Reg} {i j : Nat} {op : AccOp}

/-! ### Commands that leave nothing to the trace -/

/-- From `s` to `x` neither the queue, nor time, nor a register that switches trace, nor what triggers Gorse's recorder has changed. -/
structure State.Untraced (s x : State) : Prop where
  pending : x.pending = s.pending := by rfl
  mono : x.mono = s.mono := by rfl
  now : x.now = s.now := by rfl
  vfail : x.gorse.vfail = s.gorse.vfail := by rfl
  mcActive : (x.core 252).mcActive = (s.core 252).mcActive := by rfl
  regs : ∀ a d, traceReg a → mapGet d x.regs a = mapGet d s.regs a := by exact fun _ _ _ => rfl

/-- With nothing traced, a command whose meaning is `x` and leaves the trace alone answers `x` itself. -/
theorem State.Calm.does {c : Instr} {P : State → Prop} (hc : s.Calm) (he : exec c s = x.done s) (hx : s.Untraced x) (hP : P x) :
    s.Does c P := by
  refine ⟨x, ?_, hP⟩
  rw [he, State.done_self (State.tracing_congr hx.regs ▸ hc.1) hx.vfail hx.mcActive hx.pending hx.mono (hx.now ▸ hc.2)]

theorem State.Untraced.trans (h : s.Untraced t) (k : t.Untraced x) : s.Untraced x :=
  ⟨k.pending.trans h.pending, k.mono.trans h.mono, k.now.trans h.now, k.vfail.trans h.vfail, k.mcActive.trans h.mcActive,
    fun a d ha => (k.regs a d ha).trans (h.regs a d ha)⟩

/-! ### Register pairs (R25) -/

/-- Registers beside R25's pairs that a read latches, is answered from, or takes from a queue. -/
def latchingRegs : List Reg :=
  [R.CFG_DIGEST_LO, R.CFG_DIGEST_HI, R.ENERGY_LO, R.ENERGY_HI, R.MCLOG_POP, R.MCLOG_W, R.TXTS_POP, R.TXTS_TIME_LO, R.TXTS_TIME_HI, R.ER_CLAIM,
    R.VIOL_POP, R.KEY_OUT]

/-- Within the pairs `l` the registers of pair `p` name only each other, none of them is a register that latches otherwise, and LO is
no counter that clears on reading. -/
def pairApart (l : List (Reg × Reg)) (p : Reg × Reg) : Bool :=
  l.find? (fun q => q.1 = p.1) == some p && l.find? (fun q => q.2 = p.2) == some p && (l.find? (fun q => q.2 = p.1)).isNone &&
    p.1.rc == 0 && !latchingRegs.contains p.1 && !latchingRegs.contains p.2

theorem all_pairApart (u : UnitId) : (loHiOf u).all (pairApart (loHiOf u)) = true := by
  cases u <;> rfl

end Sys2Proof.Machine

namespace Sys2Proof.Machine

variable {s t x : State} {r : Req} {u : UnitId} {g lo hi : Reg} {i j : Nat} {op : AccOp}

theorem not_latching_of_mem (h : (lo, hi) ∈ loHiOf u) : lo ∉ latchingRegs ∧ hi ∉ latchingRegs := by
  have := List.all_eq_true.1 (all_pairApart u) _ h
  simp only [pairApart, Bool.and_eq_true, Bool.not_eq_true', List.contains_eq_mem, decide_eq_false_iff_not] at this
  exact ⟨this.1.2, this.2⟩

theorem find_pair (h : (lo, hi) ∈ loHiOf u) : (loHiOf u).find? (fun q => q.1 = lo) = some (lo, hi) ∧
    (loHiOf u).find? (fun q => q.2 = hi) = some (lo, hi) ∧ (loHiOf u).find? (fun q => q.2 = lo) = none ∧ lo.rc = 0 := by
  have := List.all_eq_true.1 (all_pairApart u) _ h
  simp only [pairApart, Bool.and_eq_true, beq_iff_eq, Option.isNone_iff_eq_none] at this
  obtain ⟨⟨⟨⟨⟨h1, h2⟩, h3⟩, h4⟩, -⟩, -⟩ := this
  exact ⟨h1, h2, h3, h4⟩

/-- R25: HI is answered from the latch that a read of LO leaves. -/
theorem latchOf_hi (h : (lo, hi) ∈ loHiOf u) : latchOf u hi i j = some (regAddr u lo i j, 0) := by
  have hn := (not_latching_of_mem h).2
  simp only [latchingRegs, List.mem_cons, not_or] at hn
  simp [latchOf, hn, (find_pair h).2.1]

/-- LO is answered from no latch. -/
theorem latchOf_lo (h : (lo, hi) ∈ loHiOf u) : latchOf u lo i j = none := by
  have hn := (not_latching_of_mem h).1
  simp only [latchingRegs, List.mem_cons, not_or] at hn
  cases u <;> simp_all [latchOf, find_pair h] <;> simp [loHiOf] at h

/-- R25: a read of LO latches HI. -/
theorem latched_lo (h : (lo, hi) ∈ loHiOf u) : latched u lo i j = [(hi, i, j)] := by
  have hn := (not_latching_of_mem h).1
  simp only [latchingRegs, List.mem_cons, not_or] at hn
  simp [latched, hn, (find_pair h).1]

/-- LO is no queue. -/
theorem popReg_lo (h : (lo, hi) ∈ loHiOf u) : s.popReg r u lo i = none := by
  have hn := (not_latching_of_mem h).1
  simp only [latchingRegs, List.mem_cons, not_or] at hn
  cases u <;> simp [State.popReg, hn]

end Sys2Proof.Machine

namespace Sys2Proof.Machine

variable {s t x : State} {r r' : Req} {u : UnitId} {g lo hi : Reg} {i j a : Nat} {op : AccOp} {src : Option UnitId}

theorem BusAt.eq_reg_of_ite_err {p : Prop} [Decidable p] {c : Nat} {y : State} {b : BusAt × State}
    (h : (if p then (.err c, y) else b) = (BusAt.reg u g i j, t)) : b = (.reg u g i j, t) := by
  split at h
  · cases h
  · exact h

/-- An access that reaches a register reaches the one the map and its unit name at the address (R21, R22). -/
theorem State.busAt_reg (h : s.busAt r a op src = (.reg u g i j, t)) : ∃ o, unitAt a = some (u, o) ∧ u.findReg o = some (g, i, j) := by
  unfold State.busAt at h
  split at h
  · cases h
  case h_2 v o hv =>
    replace h := BusAt.eq_reg_of_ite_err (BusAt.eq_reg_of_ite_err h)
    split at h
    · cases h
    · replace h := BusAt.eq_reg_of_ite_err (BusAt.eq_reg_of_ite_err h)
      rcases hf : v.findReg o with _ | ⟨g', i', j'⟩
      · split_ifs at h
        all_goals simp_all
      · split_ifs at h
        all_goals simp_all

/-- The map's registers lie below the BARs (R21, R27). -/
theorem unitAt_lt {o : Nat} (h : unitAt a = some (u, o)) : a < 2 ^ 40 := by
  unfold unitAt at h
  by_contra hn
  have h1 : ¬ a < 0x0E00000000 := by omega
  have h2 : ¬ a < 0x0E00900000 := by omega
  have h3 : ¬ (0x0E01000000 ≤ a ∧ a < 0x0E03000000) := by omega
  have h4 : ¬ (0x0F00800000 ≤ a ∧ a < 0x0F00810000) := by omega
  simp only [h1, h2, h3, h4, if_false] at h
  cases h

theorem State.Granted.lt (h : s.Granted r op u g i j) : regAddr u g i j < 2 ^ 40 := by
  obtain ⟨o, hu, -⟩ := State.busAt_reg h
  exact unitAt_lt hu

/-- A granted read is the register's read, and a granted write its write. -/
theorem State.busRead_granted (h : s.Granted r .read u g i j) : s.busRead r (regAddr u g i j) = s.regRead r u g i j := by
  simp only [State.busRead, show s.busAt r (regAddr u g i j) .read none = (.reg u g i j, s) from h]

theorem State.busWrite_granted (h : s.Granted r .write u g i j) (v : Word) (path : Option Nat) :
    s.busWrite r (regAddr u g i j) v none path = s.regWrite r u g i j v path := by
  simp only [State.busWrite, show s.busAt r (regAddr u g i j) .write none = (.reg u g i j, s) from h]

/-- A granted read answers the value that the register's read returns. -/
theorem State.anyRead_ok {v : Word} (h : s.Granted r .read u g i j) (hv : s.regRead r u g i j = (none, v, t)) :
    s.anyRead r (regAddr u g i j) = t.answer (.ok v) := by
  simp only [State.anyRead, if_pos h.lt, State.rdReq, State.busRead_granted h, hv]

/-- Or the error code with which the register refuses it. -/
theorem State.anyRead_err {c : Nat} {v : Word} (h : s.Granted r .read u g i j) (hv : s.regRead r u g i j = (some c, v, t)) :
    s.anyRead r (regAddr u g i j) = t.answer (.err c) := by
  simp only [State.anyRead, if_pos h.lt, State.rdReq, State.busRead_granted h, hv]

/-- R25: a read of LO answers its value and latches HI's for the reader. -/
theorem State.regRead_lo (h : (lo, hi) ∈ loHiOf u) (hr : r.debug = false) :
    s.regRead r u lo i j =
      (none, s.regValue u lo i j, { s with latches := mapInsert (regAddr u lo i j) ⟨r.master.toNat, [s.regValue u hi i j]⟩ s.latches }) := by
  have hk := (not_latching_of_mem h).1
  simp only [latchingRegs, List.mem_cons, not_or] at hk
  simp [State.regRead, latchOf_lo h, latched_lo h, popReg_lo h, (find_pair h).2.2.2, hk, State.quiet, hr, State.setLatch]

/-- R25: a read of HI answers the word latched for its master. -/
theorem State.regRead_hi {w : Word} (h : (lo, hi) ∈ loHiOf u) (hr : r.debug = false)
    (hl : s.latchWord false (regAddr u lo i j) r.master.toNat 0 = some w) : s.regRead r u hi i j = (none, w, s) := by
  simp [State.regRead, latchOf_hi h, State.quiet, hr, hl]

/-- And FORMAT to a master without the latch. -/
theorem State.regRead_hi_none (h : (lo, hi) ∈ loHiOf u) (hr : r.debug = false)
    (hl : s.latchWord false (regAddr u lo i j) r.master.toNat 0 = none) : s.regRead r u hi i j = (some 4, 0, s) := by
  simp [State.regRead, latchOf_hi h, State.quiet, hr, hl]

end Sys2Proof.Machine

namespace Sys2Proof.Machine

variable {s : State} {r : Req} {u : UnitId} {lo hi : Reg} {i j : Nat}

theorem exec_loReadLatch (r : Req) (a : BitVec 48) (s : State) : exec (.loReadLatch r a) s = (s.anyRead r a.toNat).done s := rfl

theorem exec_hiReadLatched (r : Req) (a : BitVec 48) (s : State) : exec (.hiReadLatched r a) s = (s.anyRead r a.toNat).done s := rfl

/-- The state after master `m` has read `v` from the LO register at `a`, which latches `w`. -/
def State.loRead (s : State) (m a : Nat) (v w : Word) : State :=
  { s with latches := mapInsert a ⟨m, [w]⟩ s.latches, resp := .ok v }

/-- R25: the latch answers its owner, and nobody else. -/
theorem State.latchWord_loRead (s : State) (m a n : Nat) (v w : Word) :
    (s.loRead m a v w).latchWord false a n 0 = if m = n then some w else none := by
  simp [State.latchWord, State.loRead, mapGet_mapInsert]

/-- Settles O30: LO latches HI for its reader, and the latch answers that master alone. -/
theorem registerPairs : Obligations.RegisterPairs := by
  intro s r r' al ah u lo hi i j hc hp hal hah hr hg
  have hlo : s.anyRead r al.toNat = s.loRead r.master.toNat (regAddr u lo i j) (s.regValue u lo i j) (s.regValue u hi i j) := by
    rw [hal, State.anyRead_ok hg (State.regRead_lo hp hr)]
    rfl
  have hl := s.latchWord_loRead r.master.toNat (regAddr u lo i j) (v := s.regValue u lo i j) (w := s.regValue u hi i j)
  generalize ht : s.loRead r.master.toNat (regAddr u lo i j) (s.regValue u lo i j) (s.regValue u hi i j) = t at hlo hl
  have hct : t.Calm := ht ▸ hc
  have hst : s.Untraced t := ht ▸ {}
  have hsame : t.resp = .ok (s.regValue u lo i j) ∧ t = { s with latches := t.latches, resp := t.resp } := ht ▸ ⟨rfl, rfl⟩
  refine hc.does (by rw [exec_loReadLatch, hlo]) hst ⟨hsame.1, hsame.2, fun hg' => ?_, fun hr' hne hg' => ?_⟩
  · refine hct.does (x := t.answer (.ok (s.regValue u hi i j))) ?_ {} rfl
    rw [exec_hiReadLatched, hah, State.anyRead_ok hg' (State.regRead_hi hp hr (by rw [hl, if_pos rfl]))]
  · have hm : r.master.toNat ≠ r'.master.toNat := fun h => hne (BitVec.eq_of_toNat_eq h.symm)
    refine hct.does (x := t.answer (.err 4)) ?_ {} rfl
    rw [exec_hiReadLatched, hah, State.anyRead_err hg' (State.regRead_hi_none hp hr' (by rw [hl, if_neg hm]))]

end Sys2Proof.Machine

/-! Requests to memory outside DRAM (R21, R60): what a write leaves there, what a read answers. -/

namespace Sys2Proof.Machine

variable {s t x : State} {a n f m : Nat} {b d : List Byte} {r : Req} {k : TReq} {src : Option UnitId}

/-! ### Little-endian words (R3) -/

@[simp] theorem length_leBytes (k n : Nat) : (leBytes k n).length = k := by
  induction k generalizing n with
  | zero => rfl
  | succ k ih => simp [leBytes, ih]

theorem ofLe_leBytes (k n : Nat) : ofLe (leBytes k n) = n % 256 ^ k := by
  induction k generalizing n with
  | zero => simp [leBytes, ofLe, Nat.mod_one]
  | succ k ih => rw [leBytes, ofLe, ih, pow_succ' 256 k, Nat.mod_mul (a := 256) (b := 256 ^ k), BitVec.toNat_ofNat]

theorem ofLe_leBytes_word (w : Word) : ofLe (leBytes 4 w.toNat) = w.toNat := by
  rw [ofLe_leBytes]
  exact Nat.mod_eq_of_lt w.isLt

theorem TRes.word_leBytes (w : Word) : TRes.word (leBytes 4 w.toNat) = w := by
  simp [TRes.word, List.take_of_length_le, ofLe_leBytes_word]

/-! ### Bytes at an address -/

@[simp] theorem State.length_bytes (s : State) (a n : Nat) : (s.bytes a n).length = n := by simp [State.bytes]

theorem State.bytes_add (s : State) (a k n : Nat) : s.bytes a (k + n) = s.bytes a k ++ s.bytes (a + k) n := by
  simp [State.bytes, List.range_add, Nat.add_assoc]

/-! ### What a write to memory outside DRAM leaves -/

/-- From `s` to `t` the bytes `d` were written at `a`, and memory, reservations and poison marks apart nothing changed. -/
structure State.Wrote (s : State) (a : Nat) (d : List Byte) (t : State) : Prop where
  byte : ∀ y, t.byte y = if a ≤ y ∧ y < a + d.length then d.getD (y - a) 0 else s.byte y
  memOk : s.MemOk → t.MemOk
  regs : t.regs = s.regs
  units : t.units = s.units
  mode : t.mode = s.mode
  untraced : s.Untraced t

theorem State.Wrote.nil (s : State) (a : Nat) : s.Wrote a [] s :=
  ⟨fun y => by simp, id, rfl, rfl, rfl, {}⟩

/-- A run of bytes is written piece by piece. -/
theorem State.Wrote.append (h : s.Wrote a b t) (hn : b.length = n) (h' : t.Wrote (a + n) d x) : s.Wrote a (b ++ d) x where
  byte y := by
    subst hn
    rw [h'.byte, h.byte, List.length_append]
    by_cases hy : y < a + b.length
    · rw [if_neg (by omega)]
      by_cases ha : a ≤ y
      · rw [if_pos ⟨ha, hy⟩, if_pos (by omega), List.getD_append _ _ _ _ (by omega)]
      · rw [if_neg (by omega), if_neg (by omega)]
    · by_cases hd : y < a + b.length + d.length
      · rw [if_pos (by omega), if_pos (by omega), List.getD_append_right _ _ _ _ (by omega), Nat.sub_add_eq]
      · rw [if_neg (by omega), if_neg (by omega), if_neg (by omega)]
  memOk := h'.memOk ∘ h.memOk
  regs := h'.regs.trans h.regs
  units := h'.units.trans h.units
  mode := h'.mode.trans h.mode
  untraced := h.untraced.trans h'.untraced

theorem State.setBytes_eq (s : State) (a : Nat) (d : List Byte) : ∃ M, s.setBytes a d = { s with mem := { s.mem with mem := M } } := by
  induction d generalizing s a with
  | nil => exact ⟨s.mem.mem, rfl⟩
  | cons b r ih =>
    obtain ⟨M, hM⟩ := ih (s.setByte a b) (a + 1)
    exact ⟨M, hM⟩

theorem State.clearGran_eq (s : State) (l : Nat) : ∃ B, s.clearGran l = { s with ling := { s.ling with banks := B } } := by
  unfold State.clearGran
  generalize s.ling.banks.map (·.1) = ks
  induction ks generalizing s with
  | nil => exact ⟨s.ling.banks, rfl⟩
  | cons k ks ih =>
    simp only [List.foldl_cons]
    split_ifs
    · obtain ⟨B, hB⟩ := ih (s.setBank (k / 8) (k % 8) { s.bank (k / 8) (k % 8) with ldxGran := none })
      exact ⟨B, hB⟩
    · exact ih s

theorem State.wrote_setBytes (s : State) (a : Nat) (d : List Byte) : s.Wrote a d (s.setBytes a d) := by
  have hb := s.byte_setBytes a d
  have hm := Memory.wf_setBytes s a d
  obtain ⟨M, hM⟩ := s.setBytes_eq a d
  rw [hM] at hb hm ⊢
  exact ⟨hb, hm, rfl, rfl, rfl, {}⟩

theorem State.Wrote.setPoison (h : s.Wrote a d t) (y : Nat) (p : Bool) : s.Wrote a d (t.setPoison y p) :=
  ⟨h.byte, h.memOk, h.regs, h.units, h.mode, h.untraced.trans {}⟩

theorem State.Wrote.clearGran (h : s.Wrote a d t) (l : Nat) : s.Wrote a d (t.clearGran l) := by
  obtain ⟨B, hB⟩ := t.clearGran_eq l
  rw [hB]
  exact ⟨h.byte, h.memOk, h.regs, h.units, h.mode, h.untraced.trans {}⟩

/-- A write outside DRAM leaves its bytes, line by line. -/
theorem State.wrote_memStore (ha : 0xC00000000 ≤ a) (hf : d.length ≤ 64 * f - a % 64) : s.Wrote a d (s.memStore m f a d false) := by
  induction f generalizing s a d with
  | zero => simp_all [State.memStore, State.Wrote.nil]
  | succ f ih =>
    by_cases hd : d = []
    · exact hd ▸ .nil s a
    set k := min d.length (64 - a % 64) with hk
    have hline := s.wrote_setBytes a (d.take k)
    generalize ht : s.setBytes a (d.take k) = t at hline
    have hrest {x : State} (hx : s.Wrote a (d.take k) x) : s.Wrote a d (x.memStore m f (a + k) (d.drop k) false) := by
      have := hx.append (by simp; omega) (ih (s := x) (a := a + k) (d := d.drop k) (by omega) (by simp; omega))
      rwa [List.take_append_drop] at this
    simp only [State.memStore, if_neg hd, if_neg (Nat.not_lt.2 ha), ← hk, ht, Bool.false_eq_true, if_false]
    split_ifs
    · exact hrest ((hline.setPoison _ _).clearGran _)
    · exact hrest (hline.clearGran _)
    · exact hrest (hline.setPoison _ _)
    · exact hrest hline

/-- A read outside DRAM answers the bytes and changes nothing. -/
theorem State.memBytes_high (ha : 0xC00000000 ≤ a) (hf : n ≤ 64 * f - a % 64) : ∃ p, s.memBytes f a n = ((s.bytes a n, p), s) := by
  induction f generalizing a n with
  | zero => exact ⟨false, by simp_all [State.memBytes, State.bytes]⟩
  | succ f ih =>
    rw [State.memBytes]
    split_ifs with hn hdram
    · exact ⟨false, by simp [hn, State.bytes]⟩
    · omega
    · set k := min n (64 - a % 64) with hk
      obtain ⟨p, hp⟩ := ih (a := a + k) (n := n - k) (by omega) (by omega)
      refine ⟨s.poisoned a || p, ?_⟩
      simp only [hp, ← State.bytes_add, show k + (n - k) = n by omega]

end Sys2Proof.Machine

namespace Sys2Proof.Machine

variable {s t x : State} {a n f m i o : Nat} {b d : List Byte} {r : Req} {k : TReq} {src : Option UnitId}

/-! ### Requests at their target (R21, R60) -/

/-- A request that its target answers with bytes records their low word. -/
theorem State.request_data {p : Bool} {tag : Nat} (h : s.reqTarget r src a k = (.data d p, t)) :
    s.request r src a k tag = t.answer (.ok (TRes.word d)) := by
  simp only [State.request, h]

/-- A request that its target refuses records the code. -/
theorem State.request_err {c tag : Nat} (h : s.reqTarget r src a k = (.err c, t)) : s.request r src a k tag = t.answer (.err c) := by
  simp only [State.request, h]

/-- With nothing traced, a request leaves what `State.request` makes. -/
theorem State.Calm.does_request {src : Option (Fin 252)} {a : BitVec 40} {tag : Nat} {P : State → Prop} (hc : s.Calm)
    (h : s.request r (src.map (fun p => .core p)) a.toNat k tag = x) (hx : s.Untraced x) (hP : P x) :
    s.Does (.targetRequest r src a k tag) P :=
  hc.does (congrArg (State.done · s) h) hx hP

/-- R21: nothing answers where the map backs nothing. -/
theorem State.reqTarget_nowhere (h : s.place a = .nowhere) : s.reqTarget r src a k = (.err 0, s) := by
  simp only [State.reqTarget, h]

/-- Scratch stands above DRAM in the map (R21). -/
theorem State.le_of_place_scratch (h : s.place a = .scratch i o) : 0xC00000000 ≤ a := by
  by_contra hn
  rw [State.place, if_pos (Nat.lt_of_not_le hn)] at h
  cases h

/-- A request from router `b`'s master reaches its target (R352). -/
def State.Reaches (s : State) (r : Req) (a : Nat) : Prop :=
  ∀ b, s.masterRouter r.master.toNat = some b → s.routed b (s.targetUnit a).router = true

/-- A request to scratch that is routed and permitted comes to memory. -/
theorem State.reqTarget_scratch (hp : s.place a = .scratch i o) (hr : s.Reaches r a) (hg : s.guardAcc a r (TReq.op k) src = (none, s)) :
    s.reqTarget r src a k = s.memTarget r a k := by
  rcases hm : s.masterRouter r.master.toNat with _ | b
  · simp [State.reqTarget, hp, hg, hm]
  · simp [State.reqTarget, hp, hg, hm, hr b hm]

/-- Scratch answers a read with its bytes. -/
theorem State.memTarget_read (hp : s.place a = .scratch i o) (hd : s.memDown a = none) (hk : k = .read n ∨ k = .fetch n) :
    ∃ p, s.memTarget r a k = (.data (s.bytes a n) p, s) := by
  obtain ⟨p, h⟩ := s.memBytes_high (a := a) (n := n) (f := n / 64 + 2) (State.le_of_place_scratch hp) (by omega)
  refine ⟨p, ?_⟩
  rcases hk with rfl | rfl <;> simp [State.memTarget, hd, hp, h]

/-- Scratch takes a write. -/
theorem State.memTarget_write (hp : s.place a = .scratch i o) (hd : s.memDown a = none) :
    ∃ t, s.memTarget r a (.write d false) = (.data [] false, t) ∧ s.Wrote a d t :=
  ⟨s.memStore r.master.toNat (d.length / 64 + 2) a d false, by simp only [State.memTarget, hd, hp, reduceCtorEq, false_and, if_false],
    State.wrote_memStore (State.le_of_place_scratch hp) (by omega)⟩

/-- Scratch performs an atomic operation on an aligned word. -/
theorem State.memTarget_atomic {op : Nat} {y z old : Word} (hp : s.place a = .scratch i o) (hd : s.memDown a = none) (ha : a % 4 = 0)
    (ho : old = BitVec.ofNat 32 (s.leAt a 4)) :
    ∃ p t, s.memTarget r a (.atomic op y z) = (.data (leBytes 4 old.toNat) p, t) ∧
      s.Wrote a (leBytes 4 (atomResult op old y z).toNat) t := by
  have hle := State.le_of_place_scratch hp
  exact ⟨s.poisoned a, s.memStore r.master.toNat 2 a (leBytes 4 (atomResult op old y z).toNat) false,
    by simp only [State.memTarget, hd, hp, reduceCtorEq, false_and, if_false, ha, ne_eq, not_true, Nat.not_lt.2 hle, ← ho],
    State.wrote_memStore hle (by simp; omega)⟩

/-! ### What a request leaves -/

theorem State.Wrote.bytes (h : s.Wrote a d t) : t.bytes a d.length = d := by
  refine List.ext_getElem (by simp) fun i hi _ => ?_
  have : i < d.length := by simpa using hi
  simp [State.bytes, h.byte, this]

theorem State.Wrote.byte_of_apart {y : Nat} (h : s.Wrote a d t) (hy : y < a ∨ a + d.length ≤ y) : t.byte y = s.byte y := by
  rw [h.byte, if_neg (by omega)]

theorem State.Wrote.leAt_word {w : Word} (h : s.Wrote a (leBytes 4 w.toNat) t) : t.leAt a 4 = w.toNat := by
  have := h.bytes
  rw [length_leBytes] at this
  rw [State.leAt, this, ofLe_leBytes_word]

/-- Settles O40: requests to scratch act on its bytes, and where nothing is backed the answer is code 0. -/
theorem targetRequests : Obligations.TargetRequests := by
  intro s r src a k tag hc
  refine ⟨fun hp => ?_, fun ⟨i, o, hp⟩ hr hg hd => ⟨fun n hk => ?_, ?_, ?_⟩⟩
  · exact hc.does_request (State.request_err (State.reqTarget_nowhere hp)) {} rfl
  · obtain ⟨p, h⟩ := State.memTarget_read (r := r) hp hd hk
    rw [← State.reqTarget_scratch hp hr hg] at h
    exact hc.does_request (State.request_data h) {} rfl
  · rintro d rfl
    obtain ⟨t, h, hw⟩ := State.memTarget_write (r := r) (d := d) hp hd
    rw [← State.reqTarget_scratch hp hr hg] at h
    exact hc.does_request (State.request_data h) (hw.untraced.trans {})
      ⟨rfl, hw.bytes, fun y => hw.byte_of_apart, hw.memOk, hw.regs, hw.units, hw.mode⟩
  · rintro op y z - rfl ha
    obtain ⟨p, t, h, hw⟩ := State.memTarget_atomic (r := r) (op := op) (y := y) (z := z) hp hd ha rfl
    rw [← State.reqTarget_scratch hp hr hg] at h
    have hreq := State.request_data (tag := tag) h
    rw [TRes.word_leBytes] at hreq
    exact hc.does_request hreq (hw.untraced.trans {})
      ⟨rfl, hw.leAt_word, fun w hw' => hw.byte_of_apart (by simpa using hw'), hw.regs⟩

end Sys2Proof.Machine

/-! Writes of registers that do no more than change their fields, and the accesses of the PCIe complex (R4, R28, R29). -/

namespace Sys2Proof.Machine

variable {s t x : State} {r : Req} {u : UnitId} {g : Reg} {i j a : Nat} {v : Word} {path : Option Nat}

/-! ### Registers that switch trace -/

/-- The map finds the registers that switch trace in Hedgerow and in the tussocks' units. -/
theorem traceReg.find (h : traceReg a) : ∃ u g i j o, unitAt a = some (u, o) ∧ u.findReg o = some (g, i, j) ∧
    (u = .hedgerow ∨ ∃ t, u = .tussock t ∧ g = R.FR_CFG) := by
  have hhr : ∀ k < 16, unitAt (regAddr .hedgerow R.HR_SRC_EN k 0) = some (.hedgerow, R.HR_SRC_EN.off + k * R.HR_SRC_EN.s1) ∧
      UnitId.hedgerow.findReg (R.HR_SRC_EN.off + k * R.HR_SRC_EN.s1) = some (R.HR_SRC_EN, k, 0) := by decide +kernel
  have hfr : ∀ t ∈ [6, 13, 20, 27], unitAt (regAddr (.tussock t) R.FR_CFG 0 0) = some (.tussock t, R.FR_CFG.off) ∧
      (UnitId.tussock t).findReg R.FR_CFG.off = some (R.FR_CFG, 0, 0) := by decide +kernel
  rcases h with ⟨k, hk, rfl⟩ | ⟨t, ht, rfl⟩
  · exact ⟨_, _, _, _, _, (hhr k hk).1, (hhr k hk).2, .inl rfl⟩
  · exact ⟨_, _, _, _, _, (hfr t ht).1, (hfr t ht).2, .inr ⟨t, rfl, rfl⟩⟩

/-- No access to another unit's register reaches one of them. -/
theorem State.Granted.not_traceReg {op : AccOp} (h : s.Granted r op u g i j) (hu : u ≠ .hedgerow) (hg : ∀ t, u = .tussock t → g ≠ R.FR_CFG) :
    ¬ traceReg (regAddr u g i j) := by
  intro htr
  obtain ⟨o, hat, hf⟩ := State.busAt_reg h
  obtain ⟨u', g', i', j', o', hat', hf', hk⟩ := htr.find
  rw [hat] at hat'
  obtain ⟨rfl, rfl⟩ : u = u' ∧ o = o' := by simpa using hat'
  rw [hf] at hf'
  obtain ⟨rfl, -, -⟩ : g = g' ∧ i = i' ∧ j = j' := by simpa using hf'
  rcases hk with hk | ⟨t, ht, hk⟩
  · exact hu hk
  · exact hg t ht hk

/-! ### The fields of a register (R4, R19) -/

theorem State.cfgEvent_eq (s : State) (u : UnitId) (w : Word) : ∃ U, s.cfgEvent u w = { s with units := U } := by
  unfold State.cfgEvent
  generalize u.upward = us
  induction us generalizing s with
  | nil => exact ⟨s.units, rfl⟩
  | cons a us ih =>
    obtain ⟨U, hU⟩ := ih (s.setUnit a { s.unit a with cfg := ((s.unit a).cfg + 1) % 2 ^ 32, writer := w })
    exact ⟨U, hU⟩

/-- What an accepted write leaves before the register's own effects: the fields and the configuration event. -/
def State.fieldsWritten (s : State) (r : Req) (u : UnitId) (g : Reg) (i j : Nat) (v : Word) : State :=
  let old := s.rd u g i j
  let s := if regWritten g old v = old then s else s.wr u g (regWritten g old v) i j
  if u.cls = 0 then s else s.cfgEvent u (Req.writer r)

theorem State.fieldsWritten_eq (s : State) (r : Req) (u : UnitId) (g : Reg) (i j : Nat) (v : Word) : ∃ M U,
    s.fieldsWritten r u g i j v = { s with regs := M, units := U } ∧ (s.fieldsWritten r u g i j v).rd u g i j = regWritten g (s.rd u g i j) v ∧
      ∀ a d, a ≠ regAddr u g i j → mapGet d M a = mapGet d s.regs a := by
  have hwr : ∃ M, (if regWritten g (s.rd u g i j) v = s.rd u g i j then s else s.wr u g (regWritten g (s.rd u g i j) v) i j) =
      { s with regs := M } ∧ State.rd { s with regs := M } u g i j = regWritten g (s.rd u g i j) v ∧
      ∀ a d, a ≠ regAddr u g i j → mapGet d M a = mapGet d s.regs a := by
    split_ifs with h
    · exact ⟨s.regs, rfl, h.symm, fun _ _ _ => rfl⟩
    · exact ⟨_, rfl, s.rd_wr_self u g _ i j, fun a d ha => mapGet_mapSet_ne _ _ _ _ ha⟩
  obtain ⟨M, hM, hrd, hne⟩ := hwr
  simp only [State.fieldsWritten, hM]
  split_ifs
  · exact ⟨M, s.units, rfl, hrd, hne⟩
  · obtain ⟨U, hU⟩ := State.cfgEvent_eq { s with regs := M } u (Req.writer r)
    rw [hU]
    exact ⟨M, U, rfl, hrd, hne⟩

theorem State.fieldsWritten_untraced (h : ¬ traceReg (regAddr u g i j)) : s.Untraced (s.fieldsWritten r u g i j v) := by
  obtain ⟨M, U, he, -, hne⟩ := s.fieldsWritten_eq r u g i j v
  rw [he]
  exact { regs := fun a d ha => hne a d (fun e => h (e ▸ ha)) }

/-- A write that is neither refused nor discarded leaves the fields as R4 says, and then what the register itself does. -/
theorem State.regWrite_ok (hw : regWritable g ≠ 0) (hg : 0x100 ≤ g.off) (hr : s.wrRefuse r u g i (s.rd u g i j) v path = none)
    (hd : s.wrDiscard u g i v = false) (hu : u ≠ .dap) (he : u ≠ .eth) (hc : ∀ p, u ≠ .core p) :
    s.regWrite r u g i j v path = (none, (s.fieldsWritten r u g i j v).wrPost r u g i (s.rd u g i j) v) := by
  have hs : ∀ z : State, z.shadowWrite u g i j = z := by
    intro z
    unfold State.shadowWrite
    split
    · exact absurd rfl (hc _)
    · rfl
  simp [State.regWrite, hw, Nat.not_lt.2 hg, hr, hd, hu, he, hs, State.fieldsWritten]

end Sys2Proof.Machine

namespace Sys2Proof.Machine

variable {s t x : State} {r : Req} {u : UnitId} {g : Reg} {i j a n : Nat} {v old : Word} {path : Option Nat}

/-! ### Plain registers -/

theorem ne_dap_of_plain (h : plainReg u g = true) : u ≠ .dap := fun e => by simp [e, plainReg] at h

theorem ne_eth_of_plain (h : plainReg u g = true) : u ≠ .eth := fun e => by simp [e, plainReg] at h

theorem ne_hedgerow_of_plain (h : plainReg u g = true) : u ≠ .hedgerow := fun e => by simp [e, plainReg] at h

theorem ne_frCfg_of_plain (h : plainReg u g = true) (k : Nat) (hu : u = .tussock k) : g ≠ R.FR_CFG := by
  subst hu
  simp only [plainReg, List.contains_cons, Bool.not_eq_true', Bool.or_eq_false_iff, beq_eq_false_iff_ne] at h
  exact h.2.2.2.1

/-- A plain register refuses no write. -/
theorem State.wrRefuse_plain (h : plainReg u g = true) : s.wrRefuse r u g i old v path = none := by
  cases u <;> simp_all [plainReg, State.wrRefuse]

/-- It discards none. -/
theorem State.wrDiscard_plain (h : plainReg u g = true) : s.wrDiscard u g i v = false := by
  cases u with
  | slice k => cases k <;> simp_all [plainReg, State.wrDiscard]
  | engine e => simp_all [plainReg, State.wrDiscard]
  | _ => rfl

/-- And a write has no effect beyond its fields. -/
theorem State.wrPost_plain (h : plainReg u g = true) (hc : ∀ p, u ≠ .core p) : s.wrPost r u g i old v = s := by
  cases u with
  | slice k => cases k <;> simp_all [plainReg, State.wrPost]
  | core p => exact absurd rfl (hc p)
  | _ => simp_all [plainReg, State.wrPost]

/-- A write of a plain register changes its fields. -/
theorem State.regWrite_plain (h : plainReg u g = true) (hc : ∀ p, u ≠ .core p) (hw : regWritable g ≠ 0) (hg : 0x100 ≤ g.off) :
    s.regWrite r u g i j v path = (none, s.fieldsWritten r u g i j v) := by
  rw [State.regWrite_ok hw hg (State.wrRefuse_plain h) (State.wrDiscard_plain h) (ne_dap_of_plain h) (ne_eth_of_plain h) hc,
    State.wrPost_plain h hc]

/-! ### BAR4 (R28) -/

theorem barReq_eq (l : Fin 2) : barReq l = { master := 0x180 + BitVec.ofNat 12 l, priv := 1, epoch := 0 } := by
  fin_cases l <;> rfl

theorem State.bar4Write_down {l o : Nat} (h : ¬ (s.linkUsed l = true ∧ (s.pf l).up = true)) : s.bar4Write l o v = s := if_neg h

theorem State.bar4Read_down {l o : Nat} (h : ¬ (s.linkUsed l = true ∧ (s.pf l).up = true)) : s.bar4Read l o = s := if_neg h

/-- A read that the register's unit answers. -/
theorem State.bar4Read_ok {l o : Nat} (h : s.linkUsed l = true ∧ (s.pf l).up = true) (hb : s.busRead (barReq l) (bar4Addr o) = (none, v, t)) :
    s.bar4Read l o = t.answer (.ok v) := by
  simp [State.bar4Read, h, hb]

/-- A read that gets an error completes with Completer Abort. -/
theorem State.bar4Read_err {l o c : Nat} (h : s.linkUsed l = true ∧ (s.pf l).up = true)
    (hb : s.busRead (barReq l) (bar4Addr o) = (some c, v, t)) : s.bar4Read l o = (t.answer (.err c)).send (.abort l) := by
  simp [State.bar4Read, h, hb]

theorem State.bar4Write_up {l o : Nat} {e : Option Nat} (h : s.linkUsed l = true ∧ (s.pf l).up = true)
    (hb : s.busWrite (barReq l) (bar4Addr o) v none (some 1) = (e, t)) : s.bar4Write l o v = t.answer .none := by
  simp [State.bar4Write, h, hb]

/-- FAULT_MASK of a unit is read as it stands (R16). -/
theorem State.regRead_faultMask (h : s.Granted r .read u R.FAULT_MASK 0 0) :
    s.regRead r u R.FAULT_MASK 0 0 = (none, s.rd u R.FAULT_MASK, s) := by
  have hu : u.cls ≠ 0 := by
    cases u with
    | bar0 l =>
      have := h.lt
      simp only [regAddr, UnitId.base] at this
      omega
    | _ => simp [UnitId.cls]
  have hv : s.regValue u R.FAULT_MASK 0 0 = s.rd u R.FAULT_MASK := by
    simp [State.regValue, hu, show R.FAULT_MASK.off = 0x1C from rfl, show R.FAULT_MASK.writeOnly = false from rfl]
  have hl : latchOf u R.FAULT_MASK 0 0 = none := by cases u <;> rfl
  have hn : latched u R.FAULT_MASK 0 0 = [] := by cases u <;> rfl
  have hp : s.popReg r u R.FAULT_MASK 0 = none := by cases u <;> rfl
  have hk : R.FAULT_MASK ≠ R.KEY_OUT ∧ R.FAULT_MASK ≠ R.CFG_DIGEST_LO ∧ R.FAULT_MASK.rc = 0 := by decide
  simp [State.regRead, hl, hn, hp, hv, hk]

theorem State.busRead_unmapped (h : unitAt a = none) : s.busRead r a = (some 0, 0, s) := by
  simp [State.busRead, State.busAt, h]

/-! ### The outbound window (R29) -/

/-- A write through the window goes to the host. -/
theorem State.outbound_write {d : List Byte} {p : Bool} (hp : s.place a = .outbound) (hg : s.guardAcc a r .write = (none, s)) (hu : s.obUp = true) :
    s.outbound r a n (some d) p = (s.send (.pcieWrite s.obLink (s.obAddr a) d none p)).answer (.ok 0) := by
  simp [State.outbound, hp, hg, hu]

/-- And gets TARGET_DOWN where the window does not answer. -/
theorem State.outbound_down {d : List Byte} {p : Bool} (hp : s.place a = .outbound) (hg : s.guardAcc a r .write = (none, s)) (hu : s.obUp = false) :
    s.outbound r a n (some d) p = s.answer (.err 5) := by
  simp [State.outbound, hp, hg, hu]

end Sys2Proof.Machine

namespace Sys2Proof.Machine

variable {s t x : State} {r : Req} {u : UnitId} {g : Reg} {i j a n : Nat} {v old : Word} {path : Option Nat}

/-- An accepted write of one of a unit's own registers answers 0 (R4). -/
theorem State.wrTo_ok (hg : s.Granted r .write u g i j) (hw : s.regWrite r u g i j v none = (none, t)) : s.wrTo r u g v i j = t.answer (.ok 0) := by
  simp only [State.wrTo, State.wrReq, State.busWrite_granted hg, hw]

/-- R29: a write of OB_BASE_HI takes the whole base. -/
theorem State.regWrite_obBaseHi : s.regWrite r .pcie R.OB_BASE_HI 0 0 v path =
    (none, (s.fieldsWritten r .pcie R.OB_BASE_HI 0 0 v).pciePost R.OB_BASE_HI v) :=
  State.regWrite_ok (by decide) (by decide) rfl rfl (by simp) (by simp) (by simp)

theorem State.obBase_fieldsWritten :
    ((s.fieldsWritten r .pcie R.OB_BASE_HI 0 0 v).pciePost R.OB_BASE_HI v).pcie.obBase = v.toNat * 2 ^ 32 + (s.rd .pcie R.OB_BASE_LO).toNat := by
  obtain ⟨M, U, he, -, hne⟩ := s.fieldsWritten_eq r .pcie R.OB_BASE_HI 0 0 v
  have hlo : State.rd { s with regs := M, units := U } .pcie R.OB_BASE_LO = s.rd .pcie R.OB_BASE_LO := hne _ _ (by decide)
  rw [he]
  simp only [State.pciePost, if_true, hlo, Nat.add_comm, Nat.mul_comm]

theorem State.untraced_pciePost : s.Untraced (s.pciePost g v) := by
  unfold State.pciePost
  split_ifs
  · exact {}
  · exact {}
  · exact {}

theorem State.untraced_answer {x : Resp} : s.Untraced (s.answer x) := {}

/-! ### Reads through the window -/

@[simp] theorem State.job_setJob (s : State) (j : Nat) (x : Option Job) : (s.setJob j x).job j = x := mapGet_mapSet_self ..

@[simp] theorem State.tag_setTag (s : State) (t : Nat) (x : Option Tag) : (s.setTag t x).tag t = x := mapGet_mapSet_self ..

theorem State.job_addJob (s : State) (x : Job) : (s.addJob x).2.job s.pcie.nextJob = some x := State.job_setJob s _ (some x)

/-- An access that does not cross a 4 KiB boundary is one piece (R64). -/
theorem pagePieces_one {f off : Nat} (hn : 0 < n) (h : (a + off) % 4096 + n ≤ 4096) : pagePieces (f + 2) a off n = [(off, n)] := by
  simp [pagePieces, hn.ne', Nat.min_eq_left (show n ≤ 4096 - (a + off) % 4096 by omega)]

theorem Job.pieces_one {x : Job} (hn : 0 < x.len) (h : x.addr % 4096 + x.len ≤ 4096) : x.pieces = [(0, x.len)] :=
  pagePieces_one hn (by simpa using h)

/-- An access that no tenant interface makes is not translated. -/
theorem State.xlate_of_ti_none {x : Job} (h : x.ti = none) : s.xlate x = .done (x.pieces.map (fun p => (p.1, x.addr + p.1))) := by
  simp only [State.xlate, h]

theorem State.untraced_setTag {t : Nat} {x : Option Tag} : s.Untraced (s.setTag t x) := {}

theorem State.untraced_setJob {x : Option Job} : s.Untraced (s.setJob j x) := {}

theorem State.untraced_addJob {x : Job} : s.Untraced (s.addJob x).2 := {}

theorem State.untraced_newTag {x : Tag} : s.Untraced (s.newTag x).2 := {}

theorem State.untraced_send {o : Out} : s.Untraced (s.send o) := {}

/-- The state in which job `j`'s one piece has been sent to be read at host address `ta`, with the next tag (R64). -/
def State.readSent (s : State) (j : Nat) (x : Job) (ta : Nat) : State :=
  let y := s.setJob j (some { x with write := false, started := true, xl := [(0, ta)], open_ := 1, data := List.replicate x.len 0 })
  let z := y.newTag { link := x.link, job := some j, off := 0, len := x.len }
  z.2.send (.pcieRead x.link ta x.len (z.2.jobPasid x) z.1)

theorem State.untraced_readSent {x : Job} {ta : Nat} : s.Untraced (s.readSent j x ta) :=
  State.untraced_setJob.trans (State.untraced_newTag.trans State.untraced_send)

@[simp] theorem State.newTag_mem (s : State) (x : Tag) : (s.newTag x).2.mem = s.mem := rfl

@[simp] theorem State.newTag_regs (s : State) (x : Tag) : (s.newTag x).2.regs = s.regs := rfl

theorem State.out_readSent (s : State) (j : Nat) (x : Job) (ta : Nat) :
    (s.readSent j x ta).out = .pcieRead x.link ta x.len (s.jobPasid x) s.pcie.nextTag :: s.out := rfl

theorem State.atc_readSent (s : State) (j : Nat) (x : Job) (ta : Nat) : (s.readSent j x ta).pcie.atc = s.pcie.atc := rfl

theorem State.mem_readSent (s : State) (j : Nat) (x : Job) (ta : Nat) : (s.readSent j x ta).mem = s.mem := by
  simp only [State.readSent, State.send_mem, State.newTag_mem, State.setJob_mem]

theorem State.regs_readSent (s : State) (j : Nat) (x : Job) (ta : Nat) : (s.readSent j x ta).regs = s.regs := by
  simp only [State.readSent, State.send_regs, State.newTag_regs, State.setJob_regs]

/-- A translated read of one piece is sent (R155). -/
theorem State.jobStep_read {x : Job} {ta : Nat} (hj : s.job j = some x) (hs : x.started = false) (hl : s.linkReady x.link = true)
    (hone : x.pieces = [(0, x.len)]) (hx : s.xlate x = .done [(0, ta)]) (hw : x.write = false) (ht : s.tagsUsed x.link < s.tagLimit) :
    s.jobStep j = (none, s.readSent j x ta) := by
  simp only [State.jobStep, hj, hs, hl, hx, hw, hone, Bool.false_eq_true, if_false, Bool.not_true, List.length_singleton,
    show ¬ s.tagLimit < s.tagsUsed x.link + 1 by omega, List.zip_cons_cons, List.zip_nil_right, List.foldl_cons, List.foldl_nil]
  rfl

/-- A job whose translation is missing asks for it, with the next tag (R155). -/
theorem State.jobStep_miss {x : Job} {page : Nat} (hj : s.job j = some x) (hs : x.started = false) (hl : s.linkReady x.link = true)
    (hx : s.xlate x = .miss page) (ht : s.tagsUsed x.link < s.tagLimit) :
    s.jobStep j = (none, (s.newTag { link := x.link, job := some j, page := some page }).2.send (.pcieMsg x.link 2 s.pcie.nextTag)) := by
  simp only [State.jobStep, hj, hs, hl, hx, Bool.false_eq_true, if_false, Bool.not_true, Nat.not_le.2 ht]
  rfl

/-- A permitted read through the window is sent to the host. -/
theorem State.outbound_read {p : Bool} (hp : s.place a = .outbound) (hg : s.guardAcc a r .read = (none, s)) (hu : s.obUp = true) (hn : 0 < n)
    (hpage : s.obAddr a % 4096 + n ≤ 4096) (ht : s.tagsUsed s.obLink < s.tagLimit) :
    ∃ t, s.outbound r a n none p = t ∧ s.Untraced t ∧ t.out = .pcieRead s.obLink (s.obAddr a) n none s.pcie.nextTag :: s.out ∧
      t.mem = s.mem ∧ t.regs = s.regs := by
  have hl : s.linkReady s.obLink = true := by
    simp only [State.obUp, Bool.and_eq_true] at hu
    exact hu.1.2
  let x : Job := { what := .outbound r.master.toNat, link := s.obLink, ti := none, addr := s.obAddr a, len := n, data := [], write := false }
  have hone : x.pieces = [(0, x.len)] := Job.pieces_one hn hpage
  have hx : (s.addJob x).2.xlate x = .done [(0, s.obAddr a)] := by
    simp [State.xlate_of_ti_none (x := x) rfl, hone, x]
  have hstep := State.jobStep_read (s := (s.addJob x).2) (j := s.pcie.nextJob) (s.job_addJob x) rfl hl hone hx rfl ht
  refine ⟨(s.addJob x).2.readSent s.pcie.nextJob x (s.obAddr a), ?_, State.untraced_addJob.trans State.untraced_readSent,
    State.out_readSent .., State.mem_readSent .., State.regs_readSent ..⟩
  simp only [State.outbound, hp, hg, hu, ne_eq, not_true, if_false, Option.isSome_none, Bool.false_eq_true, Bool.not_true]
  exact congrArg Prod.snd hstep

/-- Settles O41: the window's base, its writes and reads, and accesses through BAR4. -/
theorem hostWindows : Obligations.HostWindows := by
  intro s r v a n l o hc
  refine ⟨fun hg => ?_, fun hp => ⟨fun d p hg => ⟨fun hu => ?_, fun hu => ?_⟩, fun hg hu hn hpage ht => ?_⟩,
    fun hd => ?_, fun hl hup => ⟨?_, ?_, fun hat => ?_⟩⟩
  · have hbase := s.obBase_fieldsWritten (r := r) (v := v)
    have hun : s.Untraced (s.fieldsWritten r .pcie R.OB_BASE_HI 0 0 v) :=
      State.fieldsWritten_untraced (hg.not_traceReg (by simp) (by simp))
    exact hc.does (congrArg (State.done · s) (State.wrTo_ok hg State.regWrite_obBaseHi)) (hun.trans (State.untraced_pciePost.trans State.untraced_answer))
      ⟨rfl, hbase⟩
  · exact hc.does (congrArg (State.done · s) (State.outbound_write hp hg hu)) {} rfl
  · exact hc.does (congrArg (State.done · s) (State.outbound_down hp hg hu)) {} rfl
  · obtain ⟨t, hread, hun, ht⟩ := State.outbound_read (p := false) hp hg hu hn hpage ht
    exact hc.does (congrArg (State.done · s) hread) hun ht
  · have hdown : ¬ (s.linkUsed l = true ∧ (s.pf l).up = true) := by rcases hd with h | h <;> simp [h]
    exact ⟨hc.does (congrArg (State.done · s) (State.bar4Write_down hdown)) {} rfl,
      hc.does (congrArg (State.done · s) (State.bar4Read_down hdown)) {} rfl⟩
  · intro u ha hg
    rw [← barReq_eq] at hg
    have hb : s.busRead (barReq l) (bar4Addr o.toNat) = (none, s.rd u R.FAULT_MASK, s) := by
      rw [bar4Addr, ha, State.busRead_granted hg, State.regRead_faultMask hg]
    exact hc.does (congrArg (State.done · s) (State.bar4Read_ok ⟨hl, hup⟩ hb)) {} rfl
  · rintro u g i j - ha hg hoff hw hplain hcore
    rw [← barReq_eq] at hg
    have hb : s.busWrite (barReq l) (bar4Addr o.toNat) v none (some 1) = (none, s.fieldsWritten (barReq l) u g i j v) := by
      rw [bar4Addr, ha, State.busWrite_granted hg, State.regWrite_plain hplain hcore hw hoff]
    obtain ⟨M, U, he, hrd, hne⟩ := s.fieldsWritten_eq (barReq l) u g i j v
    have hun := State.fieldsWritten_untraced (s := s) (r := barReq l) (v := v) (hg.not_traceReg (ne_hedgerow_of_plain hplain) (ne_frCfg_of_plain hplain))
    exact hc.does (congrArg (State.done · s) (State.bar4Write_up ⟨hl, hup⟩ hb)) (hun.trans State.untraced_answer) ⟨hrd, he ▸ hne, he ▸ rfl⟩
  · have hb : s.busRead (barReq l) (bar4Addr o.toNat) = (some 0, 0, s) := State.busRead_unmapped hat
    exact hc.does (congrArg (State.done · s) (State.bar4Read_err ⟨hl, hup⟩ hb)) {} rfl

end Sys2Proof.Machine

/-! Doorbells and interrupt moderation (R152, R154). -/

namespace Sys2Proof.Machine

variable {s t y : State} {l n q o p h : Nat} {v : Word} {w : Bool} {x : Qp}

/-! ### Handles (R146) -/

theorem hTi_handle (n : Fin 2048) (q : Nat) : hTi (n.val + 2048 * q) = n := by
  unfold hTi
  omega

theorem hQ_handle (n : Fin 2048) (q : Fin 16) : hQ (n.val + 2048 * q.val) = q := by
  unfold hQ
  omega

@[simp] theorem State.ti_setTi (s : State) (n : Nat) (x : Ti) : (s.setTi n x).ti n = x := mapGet_mapSet_self ..

@[simp] theorem State.qp_setQp (s : State) (h : Nat) (x : Option Qp) : (s.setQp h x).qp h = x := by
  simp [State.qp, State.setQp]

@[simp] theorem natBits_low (k hi : Nat) : natBits k hi 0 = k % 2 ^ (hi + 1) := rfl

/-! ### Registers of BAR0 -/

/-- The registers that switch trace lie below the BARs. -/
theorem traceReg.lt {a : Nat} (h : traceReg a) : a < 2 ^ 40 := by
  obtain ⟨u, g', i', j', o, hat, -⟩ := h.find
  exact unitAt_lt hat

theorem le_base_bar0 (l : Nat) : 2 ^ 40 ≤ (UnitId.bar0 l).base := by
  simp only [UnitId.base]
  omega

theorem State.untraced_bump_bar0 {g : Reg} : s.Untraced (s.bump (.bar0 l) g) where
  regs a d ha := mapGet_mapSet_ne _ _ _ _ (by
    have := ha.lt
    have := le_base_bar0 l
    simp only [regAddr]
    omega)

/-! ### Moderation (R154) -/

/-- R154 asks for the vector of queue pair `x` at time `m`. -/
def Qp.Due (x : Qp) (m : Nat) : Prop :=
  x.armed = true ∧ 1 ≤ x.n ∧ (max 1 x.modCount ≤ x.n ∨ max x.armAt x.nzAt + 1000 * x.modTime ≤ m) ∧ x.vec ≠ 0xFFFF

theorem State.cqCheck_due (hx : s.qp h = some x) (hd : x.Due s.mono) :
    s.cqCheck h = (s.setQp h (some { x with armed := false })).tiVector h x.vec := by
  obtain ⟨h1, h2, h3, h4⟩ := hd
  simp only [State.cqCheck, hx]
  exact if_pos ⟨h1, h2, by simpa using h3, h4⟩

theorem State.cqCheck_not_due (hx : s.qp h = some x) (hd : ¬ x.Due s.mono) : s.cqCheck h = s := by
  simp only [State.cqCheck, hx]
  exact if_neg fun ⟨h1, h2, h3, h4⟩ => hd ⟨h1, h2, by simpa using h3, h4⟩

/-- A vector of a bound TI whose entry is not masked is sent (R153). -/
theorem State.tiVector_sent {k : Nat} (hv : k ≠ 0xFFFF) (hst : (s.ti (hTi h)).st = 2) (hen : (s.pf (s.ti (hTi h)).link).msixEn = true)
    (hr : s.linkReady (s.ti (hTi h)).link = true)
    (hm : (s.msixWord (16384 * (s.ti (hTi h)).link + 4 * ((s.ti (hTi h)).vecFirst + k) + 3)).bit 0 = false) :
    s.tiVector h k = s.send (.msix (s.ti (hTi h)).link ((s.ti (hTi h)).vecFirst + k)) := by
  simp [State.tiVector, State.vector, hv, hst, hen, hr, hm]

/-! ### Doorbells (R152) -/

/-- The queue pair whose doorbell lies at offset `p` of a TI's page. -/
def doorbellQ (p : Nat) : Nat := if p < 0x80 then p / 8 else (p - 0x80) / 4

/-- A doorbell write that is not a whole word, or that no queue pair of the link answers, is counted and has no effect. -/
theorem State.doorbell_discard (hp : p < 0x1000)
    (hbad : w = false ∨ (s.ti n).st ≠ 2 ∨ (s.ti n).link ≠ l ∨ s.qp (n + 2048 * doorbellQ p) = none) :
    s.doorbell l (0x1000 * n + p) v w = s.bump (.bar0 l) R.DB_DISCARD := by
  have hn : (0x1000 * n + p) / 0x1000 = n := by omega
  have hm : (0x1000 * n + p) % 0x1000 = p := by omega
  rcases hbad with h | h | h | h
  · simp [State.doorbell, hn, h]
  · simp [State.doorbell, hn, h]
  · simp [State.doorbell, hn, h]
  · rw [doorbellQ] at h
    simp only [State.doorbell, hn, hm, h, ite_self]

/-- A queue pair in service: its TI is bound to the link, and it is neither in ERROR nor closing. -/
structure State.Serves (s : State) (l n q : Nat) (x : Qp) : Prop where
  ti : n < 2048
  st : (s.ti n).st = 2
  link : (s.ti n).link = l
  qp : s.qp (n + 2048 * q) = some x
  err : x.err = false
  closing : x.closing = false

/-- The send queue's doorbell moves SQ_TAIL, and arms the moderation with bit 31. -/
theorem State.doorbell_sq (hs : s.Serves l n q x) (hq : q < 16) : s.doorbell l (0x1000 * n + 8 * q) v true =
    if ringCap x.sqLog < idxSub (natBits v.toNat 15 0) x.sqHead then s.bump (.bar0 l) R.DB_DISCARD
    else (s.setQp (n + 2048 * q) (some (if v.bit 31 then { x with sqTail := natBits v.toNat 15 0, armed := true, armAt := s.mono }
      else { x with sqTail := natBits v.toNat 15 0 }))).cqCheck (n + 2048 * q) := by
  obtain ⟨hn, hst, hl, hx, he, hc⟩ := hs
  have h1 : (0x1000 * n + 8 * q) / 0x1000 = n := by omega
  have h2 : (0x1000 * n + 8 * q) % 0x1000 = 8 * q := by omega
  have h3 : 8 * q < 128 := by omega
  simp [State.doorbell, h1, h2, h3, hst, hl, hx, he, hc, Nat.not_le.2 hn, Nat.not_le.2 h3, show ¬ 192 ≤ 8 * q by omega, show 8 * q % 4 = 0 by omega]

/-- The completion queue's doorbell moves CQ_HEAD, and with bit 31 disarms the moderation. -/
theorem State.doorbell_cq (hs : s.Serves l n q x) (hq : q < 16) : s.doorbell l (0x1000 * n + 8 * q + 4) v true =
    if idxSub x.cqp x.cqHead < idxSub x.cqp (natBits v.toNat 15 0) then s.bump (.bar0 l) R.DB_DISCARD
    else s.setQp (n + 2048 * q) (some { x with cqHead := natBits v.toNat 15 0, armed := x.armed && !v.bit 31 }) := by
  obtain ⟨hn, hst, hl, hx, he, hc⟩ := hs
  have h1 : (0x1000 * n + 8 * q + 4) / 0x1000 = n := by omega
  have h2 : (0x1000 * n + 8 * q + 4) % 0x1000 = 8 * q + 4 := by omega
  have h3 : 8 * q + 4 < 128 := by omega
  simp [State.doorbell, h1, h2, h3, hst, hl, hx, he, hc, Nat.not_le.2 hn, Nat.not_le.2 h3, show ¬ 192 ≤ 8 * q + 4 by omega,
    show (8 * q + 4) % 4 = 0 by omega, show (8 * q + 4) % 8 = 4 by omega, show (8 * q + 4) / 8 = q by omega]

/-- The receive queue's doorbell moves RQ_TAIL. -/
theorem State.doorbell_rq (hs : s.Serves l n q x) (hq : q < 16) : s.doorbell l (0x1000 * n + 0x80 + 4 * q) v true =
    if ringCap x.rqLog < idxSub (natBits v.toNat 15 0) x.rqHead then s.bump (.bar0 l) R.DB_DISCARD
    else s.setQp (n + 2048 * q) (some { x with rqTail := natBits v.toNat 15 0 }) := by
  obtain ⟨hn, hst, hl, hx, he, hc⟩ := hs
  have h1 : (0x1000 * n + 0x80 + 4 * q) / 0x1000 = n := by omega
  have h2 : (0x1000 * n + 0x80 + 4 * q) % 0x1000 = 0x80 + 4 * q := by omega
  have h3 : 128 ≤ 0x80 + 4 * q := by omega
  simp [State.doorbell, h1, h2, h3, hst, hl, hx, he, hc, Nat.not_le.2 hn, Nat.not_lt.2 h3, show ¬ 192 ≤ 0x80 + 4 * q by omega,
    show (0x80 + 4 * q) % 4 = 0 by omega]

theorem State.doorbellWrite_up (h : s.barUp l = true) : s.doorbellWrite l o v w = s.doorbell l o v w := if_pos h

end Sys2Proof.Machine

namespace Sys2Proof.Machine

variable {s t y : State} {c : Instr} {l k : Nat} {n : Fin 2048} {q : Fin 16} {h o : Nat} {v : Word} {w : Bool} {x : Qp}

/-! ### The commands of doorbells and moderation (R152, R154) -/

theorem State.untraced_setQp {z : Option Qp} : s.Untraced (s.setQp h z) := {}

theorem State.Calm.does_doorbell (hc : s.Calm) (he : exec c s = (s.doorbellWrite l o v w).done s) (hb : s.barUp l = true)
    (hd : s.doorbell l o v w = y) (hu : s.Untraced y) : s.Does c (fun t => t = y) :=
  hc.does (by rw [he, State.doorbellWrite_up hb, hd]) hu rfl

/-- A write that is not whole, or of a queue pair that the link does not serve, is discarded by each of the three doorbells. -/
theorem State.Calm.doorbells_discard {l : Fin 2} (hc : s.Calm) (hb : s.barUp l = true)
    (hbad : w = false ∨ (s.ti n).st ≠ 2 ∨ (s.ti n).link ≠ l ∨ s.qp (n.val + 2048 * q.val) = none) :
    s.Does (.sqTailDoorbell l n q v w) (fun t => t = s.bump (.bar0 l) R.DB_DISCARD) ∧
    s.Does (.cqHeadDoorbell l n q v w) (fun t => t = s.bump (.bar0 l) R.DB_DISCARD) ∧
    s.Does (.rqTailDoorbell l n q v w) (fun t => t = s.bump (.bar0 l) R.DB_DISCARD) := by
  have hsq : doorbellQ (8 * q.val) = q.val := by
    rw [doorbellQ, if_pos (by omega)]
    omega
  have hcq : doorbellQ (8 * q.val + 4) = q.val := by
    rw [doorbellQ, if_pos (by omega)]
    omega
  have hrq : doorbellQ (0x80 + 4 * q.val) = q.val := by
    rw [doorbellQ, if_neg (by omega)]
    omega
  exact ⟨hc.does_doorbell rfl hb (State.doorbell_discard (by omega) (hsq.symm ▸ hbad)) State.untraced_bump_bar0,
    hc.does_doorbell rfl hb (State.doorbell_discard (by omega) (hcq.symm ▸ hbad)) State.untraced_bump_bar0,
    hc.does_doorbell rfl hb ((congrArg (s.doorbell l · v w) (Nat.add_assoc ..)).trans (State.doorbell_discard (by omega) (hrq.symm ▸ hbad)))
      State.untraced_bump_bar0⟩

/-- A due vector is sent once. -/
theorem State.Calm.cqModTimeout_due (hc : s.Calm) (hx : s.qp (n.val + 2048 * q.val) = some x) (hd : x.Due s.mono) (hst : (s.ti n).st = 2)
    (hen : (s.pf (s.ti n).link).msixEn = true) (hr : s.linkReady (s.ti n).link = true)
    (hm : (s.msixWord (16384 * (s.ti n).link + 4 * ((s.ti n).vecFirst + x.vec) + 3)).bit 0 = false) :
    s.Does (.cqModTimeout n q) (fun t => t.out = .msix (s.ti n).link ((s.ti n).vecFirst + x.vec) :: s.out ∧
      t.qp (n.val + 2048 * q.val) = some { x with armed := false }) := by
  have hti : (s.setQp (n.val + 2048 * q.val) (some { x with armed := false })).ti (hTi (n.val + 2048 * q.val)) =
      { s.ti n with qps := mapSet none (s.ti n).qps (hQ (n.val + 2048 * q.val)) (some { x with armed := false }) } := by
    rw [State.setQp, State.ti_setTi, hTi_handle]
  have hsent : s.cqCheck (n.val + 2048 * q.val) = (s.setQp (n.val + 2048 * q.val) (some { x with armed := false })).send
      (.msix (s.ti n).link ((s.ti n).vecFirst + x.vec)) := by
    rw [State.cqCheck_due hx hd, State.tiVector_sent hd.2.2.2 (by rw [hti]; exact hst) (by rw [hti]; exact hen) (by rw [hti]; exact hr)
      (by rw [hti]; exact hm), hti]
  exact hc.does (congrArg (State.done · s) hsent) {} ⟨rfl, State.qp_setQp ..⟩

theorem State.Calm.cqModTimeout_not_due (hc : s.Calm) (hx : s.qp (n.val + 2048 * q.val) = some x) (hd : ¬ x.Due s.mono) :
    s.Does (.cqModTimeout n q) (fun t => t = s) :=
  hc.does (congrArg (State.done · s) (State.cqCheck_not_due hx hd)) {} rfl

/-! ### A queue pair in service -/

section
variable {l : Fin 2} (hc : s.Calm) (hb : s.barUp l = true) (hs : s.Serves l n q x)
include hc hb hs

/-- SQ_TAIL may not pass the ring's end. -/
theorem State.Calm.sqTailDoorbell_discard (hd : ringCap x.sqLog < idxSub (natBits v.toNat 15 0) x.sqHead) :
    s.Does (.sqTailDoorbell l n q v true) (fun t => t = s.bump (.bar0 l) R.DB_DISCARD) :=
  hc.does_doorbell rfl hb ((State.doorbell_sq hs q.isLt).trans (if_pos hd)) State.untraced_bump_bar0

/-- Without bit 31, and with no vector armed, SQ_TAIL moves. -/
theorem State.Calm.sqTailDoorbell_moves (hd : idxSub (natBits v.toNat 15 0) x.sqHead ≤ ringCap x.sqLog) (hv : v.bit 31 = false) (ha : x.armed = false) :
    s.Does (.sqTailDoorbell l n q v true) (fun t => t = s.setQp (n.val + 2048 * q.val) (some { x with sqTail := natBits v.toNat 15 0 })) := by
  refine hc.does_doorbell rfl hb ?_ State.untraced_setQp
  rw [State.doorbell_sq hs q.isLt, if_neg (Nat.not_lt.2 hd), hv]
  exact State.cqCheck_not_due (State.qp_setQp ..) (by simp [Qp.Due, ha])

/-- With bit 31 it moves and arms; nothing is due while no completion is unread. -/
theorem State.Calm.sqTailDoorbell_arms (hd : idxSub (natBits v.toNat 15 0) x.sqHead ≤ ringCap x.sqLog) (hv : v.bit 31 = true) (hn : x.n = 0) :
    s.Does (.sqTailDoorbell l n q v true) (fun t =>
      t = s.setQp (n.val + 2048 * q.val) (some { x with sqTail := natBits v.toNat 15 0, armed := true, armAt := s.mono })) := by
  refine hc.does_doorbell rfl hb ?_ State.untraced_setQp
  rw [State.doorbell_sq hs q.isLt, if_neg (Nat.not_lt.2 hd), if_pos hv]
  refine State.cqCheck_not_due (State.qp_setQp ..) fun hdue => ?_
  have : 1 ≤ x.n := hdue.2.1
  omega

theorem State.Calm.cqHeadDoorbell_discard (hd : idxSub x.cqp x.cqHead < idxSub x.cqp (natBits v.toNat 15 0)) :
    s.Does (.cqHeadDoorbell l n q v true) (fun t => t = s.bump (.bar0 l) R.DB_DISCARD) :=
  hc.does_doorbell rfl hb ((State.doorbell_cq hs q.isLt).trans (if_pos hd)) State.untraced_bump_bar0

theorem State.Calm.cqHeadDoorbell_moves (hd : idxSub x.cqp (natBits v.toNat 15 0) ≤ idxSub x.cqp x.cqHead) :
    s.Does (.cqHeadDoorbell l n q v true) (fun t =>
      t = s.setQp (n.val + 2048 * q.val) (some { x with cqHead := natBits v.toNat 15 0, armed := x.armed && !v.bit 31 })) :=
  hc.does_doorbell rfl hb ((State.doorbell_cq hs q.isLt).trans (if_neg (Nat.not_lt.2 hd))) State.untraced_setQp

theorem State.Calm.rqTailDoorbell_discard (hd : ringCap x.rqLog < idxSub (natBits v.toNat 15 0) x.rqHead) :
    s.Does (.rqTailDoorbell l n q v true) (fun t => t = s.bump (.bar0 l) R.DB_DISCARD) :=
  hc.does_doorbell rfl hb ((State.doorbell_rq hs q.isLt).trans (if_pos hd)) State.untraced_bump_bar0

theorem State.Calm.rqTailDoorbell_moves (hd : idxSub (natBits v.toNat 15 0) x.rqHead ≤ ringCap x.rqLog) :
    s.Does (.rqTailDoorbell l n q v true) (fun t =>
      t = s.setQp (n.val + 2048 * q.val) (some { x with rqTail := natBits v.toNat 15 0 })) :=
  hc.does_doorbell rfl hb ((State.doorbell_rq hs q.isLt).trans (if_neg (Nat.not_lt.2 hd))) State.untraced_setQp

end

end Sys2Proof.Machine

/-! Address translation of tenant accesses (R155, R156). -/

namespace Sys2Proof.Machine

variable {s t y : State} {j k l n m tag : Nat} {x : Job} {g : Tag} {e : Atc}

/-! ### Tags and translations -/

theorem mapErase_sublist {α : Type} (k : Nat) (m : Map α) : (mapErase k m).Sublist m := by
  induction m with
  | nil => exact .slnil
  | cons e r ih =>
    rw [mapErase]
    split_ifs
    · exact ih.cons e
    · exact ih.cons_cons e

/-- What a map holds at a key, its default apart, stands in its list. -/
theorem mem_of_mapGet_some {α : Type} {m : Map (Option α)} {a : α} (h : mapGet none m k = some a) : (k, some a) ∈ m := by
  induction m with
  | nil => simp at h
  | cons e r ih =>
    obtain ⟨i, z⟩ := e
    simp only [mapGet] at h
    split_ifs at h with hk
    · simp [hk, h]
    · exact List.mem_cons_of_mem _ (ih h)

/-- A returned tag frees a place among the tags in use. -/
theorem State.tagsUsed_setTag_none_le (s : State) (tag l : Nat) : (s.setTag tag none).tagsUsed l ≤ s.tagsUsed l := by
  simp only [State.tagsUsed, State.setTag, mapSet, if_true]
  exact ((mapErase_sublist tag s.pcie.tags).filter _).length_le

theorem State.tagReturn_job (h : g.job = some j) : s.tagReturn tag g = s.setTag tag none := by
  simp only [State.tagReturn, h]

/-- The state whose one cached translation is `e`. -/
def State.onlyAtc (s : State) (e : Atc) : State := { s with pcie := { s.pcie with atc := [(0, some e)] } }

/-- The first translation of an empty cache. -/
theorem State.atcAdd_empty (h : s.pcie.atc = []) : s.atcAdd e = s.onlyAtc e := by
  simp [State.atcAdd, State.onlyAtc, h, mapSet, mapInsert, List.range_succ]

theorem State.atcFind_only {i a p : Nat} (h : s.pcie.atc = [(i, some e)]) (hl : e.link = l) (hn : e.ti = n) (hp : e.pasid = p)
    (ha : e.page ≤ a) (hb : a < e.page + 2 ^ e.lg) : s.atcFind l n p a = some e := by
  simp [State.atcFind, h, hl, hn, hp, ha, hb]

/-- A read of one piece whose page is cached and readable is translated. -/
theorem State.xlate_hit (hti : x.ti = some n) (hen : (s.pf x.link).atsEn = true) (hone : x.pieces = [(0, x.len)]) (hw : x.write = false)
    (hf : s.atcFind x.link n ((s.ti n).pasid.getD 0) x.addr = some e) (hr : e.r = true) :
    s.xlate x = .done [(0, e.ta + (x.addr - e.page))] := by
  simp [State.xlate, hti, hen, hone, hf, hw, hr]

theorem Job.pieces_cons (hn : 0 < x.len) : ∃ k ps, x.pieces = (0, k) :: ps := by
  simp [Job.pieces, pagePieces, hn.ne']

/-- With nothing cached the first page of a tenant's access is missing. -/
theorem State.xlate_miss (hti : x.ti = some n) (hen : (s.pf x.link).atsEn = true) (hn : 0 < x.len) (ha : s.pcie.atc = []) :
    s.xlate x = .miss (x.addr / 4096 * 4096) := by
  obtain ⟨k, ps, hps⟩ := Job.pieces_cons hn
  have hf : s.atcFind x.link n ((s.ti n).pasid.getD 0) (x.addr + 0) = none := by simp [State.atcFind, ha]
  simp only [State.xlate, hti, hen, hps, hf, Bool.not_true, Bool.false_eq_true, if_false, List.foldl_cons]
  exact List.foldl_fixed' (fun _ => rfl) ps

/-! ### Completions of translations (R155) -/

/-- A translation that arrives for a job enters the cache, and the job goes on. -/
theorem State.atsArrive_translated {page lg ta : Nat} {rd wr : Bool} (ht : s.tag tag = some g) (hp : g.page = some page) (hg : g.job = some j)
    (hj : s.job j = some x) (hti : x.ti = some n) (hlg : 12 ≤ lg ∧ lg ≤ 30)
    (hs : ((s.setTag tag none).atcAdd ⟨x.link, n, (s.ti n).pasid.getD 0, page / 2 ^ lg * 2 ^ lg, lg, rd, wr, ta / 2 ^ lg * 2 ^ lg⟩).jobStep j = (none, y)) :
    s.atsArrive tag (some (lg, ta, rd, wr)) = y := by
  have hclamp : clampNat 12 30 lg = lg := by simp only [clampNat]; omega
  have hj' : (s.setTag tag none).job j = some x := hj
  have hdone : s.atsDone tag (some (lg, ta, rd, wr)) = (some (j, none), y) := by
    simp only [State.atsDone, ht, hp, hg, State.tagReturn_job hg, hj', hti, hclamp]
    exact congrArg (fun z : Option Bool × State => (some (j, z.1), z.2)) hs
  simp only [State.atsArrive, hdone]

/-- The translation of job `x`'s first page, of 4 KiB and readable, for TI `n`. -/
def State.pageEntry (s : State) (x : Job) (n ta : Nat) (wr : Bool) : Atc :=
  ⟨x.link, n, (s.ti n).pasid.getD 0, x.addr / 4096 * 4096, 12, true, wr, ta / 4096 * 4096⟩

theorem State.atcFind_pageEntry {ta : Nat} {wr : Bool} (h : t.pcie.atc = [(0, some (s.pageEntry x n ta wr))]) :
    t.atcFind x.link n ((s.ti n).pasid.getD 0) x.addr = some (s.pageEntry x n ta wr) :=
  State.atcFind_only h rfl rfl rfl (by simp only [State.pageEntry]; omega) (by simp only [State.pageEntry]; omega)

theorem State.atcAdd_pageEntry {ta : Nat} {wr : Bool} (h : s.pcie.atc = []) : s.atcAdd ⟨x.link, n, (s.ti n).pasid.getD 0,
    x.addr / 4096 * 4096 / 2 ^ 12 * 2 ^ 12, 12, true, wr, ta / 2 ^ 12 * 2 ^ 12⟩ = s.onlyAtc (s.pageEntry x n ta wr) := by
  rw [State.atcAdd_empty h, show x.addr / 4096 * 4096 / 2 ^ 12 * 2 ^ 12 = x.addr / 4096 * 4096 by omega]
  rfl

theorem State.untraced_onlyAtc : s.Untraced (s.onlyAtc e) := {}

/-- R155: a read that waited for the translation of its one page is sent to the translated address. -/
theorem State.Calm.atsTranslation_read {page ta : Nat} {wr : Bool} (hc : s.Calm) (ht : s.tag tag = some g) (hp : g.page = some page)
    (hg : g.job = some j) (hj : s.job j = some x) (hti : x.ti = some n) (hst : x.started = false) (hw : x.write = false) (hn : 0 < x.len)
    (hone : x.addr % 4096 + x.len ≤ 4096) (hpage : page = x.addr / 4096 * 4096) (ha : s.pcie.atc = []) (hen : (s.pf x.link).atsEn = true)
    (hr : s.linkReady x.link = true) (hlim : s.tagsUsed x.link < s.tagLimit) :
    s.Does (.atsTranslationCompletion tag (some (12, ta, true, wr))) (fun t =>
      t.out = .pcieRead x.link (ta / 4096 * 4096 + x.addr % 4096) x.len (s.ti n).pasid s.pcie.nextTag :: s.out ∧
      t.atcFind x.link n ((s.ti n).pasid.getD 0) x.addr = some ⟨x.link, n, (s.ti n).pasid.getD 0, page, 12, true, wr, ta / 4096 * 4096⟩) := by
  subst hpage
  have hadd := State.atcAdd_pageEntry (s := s.setTag tag none) (x := x) (n := n) (ta := ta) (wr := wr) ha
  generalize hz : (s.setTag tag none).onlyAtc ((s.setTag tag none).pageEntry x n ta wr) = z at hadd
  have hused : z.tagsUsed x.link < z.tagLimit := by
    rw [← hz]
    exact lt_of_le_of_lt (s.tagsUsed_setTag_none_le tag x.link) hlim
  have hx : z.xlate x = .done [(0, ta / 4096 * 4096 + x.addr % 4096)] := by
    rw [show x.addr % 4096 = x.addr - x.addr / 4096 * 4096 by omega, ← hz]
    exact State.xlate_hit (s := (s.setTag tag none).onlyAtc ((s.setTag tag none).pageEntry x n ta wr)) hti hen (Job.pieces_one hn hone) hw
      (State.atcFind_pageEntry (s := s.setTag tag none) rfl) rfl
  have hstep := State.jobStep_read (s := z) (j := j) (hz ▸ hj) hst (hz ▸ hr) (Job.pieces_one hn hone) hx hw hused
  have harrive := State.atsArrive_translated (lg := 12) ht hp hg hj hti (by omega) ((congrArg (State.jobStep · j) hadd).trans hstep)
  have hpas : z.jobPasid x = (s.ti n).pasid := by simp only [State.jobPasid, hti, ← hz]; rfl
  have hout := z.out_readSent j x (ta / 4096 * 4096 + x.addr % 4096)
  rw [hpas] at hout
  have hatc : (z.readSent j x (ta / 4096 * 4096 + x.addr % 4096)).pcie.atc = [(0, some (s.pageEntry x n ta wr))] := by
    rw [State.atc_readSent, ← hz]
    rfl
  have huz : s.Untraced z := hz ▸ State.untraced_setTag.trans State.untraced_onlyAtc
  subst hz
  exact hc.does (congrArg (State.done · s) harrive) (huz.trans State.untraced_readSent) ⟨hout, State.atcFind_pageEntry hatc⟩

/-- Job `j` waits for no page response any more. -/
def State.priDropped (s : State) (j : Nat) : State := { s with pcie := { s.pcie with pri := s.pcie.pri.filter (· != j) } }

/-- A tag taken and a message sent leave the jobs and the queue of page requests. -/
theorem State.newTag_send (s : State) (g : Tag) (o : Out) : ((s.newTag g).2.send o).pcie.pri = s.pcie.pri ∧
    (∀ j, ((s.newTag g).2.send o).job j = s.job j) ∧ ((s.newTag g).2.send o).out = o :: s.out := ⟨rfl, fun _ => rfl, rfl⟩

/-- Its translation is to be tried once more. -/
def State.priRetried (s : State) (j : Nat) (x : Job) : State := (s.priDropped j).setJob j (some { x with retry := true })

theorem State.job_priRetried (s : State) (j : Nat) (x : Job) : (s.priRetried j x).job j = some { x with retry := true } := State.job_setJob ..

theorem State.pri_priRetried (h : s.pcie.pri = [j]) : (s.priRetried j x).pcie.pri = [] := by
  simp [State.priRetried, State.priDropped, h]

theorem State.untraced_priRetried : s.Untraced (s.priRetried j x) := {}

/-- A page response has the job translate once more. -/
theorem State.priDone_miss {page : Nat} (hpri : s.pcie.pri.contains j = true) (hj : s.job j = some x)
    (hx : (s.priRetried j x).xlate x = .miss page) : s.priDone j = (s.priRetried j x).jobStep j := by
  have hj' : (s.priDropped j).job j = some x := hj
  unfold State.priRetried at *
  unfold State.priDropped at *
  simp only [State.priDone, hpri, if_true, hj', hx]

/-- R155: a page response retries the translation once. -/
theorem State.Calm.priResponse_retries (hc : s.Calm) (hpri : s.pcie.pri = [j]) (hj : s.job j = some x) (hti : x.ti = some n)
    (hst : x.started = false) (hn : 0 < x.len) (ha : s.pcie.atc = []) (hen : (s.pf x.link).atsEn = true) (hr : s.linkReady x.link = true)
    (hlim : s.tagsUsed x.link < s.tagLimit) :
    s.Does (.priResponse j) (fun t => t.pcie.pri = [] ∧ t.job j = some { x with retry := true } ∧
      t.out = .pcieMsg x.link 2 s.pcie.nextTag :: s.out) := by
  have hx : (s.priRetried j x).xlate x = .miss (x.addr / 4096 * 4096) := State.xlate_miss hti hen hn ha
  have hx' : (s.priRetried j x).xlate { x with retry := true } = .miss (x.addr / 4096 * 4096) := State.xlate_miss hti hen hn ha
  have hstep := State.jobStep_miss (s.job_priRetried j x) hst hr hx' hlim
  have harrive : s.priArrive j = ((s.priRetried j x).newTag { link := x.link, job := some j, page := some (x.addr / 4096 * 4096) }).2.send
      (.pcieMsg x.link 2 s.pcie.nextTag) := by
    rw [State.priArrive, State.priDone_miss (by simp [hpri]) hj hx, hstep]
    rfl
  obtain ⟨hpri', hjob', hout⟩ := (s.priRetried j x).newTag_send { link := x.link, job := some j, page := some (x.addr / 4096 * 4096) }
    (.pcieMsg x.link 2 s.pcie.nextTag)
  exact hc.does (congrArg (State.done · s) harrive) (State.untraced_priRetried.trans (State.untraced_newTag.trans State.untraced_send))
    ⟨hpri'.trans (State.pri_priRetried hpri), (hjob' j).trans (s.job_priRetried j x), hout⟩

end Sys2Proof.Machine

namespace Sys2Proof.Machine

variable {s t y : State} {r : Req} {j k tag : Nat} {l : Fin 2} {x : Job} {g : Tag} {e : Atc} {v : Word}

/-! ### Invalidations (R156) -/

/-- A 33rd invalidation of a link is not accepted. -/
theorem State.atsInval_full {l b z : Nat} {p : Option Nat} (h : 32 ≤ (s.pcie.invs.filter (fun w => w.link == l)).length) :
    s.atsInval l tag p b z = s := if_pos h

/-- An accepted one is noted with the jobs that use what it removes; no translation that stays is one it names. -/
theorem State.atsInval_accepted {l b z : Nat} {p : Option Nat} (h : (s.pcie.invs.filter (fun w => w.link == l)).length < 32) :
    ∃ A js, s.atsInval l tag p b z = { s with pcie := { s.pcie with atc := A, invs := s.pcie.invs ++ [⟨l, tag, js⟩] } } ∧
      ∀ k e, mapGet none A k = some e → e.link = l → (∀ q, p = some q → e.pasid = q) → rangesMeet e.page (2 ^ e.lg) b z = false := by
  rw [State.atsInval, if_neg (Nat.not_le.2 h)]
  refine ⟨_, _, rfl, fun k e he hl hq => ?_⟩
  have hmem := (List.mem_filter.1 (mem_of_mapGet_some he)).2
  rcases p with _ | q
  · simpa [hl] using hmem
  · simpa [hl, hq q rfl] using hmem

theorem State.Calm.atsInvalidation_full {tag : Fin 32} {p : Option (BitVec 20)} {b z : BitVec 64} (hc : s.Calm)
    (h : 32 ≤ (s.pcie.invs.filter (fun w => w.link == l.val)).length) : s.Does (.atsInvalidationRequest l tag p b z) (fun t => t = s) :=
  hc.does (congrArg (State.done · s) (State.atsInval_full h)) {} rfl

theorem State.Calm.atsInvalidation_accepted {tag : Fin 32} {p : Option (BitVec 20)} {b z : BitVec 64} (hc : s.Calm)
    (h : (s.pcie.invs.filter (fun w => w.link == l.val)).length < 32) : s.Does (.atsInvalidationRequest l tag p b z) (fun t =>
      (∃ js, t.pcie.invs = s.pcie.invs ++ [⟨l, tag, js⟩]) ∧
      ∀ k e, mapGet none t.pcie.atc k = some e → e.link = l.val → (∀ q, p = some q → e.pasid = q.toNat) →
        b.toNat + z.toNat ≤ e.page ∨ e.page + 2 ^ e.lg ≤ b.toNat) := by
  obtain ⟨A, js, he, hA⟩ := State.atsInval_accepted (tag := tag) (b := b.toNat) (z := z.toNat) (p := p.map (·.toNat)) h
  refine hc.does (congrArg (State.done · s) he) {} ⟨⟨js, rfl⟩, fun k e hk hl hq => ?_⟩
  have hmeet := hA k e hk hl (fun q hp => by
    obtain ⟨q', rfl, rfl⟩ := Option.map_eq_some_iff.1 hp
    exact hq q' rfl)
  simp only [rangesMeet, decide_eq_false_iff_not] at hmeet
  omega

/-- The invalidation's completion is sent once none of its jobs remains. -/
theorem State.Calm.atsInvalidation_completes {tag : Fin 32} {js : List Nat} (hc : s.Calm) (hi : s.pcie.invs = [⟨l, tag, js⟩])
    (hj : ∀ j ∈ js, s.job j = none) :
    s.Does (.atsInvalidationComplete l tag) (fun t => t.pcie.invs = [] ∧ t.out = .pcieMsg l 3 tag :: s.out) := by
  have he : s.invalDone l tag = ({ s with pcie := { s.pcie with invs := [] } } : State).send (.pcieMsg l 3 tag) := by
    have hall : js.all (fun j => (s.job j).isNone) = true := by simpa using hj
    simp [State.invalDone, hi, hall]
  exact hc.does (congrArg (State.done · s) he) {} ⟨rfl, rfl⟩

theorem State.Calm.atsInvalidation_waits {tag : Fin 32} {js : List Nat} (hc : s.Calm) (hi : s.pcie.invs = [⟨l, tag, js⟩])
    (hj : ∃ j ∈ js, s.job j ≠ none) : s.Does (.atsInvalidationComplete l tag) (fun t => t = s) := by
  have he : s.invalDone l tag = s := by
    have hall : js.all (fun j => (s.job j).isNone) = false := by simpa [List.all_eq_false] using hj
    simp [State.invalDone, hi, hall]
  exact hc.does (congrArg (State.done · s) he) {} rfl

/-! ### The owner table (R158) -/

/-- A write of CTXO_DATA names a slot at or above its TI's quota. -/
def State.ctxoOver (s : State) (v : Word) : Prop :=
  v.bit 31 = true ∧ (s.ti (v.toNat / 65536 % 2048)).ctxQuota ≤ v.toNat % 4096

theorem State.pcieRefuse_ctxoData : s.pcieRefuse R.CTXO_DATA v = true ↔ s.ctxoOver v := by
  simp [State.pcieRefuse, State.ctxoOver, natBits, Nat.shiftRight_eq_div_pow]

theorem State.Calm.ctxoDataWrite_refused (hc : s.Calm) (hv : s.ctxoOver v) (hg : s.Granted r .write .pcie R.CTXO_DATA 0 0) :
    s.Does (.ctxoDataWrite r v) (fun t => t = { s with resp := .err 4 }) := by
  have hw : s.regWrite r .pcie R.CTXO_DATA 0 0 v none = (some 4, s) := by
    have hr : s.wrRefuse r .pcie R.CTXO_DATA 0 (s.rd .pcie R.CTXO_DATA) v none = some 4 := by
      simp [State.wrRefuse, State.pcieRefuse_ctxoData.2 hv]
    have hk : regWritable R.CTXO_DATA ≠ 0 ∧ ¬ R.CTXO_DATA.off < 0x100 := by decide
    simp [State.regWrite, hk, hr]
  have he : s.wrTo r .pcie R.CTXO_DATA v = s.answer (.err 4) := by
    simp only [State.wrTo, State.wrReq, State.busWrite_granted hg, hw]
  exact hc.does (congrArg (State.done · s) he) {} rfl

theorem State.Calm.ctxoDataWrite_takes (hc : s.Calm) (hv : ¬ s.ctxoOver v) :
    s.Sets r .pcie R.CTXO_DATA 0 (.ctxoDataWrite r v) (fun t =>
      mapGet 0 t.pcie.ctxo (s.rf .pcie R.CTXO_SEL F.CTXO_SEL_G) = v &&& 0x87FF0FFF ∧
      ∀ k, k ≠ s.rf .pcie R.CTXO_SEL F.CTXO_SEL_G → mapGet 0 t.pcie.ctxo k = mapGet 0 s.pcie.ctxo k) := by
  intro hg
  have hr : s.wrRefuse r .pcie R.CTXO_DATA 0 (s.rd .pcie R.CTXO_DATA) v none = none := by
    simp [State.wrRefuse, Bool.eq_false_iff.2 (mt State.pcieRefuse_ctxoData.1 hv)]
  have hw := State.regWrite_ok (j := 0) (by decide) (by decide) hr rfl (by simp) (by simp) (by simp)
  have hun : s.Untraced (s.fieldsWritten r .pcie R.CTXO_DATA 0 0 v) := State.fieldsWritten_untraced (hg.not_traceReg (by simp) (by simp))
  obtain ⟨M, U, he, -, hne⟩ := s.fieldsWritten_eq r .pcie R.CTXO_DATA 0 0 v
  have hsel : State.rf { s with regs := M, units := U } .pcie R.CTXO_SEL F.CTXO_SEL_G = s.rf .pcie R.CTXO_SEL F.CTXO_SEL_G :=
    congrArg (Word.fld · F.CTXO_SEL_G) (hne _ _ (by decide))
  have hctxo : ((s.fieldsWritten r .pcie R.CTXO_DATA 0 0 v).wrPost r .pcie R.CTXO_DATA 0 (s.rd .pcie R.CTXO_DATA) v).pcie.ctxo =
      mapSet 0 s.pcie.ctxo (s.rf .pcie R.CTXO_SEL F.CTXO_SEL_G) (v &&& 0x87FF0FFF) := by
    rw [he, ← hsel]
    rfl
  have hpost : (s.fieldsWritten r .pcie R.CTXO_DATA 0 0 v).Untraced
      ((s.fieldsWritten r .pcie R.CTXO_DATA 0 0 v).wrPost r .pcie R.CTXO_DATA 0 (s.rd .pcie R.CTXO_DATA) v) := {}
  refine hc.does (congrArg (State.done · s) (State.wrTo_ok hg hw)) ((hun.trans hpost).trans {}) ⟨rfl, ?_, fun k hk => ?_⟩
  · exact (congrArg (mapGet 0 · _) hctxo).trans (mapGet_mapSet_self ..)
  · exact (congrArg (mapGet 0 · k) hctxo).trans (mapGet_mapSet_ne _ _ _ _ hk)

end Sys2Proof.Machine

/-! Completions of requests to the host (R65), and the links of the PCIe complex (R29, R139, R429). -/

namespace Sys2Proof.Machine

variable {s t y : State} {j k m tag : Nat} {l : Fin 2} {x : Job} {g : Tag} {p : Bool} {d : List Byte}

/-! ### Completions (R65) -/

theorem padTo_length (d : List Byte) : padTo d.length d = d := by simp [padTo]

/-- A piece that covers the whole of a job's data replaces it. -/
theorem patch_whole {a : List Byte} (h : a.length = d.length) : patch a 0 d = d := by simp [patch, h]

/-- Job `x` with the last of its pieces in: its data, or the failure of a piece. -/
def Job.closed (x : Job) (g : Tag) (d : Option (List Byte)) (p : Bool) : Job :=
  { x with open_ := 0, poison := x.poison || p, failed := x.failed || d.isNone,
           data := patch x.data g.off (padTo g.len ((d.getD []).take g.len)) }

/-- The completion of the last piece ends the job. -/
theorem State.completion_last {d : Option (List Byte)} (ht : s.tag tag = some g) (hp : g.page = none) (hg : g.job = some j)
    (hj : s.job j = some x) (ho : x.open_ = 1) :
    s.completion tag d p = ((s.setTag tag none).setJob j (some (x.closed g d p))).jobEnd j (!(x.closed g d p).failed) := by
  have hj' : (s.setTag tag none).job j = some x := hj
  simp only [State.completion, State.tagData, ht, hp, Option.isSome_none, Bool.false_eq_true, if_false, State.tagReturn_job hg, hg, hj', ho,
    Nat.sub_self, if_true]
  rfl

/-- The answers to reads through the window that have come in. -/
def State.withObIn (s : State) (a : List (Nat × Nat × List Byte × Option Nat × Bool)) : State := { s with pcie := { s.pcie with obIn := a } }

/-- The end of a read through the window answers its master. -/
theorem State.jobEnd_outbound {ok : Bool} (hj : s.job j = some x) (hw : x.what = .outbound m) :
    ∃ I, s.jobEnd j ok = ((s.setJob j none).withObIn I).answer (if ok then .ok (BitVec.ofNat 32 (ofLe (x.data.take 4))) else .err 7) := by
  refine ⟨(s.setJob j none).pcie.obIn ++ [(m, x.addr, x.data, if ok then none else some 7, x.poison)], ?_⟩
  simp only [State.jobEnd, State.jobDone, hj, hw]
  rfl

theorem State.tag_setJob (s : State) (j : Nat) (z : Option Job) : (s.setJob j z).tag tag = s.tag tag := rfl

theorem State.mem_setTag_setJob (s : State) (z : Option Tag) (u : Option Job) : ((s.setTag tag z).setJob j u).mem = s.mem := rfl

/-- What ends a read through the window, beside its job: one more answer and the response. -/
theorem State.untraced_outboundEnd {a : List (Nat × Nat × List Byte × Option Nat × Bool)} {z : Resp} :
    s.Untraced (((s.setJob j none).withObIn a).answer z) := {}

theorem State.outboundEnd (s : State) (j : Nat) (a : List (Nat × Nat × List Byte × Option Nat × Bool)) (z : Resp) :
    (((s.setJob j none).withObIn a).answer z).resp = z ∧ (((s.setJob j none).withObIn a).answer z).job j = none ∧
    (∀ t, (((s.setJob j none).withObIn a).answer z).tag t = s.tag t) ∧ (((s.setJob j none).withObIn a).answer z).mem = s.mem :=
  ⟨rfl, State.job_setJob s j none, fun _ => rfl, rfl⟩

/-- R65: the last completion of a read through the window records its answer, frees job and tag, and touches no memory. -/
theorem State.completion_outbound {d : Option (List Byte)} (ht : s.tag tag = some g) (hp : g.page = none) (hg : g.job = some j)
    (hj : s.job j = some x) (ho : x.open_ = 1) (hw : x.what = .outbound m) :
    s.Untraced (s.completion tag d p) ∧
      (s.completion tag d p).resp =
        (if (x.closed g d p).failed then .err 7 else .ok (BitVec.ofNat 32 (ofLe ((x.closed g d p).data.take 4)))) ∧
      (s.completion tag d p).job j = none ∧ (s.completion tag d p).tag tag = none ∧ (s.completion tag d p).mem = s.mem := by
  have hjob : ((s.setTag tag none).setJob j (some (x.closed g d p))).job j = some (x.closed g d p) := State.job_setJob ..
  obtain ⟨I, hI⟩ := State.jobEnd_outbound (ok := !(x.closed g d p).failed) hjob hw
  rw [State.completion_last ht hp hg hj ho, hI]
  obtain ⟨hresp, hjn, htn, hmem⟩ := ((s.setTag tag none).setJob j (some (x.closed g d p))).outboundEnd j I
    (if (!(x.closed g d p).failed) = true then .ok (BitVec.ofNat 32 (ofLe ((x.closed g d p).data.take 4))) else .err 7)
  refine ⟨State.untraced_setTag.trans (State.untraced_setJob.trans State.untraced_outboundEnd), hresp.trans ?_, hjn,
    (htn tag).trans ((State.tag_setJob ..).trans (State.tag_setTag ..)), hmem.trans (State.mem_setTag_setJob ..)⟩
  cases (x.closed g d p).failed <;> rfl

theorem State.Calm.completion_data (hc : s.Calm) (ht : s.tag tag = some g) (hp : g.page = none) (hg : g.job = some j)
    (hj : s.job j = some x) (hw : x.what = .outbound m) (ho : x.open_ = 1) (hf : x.failed = false) (hoff : g.off = 0) (hlen : g.len = d.length)
    (hdata : x.data.length = d.length) :
    s.Does (.pcieCompletionArrival tag (some d) p) (fun t => t.resp = .ok (BitVec.ofNat 32 (ofLe (d.take 4))) ∧ t.job j = none ∧
      t.tag tag = none ∧ t.mem = s.mem) := by
  have hfail : (x.closed g (some d) p).failed = false := by simp [Job.closed, hf]
  have hbytes : (x.closed g (some d) p).data = d := by
    simp [Job.closed, hoff, hlen, padTo_length, patch_whole hdata]
  obtain ⟨hu, hr, hjn, htn, hm⟩ := State.completion_outbound (d := some d) (p := p) ht hp hg hj ho hw
  rw [hfail, hbytes] at hr
  exact hc.does rfl hu ⟨hr, hjn, htn, hm⟩

theorem State.Calm.completion_timeout (hc : s.Calm) (ht : s.tag tag = some g) (hp : g.page = none) (hg : g.job = some j)
    (hj : s.job j = some x) (hw : x.what = .outbound m) (ho : x.open_ = 1) :
    s.Does (.pcieCompletionTimeout tag) (fun t => t.resp = .err 7 ∧ t.job j = none ∧ t.tag tag = none ∧ t.mem = s.mem) := by
  have hfail : (x.closed g none false).failed = true := by simp [Job.closed]
  obtain ⟨hu, hr, hjn, htn, hm⟩ := State.completion_outbound (d := none) (p := false) ht hp hg hj ho hw
  rw [hfail] at hr
  exact hc.does rfl hu ⟨hr, hjn, htn, hm⟩

/-! ### Links (R29) -/

theorem State.Calm.pcieLinkUp (hc : s.Calm) (hu : s.linkUsed l = true) (hp : l.val ∉ s.peat.perst) (hr : l.val ∈ s.peat.pcieRef)
    (ha : s.answers .pcie = true) : s.Does (.pcieLinkUp l) (fun t => t = s.setPf l { s.pf l with up := true }) := by
  have he : s.linkRise l = s.setPf l { s.pf l with up := true } := by simp [State.linkRise, hu, hp, hr, ha]
  exact hc.does (congrArg (State.done · s) he) {} rfl

theorem State.Calm.configSpaceWrite {b c e f : Bool} (hc : s.Calm) (hu : s.barUp l = true) :
    s.Does (.configSpaceWrite l b c e f) (fun t => t = s.setPf l { s.pf l with bme := b, msixEn := c, pasidEn := e, atsEn := f }) := by
  have he : s.cfgSpace l b c e f = s.setPf l { s.pf l with bme := b, msixEn := c, pasidEn := e, atsEn := f } := if_pos hu
  exact hc.does (congrArg (State.done · s) he) {} rfl

end Sys2Proof.Machine

namespace Sys2Proof.Machine

variable {s t y : State} {j k m n h : Nat} {l : Nat} {x : Job} {g : Tag} {p : Bool} {d : List Byte}

/-! ### A link's reset (R139, R429) -/

@[simp] theorem State.pf_setPf (s : State) (l : Nat) (x : Pf) : (s.setPf l x).pf l = x := mapGet_mapSet_self ..

@[simp] theorem State.adm_setAdm (s : State) (l : Nat) (x : Adm) : (s.setAdm l x).adm l = x := mapGet_mapSet_self ..

/-- A TI on its way out (R162): nothing of it is in service. -/
def State.Destroyed (s : State) (n : Nat) : Prop := (s.ti n).st = 4 ∧ (s.ti n).qps = []

theorem State.Destroyed.qp (h : s.Destroyed n) (q : Nat) (hn : n < 2048) : s.qp (n + 2048 * q) = none := by
  have : hTi (n + 2048 * q) = n := hTi_handle ⟨n, hn⟩ q
  rw [State.qp, this, h.2]
  rfl

/-- Steps that touch no more of the state than the complex's other tables leave the TIs. -/
theorem foldl_tis {α : Type} {f : State → α → State} (hf : ∀ s a, ∃ P, f s a = { s with pcie := P } ∧ P.tis = s.pcie.tis) (es : List α)
    (s : State) : ∃ P, es.foldl f s = { s with pcie := P } ∧ P.tis = s.pcie.tis := by
  induction es generalizing s with
  | nil => exact ⟨s.pcie, rfl, rfl⟩
  | cons e es ih =>
    obtain ⟨P, hP, hPt⟩ := hf s e
    obtain ⟨Q, hQ, hQt⟩ := ih (f s e)
    rw [List.foldl_cons, hQ, hP]
    exact ⟨Q, rfl, hQt.trans (hP ▸ hPt)⟩

/-- The squash of a TI with no thread and no frame about empties its queue pairs, within the PCIe complex and Ethernet (R160). -/
theorem State.squash_idle (hth : s.sedge.threads = []) (hfr : s.eth.frames = []) :
    ∃ P E, s.squash n = { s with pcie := P, eth := E } ∧ mapGet {} P.tis n = { s.ti n with qps := [] } := by
  unfold State.squash
  extract_lets threads mine tags pcie jobs rec pairs gone fs eth left
  have hthreads : threads = s := by simp only [threads, hth, List.foldl_nil]
  obtain ⟨P, hP, hPt⟩ : ∃ P, tags = { threads with pcie := P } ∧ P.tis = threads.pcie.tis := by
    refine foldl_tis (fun u e => ?_) _ threads
    split
    · split
      · split_ifs
        · exact ⟨_, rfl, rfl⟩
        · exact ⟨u.pcie, rfl, rfl⟩
      · exact ⟨u.pcie, rfl, rfl⟩
    · exact ⟨u.pcie, rfl, rfl⟩
  have htags : tags = { s with pcie := P } := hP.trans (hthreads ▸ rfl)
  have hti : jobs.ti n = s.ti n := by
    change mapGet {} tags.pcie.tis n = mapGet {} s.pcie.tis n
    rw [htags, show P.tis = s.pcie.tis from hthreads ▸ hPt]
  have hfs : fs = [] := by
    have : pairs.eth.frames = [] := (congrArg (·.eth.frames) htags).trans hfr
    simp only [fs, this, List.map_nil, List.filter_nil]
  rw [hfs, List.foldl_nil]
  have hwith : ∀ a b, { tags with pcie := a, eth := b } = { s with pcie := a, eth := b } := fun a b => by rw [htags]
  refine ⟨left.pcie, left.eth, hwith left.pcie left.eth, ?_⟩
  exact (State.ti_setTi jobs n { jobs.ti n with qps := [] }).trans (by rw [hti])

/-- The destruction of such a TI (R162). -/
theorem State.startReset_idle {r : TiReset} (hth : s.sedge.threads = []) (hfr : s.eth.frames = []) (hd : r.destroy = true) (hs : r.squash = true) :
    ∃ P E, s.startReset n r = { s with pcie := P, eth := E } ∧ State.Destroyed { s with pcie := P, eth := E } n := by
  obtain ⟨P, E, hP, hti⟩ := State.squash_idle (s := s.setTi n { s.ti n with st := 4, rst := some r }) (n := n) hth hfr
  have h4 : (mapGet {} P.tis n).st = 4 ∧ (mapGet {} P.tis n).qps = [] := by
    rw [hti, State.ti_setTi]
    exact ⟨rfl, rfl⟩
  refine ⟨P, E, ?_, h4⟩
  simp only [State.startReset, hd, hs, if_true, hP]
  rfl

/-! ### The end of a link -/

/-- What a link's TIs are destroyed in: its admin ring is off, and its jobs, tags and invalidations are gone (R139). -/
def State.linkCleared (s : State) (l : Nat) : State :=
  let s := s.setAdm l {}
  { s with pcie := { s.pcie with
    jobs := s.pcie.jobs.filter (fun e => match e.2 with
      | some x => x.link != l || x.ti.isSome
      | none => false)
    tags := s.pcie.tags.filter (fun e => match e.2 with
      | some g => g.link != l
      | none => false)
    orphans := mapSet 0 s.pcie.orphans l 0
    invs := s.pcie.invs.filter (fun v => v.link != l) } }

theorem State.destroyLink_eq (s : State) (l : Nat) : s.destroyLink l = s.pcie.tis.foldl (fun s e =>
    if e.2.link = l ∧ e.2.st ≠ 0 then
      s.startReset e.1 { squash := true, since := s.mono, limit := s.mono, destroy := true, owed := false }
    else s) (s.linkCleared l) := rfl

theorem State.destroyLink_idle (h : s.pcie.tis = []) : s.destroyLink l = s.linkCleared l := by
  rw [State.destroyLink_eq, h, List.foldl_nil]

theorem State.destroyLink_one (h : s.pcie.tis = [(n, s.ti n)]) (hst : (s.ti n).st ≠ 0) (hl : (s.ti n).link = l)
    (hth : s.sedge.threads = []) (hfr : s.eth.frames = []) :
    ∃ P E, s.destroyLink l = { s with pcie := P, eth := E } ∧ State.Destroyed { s with pcie := P, eth := E } n := by
  obtain ⟨P, E, hP, hd⟩ := State.startReset_idle (s := s.linkCleared l) (n := n)
    (r := { squash := true, since := s.mono, limit := s.mono, destroy := true, owed := false }) hth hfr rfl rfl
  refine ⟨P, E, ?_, hd⟩
  rw [State.destroyLink_eq, h, List.foldl_cons, List.foldl_nil, if_pos ⟨hl, hst⟩]
  exact hP

/-- Whatever the destruction of its TIs leaves, a link's reset is confined to the complex and to its own BAR0 (R429). -/
theorem State.linkReset_untraced (h : s.Untraced (s.destroyLink l)) : s.Untraced (s.linkReset l) := by
  have hregs : (s.linkReset l).regs = mapDrop (fun a => inBlock (.bar0 l) a && !false) (s.destroyLink l).regs := rfl
  refine h.trans ⟨rfl, rfl, rfl, rfl, rfl, fun a d ha => ?_⟩
  have hlow := ha.lt
  have hbase := le_base_bar0 l
  rw [hregs, mapGet_mapDrop, if_neg]
  simp only [inBlock, Bool.not_false, Bool.and_true, decide_eq_true_eq]
  omega

theorem State.linkDown_untraced (h : s.Untraced (s.destroyLink l)) : s.Untraced (s.linkDown l) := h.trans {}

theorem State.pf_linkReset : (s.linkReset l).pf l = { up := ((s.destroyLink l).pf l).up } := State.pf_setPf ..

theorem State.msixWord_linkReset (h : k / 16384 = l) : (s.linkReset l).msixWord k = msixReset k := by
  have : (s.linkReset l).msixWord k = mapGet (msixReset k) (mapDrop (fun k => k / 16384 == l) (s.destroyLink l).pcie.msix) k := rfl
  rw [this, mapGet_mapDrop, if_pos (by simp [h])]

end Sys2Proof.Machine

namespace Sys2Proof.Machine

variable {s : State} {l : Fin 2} {n : Fin 2048}

/-! ### The commands of links (R139, R429) -/

theorem State.Calm.pcieLinkDown_idle (hc : s.Calm) (h : s.pcie.tis = []) :
    s.Does (.pcieLinkDown l) (fun t => t.pf l = { s.pf l with up := false } ∧ t.adm l = {}) := by
  have hd := State.destroyLink_idle (l := l) h
  have hadm : (s.linkDown l).adm l = {} := by
    have : (s.linkDown l).adm l = (s.destroyLink l).adm l := rfl
    rw [this, hd]
    exact s.adm_setAdm l {}
  have hpf : (s.linkDown l).pf l = { (s.destroyLink l).pf l with up := false } := State.pf_setPf ..
  rw [hd] at hpf
  exact hc.does rfl (State.linkDown_untraced (hd ▸ {})) ⟨hpf, hadm⟩

theorem State.Calm.functionLevelReset_idle (hc : s.Calm) (h : s.pcie.tis = []) :
    s.Does (.functionLevelReset l) (fun t => t.pf l = { up := (s.pf l).up } ∧ t.adm l = {} ∧
      ∀ k, k / 16384 = l.val → t.msixWord k = msixReset k) := by
  have hd := State.destroyLink_idle (l := l) h
  have hadm : (s.linkReset l).adm l = {} := by
    have : (s.linkReset l).adm l = (s.destroyLink l).adm l := rfl
    rw [this, hd]
    exact s.adm_setAdm l {}
  have hpf := s.pf_linkReset (l := l)
  rw [hd] at hpf
  exact hc.does rfl (State.linkReset_untraced (hd ▸ {})) ⟨hpf, hadm, fun k => State.msixWord_linkReset⟩

/-- The end of a link, and the reset of its function, destroy the TI that it has. -/
theorem State.Calm.link_destroys (hc : s.Calm) (hfr : s.eth.frames = []) (hth : s.sedge.threads = []) (hst : (s.ti n).st ≠ 0)
    (hl : (s.ti n).link = l) (h : s.pcie.tis = [(n.val, s.ti n)]) (q : Nat) :
    s.Does (.pcieLinkDown l) (fun t => (t.ti n).st = 4 ∧ t.qp (n.val + 2048 * q) = none) ∧
    s.Does (.functionLevelReset l) (fun t => (t.ti n).st = 4 ∧ t.qp (n.val + 2048 * q) = none) := by
  obtain ⟨P, E, he, hd⟩ := State.destroyLink_one h hst hl hth hfr
  have hu : s.Untraced (s.destroyLink l) := he ▸ {}
  have hdown : (s.linkDown l).Destroyed n := (he ▸ hd : (s.destroyLink l).Destroyed n)
  have hreset : (s.linkReset l).Destroyed n := (he ▸ hd : (s.destroyLink l).Destroyed n)
  exact ⟨hc.does rfl (State.linkDown_untraced hu) ⟨hdown.1, hdown.qp q n.isLt⟩,
    hc.does rfl (State.linkReset_untraced hu) ⟨hreset.1, hreset.qp q n.isLt⟩⟩

/-- Settles O50: each of the complex's commands by its lemma. -/
theorem hostQueues : Obligations.HostQueues := by
  intro s r l n q v hc
  refine ⟨fun hb => ⟨fun w hbad => hc.doorbells_discard hb hbad, fun x hst hl hx he hcl => ?_⟩, fun x hx => ⟨?_, ?_⟩, ?_, ?_,
    fun tag p b z => ⟨?_, ?_, ?_⟩, ⟨?_, ?_⟩, ?_, ?_, ?_, ?_, ?_⟩
  · have hs : s.Serves l n q x := ⟨n.isLt, hst, hl, hx, he, hcl⟩
    exact ⟨hc.sqTailDoorbell_discard hb hs, fun hd => ⟨hc.sqTailDoorbell_moves hb hs hd, hc.sqTailDoorbell_arms hb hs hd⟩,
      hc.cqHeadDoorbell_discard hb hs, hc.cqHeadDoorbell_moves hb hs, hc.rqTailDoorbell_discard hb hs, hc.rqTailDoorbell_moves hb hs⟩
  · exact fun hd hst hen hr hm => hc.cqModTimeout_due hx hd hst hen hr hm
  · exact fun hd => hc.cqModTimeout_not_due hx hd
  · exact fun g tag j x page ta wr ht hp hg hj hti hst hw hn hone hpage ha hen hr hlim =>
      hc.atsTranslation_read ht hp hg hj hti hst hw hn hone hpage ha hen hr hlim
  · exact fun j x hpri hj hti hst hn ha hen hr hlim => hc.priResponse_retries hpri hj hti hst hn ha hen hr hlim
  · exact hc.atsInvalidation_accepted
  · exact hc.atsInvalidation_full
  · exact fun js hi => ⟨hc.atsInvalidation_completes hi, hc.atsInvalidation_waits hi⟩
  · exact hc.ctxoDataWrite_takes
  · exact hc.ctxoDataWrite_refused
  · exact fun g tag j m x d p ht hp hg hj hw ho hf hoff hlen hdata =>
      ⟨hc.completion_data ht hp hg hj hw ho hf hoff hlen hdata, hc.completion_timeout ht hp hg hj hw ho⟩
  · exact hc.pcieLinkUp
  · exact fun h => ⟨hc.pcieLinkDown_idle h, hc.functionLevelReset_idle h⟩
  · exact fun _ hfr hth hst hl h => hc.link_destroys hfr hth hst hl h q
  · exact fun a b c d hu => hc.configSpaceWrite hu

end Sys2Proof.Machine

/-! A warm reset that counts a dropped frame in DRAM: the state that refutes O60. -/

namespace Sys2Proof.Machine

/-- Tenant interface 0 of link 0 has a received frame in flight, its counter bank 15 lies at DRAM address 0 (R132), Ethernet may write
there, and PERST# of link 0 makes a warm reset (R429). -/
def frameInFlight : State :=
  { State.reset with
    regs := ((State.reset.wr .peat R.RST_CFG 1).wr .eth R.CNTB_SIZE 64 15).regs
    sward := { atab := [(0x182, 0x180)] }
    mem := { chans := [(0, { initDone := true })] }
    pcie := { tis := [(0, { st := 1 })] }
    eth := { frames := [(0, { rx := true })] } }

theorem frameInFlight_calm : frameInFlight.Calm := ⟨by decide +kernel, by decide⟩

theorem exec_perstAssert (l : Fin 2) (s : State) : exec (.perstAssert l) s = (s.perstOn l).done s := rfl

/-- The bytes a command leaves are those of the state its meaning and the trace reached. -/
theorem State.byte_of_done {x s t : State} (h : x.done s = .next t) (a : Nat) : t.byte a = (x.traced s).byte a := by
  unfold State.done at h
  cases h
  rfl

/-- The warm reset destroys the TI (R139, R430), and the drop of its frame is counted in RX_DROP_TI, counter 2 of the bank (R131, R160). -/
theorem frameInFlight_dropCounted : ((frameInFlight.perstOn (0 : Fin 2)).traced frameInFlight).byte 16 = 1 := by decide +kernel

/-- Refutes O60: a warm reset does not keep DRAM where it destroys a TI whose dropped frames the device counts there. -/
theorem not_clocksPowerResets : ¬ Obligations.ClocksPowerResets := by
  intro h
  obtain ⟨-, -, -, -, -, -, -, -, -, -, -, -, -, -, -, -, -, -, -, -, -, hperst, -⟩ :=
    h frameInFlight { master := 0, priv := 0, epoch := 0 } 0 0 0 0 0 0 false false frameInFlight_calm
  obtain ⟨t, ht, -, -, -, -, -, hdram, -⟩ := hperst (by decide +kernel)
  have hkept : t.byte 16 = frameInFlight.byte 16 := hdram 16 (by decide)
  rw [exec_perstAssert] at ht
  rw [State.byte_of_done ht, frameInFlight_dropCounted] at hkept
  exact absurd hkept (by decide +kernel)

end Sys2Proof.Machine

/-! The state PORST_N leaves (R30, R59, R224, R267, R344, R360). -/

namespace Sys2Proof.Machine

theorem State.reset_calm : State.reset.Calm := ⟨by decide +kernel, by decide⟩

theorem State.reset_inv : State.reset.Inv := ⟨by decide, fun _ h => absurd h List.not_mem_nil⟩

/-- R267: every schedulable bank outside Gorse's core is OFF after reset. -/
theorem bankReset_off {p b : Nat} (hp : p < 252) (hb : b < 4) : (bankReset p b).st = .off := by
  have h4 : b ≠ 4 := by omega
  have h252 : ¬ (p = 252 ∧ b = 0) := by omega
  simp [bankReset, h4, h252]

/-- Settles O26: every table is empty after reset, so each entry is the default that its definition names. -/
theorem resetState : Obligations.ResetState :=
  ⟨rfl, rfl, rfl, rfl, Memory.wf_reset, State.reset_inv, State.reset_calm,
    fun _ hp => ⟨rfl, rfl, fun _ hb => bankReset_off hp hb⟩, fun _ _ => rfl, fun _ _ _ _ => rfl, fun _ => rfl⟩

end Sys2Proof.Machine

/-! Mode transitions: what the steps of a transition leave aside. -/

namespace Sys2Proof.Machine

variable {s t x : State} {p n : Nat}

/-- From `s` to `t` neither the mode, nor the slot banks, nor the Tussocks out of reset, nor the egress queues have changed, nor
anything that the trace shows. -/
structure State.Aside (s t : State) : Prop where
  mode : t.mode = s.mode := by rfl
  sward : t.sward = s.sward := by rfl
  tusUp : t.tusUp = s.tusUp := by rfl
  egress : t.eth.egress = s.eth.egress := by rfl
  untraced : s.Untraced t := by exact {}

theorem State.Aside.refl (s : State) : s.Aside s := {}

theorem State.Aside.trans (h : s.Aside t) (k : t.Aside x) : s.Aside x :=
  ⟨k.mode.trans h.mode, k.sward.trans h.sward, k.tusUp.trans h.tusUp, k.egress.trans h.egress, h.untraced.trans k.untraced⟩

/-- Steps that each leave them aside do so together. -/
theorem State.Aside.foldl {α : Type} {f : State → α → State} (hf : ∀ t, s.Aside t → ∀ a, t.Aside (f t a)) (l : List α) (h : s.Aside t) :
    s.Aside (l.foldl f t) := by
  induction l generalizing t with
  | nil => exact h
  | cons a l ih => exact ih (h.trans (hf t h a))

theorem State.aside_setCore {c : Core} (h : c.mcActive = (s.core p).mcActive) : s.Aside (s.setCore p c) where
  untraced.mcActive := by
    by_cases hp : p = 252
    · subst hp
      rw [State.core_setCore_self, h]
    · rw [State.core_setCore_ne _ _ _ _ (Ne.symm hp)]

theorem State.aside_wr {u : UnitId} {g : Reg} {v : Word} {i j : Nat} (h : ¬ traceReg (regAddr u g i j)) : s.Aside (s.wr u g v i j) where
  untraced.regs _ _ ha := mapGet_mapSet_ne _ _ _ _ (fun e => h (e ▸ ha))

theorem not_traceReg_ethStatus : ¬ traceReg (regAddr .eth R.ETH_STATUS 0 0) := by
  rintro (⟨k, hk, e⟩ | ⟨t, ht, e⟩) <;> simp only [regAddr, UnitId.base, R.ETH_STATUS, R.HR_SRC_EN, R.FR_CFG] at e <;> omega

/-! ### Predictors (R31) -/

theorem State.aside_predSelect : s.Aside (s.predSelect p) := by
  unfold State.predSelect
  extract_lets want c
  split_ifs
  · exact .refl s
  · exact State.aside_setCore rfl

theorem State.aside_predAll : s.Aside s.predAll := by
  refine .foldl (fun t _ p => ?_) _ (.refl s)
  split_ifs
  · exact State.aside_predSelect
  · exact .refl t

/-- PREDICTOR_CLEAR_DONE ends the core's clearing and leaves its selection. -/
theorem State.predDone_core : ((s.predDone p).core p).clearing = false ∧ ((s.predDone p).core p).tagged = (s.core p).tagged := by
  unfold State.predDone
  split_ifs with h
  · rw [State.core_setCore_self]
    exact ⟨rfl, rfl⟩
  · exact ⟨Bool.eq_false_of_not_eq_true h, rfl⟩

theorem State.aside_predDone : s.Aside (s.predDone p) := by
  unfold State.predDone
  split_ifs
  · exact State.aside_setCore rfl
  · exact .refl s

/-! ### PLLs (R34, R419) -/

theorem State.aside_pllSet {on : Bool} : s.Aside (s.pllSet n on) := by
  unfold State.pllSet
  cases on
  · exact {}
  · exact {}

theorem State.aside_surgeOff : s.Aside s.surgeOff := by
  unfold State.surgeOff
  split_ifs
  · exact .refl s
  · exact State.aside_pllSet

/-! ### Links, where no frame waits at a port (R109, R135) -/

theorem State.aside_linkBits : s.Aside s.linkBits := State.aside_wr not_traceReg_ethStatus

theorem State.aside_flushPort (h : s.eth.egress = []) : s.Aside (s.flushPort p) := by
  refine .foldl (fun t ht c => ?_) _ (.refl s)
  have he : t.eth.egress = [] := ht.egress.trans h
  have hq : t.egress (8 * p + c) = [] := by rw [State.egress, he, mapGet_nil]
  have hset : mapSet [] t.eth.egress (8 * p + c) [] = t.eth.egress := by simp [he, mapSet, mapErase]
  simp only [hq, List.foldl_nil]
  exact { egress := hset }

theorem State.aside_portDown (h : s.eth.egress = []) : s.Aside (s.portDown p) := by
  unfold State.portDown
  extract_lets port down eth cut
  have hcut : s.Aside cut := {}
  have hflush : cut.Aside (cut.flushPort p) := State.aside_flushPort (hcut.egress.trans h)
  exact hcut.trans (hflush.trans State.aside_linkBits)

theorem State.aside_portStart : s.Aside (s.portStart p) := by
  unfold State.portStart
  split_ifs
  · exact {}
  · exact {}

theorem State.aside_linksDown {restart : Bool} (h : s.eth.egress = []) : s.Aside (s.linksDown restart) := by
  unfold State.linksDown
  refine .foldl (fun t _ p => ?_) _ (.foldl (fun t ht p => State.aside_portDown (ht.egress.trans h)) _ (.refl s))
  split_ifs
  · exact State.aside_portStart
  · exact {}

end Sys2Proof.Machine

namespace Sys2Proof.Machine

variable {s t x : State} {tr : Trans} {ts code : Nat}

/-! ### The end of a transition (R35) -/

theorem State.evalLatched_none (h : s.mode.pending = none) : s.evalLatched = s := by simp [State.evalLatched, h]

/-- With no request latched, the completion of a transition touches the transition and RCV_PEND alone. -/
theorem State.transDone_eq (h : s.mode.pending = none) : ∃ y b, s.transDone = s.setMode { s.mode with trans := y, rcvPend := b } := by
  unfold State.transDone
  split
  · split_ifs
    · exact ⟨none, false, State.evalLatched_none h⟩
    · exact ⟨none, s.mode.rcvPend, State.evalLatched_none h⟩
    · exact ⟨s.mode.trans, s.mode.rcvPend, rfl⟩
  · exact ⟨s.mode.trans, s.mode.rcvPend, rfl⟩

/-! ### The swap (R33, R45) -/

/-- From `s` to `x` the banks have changed over and MODE has taken the value `m`. -/
structure State.ChangedOver (s : State) (m : Mode) (x : State) : Prop where
  mode : x.mode.mode = m
  prev : x.mode.prev = s.mode.mode
  pending : x.mode.pending = s.mode.pending
  active : x.sward.active = s.sward.shadow
  activePlan : x.sward.activePlan = s.sward.shadowPlan
  untraced : s.Untraced x

theorem State.ChangedOver.aside {m : Mode} (h : s.ChangedOver m t) (k : t.Aside x) : s.ChangedOver m x :=
  ⟨k.mode ▸ h.mode, k.mode ▸ h.prev, k.mode ▸ h.pending, k.sward ▸ h.active, k.sward ▸ h.activePlan, h.untraced.trans k.untraced⟩

theorem State.ChangedOver.vLoad {m : Mode} (h : s.ChangedOver m t) : s.ChangedOver m t.vLoad :=
  ⟨h.mode, h.prev, h.pending, h.active, h.activePlan, h.untraced.trans {}⟩

theorem State.ChangedOver.transDone {m : Mode} (h : s.ChangedOver m t) (hp : s.mode.pending = none) : s.ChangedOver m t.transDone := by
  obtain ⟨y, b, he⟩ := State.transDone_eq (h.pending.trans hp)
  rw [he]
  exact ⟨h.mode, h.prev, h.pending, h.active, h.activePlan, h.untraced.trans {}⟩

/-- R33, R36: the swap, and what follows from it, for a transition of either kind. -/
theorem State.swapNow_changedOver (hp : s.mode.pending = none) (he : s.eth.egress = []) : s.ChangedOver tr.target (s.swapNow tr) := by
  unfold State.swapNow
  extract_lets old banks src moded clk begun pred plls links reload
  have hbegun : s.ChangedOver tr.target begun := ⟨rfl, rfl, rfl, rfl, rfl, {}⟩
  have hplls : begun.Aside plls := State.aside_predAll.trans (State.aside_pllSet.trans State.aside_surgeOff)
  have hlinks : begun.Aside links := by
    simp only [links]
    split_ifs
    · exact hplls.trans (State.aside_linksDown (hplls.egress.trans he))
    · exact hplls
  refine State.ChangedOver.transDone ?_ hp
  simp only [reload]
  split_ifs
  · exact hbegun.aside hlinks
  · exact (hbegun.aside hlinks).vLoad

theorem State.modeSwap_due (ht : s.mode.trans = some tr) (hts : tr.ts = some ts) (hd : tr.device = false) (hs : tr.swapped = false)
    (hn : ts ≤ s.now) : s.modeSwap = s.swapNow tr := by
  simp [State.modeSwap, ht, hts, hd, hs, hn]

theorem State.recoveryEntry_due (ht : s.mode.trans = some tr) (hts : tr.ts = some ts) (hd : tr.device = true) (hs : tr.swapped = false)
    (hn : ts ≤ s.now) : s.recoveryEntry = s.swapNow tr := by
  simp [State.recoveryEntry, ht, hts, hd, hs, hn]

theorem State.Calm.swap (hc : s.Calm) (hp : s.mode.pending = none) (he : s.eth.egress = []) (ht : s.mode.trans = some tr)
    (hts : tr.ts = some ts) (hs : tr.swapped = false) (hn : ts ≤ s.now) :
    ∀ c ∈ (if tr.device then [Instr.recoveryEntry] else [Instr.modeSwap]),
      s.Does c (fun x => x.mode.mode = tr.target ∧ x.mode.prev = s.mode.mode ∧ x.sward.active = s.sward.shadow ∧
        x.sward.activePlan = s.sward.shadowPlan) := by
  have h := State.swapNow_changedOver (tr := tr) hp he
  have hP := And.intro h.mode (And.intro h.prev (And.intro h.active h.activePlan))
  intro c hmem
  cases hd : tr.device with
  | true =>
    obtain rfl : c = .recoveryEntry := by simpa [hd] using hmem
    exact hc.does (congrArg (State.done · s) (State.recoveryEntry_due ht hts hd hs hn)) h.untraced hP
  | false =>
    obtain rfl : c = .modeSwap := by simpa [hd] using hmem
    exact hc.does (congrArg (State.done · s) (State.modeSwap_due ht hts hd hs hn)) h.untraced hP

end Sys2Proof.Machine

namespace Sys2Proof.Machine

variable {s t x : State} {tr : Trans} {code : Nat}

/-! ### Loading (R33, R45, R53) -/

/-- R33: a swap time lies at the first wheel boundary at or after `n`. -/
theorem wheelAt_spec (n : Nat) : wheelAt n % 32 = 0 ∧ n ≤ wheelAt n ∧ wheelAt n < n + 32 := by
  unfold wheelAt ceilTo
  omega

/-- MODE_LEAD is clamped to between 16 and 1,024 wheels (R33). -/
theorem clampNat_bounds (n : Nat) : 16 ≤ clampNat 16 1024 n ∧ clampNat 16 1024 n ≤ 1024 := by
  unfold clampNat
  omega

/-- The loader at rest. -/
def State.loaderIdle (s : State) : State := { s with sward := { s.sward with loading := none } }

theorem State.shadowLoad_ok {e : Map Nat} (h : s.loaderIdle.planLoad code = .ok e) : s.shadowLoad code =
    (true, { s with sward := { s.sward with loading := none, shadow := e, shadowPlan := code, shadowValid := true } }) := by
  unfold State.loaderIdle at h
  simp only [State.shadowLoad, h]

theorem State.shadowLoad_failed (h : ∀ e, s.loaderIdle.planLoad code ≠ .ok e) : ∃ W, s.shadowLoad code = (false, { s with sward := W }) := by
  unfold State.loaderIdle at h
  unfold State.shadowLoad
  extract_lets idle
  split
  · exact absurd ‹_› (h _)
  · exact ⟨_, rfl⟩
  · exact ⟨_, rfl⟩

/-- A load ends with the loader at rest, and touches nothing but the slot banks. -/
theorem State.shadowLoad_rest : ∃ ok W, s.shadowLoad code = (ok, { s with sward := W }) ∧ W.loading = none := by
  unfold State.shadowLoad
  extract_lets idle
  split
  · exact ⟨_, _, rfl, rfl⟩
  · exact ⟨_, _, rfl, rfl⟩
  · exact ⟨_, _, rfl, rfl⟩

/-- A transition that software asked for is scheduled once its plan is loaded (R33). -/
theorem State.planLoaded_ok (ht : s.mode.trans = some tr) (hd : tr.device = false) (hts : tr.ts = none) (hl : s.sward.loading = tr.target.plan)
    (h : s.shadowLoad (tr.target.plan.getD 7) = (true, x)) :
    s.planLoaded = x.schedule tr (wheelAt (x.now + 32 * clampNat 16 1024 (x.rf .device R.MODE_LEAD F.MODE_LEAD_LEAD))) := by
  simp [State.planLoaded, ht, hd, hts, hl, h]

/-- And abandoned where the load fails, with plan V reloaded in the modes that keep it. -/
theorem State.planLoaded_failed (ht : s.mode.trans = some tr) (hd : tr.device = false) (hts : tr.ts = none) (hl : s.sward.loading = tr.target.plan)
    (h : s.shadowLoad (tr.target.plan.getD 7) = (false, x)) : s.planLoaded =
      (if (x.abandon 5).mode.mode = .steady ∨ (x.abandon 5).mode.mode = .surge ∨ (x.abandon 5).mode.mode = .maintenance then
        (x.abandon 5).vLoad else x.abandon 5).evalLatched := by
  simp [State.planLoaded, ht, hd, hts, hl, h]

/-- R40: a request abandoned leaves its error and no transition. -/
theorem State.abandon_spec (s : State) (err : Nat) :
    (s.abandon err).mode = { s.mode with trans := none, reqErr := err } ∧ s.Untraced (s.abandon err) :=
  have h : ((s.setTrans none).reqErr err).Aside (s.abandon err) := State.aside_surgeOff
  ⟨h.mode, State.Untraced.trans {} h.untraced⟩

/-- The loaded plan sets the swap time a lead of 16 to 1,024 whole wheels ahead. -/
theorem State.Calm.planLoadDone_ok {e : Map Nat} (hc : s.Calm) (ht : s.mode.trans = some tr) (hd : tr.device = false) (hts : tr.ts = none)
    (hcode : tr.target.plan = some code) (hl : s.sward.loading = some code) (h : s.loaderIdle.planLoad code = .ok e) :
    s.Does .planLoadDone (fun x => x.sward.shadow = e ∧ x.sward.shadowPlan = code ∧ x.sward.shadowValid = true ∧
      ∃ ts, x.mode.trans = some { tr with ts := some ts } ∧ ts % 32 = 0 ∧ s.now + 32 * 16 ≤ ts ∧ ts < s.now + 32 * 1024 + 32) := by
  have hget : tr.target.plan.getD 7 = code := by simp [hcode]
  have hload := State.planLoaded_ok ht hd hts (hl.trans hcode.symm) (by rw [hget]; exact State.shadowLoad_ok h)
  obtain ⟨hwheel, hge, hlt⟩ := wheelAt_spec (s.now + 32 * clampNat 16 1024 (s.rf .device R.MODE_LEAD F.MODE_LEAD_LEAD))
  obtain ⟨hmin, hmax⟩ := clampNat_bounds (s.rf .device R.MODE_LEAD F.MODE_LEAD_LEAD)
  refine hc.does (congrArg (State.done · s) hload) {} ⟨rfl, rfl, rfl, _, rfl, hwheel, Nat.le_trans ?_ hge, Nat.lt_of_lt_of_le hlt ?_⟩
  · omega
  · omega

/-- A plan that does not load abandons the request with REQ_ERR 5. -/
theorem State.Calm.planLoadDone_failed (hc : s.Calm) (hp : s.mode.pending = none) (ht : s.mode.trans = some tr) (hd : tr.device = false)
    (hts : tr.ts = none) (hcode : tr.target.plan = some code) (hl : s.sward.loading = some code)
    (h : ∀ e, s.loaderIdle.planLoad code ≠ .ok e) :
    s.Does .planLoadDone (fun x => x.mode.trans = none ∧ x.mode.reqErr = 5 ∧ x.mode.mode = s.mode.mode) := by
  have hget : tr.target.plan.getD 7 = code := by simp [hcode]
  obtain ⟨W, hW⟩ := State.shadowLoad_failed h
  have hload := State.planLoaded_failed ht hd hts (hl.trans hcode.symm) (hget ▸ hW)
  obtain ⟨hmode, hu⟩ := State.abandon_spec { s with sward := W } 5
  generalize State.abandon { s with sward := W } 5 = y at hload hmode hu
  obtain ⟨W', v, hv⟩ : ∃ W' v, (if y.mode.mode = .steady ∨ y.mode.mode = .surge ∨ y.mode.mode = .maintenance then y.vLoad else y) =
      { y with sward := W', mode := { y.mode with vReload := v } } := by
    split_ifs
    · exact ⟨_, true, rfl⟩
    · exact ⟨y.sward, y.mode.vReload, rfl⟩
  have hpend : y.mode.pending = none := (congrArg ModeSt.pending hmode).trans hp
  have hend := hload.trans ((congrArg State.evalLatched hv).trans (State.evalLatched_none hpend))
  exact hc.does (congrArg (State.done · s) hend) (State.Untraced.trans (t := y) (State.Untraced.trans {} hu) {})
    (by rw [hmode]; exact ⟨rfl, rfl, rfl⟩)

end Sys2Proof.Machine

namespace Sys2Proof.Machine

variable {s t x : State} {tr : Trans} {code : Nat}

/-! ### What follows the swap (R34, R36, R38) -/

/-- R38: with no transition and no trigger waiting, the end of plan V's reload touches the slot banks and the flag alone. -/
theorem State.vReloaded_idle (hv : s.mode.vReload = true) (hl : s.sward.loading = some 3) (ht : s.mode.trans = none)
    (hr : s.mode.rcvWant = false) : ∃ W, s.vReloaded = { s with sward := W, mode := { s.mode with vReload := false } } ∧ W.loading = none := by
  obtain ⟨ok, W, hW, hidle⟩ := State.shadowLoad_rest (s := s) (code := 3)
  exact ⟨W, by simp [State.vReloaded, hv, hl, hW, ht, hr, State.setMode, State.transDone], hidle⟩

theorem State.Calm.planVReloadDone (hc : s.Calm) (hv : s.mode.vReload = true) (hl : s.sward.loading = some 3) (ht : s.mode.trans = none)
    (hr : s.mode.rcvWant = false) :
    s.Does .planVReloadDone (fun x => x.mode = { s.mode with vReload := false } ∧ x.sward.loading = none) := by
  obtain ⟨W, hW, hidle⟩ := State.vReloaded_idle hv hl ht hr
  exact hc.does (congrArg (State.done · s) hW) {} ⟨rfl, hidle⟩

/-- R34: service Tussocks change PLL. -/
theorem State.Calm.serviceClockSwitch (hc : s.Calm) (hp : s.mode.pending = none) (ht : s.mode.trans = some tr) (hs : tr.swapped = true)
    (hk : tr.needClk = true) (hlock : tr.target ≠ .surge ∨ s.pllLocked 2 = true) :
    s.Does .serviceClockSwitch (fun x => x.mode.svcFast = (tr.target == .surge)) := by
  set fast := s.setMode { s.mode with svcFast := tr.target == .surge } with hfast
  set pll := if tr.target = .surge then fast else fast.pllSet 2 false with hpll
  have he : s.clockSwitch = (pll.setTrans (some { tr with needClk := false })).transDone := by
    simp [State.clockSwitch, ht, hs, hk, hlock, hpll, hfast]
  have ha : fast.Aside pll := by
    rw [hpll]
    split_ifs
    · exact .refl fast
    · exact State.aside_pllSet
  have hpend : (pll.setTrans (some { tr with needClk := false })).mode.pending = none := (congrArg ModeSt.pending ha.mode).trans hp
  obtain ⟨y, b, hy⟩ := State.transDone_eq hpend
  refine hc.does (congrArg (State.done · s) (he.trans hy)) ?_ (congrArg ModeSt.svcFast ha.mode)
  exact State.Untraced.trans (t := fast) {} (ha.untraced.trans {})

/-- R36: a Tussock held in BOOT leaves reset. -/
theorem State.tussockUp_spec {k : Fin 28} (hp : s.mode.pending = none) (ht : s.mode.trans = some tr) (hn : tr.needTus = true)
    (hk : k.val ∉ s.tusUp) : s.Untraced (s.tussockUp k) ∧ (s.tussockUp k).tusUp = s.tusUp ++ [k.val] := by
  have hcond : tr.needTus ∧ k.val < 28 ∧ (!s.tusUp.contains k.val) := by simp [hn, hk]
  simp -zeta only [State.tussockUp, ht, if_pos hcond]
  extract_lets up cores
  have hcores : up.Aside cores := by
    refine .foldl (fun t _ c => ?_) _ (.refl up)
    exact State.aside_setCore rfl
  clear_value cores
  have hu : s.Untraced cores := State.Untraced.trans {} hcores.untraced
  split_ifs
  · obtain ⟨y, b, hy⟩ := State.transDone_eq (s := cores.setTrans (some { tr with needTus := false }))
      ((congrArg ModeSt.pending hcores.mode).trans hp)
    rw [hy]
    exact ⟨hu.trans {}, hcores.tusUp⟩
  · exact ⟨hu, hcores.tusUp⟩

end Sys2Proof.Machine

/-! Entry to DORMANT (R36, R83), the quiet packet path (R135), and the statement. -/

namespace Sys2Proof.Machine

variable {s t x : State} {n : Nat} {keep : Bool}

/-! ### Fields (R4) -/

/-- A field written reads back, truncated to its width. -/
theorem fld_setFld (w : Word) (f : Fld) (v : Nat) (h : f.hi < 32) : (w.setFld f v).fld f = v % 2 ^ f.width := by
  unfold Word.setFld Word.fld natBits Fld.mask Fld.width
  refine Nat.eq_of_testBit_eq fun i => ?_
  by_cases hi : i < f.hi + 1 - f.lo
  · have hlow : f.lo + i < 32 := by omega
    have hones : Nat.testBit 0xFFFFFFFF (f.lo + i) = true := by
      rw [show 0xFFFFFFFF = 2 ^ 32 - 1 from rfl, Nat.testBit_two_pow_sub_one, decide_eq_true hlow]
    simp only [BitVec.toNat_ofNat, Nat.testBit_mod_two_pow, Nat.testBit_shiftRight, Nat.testBit_or, Nat.testBit_and, Nat.testBit_xor,
      Nat.testBit_shiftLeft, Nat.testBit_two_pow_sub_one, hones, hlow, hi]
    simp [hi]
  · simp [Nat.testBit_mod_two_pow, hi]

theorem State.rf_wf (u : UnitId) (g : Reg) (f : Fld) (v i j : Nat) (h : f.hi < 32) : (s.wf u g f v i j).rf u g f i j = v % 2 ^ f.width := by
  rw [State.rf, State.wf, State.rd_wr_self, fld_setFld _ _ _ h]

/-! ### The packet path (R135) -/

theorem State.Calm.pathQuiesced (hc : s.Calm) (hd : s.dpOn = false) (he : s.pathEmpty = true) :
    s.Does .pathQuiesced (fun x => x.quiesced = true) := by
  have hexec : exec .pathQuiesced s = (s.wf .eth R.ETH_STATUS F.ETH_STATUS_QUIESCED 1).done s :=
    congrArg (State.done · s) (if_pos (by simp [hd, he]))
  have hdp : (s.wf .eth R.ETH_STATUS F.ETH_STATUS_QUIESCED 1).dpOn = false := by
    have hrb : (s.wf .eth R.ETH_STATUS F.ETH_STATUS_QUIESCED 1).rd .device R.MODE_REQ = s.rd .device R.MODE_REQ :=
      s.rd_wr_ne .eth .device R.ETH_STATUS R.MODE_REQ _ 0 0 0 0 (by decide)
    rw [← hd]
    simp only [State.dpOn, State.rb, State.rf, hrb]
    rfl
  have hq : (s.wf .eth R.ETH_STATUS F.ETH_STATUS_QUIESCED 1).rf .eth R.ETH_STATUS F.ETH_STATUS_QUIESCED = 1 :=
    State.rf_wf .eth R.ETH_STATUS F.ETH_STATUS_QUIESCED 1 0 0 (by decide)
  refine hc.does hexec (State.aside_wr not_traceReg_ethStatus).untraced ?_
  have hpath : (s.wf .eth R.ETH_STATUS F.ETH_STATUS_QUIESCED 1).pathEmpty = true := he
  simp [State.quiesced, State.rb, hq, hdp, hpath]

/-! ### Entry to DORMANT (R36, R83, R427) -/

/-- R83: every channel takes the self-refresh it is told, and nothing but the memories changes. -/
theorem State.selfRefresh_channels (s : State) (n : Nat) : ∃ M,
    (List.range n).foldl (fun (s : State) c =>
      s.setChan c { s.chan c with selfRef := keep, initDone := (s.chan c).initDone && keep, exiting := false }) s = { s with mem := M } ∧
    ∀ c < n, (mapGet {} M.chans c).selfRef = keep := by
  induction n with
  | zero => exact ⟨s.mem, rfl, fun c hc => absurd hc (Nat.not_lt_zero c)⟩
  | succ n ih =>
    obtain ⟨M, hM, hself⟩ := ih
    rw [List.range_succ, List.foldl_append, hM]
    refine ⟨_, rfl, fun c hc => ?_⟩
    simp only [mapGet_mapSet]
    split_ifs with h
    · rfl
    · exact hself c (by omega)

theorem State.stacksDown_spec (s : State) (keep : Bool) : ∃ M, s.stacksDown keep = { s with mem := M } ∧
    ∀ c < 32, (mapGet {} M.chans c).selfRef = keep := by
  obtain ⟨M, hM, hself⟩ := s.selfRefresh_channels (keep := keep) 32
  unfold State.stacksDown
  simp only [hM]
  split_ifs
  · exact ⟨M, rfl, hself⟩
  · exact ⟨_, rfl, hself⟩

theorem State.ptripEnters_eq (s : State) (l : List Nat) : ∃ P, l.foldl (fun s k => s.ptripEnter k) s = { s with peat := P } ∧
    P.exiting = s.peat.exiting := by
  induction l generalizing s with
  | nil => exact ⟨s.peat, rfl, rfl⟩
  | cons k l ih =>
    obtain ⟨P, hP, hex⟩ := ih (s.ptripEnter k)
    exact ⟨P, hP, hex⟩

/-- The real part of the entry: the memories, and Peat with every PLL unlocked and the exit as it was. -/
theorem State.dormReal_spec (s : State) : ∃ M P, s.dormReal = { s with mem := M, peat := P } ∧ P.pllLock = 0 ∧ P.exiting = s.peat.exiting ∧
    ∀ c < 32, (mapGet {} M.chans c).selfRef = s.rb .device R.MODE_REQ F.MODE_REQ_STACKS := by
  obtain ⟨M, hM, hself⟩ := s.stacksDown_spec (s.rb .device R.MODE_REQ F.MODE_REQ_STACKS)
  obtain ⟨P, hP, hex⟩ := State.ptripEnters_eq { s with mem := M } (List.range 8)
  unfold State.dormReal
  simp only [hM, hP]
  exact ⟨M, _, rfl, rfl, hex, hself⟩

/-- What resumes or pauses a watchdog touches the watchdogs alone (R399). -/
theorem State.wdSync_eq (s : State) (u : UnitId) : ∃ G, s.wdSync u = { s with fault := G } := by
  unfold State.wdSync
  extract_lets x n
  split
  · split_ifs
    · exact ⟨_, rfl⟩
    · exact ⟨s.fault, rfl⟩
  · rw [if_neg Bool.false_ne_true]
    split_ifs
    · exact ⟨s.fault, rfl⟩
    · exact ⟨_, rfl⟩

theorem State.exitGo_idle (h : s.peat.exiting = none) : s.exitGo = s := by simp [State.exitGo, h]

theorem State.traceFlush_idle (hsrc : s.trace.src = []) (hhr : s.hrOn = false) : s.traceFlush = s := by
  simp [State.traceFlush, hsrc, hhr]

/-- R36, R40: the entry ends in DORMANT with no transition. -/
def ModeSt.asleep (m : ModeSt) : ModeSt :=
  { m with mode := .dormant, prev := m.mode, trans := none, dormEntry := false, emulDormant := false, dpRate := 0, svcFast := false,
           vReload := false, rcvWant := false }

/-- With no debugger attached, the entry leaves its mode, the memories and Peat, and beside them event inputs and watchdogs alone. -/
theorem State.dormComplete_spec (hd : s.mode.dormEntry = true) (ha : s.attached = false) (hx : s.peat.exiting = none) :
    ∃ M P E G, s.dormComplete = { s with mode := s.mode.asleep, mem := M, peat := P, meas := E, fault := G } ∧ P.pllLock = 0 ∧
      ∀ c < 32, (mapGet {} M.chans c).selfRef = s.rb .device R.MODE_REQ F.MODE_REQ_STACKS := by
  obtain ⟨M, P, hreal, hpll, hex, hself⟩ := State.dormReal_spec (s.setMode s.mode.asleep)
  have hcomplete : s.dormComplete = ((s.setMode s.mode.asleep).dormReal.eviPeriod.wdSync .peat).exitGo := by
    simp [State.dormComplete, hd, ha, ModeSt.asleep]
  obtain ⟨G, hG⟩ := State.wdSync_eq (State.eviPeriod { s.setMode s.mode.asleep with mem := M, peat := P }) .peat
  rw [hcomplete, hreal, hG]
  exact ⟨M, P, _, G, State.exitGo_idle (hex.trans hx), hpll, hself⟩

theorem State.Calm.dormantEntryComplete (hc : s.Calm) (hd : s.mode.dormEntry = true) (ha : s.attached = false) (hx : s.peat.exiting = none)
    (hsrc : s.trace.src = []) (hhr : s.hrOn = false) :
    s.Does .dormantEntryComplete (fun x => x.mode.mode = .dormant ∧ x.mode.prev = s.mode.mode ∧ x.mode.trans = none ∧
      x.mode.dormEntry = false ∧ x.peat.pllLock = 0 ∧ ∀ c, c < 32 → (x.chan c).selfRef = s.rb .device R.MODE_REQ F.MODE_REQ_STACKS) := by
  obtain ⟨M, P, E, G, he, hpll, hself⟩ := State.dormComplete_spec hd ha hx
  have hflush : (if s.mode.dormEntry then s.traceFlush else s) = s := by rw [State.traceFlush_idle hsrc hhr, ite_self]
  have hexec : exec .dormantEntryComplete s = s.dormComplete.done s :=
    congrArg (fun y : State => y.dormComplete.done s) hflush
  exact hc.does (hexec.trans (congrArg (State.done · s) he)) {} ⟨rfl, rfl, rfl, rfl, hpll, hself⟩

end Sys2Proof.Machine

namespace Sys2Proof.Machine

/-- Settles O37: each step of a transition by its lemma. -/
theorem modeTransitions : Obligations.ModeTransitions := by
  intro s hc hp he
  refine ⟨fun tr code ht hd hts hcode hl => ?_, fun tr ts ht hts hs hn => hc.swap hp he ht hts hs hn, fun p => ?_,
    hc.planVReloadDone, fun tr ht hs hk hlock => hc.serviceClockSwitch hp ht hs hk hlock, fun tr k ht hn hk => ?_,
    hc.dormantEntryComplete, hc.pathQuiesced⟩
  · generalize hr : State.planLoad _ code = r
    cases r with
    | ok e => exact hc.planLoadDone_ok ht hd hts hcode hl hr
    | bad err => exact hc.planLoadDone_failed hp ht hd hts hcode hl (fun e h => nomatch hr.symm.trans h)
    | missing => exact hc.planLoadDone_failed hp ht hd hts hcode hl (fun e h => nomatch hr.symm.trans h)
  · exact hc.does rfl State.aside_predDone.untraced State.predDone_core
  · obtain ⟨hu, htus⟩ := State.tussockUp_spec hp ht hn hk
    exact hc.does rfl hu htus

end Sys2Proof.Machine

/-! The Sward router block: which registers lie in it, what its monitors count, and faults that reach no event router (R22, R68, R338). -/

namespace Sys2Proof.Machine

variable {s t x : State} {u : UnitId} {g : Reg} {q a i j n : Nat} {P : Nat → Prop}

/-! ### Registers in the block (R22) -/

theorem inBlock_iff : inBlock u a = true ↔ u.base ≤ a ∧ a < u.base + u.size := decide_eq_true_iff

theorem inBlock_sw_regAddr (h : g.off + i * g.s1 + j * g.s2 < 0x10000) : inBlock (.sw q) (regAddr (.sw q) g i j) = true := by
  rw [inBlock_iff]
  simp only [regAddr, UnitId.size]
  omega

/-- No register that switches trace lies in a Sward router block. -/
theorem not_traceReg_of_inBlock_sw (h : inBlock (.sw q) a = true) : ¬ traceReg a := by
  rw [inBlock_iff] at h
  simp only [UnitId.base, UnitId.size] at h
  rintro (⟨k, hk, rfl⟩ | ⟨t, ht, rfl⟩)
  · simp only [regAddr, UnitId.base, R.HR_SRC_EN] at h
    omega
  · simp only [List.mem_cons, List.not_mem_nil, or_false] at ht
    simp only [regAddr, UnitId.base, R.FR_CFG] at h
    omega

theorem inBlock_sw_of_traceReg (h : traceReg a) : inBlock (.sw q) a = false :=
  Bool.eq_false_iff.2 fun hb => not_traceReg_of_inBlock_sw hb h

/-! ### Steps that change registers alone -/

/-- From `s` to `t` nothing has changed but registers at addresses of which `P` holds. -/
structure State.RegsWithin (s t : State) (P : Nat → Prop) : Prop where
  rest : t = { s with regs := t.regs }
  regs : ∀ a d, ¬ P a → mapGet d t.regs a = mapGet d s.regs a

theorem State.RegsWithin.refl (s : State) (P : Nat → Prop) : s.RegsWithin s P := ⟨rfl, fun _ _ _ => rfl⟩

theorem State.RegsWithin.trans (h : s.RegsWithin t P) (k : t.RegsWithin x P) : s.RegsWithin x P :=
  ⟨by rw [k.rest, h.rest], fun a d ha => (k.regs a d ha).trans (h.regs a d ha)⟩

theorem State.RegsWithin.foldl {α : Type} {f : State → α → State} {l : List α} (hf : ∀ (t : State), ∀ b ∈ l, t.RegsWithin (f t b) P) :
    s.RegsWithin (l.foldl f s) P := by
  induction l generalizing s with
  | nil => exact .refl s P
  | cons b l ih => exact (hf s b (by simp)).trans (ih fun t c hc => hf t c (by simp [hc]))

theorem State.RegsWithin.rd (h : s.RegsWithin t P) (hP : ¬ P (regAddr u g i j)) : t.rd u g i j = s.rd u g i j := h.regs _ _ hP

theorem State.RegsWithin.untraced (h : s.RegsWithin t P) (hP : ∀ a, P a → ¬ traceReg a) : s.Untraced t := by
  have hregs : ∀ a d, traceReg a → mapGet d t.regs a = mapGet d s.regs a := fun a d ha => h.regs a d (fun hp => hP a hp ha)
  rw [h.rest]
  exact { regs := hregs }

theorem State.regsWithin_wr {v : Word} (h : P (regAddr u g i j)) : s.RegsWithin (s.wr u g v i j) P :=
  ⟨rfl, fun _ _ ha => mapGet_mapSet_ne _ _ _ _ (fun e => ha (e ▸ h))⟩

/-- The registers that hold the counts of quadrant `q`'s monitors (R68). -/
def isPmonCnt (q a : Nat) : Prop := ∃ m, m < 8 ∧ (a = regAddr (.sw q) R.PMON_CNT_LO m 0 ∨ a = regAddr (.sw q) R.PMON_CNT_HI m 0)

theorem inBlock_of_isPmonCnt (h : isPmonCnt q a) : inBlock (.sw q) a = true := by
  obtain ⟨m, hm, rfl | rfl⟩ := h
  · exact inBlock_sw_regAddr (by simp only [R.PMON_CNT_LO]; omega)
  · exact inBlock_sw_regAddr (by simp only [R.PMON_CNT_HI]; omega)

/-- The registers below the monitors' are no counts of theirs. -/
theorem not_isPmonCnt_of_off_lt {p : Nat} (h : g.off < 0x200) : ¬ isPmonCnt q (regAddr (.sw p) g 0 0) := by
  rintro ⟨m, hm, e | e⟩ <;> simp only [regAddr, UnitId.base, R.PMON_CNT_LO, R.PMON_CNT_HI] at e <;> omega

/-- What a router counts goes to its quadrant's monitors alone (R68). -/
theorem State.pmonCount_within (s : State) (r port ev n : Nat) : s.RegsWithin (s.pmonCount r port ev n) (isPmonCnt (routerQuad r)) := by
  refine .foldl (fun t m hm => ?_)
  have hm : m < 8 := List.mem_range.1 hm
  dsimp only
  split_ifs
  · exact (State.regsWithin_wr ⟨m, hm, .inl rfl⟩).trans (State.regsWithin_wr ⟨m, hm, .inr rfl⟩)
  · exact .refl t _

/-! ### Faults that reach no event router (R338) -/

theorem State.raiseEvt_disabled {w : Word} (h : w.bit 31 = false) : s.raiseEvt w = s := by
  rw [State.raiseEvt, h, if_neg Bool.false_ne_true]

theorem quad_lt_of_mem_upward (hu : u.valid = true) (h : .quad q ∈ u.upward) : q < 4 := by
  cases u <;> simp [UnitId.upward, UnitId.ancestors, UnitId.parent, UnitId.valid] at hu h <;> omega

/-- No UMB above a unit that exists notifies while the event registers are disabled. -/
theorem State.Mute.notifyRise {v : UnitId} (hm : s.Mute) (hu : u.valid = true) (hv : v ∈ u.upward) (n : Nat) : s.notifyRise v n = s := by
  have hoff : ∀ w, s.faultEvt v = some w → w.bit 31 = false := by
    intro w hw
    cases v with
    | device => exact Option.some.inj hw ▸ hm.1
    | quad q => exact Option.some.inj hw ▸ hm.2 q (quad_lt_of_mem_upward hu hv)
    | _ => cases hw
  unfold State.notifyRise
  split
  · rfl
  · refine List.foldl_fixed' (fun b => ?_) _
    split_ifs
    · exact State.raiseEvt_disabled (hoff _ ‹_›)
    · rfl

theorem State.Mute.notifyRises (hm : s.Mute) (hu : u.valid = true) {l : List (UnitId × Nat)} (hl : ∀ e ∈ l, e.1 ∈ u.upward) :
    l.foldl (fun (s : State) e => s.notifyRise e.1 e.2) s = s := by
  induction l with
  | nil => rfl
  | cons e l ih => rw [List.foldl_cons, hm.notifyRise hu (hl e (by simp)), ih fun e he => hl e (by simp [he])]

/-- Such a fault shows in its unit alone. -/
theorem State.Mute.setFault (hm : s.Mute) (hu : u.valid = true) (b : Nat) :
    s.setFault u b = s.setUnit u { s.unit u with fsum := (s.unit u).fsum ||| b } := by
  refine State.Mute.notifyRises (s := s.setUnit u { s.unit u with fsum := (s.unit u).fsum ||| b }) hm hu fun e he => ?_
  obtain ⟨v, hv, rfl⟩ := List.mem_map.1 he
  exact List.mem_of_mem_filter hv

end Sys2Proof.Machine

/-! Refused writes (R60, R61). -/

namespace Sys2Proof.Machine

variable {s t x : State} {r : Req} {u : UnitId} {a o n code : Nat} {op : AccOp}

/-! ### Units in the map (R21, R22) -/

/-- An address in a unit's block lies in register space or in Peat's, and the unit is one that the device has. -/
theorem unitAt_spec (h : unitAt a = some (u, o)) :
    u.valid = true ∧ (0xE00000000 ≤ a ∧ a < 0xE10000000 ∨ 0xF00800000 ≤ a ∧ a < 0xF00810000 ∧ u = .peat) := by
  unfold unitAt at h
  extract_lets hit k q p g og c oc at h
  have hhit : ∀ {v}, hit v = some (u, o) → u = v := by
    intro v hv
    rcases ite_eq_iff.1 hv with ⟨-, hv⟩ | ⟨-, hv⟩
    · exact (Prod.mk.inj (Option.some.inj hv)).1.symm
    · cases hv
  have hvalid : ∀ {v}, hit v = some (u, o) → v.valid = true → u.valid = true := fun h hv => hhit h ▸ hv
  have hp : p < 0x800000 := Nat.mod_lt _ (by decide)
  have hg : p < 0x200000 → g < 4 := fun h => by simp only [g]; omega
  have hog : og < 0x40000 := Nat.mod_lt _ (by decide)
  have hc : p < 0x780000 → c < 7 := fun h => by simp only [c]; omega
  have hq : a < 0xE03000000 → q < 4 := fun h => by simp only [q]; omega
  clear_value hit k q g og c oc p
  rcases ite_eq_iff.1 h with ⟨-, h⟩ | ⟨h0, h⟩
  · cases h
  rcases ite_eq_iff.1 h with ⟨h1, h⟩ | ⟨-, h⟩
  · refine ⟨?_, .inl (by omega)⟩
    rcases ite_eq_iff.1 h with ⟨-, h⟩ | ⟨-, h⟩
    · rcases ite_eq_iff.1 h with ⟨-, h⟩ | ⟨-, h⟩
      · exact hvalid h rfl
      rcases ite_eq_iff.1 h with ⟨hk, h⟩ | ⟨-, h⟩
      · exact hvalid h (decide_eq_true (by omega))
      rcases ite_eq_iff.1 h with ⟨-, h⟩ | ⟨-, h⟩
      · exact hvalid h rfl
      rcases ite_eq_iff.1 h with ⟨-, h⟩ | ⟨-, h⟩
      · exact hvalid h rfl
      rcases ite_eq_iff.1 h with ⟨-, h⟩ | ⟨-, h⟩
      · exact hvalid h rfl
      · cases h
    · generalize a / 0x100000 % 16 = b at h
      split at h
      case h_9 => cases h
      all_goals exact hvalid h rfl
  rcases ite_eq_iff.1 h with ⟨h1, h⟩ | ⟨-, h⟩
  · refine ⟨?_, .inl (by omega)⟩
    replace hq := hq h1.2
    rcases ite_eq_iff.1 h with ⟨-, h⟩ | ⟨-, h⟩
    · exact hvalid h (decide_eq_true hq)
    rcases ite_eq_iff.1 h with ⟨-, h⟩ | ⟨-, h⟩
    · exact hvalid h (decide_eq_true hq)
    rcases ite_eq_iff.1 h with ⟨-, h⟩ | ⟨-, h⟩
    · exact hvalid h (decide_eq_true hq)
    rcases ite_eq_iff.1 h with ⟨-, h⟩ | ⟨-, h⟩
    · exact hvalid h (decide_eq_true hq)
    rcases ite_eq_iff.1 h with ⟨hs, h⟩ | ⟨-, h⟩
    · exact hvalid h (decide_eq_true (by omega))
    rcases ite_eq_iff.1 h with ⟨-, h⟩ | ⟨-, h⟩
    · cases h
    rcases ite_eq_iff.1 h with ⟨hs, h⟩ | ⟨-, h⟩
    · replace hg := hg hs
      rcases ite_eq_iff.1 h with ⟨-, h⟩ | ⟨-, h⟩
      · exact hvalid h (decide_eq_true (by omega))
      · exact hvalid h (decide_eq_true (by omega))
    rcases ite_eq_iff.1 h with ⟨-, h⟩ | ⟨-, h⟩
    · cases h
    rcases ite_eq_iff.1 h with ⟨hs, h⟩ | ⟨-, h⟩
    · replace hc := hc hs
      rcases ite_eq_iff.1 h with ⟨-, h⟩ | ⟨-, h⟩
      · exact hvalid h (decide_eq_true (by omega))
      rcases ite_eq_iff.1 h with ⟨ho, h⟩ | ⟨-, h⟩
      · exact hvalid h (decide_eq_true (by omega))
      · cases h
    · cases h
  rcases ite_eq_iff.1 h with ⟨h1, h⟩ | ⟨-, h⟩
  · cases hhit h
    exact ⟨rfl, .inr ⟨h1.1, h1.2, rfl⟩⟩
  · cases h

/-- The map places it among the registers (R21). -/
theorem State.place_of_unitAt (h : unitAt a = some (u, o)) : s.place a = .reg ∨ s.place a = .peat ∧ u = .peat := by
  unfold State.place
  rcases (unitAt_spec h).2 with ⟨hl, hr⟩ | ⟨hl, hr, hu⟩
  · exact .inl (by simp only [show ¬ a < 0xC00000000 by omega, show ¬ a < 0xC0E000000 by omega, show ¬ a < 0xD04000000 by omega, hl, hr,
      and_self, and_false, if_true, if_false])
  · refine .inr ⟨?_, hu⟩
    simp only [show ¬ a < 0xC00000000 by omega, show ¬ a < 0xC0E000000 by omega, show ¬ a < 0xD04000000 by omega,
      show ¬ a < 0xE10000000 by omega, show ¬ a < 0xF00020000 by omega, show ¬ a < 0xF00180000 by omega, hl, hr, and_self, and_false,
      if_true, if_false]

/-- The unit's own table guards it (R58). -/
theorem State.atidOf_unitAt (h : unitAt a = some (u, o)) : s.atidOf a = u.atid := by
  rcases s.place_of_unitAt h with hp | ⟨hp, rfl⟩
  · simp only [State.atidOf, hp, h]
  · simp only [State.atidOf, hp, UnitId.atid]

/-- And the unit is the target of what is sent there (R61). -/
theorem State.targetUnit_unitAt (h : unitAt a = some (u, o)) : s.targetUnit a = u := by
  rcases s.place_of_unitAt h with hp | ⟨hp, rfl⟩ <;> simp only [State.targetUnit, hp, h]

/-! ### What a refusal leaves (R61) -/

/-- The state with violation `v` in the log of quadrant `q`, or counted where the log is full. -/
def State.violLogged (s : State) (q : Nat) (v : Viol) : State :=
  let log := mapGet [] s.sward.viol q
  if log.length < 16 then { s with sward := { s.sward with viol := mapSet [] s.sward.viol q (log ++ [v]) } } else s.bump (.sw q) R.VIOL_OVF

theorem State.reject_mute (hm : s.Mute) (hu : u.valid = true) {atid : Nat} : s.reject u atid r op a code =
    ((s.setUnit u { s.unit u with fsum := (s.unit u).fsum ||| (if code = 1 then 8 else 16) }).violLogged (routerQuad u.router)
      ⟨code, r.epoch.toNat, r.priv.toNat, op.code, atid, r.master.toNat, a⟩).pmonCount u.router (unitPort u) 8 1 := by
  unfold State.reject
  rw [hm.setFault hu]
  exact ite_self _

/-- The log takes the violation, or its overflow count does, and nothing else changes. -/
theorem State.violLogged_spec (s : State) (q : Nat) (v : Viol) : ∃ V M,
    s.violLogged q v = { s with regs := M, sward := { s.sward with viol := V } } ∧
    mapGet [] V q = (if (mapGet [] s.sward.viol q).length < 16 then mapGet [] s.sward.viol q ++ [v] else mapGet [] s.sward.viol q) ∧
    (16 ≤ (mapGet [] s.sward.viol q).length →
      ((s.violLogged q v).rd (.sw q) R.VIOL_OVF).toNat = min ((s.rd (.sw q) R.VIOL_OVF).toNat + 1) (2 ^ 32 - 1)) ∧
    ∀ x d, inBlock (.sw q) x = false → mapGet d M x = mapGet d s.regs x := by
  unfold State.violLogged
  extract_lets log
  by_cases hl : log.length < 16
  · simp only [if_pos hl]
    exact ⟨_, s.regs, rfl, (mapGet_mapSet_self ..).trans (if_pos hl).symm, fun h => absurd hl (Nat.not_lt.2 h), fun _ _ _ => rfl⟩
  · simp only [if_neg hl]
    refine ⟨s.sward.viol, (s.bump (.sw q) R.VIOL_OVF).regs, rfl, (if_neg hl).symm, fun _ => ?_, fun x d hx => mapGet_mapSet_ne _ _ _ _ ?_⟩
    · rw [State.bump, State.rd_wr_self, satAdd, BitVec.toNat_ofNat]
      omega
    · rintro rfl
      rw [inBlock_sw_regAddr (by decide)] at hx
      cases hx

/-! ### The checks of a write (R60) -/

/-- How the entry `e` of an access table answers a write of `r`: the code of the first check that fails, 0 where none does. -/
def writeRefusal (e : Nat) (r : Req) : Nat :=
  if r.epoch.toNat ≠ e % 16 then 1 else if r.priv.toNat < e / 16 % 4 then 2 else if e.testBit 7 then 0 else 3

theorem State.atCheck_write (s : State) (atid : Nat) (r : Req) (h : writeRefusal (s.atEntry atid r.master.toNat) r ≠ 0) :
    s.atCheck atid r .write = some (writeRefusal (s.atEntry atid r.master.toNat) r) := by
  generalize he : s.atEntry atid r.master.toNat = e at h ⊢
  have hepoch : natBits e 3 0 = e % 16 := rfl
  have hpriv : natBits e 5 4 = e / 16 % 4 := by simp [natBits, Nat.shiftRight_eq_div_pow]
  simp only [State.atCheck, he, hepoch, hpriv, ne_comm (a := e % 16), atPerm]
  unfold writeRefusal at h ⊢
  split_ifs at h ⊢ with h1 h2 h3
  · rfl
  · rfl
  · exact absurd rfl h
  · rfl

/-- A write that the table refuses is answered with its code and rejected at its unit. -/
theorem State.anyWrite_refused {v : Word} (h : unitAt a = some (u, o))
    (hr : ∀ b, s.masterRouter r.master.toNat = some b → s.routed b u.router = true) (hd : s.mode.mode ≠ .dormant) (hv : s.peat.underV = false)
    (hg : gorseOnly a = false) (hc : writeRefusal (s.atEntry u.atid r.master.toNat) r ≠ 0) :
    s.anyWrite r a v = (s.reject u u.atid r .write a (writeRefusal (s.atEntry u.atid r.master.toNat) r)).answer
      (.err (writeRefusal (s.atEntry u.atid r.master.toNat) r)) := by
  have hguard : s.guardAcc a r .write = (some (writeRefusal (s.atEntry u.atid r.master.toNat) r),
      s.reject u u.atid r .write a (writeRefusal (s.atEntry u.atid r.master.toNat) r)) := by
    simp only [State.guardAcc, State.atidOf_unitAt h, State.targetUnit_unitAt h, s.atCheck_write _ r hc]
  have hbus : s.busAt r a .write none = (.err (writeRefusal (s.atEntry u.atid r.master.toNat) r),
      s.reject u u.atid r .write a (writeRefusal (s.atEntry u.atid r.master.toNat) r)) := by
    rcases hm : s.masterRouter r.master.toNat with _ | b
    · simp [State.busAt, h, hm, hd, hv, hg, hguard]
    · simp [State.busAt, h, hm, hr b hm, hd, hv, hg, hguard]
  simp only [State.anyWrite, if_pos (unitAt_lt h), State.wrReq, State.busWrite, hbus]

/-- What a rejection of `r`'s write at unit `u` leaves. -/
theorem State.reject_spec (hm : s.Mute) (hu : u.valid = true) {atid : Nat} :
    let t := s.reject u atid r op a code
    let q := routerQuad u.router
    let log := mapGet [] s.sward.viol q
    t = { s with regs := t.regs, units := t.units, sward := { s.sward with viol := t.sward.viol } } ∧
    t.unit u = { s.unit u with fsum := (s.unit u).fsum ||| (if code = 1 then 8 else 16) } ∧
    mapGet [] t.sward.viol q =
      (if log.length < 16 then log ++ [⟨code, r.epoch.toNat, r.priv.toNat, op.code, atid, r.master.toNat, a⟩] else log) ∧
    (16 ≤ log.length → (t.rd (.sw q) R.VIOL_OVF).toNat = min ((s.rd (.sw q) R.VIOL_OVF).toNat + 1) (2 ^ 32 - 1)) ∧
    ∀ x d, inBlock (.sw q) x = false → mapGet d t.regs x = mapGet d s.regs x := by
  intro t q log
  have ht : t = _ := State.reject_mute hm hu
  clear_value t
  generalize hf : s.setUnit u { s.unit u with fsum := (s.unit u).fsum ||| (if code = 1 then 8 else 16) } = f at ht
  obtain ⟨V, M, hV, hlog, hovf, hM⟩ := f.violLogged_spec q ⟨code, r.epoch.toNat, r.priv.toNat, op.code, atid, r.master.toNat, a⟩
  generalize f.violLogged q ⟨code, r.epoch.toNat, r.priv.toNat, op.code, atid, r.master.toNat, a⟩ = y at ht hV hovf
  have hp : y.RegsWithin t (isPmonCnt q) := ht ▸ y.pmonCount_within u.router (unitPort u) 8 1
  subst hf
  have hrest : t = { s with regs := t.regs, units := t.units, sward := { s.sward with viol := t.sward.viol } } := by
    rw [hp.rest, hV]
    rfl
  have hunits : t.units = (s.setUnit u { s.unit u with fsum := (s.unit u).fsum ||| (if code = 1 then 8 else 16) }).units := by
    rw [hp.rest, hV]
  have hviol : t.sward.viol = V := by rw [hp.rest, hV]
  refine ⟨hrest, ?_, hviol ▸ hlog, fun hl => ?_, fun b d hb => ?_⟩
  · rw [State.unit, hunits]
    exact s.unit_setUnit_self u _
  · rw [hp.rd (not_isPmonCnt_of_off_lt (by decide))]
    exact hovf hl
  · rw [hp.regs b d fun hb' => by simp [inBlock_of_isPmonCnt hb'] at hb, hV]
    exact hM b d hb

/-- Settles O31: the first check that fails answers, and the rejection shows in the target's FAULT_SUM and in its quadrant's Sward block. -/
theorem accessDenied : Obligations.AccessDenied := by
  intro s r a v u o hc hm h hr hd hv hg e code q log hcode
  obtain ⟨ht, hunit, hlog, hovf, hregs⟩ :=
    State.reject_spec (r := r) (op := .write) (a := a.toNat) (code := code) (atid := u.atid) hm (unitAt_spec h).1
  refine hc.does (x := (s.reject u u.atid r .write a.toNat code).answer (.err code)) ?_ ?_ ⟨rfl, ?_, hunit, hlog, hovf, hregs⟩
  · exact congrArg (State.done · s) (State.anyWrite_refused h hr hd hv hg hcode)
  · generalize s.reject u u.atid r .write a.toNat code = t at ht hregs
    have hx : ∀ a d, traceReg a → mapGet d t.regs a = mapGet d s.regs a := fun b d hb => hregs b d (inBlock_sw_of_traceReg hb)
    rw [ht]
    exact { regs := hx }
  · generalize s.reject u u.atid r .write a.toNat code = t at ht
    exact congrArg (State.answer · (.err code)) ht

end Sys2Proof.Machine

/-! The Sward router block's registers: access tables, the violation log, semaphores, monitors (R57, R61, R62, R68). -/

namespace Sys2Proof.Machine

variable {s t x : State} {r : Req} {u : UnitId} {g : Reg} {v w old : Word} {q i j n : Nat}

/-! ### Access tables (R62) -/

/-- An entry written reads back, and every other entry as before. -/
theorem State.atEntry_setAtEntry {a m b y k : Nat} (hm : m < 4096) (hy : y < 4096) :
    (s.setAtEntry a m k).atEntry b y = if b = a ∧ y = m then k % 512 else s.atEntry b y := by
  by_cases h : b = a ∧ y = m
  · obtain ⟨rfl, rfl⟩ := h
    simp [State.atEntry]
  · rw [if_neg h]
    exact mapGet_mapSet_ne _ _ _ _ (by omega)

/-! ### Accesses in the block (R4) -/

theorem toNat_and_ones (w : Word) : w.toNat &&& 0xFFFFFFFF = w.toNat := Nat.and_two_pow_sub_one_of_lt_two_pow w.isLt

/-- A write of a register whose fields are write-only leaves every register as it was. -/
theorem State.fieldsWritten_writeOnly (hrw : g.rw = 0) (hw1c : g.w1c = 0) (hw1s : g.w1s = 0) :
    ∃ U, s.fieldsWritten r u g i j v = { s with units := U } := by
  have hsame : regWritten g (s.rd u g i j) v = s.rd u g i j := by
    simp [regWritten, hrw, hw1c, hw1s, toNat_and_ones]
  simp only [State.fieldsWritten, hsame, if_true]
  split_ifs
  · exact ⟨s.units, rfl⟩
  · exact s.cfgEvent_eq u _

/-- The block's registers refuse no write but that of a table of another block, and discard none. -/
theorem State.regWrite_sw (hw : regWritable g ≠ 0) (hg : 0x100 ≤ g.off)
    (hr : g = R.ATAB_WRITE → atabWritable q (v.fld F.ATAB_WRITE_ATID) = true) :
    s.regWrite r (.sw q) g i j v none = (none, (s.fieldsWritten r (.sw q) g i j v).wrPost r (.sw q) g i (s.rd (.sw q) g i j) v) := by
  refine State.regWrite_ok hw hg ?_ rfl (by simp) (by simp) (by simp)
  unfold State.wrRefuse
  by_cases h : g = R.ATAB_WRITE
  · simp [h, hr h]
  · simp [h]

/-- A granted write in the block leaves what the register makes of it. -/
theorem State.Calm.sets_sw {c : Instr} {P : State → Prop} (hc : s.Calm) (he : exec c s = (s.wrTo r (.sw q) g v i).done s)
    (hw : regWritable g ≠ 0) (hg : 0x100 ≤ g.off) (hr : g = R.ATAB_WRITE → atabWritable q (v.fld F.ATAB_WRITE_ATID) = true)
    (hx : (s.fieldsWritten r (.sw q) g i 0 v).wrPost r (.sw q) g i (s.rd (.sw q) g i) v = x) (hu : s.Untraced x)
    (hP : P (x.answer (.ok 0))) : s.Sets r (.sw q) g i c P := fun hgr =>
  hc.does (by rw [he, State.wrTo_ok hgr (State.regWrite_sw hw hg hr), hx]) (hu.trans {}) ⟨rfl, hP⟩

theorem State.rdFrom_ok (h : s.Granted r .read u g i j) (hv : s.regRead r u g i j = (none, v, t)) :
    s.rdFrom r u g i j = t.answer (.ok v) := by
  simp only [State.rdFrom, State.rdReq, State.busRead_granted h, hv]

/-- A granted read in the block answers what the register returns. -/
theorem State.Calm.gets_sw {c : Instr} {P : State → Prop} (hc : s.Calm) (he : exec c s = (s.rdFrom r (.sw q) g i).done s)
    (hx : s.regRead r (.sw q) g i 0 = (none, v, x)) (hu : s.Untraced x) (hP : P (x.answer (.ok v))) : s.Gets r (.sw q) g i c v P := fun hgr =>
  hc.does (by rw [he, State.rdFrom_ok hgr hx]) (hu.trans {}) ⟨rfl, hP⟩

/-! ### What the registers do -/

theorem State.untraced_wr_sw (h : g.off + i * g.s1 + j * g.s2 < 0x10000) : s.Untraced (s.wr (.sw q) g v i j) :=
  (State.aside_wr (not_traceReg_of_inBlock_sw (inBlock_sw_regAddr h))).untraced

theorem fld_atabAtid (v : Word) : v.fld F.ATAB_WRITE_ATID = v.toNat / 2 ^ 24 := by
  rw [Word.fld, natBits, Nat.shiftRight_eq_div_pow]
  exact Nat.mod_eq_of_lt (Nat.div_lt_of_lt_mul v.isLt)

theorem fld_atabMaster (v : Word) : v.fld F.ATAB_WRITE_MASTER = v.toNat / 4096 % 4096 := by
  rw [Word.fld, natBits, Nat.shiftRight_eq_div_pow]
  rfl

/-- R62: ATAB_WRITE replaces the entry it names. -/
theorem State.wrPost_atabWrite : s.wrPost r (.sw q) R.ATAB_WRITE i old v =
    s.setAtEntry (v.toNat / 2 ^ 24) (v.toNat / 4096 % 4096) (v.toNat % 512) := by
  rw [← fld_atabAtid, ← fld_atabMaster]
  rfl

/-- R57: SEM_REL gives a token back. -/
theorem State.wrPost_semRel (h : n < 32) : s.wrPost r (.sw q) R.SEM_REL i old (BitVec.ofNat 32 n) = s.wr (.sw q) R.SEM 1 n := by
  have hn : Word.fld (BitVec.ofNat 32 n) F.SEM_REL_N = n := by
    rw [Word.fld, natBits, BitVec.toNat_ofNat]
    exact (Nat.mod_mod_of_dvd n ⟨2 ^ 27, rfl⟩).trans (Nat.mod_eq_of_lt h)
  exact congrArg (s.wr (.sw q) R.SEM 1 ·) hn

/-- R61: the word in which VIOL_POP answers a violation. -/
def Viol.popWord (y : Viol) : Word :=
  BitVec.ofNat 32 (2 ^ 31 + y.kind * 2 ^ 28 + y.epoch % 16 * 2 ^ 24 + y.priv % 4 * 2 ^ 22 + y.op % 4 * 2 ^ 20 + y.atid % 256 * 2 ^ 12 +
    y.master % 4096)

/-- The state once the violation `y` has left the log of quadrant `q`, with `l` still in it. -/
def State.violPopped (s : State) (q : Nat) (y : Viol) (l : List Viol) : State :=
  (State.wr { s with sward := { s.sward with viol := mapSet [] s.sward.viol q l } } (.sw q) R.VIOL_W1 (lo32 y.addr)).wr (.sw q) R.VIOL_W2
    (hi32 y.addr)

theorem State.violPopped_spec (s : State) (q : Nat) (y : Viol) (l : List Viol) : s.Untraced (s.violPopped q y l) ∧
    mapGet [] (s.violPopped q y l).sward.viol q = l ∧ (s.violPopped q y l).rd (.sw q) R.VIOL_W1 = lo32 y.addr ∧
    (s.violPopped q y l).rd (.sw q) R.VIOL_W2 = hi32 y.addr := by
  have hne : regAddr (.sw q) R.VIOL_W1 0 0 ≠ regAddr (.sw q) R.VIOL_W2 0 0 := by simp [regAddr, R.VIOL_W1, R.VIOL_W2]
  refine ⟨?_, mapGet_mapSet_self .., ?_, State.rd_wr_self ..⟩
  · exact .trans (.trans {} (State.untraced_wr_sw (by decide))) (State.untraced_wr_sw (by decide))
  · exact (State.rd_wr_ne _ _ _ _ _ _ _ _ _ _ hne).trans (State.rd_wr_self ..)

theorem State.regRead_violPop_nil (hr : r.debug = false) (h : mapGet [] s.sward.viol q = []) :
    s.regRead r (.sw q) R.VIOL_POP 0 0 = (none, 0, s) := by
  have hl : latchOf (.sw q) R.VIOL_POP 0 0 = none := rfl
  simp [State.regRead, hl, State.popReg, h, State.quiet, hr]

theorem State.regRead_violPop_cons {y : Viol} {l : List Viol} (hr : r.debug = false) (h : mapGet [] s.sward.viol q = y :: l) :
    s.regRead r (.sw q) R.VIOL_POP 0 0 = (none, y.popWord, s.violPopped q y l) := by
  have hl : latchOf (.sw q) R.VIOL_POP 0 0 = none := rfl
  have hv : s.ownValue (.sw q) R.VIOL_POP 0 0 = y.popWord := by
    simp only [State.ownValue, h]
    rfl
  simp [State.regRead, hl, State.popReg, h, State.quiet, hr, hv, State.violPopped]

/-- A register of the block without write-only fields reads as its own value. -/
theorem State.regValue_sw (hg : 0x100 ≤ g.off) (hr : g.writeOnly = false) (hw : g.wo = 0) :
    s.regValue (.sw q) g i j = s.ownValue (.sw q) g i j := by
  simp [State.regValue, hr, hw, Nat.not_lt.2 hg, toNat_and_ones]

/-- R57: a read of a semaphore answers its token and takes it. -/
theorem State.regRead_sem (hr : r.debug = false) : s.regRead r (.sw q) R.SEM n 0 =
    (none, s.rd (.sw q) R.SEM n, s.wr (.sw q) R.SEM (s.rd (.sw q) R.SEM n &&& 0xFFFFFFFE) n) := by
  have hl : latchOf (.sw q) R.SEM n 0 = none := rfl
  have hp : s.popReg r (.sw q) R.SEM n = none := rfl
  have hd : latched (.sw q) R.SEM n 0 = [] := rfl
  have hv : s.regValue (.sw q) R.SEM n 0 = s.rd (.sw q) R.SEM n := State.regValue_sw (by decide) rfl rfl
  have hne : R.SEM ≠ R.CFG_DIGEST_LO := by decide
  have hrc : R.SEM.rc = 1 := rfl
  simp [State.regRead, hl, hp, hd, hv, hne, hrc, State.quiet, hr]

/-! ### What an access leaves -/

theorem bit_zero_and_even (w : Word) : (w &&& 0xFFFFFFFE).bit 0 = false := by
  simp [Word.bit]

theorem bit_setFld_pmonClr (v : Word) : (v.setFld F.PMON_CTL_CLR 1).bit 1 = true := by
  have h := fld_setFld v F.PMON_CTL_CLR 1 (by decide)
  rw [Word.fld, natBits, Nat.shiftRight_eq_div_pow] at h
  rw [Word.bit, Nat.testBit_eq_decide_div_mod_eq]
  exact decide_eq_true h

/-- R68: a write of PMON_CTL with CLR zeroes the count. -/
theorem State.wrPost_pmonClr (h : v.bit 1 = true) (hi : i < 8) : s.Untraced (s.wrPost r (.sw q) R.PMON_CTL i old v) ∧
    (s.wrPost r (.sw q) R.PMON_CTL i old v).rd (.sw q) R.PMON_CNT_LO i = 0 ∧
    (s.wrPost r (.sw q) R.PMON_CTL i old v).rd (.sw q) R.PMON_CNT_HI i = 0 := by
  have hne : regAddr (.sw q) R.PMON_CNT_LO i 0 ≠ regAddr (.sw q) R.PMON_CNT_HI i 0 := by simp [regAddr, R.PMON_CNT_LO, R.PMON_CNT_HI]
  have hx : ∃ T, s.wrPost r (.sw q) R.PMON_CTL i old v = { (s.wr (.sw q) R.PMON_CNT_LO 0 i).wr (.sw q) R.PMON_CNT_HI 0 i with trace := T } := by
    simp only [State.wrPost, show R.PMON_CTL ≠ R.ATAB_WRITE by decide, show R.PMON_CTL ≠ R.LINK_DIS_LO by decide,
      show R.PMON_CTL ≠ R.LINK_DIS_HI by decide, show R.PMON_CTL ≠ R.SEM_REL by decide, or_self, if_false, if_true, h]
    split_ifs
    · exact ⟨_, rfl⟩
    · exact ⟨s.trace, rfl⟩
  have hlo : ((s.wr (.sw q) R.PMON_CNT_LO 0 i).wr (.sw q) R.PMON_CNT_HI 0 i).rd (.sw q) R.PMON_CNT_LO i = 0 := by
    rw [State.rd_wr_ne _ _ _ _ _ _ _ _ _ _ hne, State.rd_wr_self]
  have hhi := (s.wr (.sw q) R.PMON_CNT_LO 0 i).rd_wr_self (.sw q) R.PMON_CNT_HI 0 i 0
  have hu : s.Untraced ((s.wr (.sw q) R.PMON_CNT_LO 0 i).wr (.sw q) R.PMON_CNT_HI 0 i) :=
    .trans (State.untraced_wr_sw (by simp only [R.PMON_CNT_LO]; omega)) (State.untraced_wr_sw (by simp only [R.PMON_CNT_HI]; omega))
  generalize (s.wr (.sw q) R.PMON_CNT_LO 0 i).wr (.sw q) R.PMON_CNT_HI 0 i = y at hx hlo hhi hu
  obtain ⟨T, hT⟩ := hx
  rw [hT]
  exact ⟨hu.trans {}, hlo, hhi⟩

/-- A refused write of the block leaves nothing but its answer. -/
theorem State.wrTo_refused {c : Nat} (h : s.Granted r .write u g i j) (hw : s.regWrite r u g i j v none = (some c, s)) :
    s.wrTo r u g v i j = s.answer (.err c) := by
  simp only [State.wrTo, State.wrReq, State.busWrite_granted h, hw]

theorem State.regWrite_atab_refused (h : atabWritable q (v.toNat / 2 ^ 24) = false) :
    s.regWrite r (.sw q) R.ATAB_WRITE 0 0 v none = (some 4, s) := by
  have hr : s.wrRefuse r (.sw q) R.ATAB_WRITE 0 (s.rd (.sw q) R.ATAB_WRITE) v none = some 4 := by
    simp only [State.wrRefuse, fld_atabAtid, h, Bool.not_false, if_true]
  have hw : regWritable R.ATAB_WRITE ≠ 0 := by decide
  have hg : ¬ R.ATAB_WRITE.off < 0x100 := by decide
  simp [State.regWrite, hw, hg, hr]

/-- Settles O38: each register by its lemma. -/
theorem swardRegisters : Obligations.SwardRegisters := by
  intro s r q n m v hc u log
  refine ⟨fun hw => ?_, fun hw hg => ?_, fun hr => ⟨fun hl => ?_, fun y l hl => ?_, ?_⟩, ?_, ?_⟩
  · obtain ⟨U, hU⟩ := s.fieldsWritten_writeOnly (r := r) (u := u) (g := R.ATAB_WRITE) (i := 0) (j := 0) (v := v) rfl rfl rfl
    refine hc.sets_sw rfl (by decide) (by decide) (fun _ => (fld_atabAtid v).symm ▸ hw) (by rw [hU, State.wrPost_atabWrite]) {} fun atid y hy => ?_
    refine (State.atEntry_setAtEntry (Nat.mod_lt _ (by decide)) hy).trans ?_
    rw [show v.toNat % 512 % 512 = v.toNat % 512 from Nat.mod_mod ..]
    rfl
  · exact hc.does (congrArg (State.done · s) (State.wrTo_refused hg (State.regWrite_atab_refused hw))) {} rfl
  · exact hc.gets_sw rfl (State.regRead_violPop_nil hr hl) {} rfl
  · obtain ⟨hu, hP⟩ := s.violPopped_spec q y l
    exact hc.gets_sw rfl (State.regRead_violPop_cons hr hl) hu hP
  · refine hc.gets_sw rfl (State.regRead_sem hr) (State.untraced_wr_sw ?_) ⟨?_, fun a d ha => mapGet_mapSet_ne _ _ _ _ ha, rfl⟩
    · simp only [R.SEM]; omega
    · rw [State.rd_answer, State.rd_wr_self, bit_zero_and_even]
  · obtain ⟨U, hU⟩ := s.fieldsWritten_writeOnly (r := r) (u := u) (g := R.SEM_REL) (i := 0) (j := 0) (v := BitVec.ofNat 32 n.val) rfl rfl rfl
    have hx := State.wrPost_semRel (s := { s with units := U }) (r := r) (q := q) (i := 0) (old := s.rd u R.SEM_REL) n.isLt
    refine hc.sets_sw (x := State.wr { s with units := U } u R.SEM 1 n) rfl (by decide) (by decide) (fun h => absurd h (by decide))
      (by rw [hU, hx]) (.trans {} (State.untraced_wr_sw ?_))
      ⟨(State.rd_answer ..).trans (State.rd_wr_self ..), fun a d ha => ?_, rfl⟩
    · simp only [R.SEM]
      omega
    · rw [State.answer_regs, State.wr_regs, mapGet_mapSet_ne _ _ _ _ ha]
  · obtain ⟨hu, hlo, hhi⟩ := State.wrPost_pmonClr (s := s.fieldsWritten r u R.PMON_CTL m 0 (v.setFld F.PMON_CTL_CLR 1)) (r := r) (q := q)
      (old := s.rd u R.PMON_CTL m) (bit_setFld_pmonClr v) m.isLt
    refine hc.sets_sw rfl (by decide) (by decide) (fun h => absurd h (by decide)) rfl (.trans (State.fieldsWritten_untraced ?_) hu) ⟨hlo, hhi⟩
    have hm := m.isLt
    exact not_traceReg_of_inBlock_sw (inBlock_sw_regAddr (by simp only [R.PMON_CTL]; omega))

end Sys2Proof.Machine

/-! Links that fail (R67) and the trigger they take (R36, R37, R338). -/

namespace Sys2Proof.Machine

variable {s t x : State} {r : Req} {u : UnitId} {g : Reg} {v : Word} {k d b c i n : Nat}

/-! ### A link that fails -/

/-- A machine-check record changes the log, or its overflow count (R338). -/
theorem State.record_eq (s : State) (u : UnitId) (kind cause addr d1 d2 : Nat) (id : Option Nat) : ∃ F M,
    s.record u kind cause addr d1 d2 id = { s with fault := F, regs := M } ∧
      ∀ a d, a ≠ regAddr .device R.MCLOG_OVF 0 0 → mapGet d M a = mapGet d s.regs a := by
  unfold State.record
  dsimp only
  split_ifs
  · exact ⟨_, s.regs, rfl, fun _ _ _ => rfl⟩
  · exact ⟨_, _, rfl, fun a d ha => mapGet_mapSet_ne _ _ _ _ ha⟩

theorem not_traceReg_mclogOvf : ¬ traceReg (regAddr .device R.MCLOG_OVF 0 0) := by
  rintro (⟨k, hk, e⟩ | ⟨t, ht, e⟩) <;> simp only [regAddr, UnitId.base, R.MCLOG_OVF, R.HR_SRC_EN, R.FR_CFG] at e <;> omega

/-- Both ends of a disabled link read 1. -/
theorem State.linkDisable_spec (h : linkNbr k d = some b) : ∃ D, s.linkDisable k d = { s with sward := { s.sward with linkDis := D } } ∧
    D.contains (4 * k + d) = true ∧ D.contains (4 * b + facing d) = true := by
  unfold State.linkDisable
  rw [h]
  refine ⟨_, rfl, ?_, ?_⟩
  all_goals dsimp only; split_ifs <;> simp_all

@[simp] theorem State.hasV_setMode (s : State) (m : ModeSt) : (s.setMode m).hasV = s.hasV := rfl

/-- R36, R37: from a settled state a trigger pends in BOOT and MAINTENANCE, and starts the device's own entry to RECOVERY from STEADY and SURGE. -/
theorem State.rcvTrigger_settled (h : s.Settled) (c : Nat) : ∃ m, s.rcvTrigger c = s.setMode m ∧ s.Triggered (s.setMode m) c := by
  obtain ⟨ht, hp, hsafe, hdorm, hmode⟩ := h
  have hpend (hm : s.mode.mode = .boot ∨ s.mode.mode = .maintenance) :
      s.rcvTrigger c = s.setMode { s.mode with rcvCause := c, rcvPend := true } := by
    rcases hm with hm | hm <;> simp [State.rcvTrigger, ht, hsafe, hdorm, hm] <;> rfl
  have hstart (hm : s.mode.mode = .steady ∨ s.mode.mode = .surge) (hv : s.hasV = true) :
      s.rcvTrigger c = ((s.setMode { s.mode with rcvCause := c }).recoverNow) := by
    rcases hm with hm | hm <;> simp [State.rcvTrigger, State.recoverStart, ht, hsafe, hdorm, hm, hv]
  rcases hmode with hm | hm | ⟨hm, hv⟩
  · exact ⟨_, hpend (.inl hm), rfl, rfl, fun _ => rfl, fun h => by simp [hm] at h⟩
  · exact ⟨_, hpend (.inr hm), rfl, rfl, fun _ => rfl, fun h => by simp [hm] at h⟩
  · refine ⟨_, hstart hm hv, rfl, rfl, fun h => ?_, fun _ => ⟨_, rfl, rfl, rfl⟩⟩
    rcases hm with hm | hm <;> simp [hm] at h

/-- R67: a link that fails is disabled at both ends, and takes the RECOVERY trigger. -/
theorem State.linkFail_spec (ho : s.linkOff k d = false) (hb : linkNbr k d = some b) (hs : s.Settled) :
    let t := s.linkFail k d
    s.Untraced t ∧ t.linkOff k d = true ∧ t.linkOff b (facing d) = true ∧ s.Triggered t 3 := by
  obtain ⟨D, hD, hk, hb'⟩ := State.linkDisable_spec (s := s) hb
  obtain ⟨F, M, hR, hM⟩ := (s.linkDisable k d).record_eq (.sw (routerQuad k)) 0 0x0B 0 (4 * routerLocal k + d) k none
  rw [hD] at hR hM
  have hs' : State.Settled { s with sward := { s.sward with linkDis := D }, fault := F, regs := M } := hs
  obtain ⟨m, hm, htrig⟩ := State.rcvTrigger_settled hs' 3
  have hx : s.linkFail k d = State.setMode { s with sward := { s.sward with linkDis := D }, fault := F, regs := M } m := by
    rw [State.linkFail, if_neg (by simp [ho, hb]), hD]
    dsimp only
    rw [hR, hm]
  intro t
  rw [show t = _ from hx]
  exact ⟨{ regs := fun a d ha => hM a d (fun e => not_traceReg_mclogOvf (e ▸ ha)) }, hk, hb', htrig⟩

/-! ### Flits that arrive in error -/

theorem State.pmonCount_untraced (s : State) (r port ev n : Nat) : s.Untraced (s.pmonCount r port ev n) :=
  (s.pmonCount_within r port ev n).untraced fun _ ha => not_traceReg_of_inBlock_sw (inBlock_of_isPmonCnt ha)

/-- Counting in a monitor leaves the event registers of the UMBs. -/
theorem State.Mute.pmonCount (hm : s.Mute) (r port ev n : Nat) : (s.pmonCount r port ev n).Mute := by
  have h := s.pmonCount_within r port ev n
  refine ⟨?_, fun q hq => ?_⟩
  · rw [h.rd (by rintro ⟨m, hm, e | e⟩ <;> simp only [regAddr, UnitId.base, R.FAULT_EVT_D, R.PMON_CNT_LO, R.PMON_CNT_HI] at e <;> omega)]
    exact hm.1
  · rw [h.rd (by rintro ⟨m, hm, e | e⟩ <;> simp only [regAddr, UnitId.base, R.FAULT_EVT_Q, R.PMON_CNT_LO, R.PMON_CNT_HI] at e <;> omega)]
    exact hm.2 q hq

theorem routerQuad_lt (h : k < 64) : routerQuad k < 4 := by
  unfold routerQuad
  omega

/-- R67: a corrected flit is counted and shows in FAULT_SUM. -/
theorem State.linkFlit_corrected (ho : s.linkOff k d = false) (hb : linkNbr k d = some b) (hm : s.Mute) (hk : k < 64) :
    let t := s.linkFlit k d 1
    s.Untraced t ∧ (t.unit (.sw (routerQuad k))).fsum = ((s.unit (.sw (routerQuad k))).fsum ||| 1) ∧ t.sward = s.sward := by
  have hx : s.linkFlit k d 1 = (s.pmonCount k d 6 1).setFault (.sw (routerQuad k)) fsCorr := by
    rw [State.linkFlit, if_neg (by simp [ho, hb])]
    rfl
  have hv : (UnitId.sw (routerQuad k)).valid = true := decide_eq_true (routerQuad_lt hk)
  intro t
  rw [show t = _ from hx, (hm.pmonCount k d 6 1).setFault hv]
  have hu := s.pmonCount_untraced k d 6 1
  have hr := (s.pmonCount_within k d 6 1).rest
  generalize s.pmonCount k d 6 1 = y at hu hr
  refine ⟨hu.trans {}, ?_, by rw [State.setUnit_sward, hr]⟩
  rw [State.unit_setUnit_self, hr]
  rfl

/-- The state with `ts` as the times of the uncorrectable errors of link direction `l`. -/
def State.withLinkUe (s : State) (l : Nat) (ts : List Nat) : State :=
  { s with sward := { s.sward with linkUe := mapSet [] s.sward.linkUe l ts } }

/-- R67: an uncorrectable flit is counted and its time noted, and the LINK_UE_MAX-th within 1 ms fails the link. -/
theorem State.linkFlit_uncorrectable {e : Nat} (ho : s.linkOff k d = false) (hb : linkNbr k d = some b) (he : 2 ≤ e) :
    ∃ M, s.Untraced { s with regs := M } ∧ s.linkFlit k d e =
      if max 1 (s.rf (.sw (routerQuad k)) R.SW_CTL F.SW_CTL_LINK_UE_MAX) ≤ (s.linkErrs (4 * k + d)).length then
        (State.withLinkUe { s with regs := M } (4 * k + d) (s.linkErrs (4 * k + d))).linkFail k d
      else State.withLinkUe { s with regs := M } (4 * k + d) (s.linkErrs (4 * k + d)) := by
  unfold State.linkFlit
  rw [if_neg (by simp [ho, hb])]
  dsimp only
  rw [if_neg (by omega), if_neg (by omega)]
  have h := s.pmonCount_within k d 7 1
  have hu := s.pmonCount_untraced k d 7 1
  generalize s.pmonCount k d 7 1 = y at h hu
  have hrf : y.rf (.sw (routerQuad k)) R.SW_CTL F.SW_CTL_LINK_UE_MAX = s.rf (.sw (routerQuad k)) R.SW_CTL F.SW_CTL_LINK_UE_MAX :=
    congrArg (Word.fld · _) (h.rd (not_isPmonCnt_of_off_lt (by decide)))
  obtain ⟨M, rfl⟩ : ∃ M, y = { s with regs := M } := ⟨_, h.rest⟩
  rw [← hrf]
  exact ⟨M, hu, rfl⟩

end Sys2Proof.Machine

/-! Link disables that are written (R67), broadcasts (R54), transactions without a response (R65) and monitors that trace (R68). -/

namespace Sys2Proof.Machine

variable {s t x y : State} {r : Req} {u : UnitId} {g : Reg} {v old : Word} {q k d b i n : Nat}

/-! ### A link disabled by a write (R67) -/

/-- A fold that acts at one index of its range acts there once. -/
theorem foldl_range_at {α : Type} (f : α → Nat → α) (a : α) :
    (List.range n).foldl (fun a j => if i = j then f a j else a) a = if i < n then f a i else a := by
  induction n with
  | zero => rfl
  | succ n ih =>
    rw [List.range_succ, List.foldl_append, ih, List.foldl_cons, List.foldl_nil]
    by_cases h : i = n
    · subst h
      simp
    · rw [if_neg h]
      exact if_congr (by omega) rfl rfl

theorem bit_ofNat_two_pow (h : i < 32) (j : Nat) : (BitVec.ofNat 32 (2 ^ i)).toNat.testBit j = decide (i = j) := by
  rw [BitVec.toNat_ofNat, Nat.mod_eq_of_lt (Nat.pow_lt_pow_right (by decide) h), Nat.testBit_two_pow]

/-- The half of LINK_DIS that a command writes. -/
def linkDisReg (hi : Bool) : Reg := if hi then R.LINK_DIS_HI else R.LINK_DIS_LO

/-- The link that bit `i` of that half names in quadrant `q`: its router. -/
def linkDisRouter (q : Nat) (hi : Bool) (i : Nat) : Nat :=
  localRouter q ((i + (if hi then 32 else 0)) / 4 % 4) ((i + (if hi then 32 else 0)) / 16)

/-- R67: writing a 1 to a bit of LINK_DIS fails the link that the bit names. -/
theorem State.wrPost_linkDis (hi : Bool) (h : i < 32) : s.wrPost r (.sw q) (linkDisReg hi) n old (BitVec.ofNat 32 (2 ^ i)) =
    (s.wr (.sw q) (linkDisReg hi) 0).linkFail (linkDisRouter q hi i) (i % 4) := by
  have hfold (o : Nat) (a : State) : (List.range 32).foldl (fun (s : State) j =>
      if Word.bit (BitVec.ofNat 32 (2 ^ i)) j then s.linkFail (localRouter q ((j + o) / 4 % 4) ((j + o) / 16)) ((j + o) % 4) else s) a =
      a.linkFail (localRouter q ((i + o) / 4 % 4) ((i + o) / 16)) ((i + o) % 4) := by
    simp only [Word.bit, bit_ofNat_two_pow h, decide_eq_true_eq]
    rw [foldl_range_at (fun (s : State) j => s.linkFail (localRouter q ((j + o) / 4 % 4) ((j + o) / 16)) ((j + o) % 4)) a, if_pos h]
  cases hi
  · exact hfold 0 _
  · exact (hfold 32 _).trans (congrArg (State.linkFail _ _) (by omega))

/-- What that write leaves. -/
theorem State.linkDisWritten_spec (hi : Bool) (h : i < 32) (ho : s.linkOff (linkDisRouter q hi i) (i % 4) = false)
    (hb : linkNbr (linkDisRouter q hi i) (i % 4) = some b) (hs : s.Settled) :
    let t := (s.fieldsWritten r (.sw q) (linkDisReg hi) 0 0 (BitVec.ofNat 32 (2 ^ i))).wrPost r (.sw q) (linkDisReg hi) 0
      (s.rd (.sw q) (linkDisReg hi)) (BitVec.ofNat 32 (2 ^ i))
    s.Untraced t ∧ t.linkOff (linkDisRouter q hi i) (i % 4) = true ∧ t.linkOff b (facing (i % 4)) = true ∧ s.Triggered t 3 := by
  obtain ⟨M, U, hfw, -, -⟩ := s.fieldsWritten_eq r (.sw q) (linkDisReg hi) 0 0 (BitVec.ofNat 32 (2 ^ i))
  have hreg : ¬ traceReg (regAddr (.sw q) (linkDisReg hi) 0 0) :=
    not_traceReg_of_inBlock_sw (inBlock_sw_regAddr (by cases hi <;> decide))
  have hu := State.fieldsWritten_untraced (s := s) (r := r) (v := BitVec.ofNat 32 (2 ^ i)) hreg
  intro t
  rw [show t = _ from State.wrPost_linkDis hi h]
  rw [hfw] at hu ⊢
  obtain ⟨hf, hcut⟩ := State.linkFail_spec (s := State.wr { s with regs := M, units := U } (.sw q) (linkDisReg hi) 0) ho hb hs
  exact ⟨(hu.trans (State.aside_wr hreg).untraced).trans hf, hcut⟩

/-! ### Broadcasts (R54, R62, R107) -/

theorem State.epochEverywhere_eq (s : State) (m e : Nat) : ∃ A, s.epochEverywhere m e = { s with sward := { s.sward with atab := A } } := by
  unfold State.epochEverywhere
  generalize List.range 128 = l
  induction l generalizing s with
  | nil => exact ⟨s.sward.atab, rfl⟩
  | cons a l ih =>
    obtain ⟨A, hA⟩ := ih (s.setAtEntry a m (s.atEntry a m / 16 * 16 + e % 16))
    exact ⟨A, hA⟩

/-- R62: the new epoch of a master stands in its entry of every table, and no other entry changes. -/
theorem State.atEntry_epochEverywhere {m e a y : Nat} (hm : m < 4096) (ha : a < 128) (hy : y < 4096) :
    (s.epochEverywhere m e).atEntry a y = if y = m then s.atEntry a y / 16 * 16 % 512 + e % 16 else s.atEntry a y := by
  have hfold (n : Nat) : ((List.range n).foldl (fun (s : State) b => s.setAtEntry b m (s.atEntry b m / 16 * 16 + e % 16)) s).atEntry a y =
      if a < n ∧ y = m then (s.atEntry a y / 16 * 16 + e % 16) % 512 else s.atEntry a y := by
    induction n with
    | zero => simp
    | succ n ih =>
      rw [List.range_succ, List.foldl_append, List.foldl_cons, List.foldl_nil, State.atEntry_setAtEntry hm hy]
      by_cases h : a = n ∧ y = m
      · obtain ⟨rfl, rfl⟩ := h
        rw [ih]
        simp
      · rw [if_neg h, ih]
        exact if_congr (by omega) rfl rfl
  rw [State.epochEverywhere, hfold]
  by_cases h : y = m
  · rw [if_pos ⟨ha, h⟩, if_pos h]
    omega
  · rw [if_neg (fun hn => h hn.2), if_neg h]

/-- A configuration event of one Sward block is none of another (R19). -/
theorem State.unit_cfgEvent_sw (s : State) (p q : Nat) (w : Word) : (s.cfgEvent (.sw p) w).unit (.sw q) =
    if q = p then { s.unit (.sw q) with cfg := ((s.unit (.sw q)).cfg + 1) % 2 ^ 32, writer := w } else s.unit (.sw q) := by
  have hdev : (UnitId.sw q).base ≠ UnitId.device.base := by simp only [UnitId.base]; omega
  have hquad : (UnitId.sw q).base ≠ (UnitId.quad p).base := by simp only [UnitId.base]; omega
  simp only [State.cfgEvent, show (UnitId.sw p).upward = [.sw p, .quad p, .device] from rfl, List.foldl_cons, List.foldl_nil]
  rw [State.unit_setUnit_ne _ _ _ _ hdev, State.unit_setUnit_ne _ _ _ _ hquad]
  by_cases h : q = p
  · subst h
    rw [if_pos rfl, State.unit_setUnit_self]
  · rw [if_neg h, State.unit_setUnit_ne]
    simp only [UnitId.base]
    omega

/-- One event in each of the four Sward blocks. -/
theorem State.cfgEvents_sw (s : State) (w : Word) : ∃ U,
    [0, 1, 2, 3].foldl (fun (s : State) q => s.cfgEvent (.sw q) w) s = { s with units := U } ∧
    ∀ q, q < 4 → State.unit { s with units := U } (.sw q) =
      { s.unit (.sw q) with cfg := ((s.unit (.sw q)).cfg + 1) % 2 ^ 32, writer := w } := by
  have hq (q : Nat) (h : q < 4) : ([0, 1, 2, 3].foldl (fun (s : State) q => s.cfgEvent (.sw q) w) s).unit (.sw q) =
      { s.unit (.sw q) with cfg := ((s.unit (.sw q)).cfg + 1) % 2 ^ 32, writer := w } := by
    simp only [List.foldl_cons, List.foldl_nil, State.unit_cfgEvent_sw]
    interval_cases q <;> rfl
  have hU : ∃ U, [0, 1, 2, 3].foldl (fun (s : State) q => s.cfgEvent (.sw q) w) s = { s with units := U } := by
    clear hq
    generalize [0, 1, 2, 3] = l
    induction l generalizing s with
    | nil => exact ⟨s.units, rfl⟩
    | cons p l ih =>
      obtain ⟨V, hV⟩ := s.cfgEvent_eq (.sw p) w
      rw [List.foldl_cons, hV]
      exact ih { s with units := V }
  obtain ⟨U, hU⟩ := hU
  exact ⟨U, hU, hU ▸ hq⟩

/-- R107: what a broadcast does for an engine that waited for it. -/
theorem State.engBroadcast_spec (s : State) (m : Nat) : ∃ M U G, s.engBroadcast m = { s with regs := M, units := U, sedge := G } ∧
    s.Untraced (s.engBroadcast m) ∧ ∀ q, (s.engBroadcast m).unit (.sw q) = s.unit (.sw q) := by
  unfold State.engBroadcast
  dsimp only
  split_ifs with hm
  · split
    · have hreg : ¬ traceReg (regAddr (.engine (m - 0x100)) R.ENG_STATUS 0 0) := by
        rintro (⟨k, hk, e⟩ | ⟨t, ht, e⟩) <;> simp only [regAddr, UnitId.base, R.ENG_STATUS, R.HR_SRC_EN, R.FR_CFG, List.mem_cons,
          List.not_mem_nil, or_false] at * <;> omega
      refine ⟨_, _, _, rfl, .trans {} (State.aside_wr hreg).untraced, fun q => State.unit_setUnit_ne _ _ _ _ ?_⟩
      simp only [UnitId.base]
      omega
    · exact ⟨s.regs, s.units, s.sedge, rfl, {}, fun _ => rfl⟩
  · exact ⟨s.regs, s.units, s.sedge, rfl, {}, fun _ => rfl⟩

/-! ### Transactions without a response (R65) -/

/-- R65: a transaction that has waited for TXN_TIMEOUT ends with TIMEOUT. -/
theorem State.txnExpire_due {z : Txn} (h : s.sward.txns = [z]) (hz : z.timedOut = false) (hd : z.since + s.txnNs z.quad ≤ s.mono) :
    s.txnExpire z.req.master.toNat z.tag =
      { s with sward := { s.sward with txns := [{ z with timedOut := true }] }, resp := .err 7 } := by
  simp [State.txnExpire, h, hz, Nat.not_lt.2 hd, State.answer]

/-- R65: the response of one that has timed out is discarded when it comes, and is counted. -/
theorem State.lateResponse_read {z : Txn} {j o : Nat} (h : s.sward.txns = [z]) (hz : z.timedOut = true) (hp : s.place z.addr = .scratch j o)
    (hr : s.memReady z.addr = true) (hk : z.what = .read n) :
    let t := s.lateResponse z.req.master.toNat z.tag
    s.Untraced t ∧ t.sward.txns = [] ∧ t.resp = s.resp ∧ t.mem = s.mem := by
  have hd : s.memDown z.addr = none := by
    rw [State.memReady, Bool.and_eq_true] at hr
    exact Option.isNone_iff_eq_none.1 hr.1
  have hfind : s.lateResponse z.req.master.toNat z.tag = s.txnServe z := by
    simp [State.lateResponse, h, hz, hr]
  intro t
  rw [show t = _ from hfind, State.txnServe, h, List.erase_cons_head]
  dsimp only
  generalize hy : ({ s with sward := { s.sward with txns := [] } } : State) = y
  have hyp : y.place z.addr = .scratch j o := hy ▸ hp
  have hyd : y.memDown z.addr = none := hy ▸ hd
  obtain ⟨hsy, htxns, hresp, hmem⟩ : s.Untraced y ∧ y.sward.txns = [] ∧ y.resp = s.resp ∧ y.mem = s.mem := hy ▸ ⟨{}, rfl, rfl, rfl⟩
  obtain ⟨p, hread⟩ := State.memTarget_read (r := z.req) hyp hyd (.inl hk)
  simp only [hread, hz, if_true]
  split
  next b hb =>
    have hw := y.pmonCount_within b 4 9 1
    have hu := y.pmonCount_untraced b 4 9 1
    generalize y.pmonCount b 4 9 1 = w at hw hu
    obtain ⟨M, rfl⟩ : ∃ M, w = { y with regs := M } := ⟨_, hw.rest⟩
    exact ⟨hsy.trans hu, htxns, hresp, hmem⟩
  · exact ⟨hsy, htxns, hresp, hmem⟩

/-! ### Monitors that trace (R68) -/

/-- With nothing traced a monitor's source emits nothing. -/
theorem State.trEmit_pmon {pk : List Byte} (h : s.tracing = false) (hk : k < 32) : s.trEmit (0x180 + k) pk = s := by
  have hw : s.rd .hedgerow R.HR_SRC_EN 12 = 0 := by
    simp only [State.tracing, Bool.or_eq_false_iff, List.any_eq_false, bne_iff_ne, not_not] at h
    exact h.1 12 (by decide)
  have hsrc : s.srcEn (0x180 + k) = false := by
    rw [State.srcEn, show (0x180 + k) / 32 = 12 by omega, hw]
    simp [Word.bit]
  have hfr : s.frTakes (0x180 + k) = none := by
    rw [State.frTakes, if_neg (by omega), if_neg (by omega)]
  simp [State.trEmit, State.trLive, hsrc, hfr]

/-- R68: a monitor that traces has emitted its packet of this interval. -/
theorem State.pmonTrace_due {m : Nat} (hc : s.Calm) (hq : q < 4) (hm : m < 8) (he : s.rb (.sw q) R.PMON_CTL F.PMON_CTL_TRACE_EN m = true)
    (ha : s.answers (.sw q) = true)
    (hd : mapGet 0 s.trace.pmonAt (8 * q + m) + 32 * max 1 (s.rf (.sw q) R.PMON_CTL F.PMON_CTL_INTERVAL m) ≤ s.mono) :
    s.pmonTrace q m = { s with trace := { s.trace with pmonAt := mapSet 0 s.trace.pmonAt (8 * q + m) s.mono } } := by
  unfold State.pmonTrace
  dsimp only
  rw [if_pos ⟨he, ha, hd⟩]
  exact State.trEmit_pmon (s := { s with trace := { s.trace with pmonAt := mapSet 0 s.trace.pmonAt (8 * q + m) s.mono } }) hc.1 (by omega)

/-! ### The commands of the mesh -/

/-- R54, R62: a broadcast sets its master's epoch in every table, and is one configuration event in each Sward block. -/
theorem State.mgmtBroadcast_spec {z : Bcast} {l : List Bcast} (h : s.sward.bcasts = z :: l) (hn : s.now % 32 = 0) (hm : z.master < 4096) :
    let t := s.mgmtBroadcast
    s.Untraced t ∧ t.sward.bcasts = l ∧
    (∀ a y, a < 128 → y < 4096 → t.atEntry a y = if y = z.master then s.atEntry a y / 16 * 16 % 512 + z.epoch % 16 else s.atEntry a y) ∧
    ∀ q, q < 4 → t.unit (.sw q) = { s.unit (.sw q) with cfg := ((s.unit (.sw q)).cfg + 1) % 2 ^ 32, writer := machineWriter } := by
  have hx : s.mgmtBroadcast = ([0, 1, 2, 3].foldl (fun (s : State) q => s.cfgEvent (.sw q) machineWriter)
      (State.epochEverywhere { s with sward := { s.sward with bcasts := l } } z.master z.epoch)).engBroadcast z.master := by
    simp only [State.mgmtBroadcast, State.broadcast, h, hn, if_true]
  intro t
  rw [show t = _ from hx]
  have hat (a y : Nat) := State.atEntry_epochEverywhere (s := { s with sward := { s.sward with bcasts := l } }) (e := z.epoch) (a := a) (y := y) hm
  obtain ⟨A, hA⟩ := State.epochEverywhere_eq { s with sward := { s.sward with bcasts := l } } z.master z.epoch
  rw [hA] at hat ⊢
  obtain ⟨U, hU, hcfg⟩ := State.cfgEvents_sw { s with sward := { s.sward with bcasts := l, atab := A } } machineWriter
  rw [hU]
  obtain ⟨M, V, G, hG, hu, hsw⟩ := State.engBroadcast_spec { s with sward := { s.sward with bcasts := l, atab := A }, units := U } z.master
  refine ⟨.trans {} hu, ?_, fun a y ha hy => ?_, fun q hq => (hsw q).trans (hcfg q hq)⟩
  · rw [hG]
  · rw [hG]
    exact hat a y ha hy

/-- Settles O39: each command by its lemma. -/
theorem swardMesh : Obligations.SwardMesh := by
  intro s r k d e b hc hb u m cut
  refine ⟨fun ho => ⟨?_, fun hm => ?_, fun he hl => ?_, fun he hl hs => ?_, fun q hi i hk hd hs => ?_⟩, fun z l hl hn hz => ?_,
    fun mm tag z h hm ht => ⟨fun hz hd => ?_, fun n hz hp hr hk => ?_⟩, fun q i he ha hd => ?_⟩
  · exact hc.does (x := s) (congrArg (State.done · s) (by simp [State.linkFlit])) {} rfl
  · obtain ⟨hu, hP⟩ := State.linkFlit_corrected ho hb hm k.isLt
    exact hc.does rfl hu hP
  · obtain ⟨M, hu, hx⟩ := State.linkFlit_uncorrectable ho hb he
    rw [if_neg (Nat.not_le.2 hl)] at hx
    exact hc.does (congrArg (State.done · s) hx) (hu.trans {}) ⟨rfl, ho, mapGet_mapSet_self ..⟩
  · obtain ⟨M, hu, hx⟩ := State.linkFlit_uncorrectable ho hb he
    rw [if_pos hl] at hx
    obtain ⟨hf, hcut⟩ := State.linkFail_spec (s := State.withLinkUe { s with regs := M } (4 * k + d) (s.linkErrs (4 * k + d))) ho hb hs
    exact hc.does (congrArg (State.done · s) hx) ((hu.trans {}).trans hf) hcut
  · have hk : k.val = linkDisRouter q hi i := hk
    simp only [cut]
    rw [hk, hd] at ho hb ⊢
    obtain ⟨hu, hcut⟩ := State.linkDisWritten_spec (r := r) hi i.isLt ho hb hs
    exact hc.sets_sw (g := linkDisReg hi) rfl (by cases hi <;> decide) (by cases hi <;> decide)
      (by cases hi <;> exact fun h => absurd h (by decide)) rfl hu hcut
  · obtain ⟨hu, hbc, hat, hcfg⟩ := State.mgmtBroadcast_spec hl hn hz
    exact hc.does rfl hu ⟨hbc, hat, fun q hq => by rw [hcfg q hq]; exact ⟨rfl, rfl⟩⟩
  · subst hm ht
    exact hc.does (congrArg (State.done · s) (State.txnExpire_due h hz hd)) {} rfl
  · subst hm ht
    obtain ⟨j, o, hp⟩ := hp
    obtain ⟨hu, hP⟩ := State.lateResponse_read h hz hp hr hk
    exact hc.does rfl hu hP
  · exact hc.does (congrArg (State.done · s) (State.pmonTrace_due hc q.isLt i.isLt he ha hd)) {} (mapGet_mapSet_self ..)

end Sys2Proof.Machine

/-! The slices' register blocks, and the region table (R72, R74). -/

namespace Sys2Proof.Machine

variable {s t x : State} {r : Req} {g : Reg} {v old : Word} {l : List Reg} {c i j n a : Nat} {f : Fld}

/-! ### Registers of a slice's block (R22) -/

/-- No register that switches trace lies in a slice's block. -/
theorem not_traceReg_slice (h : g.off + i * g.s1 + j * g.s2 < 0x10000) : ¬ traceReg (regAddr (.slice c) g i j) := by
  rintro (⟨k, hk, e⟩ | ⟨t, ht, e⟩)
  · simp only [regAddr, UnitId.base, R.HR_SRC_EN] at e
    omega
  · simp only [List.mem_cons, List.not_mem_nil, or_false] at ht
    simp only [regAddr, UnitId.base, R.FR_CFG] at e
    omega

/-- The addresses of the registers `l` of slice `c`. -/
def isSliceReg (c : Nat) (l : List Reg) (a : Nat) : Prop := ∃ g ∈ l, a = regAddr (.slice c) g 0 0

theorem isSliceReg_of_mem (h : g ∈ l) : isSliceReg c l (regAddr (.slice c) g 0 0) := ⟨g, h, rfl⟩

theorem not_isSliceReg_of_off (h : ∀ k ∈ l, g.off ≠ k.off) : ¬ isSliceReg c l (regAddr (.slice c) g 0 0) := by
  rintro ⟨k, hk, e⟩
  have := h k hk
  simp only [regAddr] at e
  omega

theorem not_traceReg_of_isSliceReg (hl : ∀ k ∈ l, k.off < 0x10000) (h : isSliceReg c l a) : ¬ traceReg a := by
  obtain ⟨k, hk, rfl⟩ := h
  have := hl k hk
  exact not_traceReg_slice (by omega)

theorem State.RegsWithin.mono {P Q : Nat → Prop} (h : s.RegsWithin t P) (hPQ : ∀ a, P a → Q a) : s.RegsWithin t Q :=
  ⟨h.rest, fun a d ha => h.regs a d (fun hp => ha (hPQ a hp))⟩

theorem isSliceReg_mono {l' : List Reg} (h : l ⊆ l') (a : Nat) : isSliceReg c l a → isSliceReg c l' a :=
  fun ⟨g, hg, e⟩ => ⟨g, h hg, e⟩

/-- What happens in a slice's registers leaves the event registers of the UMBs. -/
theorem State.Mute.of_regsWithin_slice (hm : s.Mute) (h : s.RegsWithin t (isSliceReg c l)) (hl : ∀ k ∈ l, k.off < 0x10000) : t.Mute := by
  refine ⟨?_, fun q hq => ?_⟩
  · rw [h.rd (by rintro ⟨k, hk, e⟩; simp only [regAddr, UnitId.base, R.FAULT_EVT_D] at e; omega)]
    exact hm.1
  · rw [h.rd (by rintro ⟨k, hk, e⟩; have := hl k hk; simp only [regAddr, UnitId.base, R.FAULT_EVT_Q] at e; omega)]
    exact hm.2 q hq

/-! ### Writes of the region table (R72, R74) -/

/-- The registers of an entry of the region table. -/
def regionRegs : List Reg := [R.REG_BASE, R.REG_SIZE, R.REG_ATTR]

theorem mem_regionRegs : g ∈ regionRegs ↔ g = R.REG_BASE ∨ g = R.REG_SIZE ∨ g = R.REG_ATTR := by simp [regionRegs]

/-- The table's registers can be written, and lie above the slice's other registers, one entry every 16 bytes. -/
theorem regionRegs_shape (h : g ∈ regionRegs) : regWritable g ≠ 0 ∧ 0x400 ≤ g.off ∧ g.off < 0x410 ∧ g.s1 = 0x10 := by
  rcases mem_regionRegs.1 h with rfl | rfl | rfl <;> decide

/-- R74: a write of a locked entry is discarded. -/
theorem State.wrDiscard_region (h : g ∈ regionRegs) : s.wrDiscard (.slice 0) g n v = (s.rd (.slice 0) R.REG_ATTR n).bit 31 := by
  rcases mem_regionRegs.1 h with rfl | rfl | rfl <;> simp [State.wrDiscard]

theorem State.wrPost_region (h : g ∈ regionRegs) : s.wrPost r (.slice 0) g n old v = s.regionCheck n :=
  if_pos (mem_regionRegs.1 h)

/-- R72's check changes REGION_ERR alone. -/
theorem State.regionCheck_within (s : State) (n : Nat) : s.RegsWithin (s.regionCheck n) (isSliceReg 0 [R.REGION_ERR]) := by
  unfold State.regionCheck
  dsimp only
  split_ifs
  · exact State.regsWithin_wr (isSliceReg_of_mem (by simp))
  · exact .refl s _

/-- R74: a granted write of a locked entry leaves nothing but its answer. -/
theorem State.wrTo_region_locked (hg : g ∈ regionRegs) (hb : (s.rd (.slice 0) R.REG_ATTR n).bit 31 = true)
    (h : s.Granted r .write (.slice 0) g n 0) : s.wrTo r (.slice 0) g v n = s.answer (.ok 0) := by
  obtain ⟨hw, hoff, -, -⟩ := regionRegs_shape hg
  have hd : s.wrDiscard (.slice 0) g n v = true := (State.wrDiscard_region hg).trans hb
  have hr : s.wrRefuse r (.slice 0) g n (s.rd (.slice 0) g n) v none = none := rfl
  exact State.wrTo_ok h (by simp [State.regWrite, hw, hr, hd, show ¬ g.off < 0x100 by omega])

/-- R72: a granted write of an entry that is not locked changes its fields. -/
theorem State.wrTo_region_open (hg : g ∈ regionRegs) (hb : (s.rd (.slice 0) R.REG_ATTR n).bit 31 = false)
    (h : s.Granted r .write (.slice 0) g n 0) : ∃ t, s.wrTo r (.slice 0) g v n = t.answer (.ok 0) ∧ s.Untraced t ∧
      t.rd (.slice 0) g n = regWritten g (s.rd (.slice 0) g n) v ∧ t.mem = s.mem := by
  obtain ⟨hw, hlo, -, -⟩ := regionRegs_shape hg
  have hd : s.wrDiscard (.slice 0) g n v = false := (State.wrDiscard_region hg).trans hb
  have hwrite := State.wrTo_ok h (State.regWrite_ok hw (by omega) rfl hd (by simp) (by simp) (by simp))
  rw [State.wrPost_region hg] at hwrite
  obtain ⟨M, U, he, hrd, -⟩ := s.fieldsWritten_eq r (.slice 0) g n 0 v
  have hu := s.fieldsWritten_untraced (r := r) (v := v) (h.not_traceReg (by simp) (by simp))
  have hin := (s.fieldsWritten r (.slice 0) g n 0 v).regionCheck_within n
  refine ⟨_, hwrite, hu.trans (hin.untraced fun a => not_traceReg_of_isSliceReg (by decide)), ?_, ?_⟩
  · refine (hin.rd ?_).trans (he ▸ hrd)
    rintro ⟨k, hk, e⟩
    obtain rfl := List.mem_singleton.1 hk
    simp only [regAddr, R.REGION_ERR] at e
    omega
  · rw [hin.rest, he]

/-- A bit that a write of 1 sets stands after such a write (R4). -/
theorem bit_regWritten_of_w1s (hg : g.w1s.testBit i = true) (hv : v.bit i = true) (hi : i < 32) : (regWritten g old v).bit i = true := by
  rw [Word.bit] at hv
  simp only [Word.bit, regWritten, BitVec.toNat_ofNat, Nat.testBit_mod_two_pow, Nat.testBit_or, Nat.testBit_and, hg, hv, hi]
  simp

theorem bit_setFld_locked (v : Word) : (v.setFld F.REG_ATTR_LOCKED 1).bit 31 = true := by
  have h := fld_setFld v F.REG_ATTR_LOCKED 1 (by decide)
  rw [Word.fld, natBits, Nat.shiftRight_eq_div_pow] at h
  rw [Word.bit, Nat.testBit_eq_decide_div_mod_eq]
  exact decide_eq_true h

/-- A write of an entry: its fields where it is not locked, and nothing where it is. -/
theorem State.Calm.sets_region {k : Instr} (hc : s.Calm) (hg : g ∈ regionRegs) (he : exec k s = (s.wrTo r (.slice 0) g v n).done s) :
    ((s.rd (.slice 0) R.REG_ATTR n).bit 31 = false → s.Sets r (.slice 0) g n k (fun t =>
      t.rd (.slice 0) g n = regWritten g (s.rd (.slice 0) g n) v ∧ t.mem = s.mem)) ∧
    ((s.rd (.slice 0) R.REG_ATTR n).bit 31 = true → s.Sets r (.slice 0) g n k (fun t => t = { s with resp := .ok 0 })) := by
  refine ⟨fun hb h => ?_, fun hb h => ?_⟩
  · obtain ⟨t, ht, hu, hrd, hm⟩ := State.wrTo_region_open (v := v) hg hb h
    exact hc.does (he.trans (congrArg (State.done · s) ht)) (hu.trans State.untraced_answer) ⟨rfl, hrd, hm⟩
  · exact hc.does (he.trans (congrArg (State.done · s) (State.wrTo_region_locked hg hb h))) State.untraced_answer ⟨rfl, rfl⟩

/-- R74: the entry is locked after a write of LOCKED. -/
theorem State.Calm.sets_regionLock (hc : s.Calm) (n : Fin 256) :
    s.Sets r (.slice 0) R.REG_ATTR n (.regionLock r n v) (fun t => (t.rd (.slice 0) R.REG_ATTR n).bit 31 = true) := by
  intro h
  obtain ⟨hopen, hlocked⟩ := hc.sets_region (r := r) (g := R.REG_ATTR) (k := .regionLock r n v) (by simp [regionRegs]) rfl
  cases hb : (s.rd (.slice 0) R.REG_ATTR n).bit 31 with
  | false =>
    obtain ⟨t, ht, hr, hrd, -⟩ := hopen hb h
    exact ⟨t, ht, hr, (congrArg (Word.bit · 31) hrd).trans (bit_regWritten_of_w1s (by decide) (bit_setFld_locked v) (by decide))⟩
  | true =>
    obtain ⟨t, ht, hr, hsame⟩ := hlocked hb h
    exact ⟨t, ht, hr, hsame ▸ hb⟩

end Sys2Proof.Machine

/-! The scrubber (R77, R79): where a line lies, what an error leaves in the slice's registers, and what is written back. -/

namespace Sys2Proof.Machine

variable {s t x : State} {g : Reg} {l : List Reg} {c k n a : Nat} {f : Fld} {e : Ecc} {b p : Bool} {d : List Byte}

/-! ### Where a line lies (R70, R72) -/

/-- R70: bits [12:11] and [17:16] exchanged. -/
def bitsExchanged (a : Nat) : Nat :=
  a - natBits a 12 11 * 2 ^ 11 - natBits a 17 16 * 2 ^ 16 + natBits a 17 16 * 2 ^ 11 + natBits a 12 11 * 2 ^ 16

theorem State.dramKey_eq (s : State) (a : Nat) :
    s.dramKey a = if s.regAttr (a / 0x40000 * 0x40000) F.REG_ATTR_QLOCAL = 0 then a else bitsExchanged a := rfl

theorem bitsExchanged_parts {q d m b r : Nat} (hd : d < 4) (hm : m < 8) (hb : b < 4) (hr : r < 2048) :
    bitsExchanged (q * 0x40000 + d * 0x10000 + m * 0x2000 + b * 0x800 + r) = q * 0x40000 + b * 0x10000 + m * 0x2000 + d * 0x800 + r := by
  simp only [bitsExchanged, natBits, Nat.shiftRight_eq_div_pow, Nat.reduceAdd, Nat.reduceSub, Nat.reducePow]
  have hlow : (q * 0x40000 + d * 0x10000 + m * 0x2000 + b * 0x800 + r) / 2048 % 4 = b := by omega
  have hhigh : (q * 0x40000 + d * 0x10000 + m * 0x2000 + b * 0x800 + r) / 65536 % 4 = d := by omega
  rw [hlow, hhigh]
  omega

/-- The exchange keeps an address within its 256 KiB block and its offset in the line, and is its own inverse. -/
theorem bitsExchanged_spec (a : Nat) :
    bitsExchanged a / 0x40000 = a / 0x40000 ∧ bitsExchanged a % 64 = a % 64 ∧ bitsExchanged (bitsExchanged a) = a := by
  obtain ⟨q, d, m, b, r, hd, hm, hb, hr, rfl⟩ : ∃ q d m b r, d < 4 ∧ m < 8 ∧ b < 4 ∧ r < 2048 ∧
      a = q * 0x40000 + d * 0x10000 + m * 0x2000 + b * 0x800 + r :=
    ⟨a / 0x40000, a / 0x10000 % 4, a / 0x2000 % 8, a / 0x800 % 4, a % 0x800, by omega⟩
  have hblock {x y : Nat} (hx : x < 4) (hy : y < 4) : (q * 0x40000 + x * 0x10000 + m * 0x2000 + y * 0x800 + r) / 0x40000 = q := by omega
  rw [bitsExchanged_parts hd hm hb hr, bitsExchanged_parts hb hm hd hr, hblock hd hb, hblock hb hd]
  omega

theorem State.dramKey_mod (s : State) (a : Nat) : s.dramKey a % 64 = a % 64 := by
  rw [State.dramKey_eq]
  split_ifs
  · rfl
  · exact (bitsExchanged_spec a).2.1

/-- R70: an address is found again from its A'. -/
theorem State.dramKey_dramKey (s : State) (a : Nat) : s.dramKey (s.dramKey a) = a := by
  obtain ⟨hblock, -, hinv⟩ := bitsExchanged_spec a
  rw [s.dramKey_eq a]
  split_ifs with h
  · rw [State.dramKey_eq, if_pos h]
  · rw [State.dramKey_eq, hblock, if_neg h, hinv]

/-- Regions follow from the region table alone. -/
theorem State.regAttr_congr (h : ∀ n < 256, ∀ g ∈ regionRegs, t.rd homeUnit0 g n = s.rd homeUnit0 g n) :
    t.regAttr a f = s.regAttr a f := by
  have hrf : ∀ n < 256, ∀ f, t.rf homeUnit0 R.REG_BASE f n = s.rf homeUnit0 R.REG_BASE f n ∧
      t.rf homeUnit0 R.REG_SIZE f n = s.rf homeUnit0 R.REG_SIZE f n ∧ t.rf homeUnit0 R.REG_ATTR f n = s.rf homeUnit0 R.REG_ATTR f n := by
    intro n hn f
    exact ⟨congrArg (Word.fld · f) (h n hn _ (by simp [regionRegs])), congrArg (Word.fld · f) (h n hn _ (by simp [regionRegs])),
      congrArg (Word.fld · f) (h n hn _ (by simp [regionRegs]))⟩
  have hof : t.regionOf (a / 65536) = s.regionOf (a / 65536) := by
    refine List.find?_congr fun n hn => ?_
    have hn : n < 256 := List.mem_range.1 hn
    simp only [State.regActive, hrf n hn]
  unfold State.regAttr
  rw [hof]
  cases hs : s.regionOf (a / 65536) with
  | none => rfl
  | some n => exact (hrf n (List.mem_range.1 (List.mem_of_find?_eq_some hs)) f).2.2

theorem State.dramKey_congr (h : ∀ n < 256, ∀ g ∈ regionRegs, t.rd homeUnit0 g n = s.rd homeUnit0 g n) (a : Nat) :
    t.dramKey a = s.dramKey a := by
  rw [State.dramKey_eq, State.dramKey_eq, State.regAttr_congr h]

/-! ### What the slice's registers show (R77, R79) -/

/-- The registers of a slice in which a scrub read shows: its place, its counts and its log. -/
def scrubRegs : List Reg := [R.SCRUB_POS, R.ECC_LOG_0, R.ECC_LOG_1, R.ECC_CORR_CNT, R.ECC_UE_CNT]

/-- They lie below the region table. -/
theorem not_isSliceReg_region (h : g ∈ regionRegs) (hn : n < 256) : ¬ isSliceReg c scrubRegs (regAddr homeUnit0 g n 0) := by
  obtain ⟨-, hlo, hhi, hs1⟩ := regionRegs_shape h
  rintro ⟨k, hk, e⟩
  have hk : k.off < 0x120 := (by decide : ∀ k ∈ scrubRegs, k.off < 0x120) k hk
  simp only [regAddr, homeUnit0, UnitId.base, hs1] at e
  omega

/-- R77: the slice's log once it has taken an error at `a`. -/
def State.eccNoted (s : State) (c a : Nat) (e : Ecc) (scrub : Bool) : State :=
  if s.rb (.slice c) R.ECC_LOG_1 F.ECC_LOG_1_VALID then s
  else (s.wr (.slice c) R.ECC_LOG_0 (lo32 (a / 64 * 64))).wr (.slice c) R.ECC_LOG_1
    (BitVec.ofNat 32 (a / 2 ^ 32 % 256 + 256 + 512 * b2n (e = .ue) + 1024 * b2n scrub))

theorem State.eccLog_clean : s.eccLog c a .clean b = s := rfl

theorem State.eccLog_corr : s.eccLog c a .corr b = ((s.bump (.slice c) R.ECC_CORR_CNT).eccNoted c a .corr b).setFault (.slice c) fsCorr := rfl

theorem State.eccLog_ue : s.eccLog c a .ue b = (s.bump (.slice c) R.ECC_UE_CNT).eccNoted c a .ue b := rfl

theorem State.eccNoted_within (s : State) (c a : Nat) (e : Ecc) (b : Bool) :
    s.RegsWithin (s.eccNoted c a e b) (isSliceReg c [R.ECC_LOG_0, R.ECC_LOG_1]) := by
  unfold State.eccNoted
  split_ifs
  · exact .refl s _
  · exact (State.regsWithin_wr (isSliceReg_of_mem (by simp))).trans (State.regsWithin_wr (isSliceReg_of_mem (by simp)))

/-- An error's count and log lie in the slice's registers. -/
theorem State.eccCounted_within (s : State) (c a : Nat) (e : Ecc) (b : Bool) (hg : g ∈ scrubRegs) (hp : g.off ≠ R.SCRUB_POS.off) :
    s.RegsWithin ((s.bump (.slice c) g).eccNoted c a e b) (isSliceReg c scrubRegs) ∧
      ((s.bump (.slice c) g).eccNoted c a e b).rd (.slice c) R.SCRUB_POS = s.rd (.slice c) R.SCRUB_POS := by
  have hnote := (s.bump (.slice c) g).eccNoted_within c a e b
  refine ⟨(State.regsWithin_wr (isSliceReg_of_mem hg)).trans (hnote.mono (isSliceReg_mono (by simp [scrubRegs]))), ?_⟩
  rw [hnote.rd (not_isSliceReg_of_off (by decide))]
  refine State.rd_wr_ne _ _ _ _ _ _ _ _ _ _ fun h => hp ?_
  simp only [regAddr] at h
  omega

/-! ### The next line (R79) -/

/-- The state in which the scrubber of channel `c` has moved on. -/
def State.scrubNext (s : State) (c : Nat) : State :=
  (s.setChan c { s.chan c with scrubAt := s.mono }).wr (.slice c) R.SCRUB_POS
    (BitVec.ofNat 32 (((s.rd (.slice c) R.SCRUB_POS).toNat + 1) % chanLines))

/-- Where the line lies that the scrubber of channel `c` reads next. -/
def State.scrubKey (s : State) (c : Nat) : Nat := chanKey c (64 * (s.rd (.slice c) R.SCRUB_POS).toNat)

/-- The scrubber of channel `c` has read its line: what SCRUB_POS and the interval say, with memory and regions as before. -/
structure State.Scrubbed (s : State) (c : Nat) (t : State) : Prop where
  pos : (t.rd (.slice c) R.SCRUB_POS).toNat = ((s.rd (.slice c) R.SCRUB_POS).toNat + 1) % chanLines
  chan : (t.chan c).scrubAt = s.mono
  byte : ∀ y, t.byte y = s.byte y
  key : ∀ a, t.dramKey a = s.dramKey a
  untraced : s.Untraced t

theorem State.scrubbed_of_within (h : (s.scrubNext c).RegsWithin t (isSliceReg c scrubRegs))
    (hp : t.rd (.slice c) R.SCRUB_POS = (s.scrubNext c).rd (.slice c) R.SCRUB_POS) : s.Scrubbed c t := by
  have hlines : ((s.rd (.slice c) R.SCRUB_POS).toNat + 1) % chanLines < chanLines := Nat.mod_lt _ (by decide)
  have hfar : ∀ a, isSliceReg c scrubRegs a → ¬ traceReg a := fun a => not_traceReg_of_isSliceReg (by decide)
  have hnext : (s.setChan c { s.chan c with scrubAt := s.mono }).RegsWithin t (isSliceReg c scrubRegs) :=
    (State.regsWithin_wr (isSliceReg_of_mem (by simp [scrubRegs]))).trans h
  have hmem : t.mem = (s.setChan c { s.chan c with scrubAt := s.mono }).mem := by rw [hnext.rest]
  refine ⟨?_, ?_, ?_, State.dramKey_congr fun n hn g hg => hnext.rd (not_isSliceReg_region hg hn), .trans {} (hnext.untraced hfar)⟩
  · rw [hp, State.scrubNext, State.rd_wr_self, BitVec.toNat_ofNat, Nat.mod_eq_of_lt (hlines.trans (by decide))]
  · rw [State.chan, hmem]
    exact congrArg Chan.scrubAt (mapGet_mapSet_self ..)
  · intro y
    rw [State.byte, hmem]
    rfl

theorem State.Scrubbed.setUnit (h : s.Scrubbed c t) (u : UnitId) (y : UnitRt) : s.Scrubbed c (t.setUnit u y) :=
  ⟨h.pos, h.chan, h.byte, h.key, h.untraced.trans {}⟩

/-- R77: a corrected error is counted and shows in FAULT_SUM. -/
theorem State.scrubbed_corr (hm : s.Mute) (hc : c < 32) :
    let t := (s.scrubNext c).eccLog c a .corr b
    s.Scrubbed c t ∧ (t.unit (.slice c)).fsum = ((s.unit (.slice c)).fsum ||| 1) ∧
      (t.rd (.slice c) R.ECC_CORR_CNT).toNat = min ((s.rd (.slice c) R.ECC_CORR_CNT).toNat + 1) (2 ^ 32 - 1) := by
  have hcnt : (s.scrubNext c).rd (.slice c) R.ECC_CORR_CNT = s.rd (.slice c) R.ECC_CORR_CNT :=
    State.rd_wr_ne _ _ _ _ _ _ _ _ _ _ (by simp [regAddr, R.ECC_CORR_CNT, R.SCRUB_POS])
  have hmn : (s.scrubNext c).Mute := State.Mute.of_regsWithin_slice (s := s.setChan c { s.chan c with scrubAt := s.mono }) (l := scrubRegs) hm
    (State.regsWithin_wr (isSliceReg_of_mem (by simp [scrubRegs]))) (by decide)
  have hunit : (s.scrubNext c).unit (.slice c) = s.unit (.slice c) := rfl
  generalize hy : s.scrubNext c = y at hcnt hmn hunit
  obtain ⟨hin, hpos⟩ := y.eccCounted_within c a .corr b (g := R.ECC_CORR_CNT) (by simp [scrubRegs]) (by decide)
  have hz := (y.bump (.slice c) R.ECC_CORR_CNT).eccNoted_within c a .corr b
  intro t
  rw [show t = _ from State.eccLog_corr]
  generalize (y.bump (.slice c) R.ECC_CORR_CNT).eccNoted c a .corr b = z at hin hpos hz
  rw [(hmn.of_regsWithin_slice hin (by decide)).setFault (u := .slice c) (decide_eq_true hc)]
  refine ⟨(State.scrubbed_of_within (hy ▸ hin) (hy ▸ hpos)).setUnit _ _, ?_, ?_⟩
  · rw [State.unit_setUnit_self, show z.unit (.slice c) = s.unit (.slice c) by rw [hin.rest]; exact hunit]
    rfl
  · rw [State.rd_setUnit, hz.rd (not_isSliceReg_of_off (by decide)), State.bump, State.rd_wr_self, hcnt, BitVec.toNat_ofNat]
    exact Nat.mod_eq_of_lt (lt_of_le_of_lt (Nat.min_le_right _ _) (by decide))

/-- R77: an uncorrectable one is counted and logged. -/
theorem State.scrubbed_ue : s.Scrubbed c ((s.scrubNext c).eccLog c a .ue b) := by
  obtain ⟨hin, hpos⟩ := (s.scrubNext c).eccCounted_within c a .ue b (g := R.ECC_UE_CNT) (by simp [scrubRegs]) (by decide)
  rw [State.eccLog_ue]
  exact State.scrubbed_of_within hin hpos

/-! ### The line written back (R78, R79) -/

/-- Bytes written where they stand already leave every byte as it was. -/
theorem State.Wrote.byte_same (h : s.Wrote a (s.bytes a n) t) (y : Nat) : t.byte y = s.byte y := by
  rw [h.byte]
  split_ifs with hy
  · have hn : y - a < n := by simp [State.bytes] at hy; omega
    simp [State.bytes, List.getD_eq_getElem?_getD, hn, show a + (y - a) = y by omega]
  · rfl

/-- A line stored is written at its A' with its poison mark. -/
theorem State.lineStore_spec (hk : s.dramKey (a / 64 * 64) = k) :
    let t := s.lineStore a d p false
    s.Wrote k d t ∧ t.poisoned k = p ∧ t.mem.chans = s.mem.chans := by
  have hw := (s.wrote_setBytes k d).setPoison k p
  obtain ⟨M, hM⟩ := s.setBytes_eq k d
  simp only [State.lineStore, hk, Bool.false_eq_true, if_false]
  refine ⟨⟨hw.byte, hw.memOk, hw.regs, hw.units, hw.mode, hw.untraced.trans {}⟩, mapGet_mapSet_self .., ?_⟩
  rw [hM]
  rfl

theorem State.scrubKey_mod (s : State) (c : Nat) : s.scrubKey c % 64 = 0 := by
  simp only [State.scrubKey, chanKey]
  omega

/-- The line is written back where it was read, and keeps its bytes. -/
theorem State.Scrubbed.lineStore (h : s.Scrubbed c t) :
    let x := t.lineStore (s.dramKey (s.scrubKey c)) (t.bytes (s.scrubKey c) 64) p false
    s.Scrubbed c x ∧ x.poisoned (s.scrubKey c) = p ∧ x.regs = t.regs ∧ x.units = t.units := by
  have hmod := (s.dramKey_mod (s.scrubKey c)).trans (s.scrubKey_mod c)
  have hk : t.dramKey (s.dramKey (s.scrubKey c) / 64 * 64) = s.scrubKey c := by
    rw [Nat.div_mul_cancel (Nat.dvd_of_mod_eq_zero hmod), h.key, State.dramKey_dramKey]
  obtain ⟨hw, hp, hchans⟩ := State.lineStore_spec (d := t.bytes (s.scrubKey c) 64) (p := p) hk
  intro x
  have hrd : ∀ u g i, x.rd u g i = t.rd u g i := fun u g i => congrArg (mapGet _ · _) hw.regs
  refine ⟨⟨(hrd ..).symm ▸ h.pos, ?_, fun y => (hw.byte_same y).trans (h.byte y), fun a => ?_, h.untraced.trans hw.untraced⟩, hp,
    hw.regs, hw.units⟩
  · rw [State.chan, hchans]
    exact h.chan
  · exact (State.dramKey_congr (fun n _ g _ => hrd homeUnit0 g n) a).trans (h.key a)

/-- What the scrubber does once its interval has passed. -/
theorem State.scrubRead_due (hn : s.rf (.slice c) R.SCRUB_CTL F.SCRUB_CTL_INTERVAL ≠ 0) (ha : s.answers (.slice c) = true)
    (hi : (s.chan c).initDone = true) (hr : (s.chan c).selfRef = false)
    (hd : (s.chan c).scrubAt + 16 * s.rf (.slice c) R.SCRUB_CTL F.SCRUB_CTL_INTERVAL ≤ s.mono) :
    s.scrubRead c e =
      let t := (s.scrubNext c).eccLog c (s.dramKey (s.scrubKey c)) e true
      match e with
      | .clean => t
      | .corr => t.lineStore (s.dramKey (s.scrubKey c)) (t.bytes (s.scrubKey c) 64) (t.poisoned (s.scrubKey c)) false
      | .ue => t.lineStore (s.dramKey (s.scrubKey c)) (t.bytes (s.scrubKey c) 64) true false := by
  unfold State.scrubRead
  dsimp only
  rw [if_neg (by simp [hn, ha, hi, hr, Nat.not_lt.2 hd])]
  rfl

end Sys2Proof.Machine

/-! Self-refresh and initialisation of a channel (R83, R84), and the statement. -/

namespace Sys2Proof.Machine

variable {s t x : State} {u : UnitId} {c : Nat}

theorem State.serveTxns_nil (h : s.sward.txns = []) : s.serveTxns = s := by simp [State.serveTxns, h]

/-- A unit that answers is in no reset, and the device is not in DORMANT (R24). -/
theorem State.awake_of_answers (h : s.answers u = true) : s.inReset u = false ∧ s.mode.mode ≠ .dormant := by
  simp only [State.answers, Bool.and_eq_true, Bool.not_eq_true', bne_iff_ne] at h
  exact ⟨h.1.1.1, h.1.2⟩

/-- R83, R421: a slice that may retain takes its channel into self-refresh with it. -/
theorem State.enterPower_retain (hi : (s.chan c).initDone = true) (ho : 2 ≤ s.obeys (.slice c)) (hid : s.idle (.slice c) = true)
    (ha : s.answers (.slice c) = true) (hatt : s.attached = false) (hp : (s.unit (.slice c)).pstate = .on) :
    s.enterPower (.slice c) 2 =
      (s.setUnit (.slice c) { s.unit (.slice c) with pstate := .retain }).setChan c { s.chan c with selfRef := true, exiting := false } := by
  obtain ⟨hres, hmode⟩ := State.awake_of_answers ha
  have hch : (s.setUnit (.slice c) { s.unit (.slice c) with pstate := .retain }).chan c = s.chan c := rfl
  simp [State.enterPower, hp, hres, hmode, Nat.not_lt.2 ho, hid, hatt, hch, hi]

theorem State.selfRefEnter_retain (hi : (s.chan c).initDone = true) (hr : (s.chan c).selfRef = false) (ho : 2 ≤ s.obeys (.slice c))
    (hid : s.idle (.slice c) = true) (ha : s.answers (.slice c) = true) (hatt : s.attached = false) (hp : (s.unit (.slice c)).pstate = .on) :
    let t := s.selfRefEnter c
    s.Untraced t ∧ t.chan c = { s.chan c with selfRef := true, exiting := false } ∧ (t.unit (.slice c)).pstate = .retain := by
  have hen := State.enterPower_retain hi ho hid ha hatt hp
  have hatt' : (s.enterPower (.slice c) 2).attached = false := by rw [hen]; exact hatt
  have hch : (s.enterPower (.slice c) 2).chan c = { s.chan c with selfRef := true, exiting := false } := by
    rw [hen]
    exact mapGet_mapSet_self ..
  have ht : s.selfRefEnter c = (s.enterPower (.slice c) 2).setChan c { s.chan c with selfRef := true, exiting := false } := by
    simp [State.selfRefEnter, hi, hr, ho, hid, ha, hatt', hch]
  intro t
  rw [show t = _ from ht, hen]
  exact ⟨{}, mapGet_mapSet_self .., by simp [State.unit]⟩

theorem State.selfRefExit_exiting (ht : s.sward.txns = []) (hr : (s.chan c).selfRef = true) (hx : (s.chan c).exiting = true) :
    s.selfRefExit c = s.setChan c { s.chan c with selfRef := false, exiting := false } :=
  (if_pos ⟨hr, hx⟩).trans (State.serveTxns_nil ht)

theorem State.chanInit_answers (ht : s.sward.txns = []) (ha : s.answers (.slice c) = true) :
    s.chanInit c = s.setChan c { s.chan c with initDone := true, selfRef := false, exiting := false, lastReq := s.mono } :=
  (if_pos ha).trans (State.serveTxns_nil ht)

theorem State.refresh_awake {hot : Bool} (h : (s.chan c).selfRef = false) : s.refresh c hot = s.setChan c { s.chan c with refx2 := hot } :=
  if_neg (by simp [h])

/-- Settles O42: the region table, the scrubber and the channel's states each by their lemmas. -/
theorem stackedMemory : Obligations.StackedMemory := by
  intro s r n v c hc z u x region
  refine ⟨hc.sets_region (by simp [regionRegs]) rfl, hc.sets_region (by simp [regionRegs]) rfl,
    hc.sets_region (by simp [regionRegs]) rfl, hc.sets_regionLock n, fun hn ha hi hr hd => ?_, fun hi hr ho hid ha hatt hp => ?_,
    fun ht => ⟨fun hr hx => ?_, fun ha => ?_⟩, fun hot hr => ?_⟩
  · have hdue (e : Ecc) := State.scrubRead_due (e := e) hn ha hi hr hd
    refine ⟨?_, fun hm => ?_, ?_⟩
    · have h := State.scrubbed_of_within (.refl (s.scrubNext c) _) rfl
      exact hc.does (congrArg (State.done · s) (hdue .clean)) h.untraced ⟨⟨h.pos, h.chan⟩, rfl⟩
    · obtain ⟨h, hf, hcnt⟩ := State.scrubbed_corr (a := s.dramKey (s.scrubKey c)) (b := true) hm c.isLt
      obtain ⟨hx, -, hregs, hunits⟩ := h.lineStore
      refine hc.does (congrArg (State.done · s) (hdue .corr)) hx.untraced ⟨⟨hx.pos, hx.chan⟩, ?_, ?_, hx.byte⟩
      · rw [State.unit, hunits]
        exact hf
      · rw [State.rd, hregs]
        exact hcnt
    · have h := State.scrubbed_ue (s := s) (c := c) (a := s.dramKey (s.scrubKey c)) (b := true)
      obtain ⟨hx, hp, -, -⟩ := h.lineStore
      exact hc.does (congrArg (State.done · s) (hdue .ue)) hx.untraced ⟨⟨hx.pos, hx.chan⟩, hp⟩
  · obtain ⟨hu, hP⟩ := State.selfRefEnter_retain hi hr ho hid ha hatt hp
    exact hc.does rfl hu hP
  · exact hc.does (congrArg (State.done · s) (State.selfRefExit_exiting ht hr hx)) {} rfl
  · exact hc.does (congrArg (State.done · s) (State.chanInit_answers ht ha)) {} rfl
  · exact hc.does (congrArg (State.done · s) (State.refresh_awake hr)) {} rfl

end Sys2Proof.Machine

/-! Threads of Sedge: what their records hold after an operation on one of them, and the delivery of a known outcome (R90 to R96). -/

namespace Sys2Proof.Machine

set_option Elab.async false

variable {s u w : State} {t q e : Nat} {x : Thread}

/-! ### A thread's record -/

@[simp] theorem State.thread_setThread_self (s : State) (t : Nat) (x : Thread) : (s.setThread t x).thread t = x := mapGet_mapSet_self ..

theorem State.thread_setThread_ne (x : Thread) (h : q ≠ t) : (s.setThread t x).thread q = s.thread q := mapGet_mapSet_ne _ _ _ _ h

/-- From `s` to `u` nothing has changed but the record of thread `t`. -/
structure State.OnlyThread (s u : State) (t : Nat) : Prop where
  rest : u = { s with sedge := { s.sedge with threads := u.sedge.threads } } := by rfl
  others : ∀ q, q ≠ t → u.thread q = s.thread q := by exact fun _ _ => rfl

theorem State.OnlyThread.trans (h : s.OnlyThread u t) (k : u.OnlyThread w t) : s.OnlyThread w t :=
  ⟨by rw [k.rest, h.rest], fun q hq => (k.others q hq).trans (h.others q hq)⟩

theorem State.onlyThread_setThread (s : State) (t : Nat) (x : Thread) : s.OnlyThread (s.setThread t x) t :=
  ⟨rfl, fun _ h => thread_setThread_ne x h⟩

theorem State.OnlyThread.untraced (h : s.OnlyThread u t) : s.Untraced u := by
  rw [h.rest]
  exact {}

theorem State.OnlyThread.regs (h : s.OnlyThread u t) : u.regs = s.regs := by rw [h.rest]
theorem State.OnlyThread.eth (h : s.OnlyThread u t) : u.eth = s.eth := by rw [h.rest]
theorem State.OnlyThread.mem (h : s.OnlyThread u t) : u.mem = s.mem := by rw [h.rest]

/-! ### Result words (R92) -/

/-- The value registers of a thread once the words `ws` have gone to `d` and those after it. -/
def Thread.setRun (x : Thread) (d : Nat) : List Word → Thread
  | [] => x
  | w :: r => (x.setV d w).setRun (d + 1) r

theorem Thread.setRun_eq (x : Thread) (d : Nat) (ws : List Word) : x.setRun d ws = { x with v := (x.setRun d ws).v } := by
  induction ws generalizing x d with
  | nil => rfl
  | cons w r ih =>
    rw [setRun, ih]
    rfl

theorem Thread.vreg_setV (x : Thread) (d k : Nat) (w : Word) : (x.setV d w).vreg k = if k = d then w else x.vreg k := mapGet_mapSet ..

theorem Thread.vreg_setRun (x : Thread) (d k : Nat) (ws : List Word) :
    (x.setRun d ws).vreg k = if d ≤ k ∧ k < d + ws.length then ws.getD (k - d) 0 else x.vreg k := by
  induction ws generalizing x d with
  | nil =>
    rw [if_neg (by simp only [List.length_nil]; omega)]
    rfl
  | cons w r ih =>
    rw [setRun, ih, vreg_setV]
    obtain rfl | hd := eq_or_ne k d
    · simp
    · by_cases hk : d + 1 ≤ k ∧ k < d + 1 + r.length
      · obtain ⟨n, rfl⟩ : ∃ n, k = d + (n + 1) := ⟨k - d - 1, by omega⟩
        rw [if_pos hk, if_pos (by simp only [List.length_cons]; omega), show d + (n + 1) - (d + 1) = n by omega,
          show d + (n + 1) - d = n + 1 by omega, List.getD_cons_succ]
      · rw [if_neg hk, if_neg hd, if_neg (by simp only [List.length_cons]; omega)]

/-- A run of result words within the value registers is written there. -/
theorem State.putRun_vregs (s : State) (t d : Nat) (ws : List Word) (h : d + ws.length ≤ 16) :
    s.OnlyThread (s.putRun t d ws) t ∧ (s.putRun t d ws).thread t = (s.thread t).setRun d ws := by
  induction ws generalizing s d with
  | nil => exact ⟨{}, rfl⟩
  | cons w r ih =>
    have hd : d < 16 ∧ d + 1 + r.length ≤ 16 := by
      simp only [List.length_cons] at h
      omega
    have hs : s.putRun t d (w :: r) = (s.setThread t ((s.thread t).setV d w)).putRun t (d + 1) r := by
      rw [putRun, if_pos hd.1]
    obtain ⟨ho, ht⟩ := ih (s.setThread t ((s.thread t).setV d w)) (d + 1) hd.2
    rw [hs]
    exact ⟨(s.onlyThread_setThread _ _).trans ho, by rw [ht, thread_setThread_self]; rfl⟩

/-! ### The operation a thread has in flight under an id -/

section
variable {early late : List Op} {o : Op} (h : ∀ p ∈ early ++ late, p.id ≠ o.id)
include h

theorem find_op : (early ++ o :: late).find? (fun p => p.id == o.id) = some o := by
  rw [List.find?_append, List.find?_eq_none.2 (by simpa using fun p hp => h p (List.mem_append_left _ hp))]
  simp

theorem takeWhile_op : (early ++ o :: late).takeWhile (fun p => p.id != o.id) = early := by
  rw [List.takeWhile_append_of_pos (by simpa using fun p hp => h p (List.mem_append_left _ hp))]
  simp

theorem filter_op : (early ++ o :: late).filter (fun p => p.id != o.id) = early ++ late := by
  rw [List.filter_append, List.filter_cons_of_neg (by simp), ← List.filter_append]
  exact List.filter_eq_self.2 (by simpa using h)

end

theorem State.opAdvance_known {o : Op} (hf : s.opOf t o.id = some o) (hr : o.res.isSome) : s.opAdvance t o.id = s := by
  rw [opAdvance, hf]
  exact if_pos (.inl hr)

theorem State.threadCheck_of_ne (h : (s.thread t).st ≠ 4) : s.threadCheck t = s := if_neg fun k => h k.1

section
variable {early late : List Op} {o : Op} {code : Nat} {ws : List Word}

theorem State.opComplete_early (hx : (s.thread t).ops = early ++ o :: late) (hid : ∀ p ∈ early ++ late, p.id ≠ o.id)
    (he : ∃ p ∈ early, p.target = o.target) : s.opComplete t o.id = s := by
  simp only [opComplete, hx, find_op hid, takeWhile_op hid]
  exact if_pos (by simpa using he)

theorem State.opComplete_first (hx : (s.thread t).ops = early ++ o :: late) (hid : ∀ p ∈ early ++ late, p.id ≠ o.id)
    (he : ∀ p ∈ early, p.target ≠ o.target) (hr : o.res = some (code, ws)) (hc : code < 8) :
    s.opComplete t o.id = ((s.setThread t { s.thread t with ops := early ++ late, any := true, bstat := bstatOf code o.code }).putRun t o.dst
      (ws.take o.len)).threadCheck t := by
  simp only [opComplete, hx, find_op hid, takeWhile_op hid, filter_op hid, hr, hc, if_true]
  exact if_neg (by simpa using he)

end

/-- Settles O46: the operation is found by its id, the ones before it hold it back or do not, and its words go to the value registers. -/
theorem operationCompletes : Obligations.OperationCompletes := by
  intro s t o early late code ws hc x hx hid hr hcode hst
  have ha : s.opAdvance t o.id = s := State.opAdvance_known (by rw [State.opOf, hx, find_op hid]) (by simp [hr])
  have hexec : exec (.opbComplete t o.id) s = (s.opComplete t o.id).done s :=
    (show exec _ s = ((s.opAdvance t o.id).opComplete t o.id).done s from rfl).trans (by rw [ha])
  refine ⟨fun he => hc.does (hexec.trans (by rw [State.opComplete_early hx hid he])) {} rfl, fun he hl hd => ?_⟩
  let b := s.setThread t { x with ops := early ++ late, any := true, bstat := bstatOf code o.code }
  have hws : ws.take o.len = ws := List.take_of_length_le hl.le
  obtain ⟨ho, ht⟩ := b.putRun_vregs t o.dst ws (hl ▸ hd)
  rw [State.thread_setThread_self] at ht
  have hrun : s.opComplete t o.id = b.putRun t o.dst ws := by
    rw [State.opComplete_first hx hid he hr hcode, hws]
    exact State.threadCheck_of_ne (by rw [ht, Thread.setRun_eq]; exact hst)
  have hall : s.OnlyThread (b.putRun t o.dst ws) t := (s.onlyThread_setThread _ _).trans ho
  refine hc.does (hexec.trans (by rw [hrun])) hall.untraced ⟨hall.rest, hall.others, ?_, fun k _ => ?_⟩
  · rw [ht, Thread.setRun_eq, bstatOf, Nat.mod_eq_of_lt (by omega)]
  · rw [ht, Thread.vreg_setRun, hl]
    rfl

end Sys2Proof.Machine

/-! The engines' registers, the microword a thread reaches (R97, R98), and the threads' waits, timeouts and dispatches. -/

namespace Sys2Proof.Machine

set_option Elab.async false

variable {s u w : State} {g k : Reg} {e f t pc i j : Nat} {x : Thread}

/-! ### Registers of engines (R22) -/

/-- Registers of engines at different offsets, or of different engines, have different addresses. -/
theorem engine_regAddr_ne (hg : g.off < 0x8000) (hk : k.off < 0x8000) (h : e ≠ f ∨ g.off ≠ k.off) :
    regAddr (.engine e) g 0 0 ≠ regAddr (.engine f) k 0 0 := by
  simp only [regAddr, UnitId.base]
  omega

/-- No register that switches trace is an engine's. -/
theorem not_traceReg_engine (h : g.off + i * g.s1 + j * g.s2 < 0x8000) : ¬ traceReg (regAddr (.engine e) g i j) := by
  rintro (⟨n, hn, hq⟩ | ⟨n, hn, hq⟩)
  · simp only [regAddr, UnitId.base, R.HR_SRC_EN] at hq
    omega
  · simp only [List.mem_cons, List.not_mem_nil, or_false] at hn
    simp only [regAddr, UnitId.base, R.FR_CFG] at hq
    omega

/-- Every engine shows the state and the adoptions in `u` that it shows in `s` (R105, R106). -/
def State.SameEngines (s u : State) : Prop := ∀ f, u.rd (.engine f) R.ENG_STATUS = s.rd (.engine f) R.ENG_STATUS

theorem State.sameEngines_wr {v : Word} (hg : g.off < 0x8000) (h : g.off ≠ 0x104) : s.SameEngines (s.wr (.engine e) g v) := fun f =>
  s.rd_wr_ne _ _ _ _ _ 0 0 0 0 (engine_regAddr_ne (by decide) hg (.inr h.symm))

theorem State.SameEngines.adopted (h : s.SameEngines u) (f : Nat) : u.adopted f = s.adopted f := by
  rw [State.adopted, State.adopted, State.rb, State.rb, State.rf, State.rf, h]

theorem State.SameEngines.adopting (h : s.SameEngines u) (f : Nat) : u.adopting f = s.adopting f := by
  rw [State.adopting, State.adopting, State.rb, State.rb, State.rf, State.rf, h]

theorem State.SameEngines.engState (h : s.SameEngines u) (f : Nat) : u.engState f = s.engState f := by
  rw [State.engState, State.engState, State.rf, State.rf, h]

theorem State.SameEngines.holder (h : s.SameEngines u) (f : Nat) : u.holder f = s.holder f := by
  rw [State.holder, State.holder, h.adopted, State.rf, State.rf, h]

theorem State.SameEngines.thEng (h : s.SameEngines u) (t : Nat) : u.thEng t = s.thEng t := h.holder _

theorem State.SameEngines.adoptee (h : s.SameEngines u) (f : Nat) : u.adoptee f = s.adoptee f := by
  rw [State.adoptee, State.adoptee, h.adopting, State.rf, State.rf, h]

theorem State.SameEngines.engThreads (h : s.SameEngines u) (f : Nat) : u.engThreads f = s.engThreads f := by
  rw [State.engThreads, State.engThreads, h.adopted, h.adoptee]

/-! ### The microword a thread reaches (R97, R98) -/

/-- A thread reaches `pc`, and nothing else changes. -/
theorem State.reachPc_spec (s : State) (t pc : Nat) :
    s.OnlyThread (s.reachPc t pc) t ∧ (s.reachPc t pc).thread t = s.reaches t (s.thread t) pc := by
  let y : Thread := { s.thread t with pc := pc % 16384, reach := s.mono, st := 1 }
  have hy : (s.setThread t y).thread t = y := thread_setThread_self ..
  have hmw : (s.setThread t y).thMw t = mwOf (s.csWord (s.thEng t) (pc % 16384)) := by
    rw [thMw, hy]
    rfl
  by_cases hw : (mwOf (s.csWord (s.thEng t) (pc % 16384))).wait = 5 ∧ s.timeTrue (s.thread t) = false
  · have he : s.reachPc t pc = (s.setThread t y).setThread t { y with st := 2 } := by
      refine (if_pos ⟨hmw ▸ hw.1, ?_⟩).trans (by rw [hy])
      rw [hy, Bool.not_eq_true']
      exact hw.2
    rw [he, State.reaches, if_pos hw]
    exact ⟨(s.onlyThread_setThread t y).trans (onlyThread_setThread _ _ _), by rw [thread_setThread_self]⟩
  · have he : s.reachPc t pc = s.setThread t y := by
      refine if_neg fun h => hw ⟨hmw ▸ h.1, ?_⟩
      have h2 := h.2
      rw [hy, Bool.not_eq_true'] at h2
      exact h2
    rw [he, State.reaches, if_neg hw]
    exact ⟨s.onlyThread_setThread t y, hy⟩

theorem State.setThread_reachPc_spec (s : State) (t : Nat) (x : Thread) (pc : Nat) :
    s.OnlyThread ((s.setThread t x).reachPc t pc) t ∧ ((s.setThread t x).reachPc t pc).thread t = s.reaches t x pc := by
  obtain ⟨ho, ht⟩ := (s.setThread t x).reachPc_spec t pc
  rw [thread_setThread_self] at ht
  exact ⟨(s.onlyThread_setThread t x).trans ho, ht⟩

/-- What a thread becomes at `pc` follows from the time, the control store and the engine that issues it. -/
theorem State.reaches_congr (hm : u.mono = s.mono) (hn : u.now = s.now) (hc : u.sedge.cs = s.sedge.cs) (h : s.SameEngines u) :
    u.reaches t x pc = s.reaches t x pc := by
  have hcs : u.csWord (u.thEng t) (pc % 16384) = s.csWord (s.thEng t) (pc % 16384) := by rw [csWord, csWord, hc, h.thEng]
  have ht : u.timeTrue x = s.timeTrue x := by rw [timeTrue, timeTrue, hn]
  rw [reaches, reaches, hcs, ht, hm]

/-! ### Waits and timeouts (R97, R98, R100) -/

theorem State.timeReached_of_le (hx : (s.thread t).st = 2) (h : 0 ≤ (BitVec.ofNat 32 s.now - (s.thread t).vreg 14).toInt) :
    s.timeReached t = s.setThread t { s.thread t with st := 1 } := if_pos ⟨hx, decide_eq_true h⟩

theorem State.timeReached_of_lt (h : (BitVec.ofNat 32 s.now - (s.thread t).vreg 14).toInt < 0) : s.timeReached t = s :=
  if_neg fun k => absurd (of_decide_eq_true k.2) (not_le.2 h)

theorem State.thState_waiting (h0 : (s.thread t).st ≠ 0) (h4 : (s.thread t).st ≠ 4) (hw : s.waitTrue t (s.thMw t).wait = false) :
    s.thState t = 2 := by simp [thState, h0, h4, hw]

section
variable (hw : s.thState t = 2) (ha : s.answers (.engine (s.thEng t)) = true) (hm : (s.thMw t).wait ≠ 0)
include hw ha

theorem State.waitTimeout_pending (h : s.rf (.engine (s.thEng t)) R.WTO F.WTO_TIME (s.thMw t).wto = 0 ∨
    s.mono < (s.thread t).reach + 8 * s.rf (.engine (s.thEng t)) R.WTO F.WTO_TIME (s.thMw t).wto) : s.waitTimeout t = s := by
  have he : s.waitExpired t = none := by
    refine if_pos (.inr ?_)
    obtain h0 | h0 := eq_or_ne (s.rf (.engine (s.thEng t)) R.WTO F.WTO_TIME (s.thMw t).wto) 0
    · exact .inl h0
    · exact .inr (by omega)
  simp [waitTimeout, hw, ha, he]

include hm in
theorem State.waitTimeout_expired (h0 : s.rf (.engine (s.thEng t)) R.WTO F.WTO_TIME (s.thMw t).wto ≠ 0)
    (h : (s.thread t).reach + 8 * s.rf (.engine (s.thEng t)) R.WTO F.WTO_TIME (s.thMw t).wto ≤ s.mono) :
    s.waitTimeout t = s.takeMexc t 6 (s.thread t).pc (BitVec.ofNat 32 ((s.mono - (s.thread t).reach) / 8)) := by
  have he : s.waitExpired t = some ((s.mono - (s.thread t).reach) / 8) := 
    if_neg (not_or.2 ⟨hm, not_or.2 ⟨h0, by omega⟩⟩)
  simp [waitTimeout, hw, ha, he]

end

/-- A saturating counter's value after one more. -/
theorem State.toNat_rd_bump (s : State) (u : UnitId) (g : Reg) :
    ((s.bump u g).rd u g).toNat = min ((s.rd u g).toNat + 1) (2 ^ 32 - 1) := by
  rw [State.bump, State.rd_wr_self, satAdd, BitVec.toNat_ofNat]
  exact Nat.mod_eq_of_lt (by omega)

/-- The record of a thread that has taken microcode exception `c` at `n` (R99). -/
def Thread.excepted (x : Thread) (c n : Nat) (info : Word) : Thread :=
  { x with excAct := true, excCause := c, excPc := n, excInfo := info, any := false }

/-- A first exception is counted and sends its thread to the cause's entry; nothing else changes. -/
theorem State.takeMexc_first (c n : Nat) (info : Word) (h : (s.thread t).excAct = false) :
    (s.bump (.engine (s.thEng t)) R.EXC_CNT).OnlyThread (s.takeMexc t c n info) t ∧
      (s.takeMexc t c n info).thread t = s.reaches t ((s.thread t).excepted c n info) (8 * c) := by
  have he : s.takeMexc t c n info = ((s.bump (.engine (s.thEng t)) R.EXC_CNT).setThread t ((s.thread t).excepted c n info)).reachPc t (8 * c) := by
    rw [takeMexc, h]
    rfl
  obtain ⟨ho, ht⟩ := (s.bump (.engine (s.thEng t)) R.EXC_CNT).setThread_reachPc_spec t ((s.thread t).excepted c n info) (8 * c)
  exact he ▸ ⟨ho, ht.trans (reaches_congr rfl rfl rfl (sameEngines_wr (by decide) (by decide)))⟩

theorem State.takeMexc_nested (c n : Nat) (info : Word) (h : (s.thread t).excAct = true) : s.takeMexc t c n info = s.threadKill t :=
  if_pos h

/-- The end of a thread that holds nothing: its record alone changes, and the state of an engine in TEST (R100, R103, R105). -/
theorem State.threadFree_empty (n : Nat) (hr : (s.thread t).rsv = []) (hp : (s.thread t).pkt = none) (hc : (s.thread t).ctx = none) :
    s.threadFree t n = (let x := s.setThread t { pc := (s.thread t).pc, nextOp := (s.thread t).nextOp }
      if x.engState (s.thEng t) = engTesting ∧ t = 16 * s.thEng t then x.setEngState (s.thEng t) engStopped else x) := by
  simp only [threadFree, hr, hp, hc]
  rfl

/-- From `s` to `u` nothing has changed but the record of thread `t`, which is FREE, and the state an engine shows. -/
structure State.Freed (s u : State) (t : Nat) : Prop where
  rest : u = { s with sedge := { s.sedge with threads := u.sedge.threads }, regs := u.regs }
  others : ∀ q, q ≠ t → u.thread q = s.thread q
  free : (u.thread t).st = 0
  regs : ∀ a d, (∀ e, a ≠ regAddr (.engine e) R.ENG_STATUS 0 0) → mapGet d u.regs a = mapGet d s.regs a

theorem State.freed_threadFree (n : Nat) (hr : (s.thread t).rsv = []) (hp : (s.thread t).pkt = none) (hc : (s.thread t).ctx = none) :
    s.Freed (s.threadFree t n) t := by
  rw [threadFree_empty n hr hp hc]
  dsimp only
  have hself {x : Thread} : (s.setThread t x).thread t = x := thread_setThread_self ..
  split_ifs
  · exact ⟨rfl, fun q hq => thread_setThread_ne _ hq, congrArg Thread.st hself, fun a d ha => mapGet_mapSet_ne _ _ _ _ (ha _)⟩
  · exact ⟨rfl, fun q hq => thread_setThread_ne _ hq, congrArg Thread.st hself, fun _ _ _ => rfl⟩

/-! ### Dispatch (R102, R120) -/

/-- The record of a thread that a packet has started, with the number of its next operation kept. -/
def DispEnt.started (d : DispEnt) (nextOp : Nat) : Thread :=
  { st := 1, ctx := d.ctx, v := mapSet 0 [] 15 d.word, pkt := some d.frame, nextOp := nextOp }

/-- A context's word 0 once a packet has been dispatched on it: HELD, with SEQ one more (R120). -/
def heldWord (w : Word) : Word := (w.setFld ⟨15, 0⟩ ((w.fld ⟨15, 0⟩ + 1) % 65536)).setFld ⟨30, 30⟩ 1

/-- Thread `n` of engine `e` starts with packet `d` (R102). -/
def State.startThread (s : State) (e n : Nat) (d : DispEnt) : State :=
  (s.setThread n (d.started (s.thread n).nextOp)).reachPc n (s.rf (.engine e) R.ENTRY F.ENTRY_ADDR (d.sel % 16))

section
variable {d : DispEnt} {l : List DispEnt} {n o : Nat} (hq : s.dispq e = d :: l)
include hq

/-- A packet without a context starts the lowest FREE thread of the engine. -/
theorem State.packetDispatch_plain (hd : s.dispatches e e = true) (hn : s.freeThread e = some n) (hc : d.ctx = none) :
    s.packetDispatch e = (s.setDispq e l).startThread e n d := by
  have hfree : (s.setDispq e l).freeThread e = some n := hn
  simp only [packetDispatch, hq, List.find?_cons, hc, hd, hn, Option.isSome_some, Bool.and_self, List.erase_cons_head, hfree, startThread,
    DispEnt.started]

/-- One with a context that no thread holds starts the lowest FREE thread of the context's engine, which holds it from then on. -/
theorem State.packetDispatch_ctx {c : Nat} (hd : s.dispatches e (c / 256) = true) (hn : s.freeThread (c / 256) = some n) (hc : d.ctx = some c)
    (h30 : (s.ctxWord c 0).bit 30 = false) (h31 : (s.ctxWord c 0).bit 31 = true) :
    s.packetDispatch e = ((s.setDispq e l).setCtxWord c 0 (heldWord (s.ctxWord c 0))).startThread e n d := by
  have hfree : (s.setDispq e l).freeThread (c / 256) = some n := hn
  have hw : (s.setDispq e l).ctxWord c 0 = s.ctxWord c 0 := rfl
  simp only [packetDispatch, hq, List.find?_cons, hc, hd, hn, h30, h31, hw, Option.isSome_some, Bool.not_false, Bool.not_true, Bool.and_self,
    List.erase_cons_head, hfree, Bool.false_eq_true, if_false, startThread, DispEnt.started, heldWord]

end

theorem heldWord_eq (w : Word) : heldWord w = (w.setFld ⟨15, 0⟩ (w.toNat % 65536 + 1)).setFld ⟨30, 30⟩ 1 := by
  simp only [heldWord, Word.setFld, Word.fld, natBits, Fld.width, Nat.shiftRight_zero]
  norm_num

/-- From `s` to `u` thread `n` of engine `e` has started with packet `d`, and nothing else has changed (R102). -/
theorem State.startThread_spec (s : State) (e n : Nat) (d : DispEnt) : s.OnlyThread (s.startThread e n d) n ∧
    (s.startThread e n d).thread n = s.reaches n (d.started (s.thread n).nextOp) (s.rf (.engine e) R.ENTRY F.ENTRY_ADDR (d.sel % 16)) :=
  s.setThread_reachPc_spec ..

theorem State.ctxWord_setCtxWord (s : State) (c i : Nat) (v : Word) : (s.setCtxWord c i v).ctxWord c i = v := by
  rw [ctxWord, setCtxWord, (s.wrote_setBytes _ _).leAt_word, BitVec.ofNat_toNat, BitVec.setWidth_eq]

theorem State.setCtxWord_eq (s : State) (c i : Nat) (v : Word) : ∃ M, s.setCtxWord c i v = { s with mem := { s.mem with mem := M } } :=
  s.setBytes_eq _ _

theorem State.ctxWord_congr {c i : Nat} (h : u.mem = s.mem) : u.ctxWord c i = s.ctxWord c i := by
  simp only [ctxWord, leAt, bytes, byte, h]

/-- A count of an engine's events leaves the trace alone. -/
theorem State.untraced_bump_engine (hg : g.off < 0x8000) : s.Untraced (s.bump (.engine e) g) :=
  (regsWithin_wr (P := fun a => ¬ traceReg a) (not_traceReg_engine (by omega))).untraced fun _ h => h

theorem State.Freed.untraced (h : s.Freed u t) : s.Untraced u := by
  have hregs : ∀ a d, traceReg a → mapGet d u.regs a = mapGet d s.regs a := fun a d ha =>
    h.regs a d fun e he => not_traceReg_engine (by decide) (he ▸ ha)
  rw [h.rest]
  exact { regs := hregs }

/-- Settles O47: a wait for a time, a timeout with and without EXC_ACTIVE, and a dispatch with and without a context. -/
theorem sedgeThreads : Obligations.SedgeThreads := by
  intro s t e hc x m u lim
  refine ⟨fun hx => ⟨fun h => ?_, fun h => ?_⟩, fun h0 h4 hw ha hm => ⟨fun hl => ?_, fun hl hle => ⟨fun hx => ?_, fun hx hr hp hctx => ?_⟩⟩,
    fun d l n o hq ho hd hn => ⟨fun hctx => ?_, fun c hctx h30 h31 => ?_⟩⟩
  · exact hc.does (congrArg (State.done · s) (State.timeReached_of_le hx h)) {} rfl
  · exact hc.does (congrArg (State.done · s) (State.timeReached_of_lt h)) {} rfl
  · exact hc.does (congrArg (State.done · s) (State.waitTimeout_pending (State.thState_waiting h0 h4 hw) ha hl)) {} rfl
  · obtain ⟨ho, ht⟩ := State.takeMexc_first 6 x.pc (BitVec.ofNat 32 ((s.mono - x.reach) / 8)) hx
    have hrest := ho.rest
    refine hc.does (congrArg (State.done · s) (State.waitTimeout_expired (State.thState_waiting h0 h4 hw) ha hm hl hle))
      ((State.untraced_bump_engine (by decide)).trans ho.untraced) ⟨?_, ho.others, ht, fun a d hne => ?_, ?_⟩
    · rw [ho.regs]
      exact hrest
    · rw [ho.regs]
      exact mapGet_mapSet_ne _ _ _ _ hne
    · rw [State.rd, ho.regs]
      exact s.toNat_rd_bump u R.EXC_CNT
  · have hf := State.freed_threadFree (s := s.bump u R.EXC_NEST_CNT) (t := t) dExcEnd hr hp hctx
    refine hc.does (congrArg (State.done · s) ((State.waitTimeout_expired (State.thState_waiting h0 h4 hw) ha hm hl hle).trans
      (State.takeMexc_nested _ _ _ hx))) ((State.untraced_bump_engine (by decide)).trans hf.untraced) ⟨hf.free, ?_⟩
    rw [← s.toNat_rd_bump u R.EXC_NEST_CNT]
    exact congrArg _ (hf.regs _ _ fun f => engine_regAddr_ne (by decide) (by decide) (.inr (by decide)))
  · simp only [hctx] at ho
    subst ho
    obtain ⟨h1, h2⟩ := (s.setDispq e l).startThread_spec e n d
    refine hc.does (congrArg (State.done · s) (State.packetDispatch_plain hq hd hn hctx)) (.trans (t := s.setDispq e l) {} h1.untraced) ⟨?_, h1.others, h2⟩
    rw [h1.rest]
    exact mapGet_mapSet_self ..
  · simp only [hctx] at ho
    subst ho
    have hdisp := State.packetDispatch_ctx hq hd hn hctx h30 h31
    have hheld := (s.setDispq e l).ctxWord_setCtxWord c 0 (heldWord (s.ctxWord c 0))
    obtain ⟨M, hM⟩ := (s.setDispq e l).setCtxWord_eq c 0 (heldWord (s.ctxWord c 0))
    rw [hM] at hheld hdisp
    obtain ⟨h1, h2⟩ := State.startThread_spec { s.setDispq e l with mem := { s.mem with mem := M } } e n d
    have hq' : (State.startThread { s.setDispq e l with mem := { s.mem with mem := M } } e n d).dispq e = l :=
      (congrArg (fun x : EthSt => mapGet [] x.dispq e) h1.eth).trans (mapGet_mapSet_self ..)
    refine hc.does (congrArg (State.done · s) hdisp) (.trans (t := { s.setDispq e l with mem := { s.mem with mem := M } }) {} h1.untraced)
      ⟨⟨hq', h1.others, h2⟩, (State.ctxWord_congr h1.mem).trans (hheld.trans (heldWord_eq _))⟩

end Sys2Proof.Machine

/-! The issue of a microword (R91, R93, R101): what the engine's pointer and count do, how later effects are added to it, and where the thread
goes on. -/

namespace Sys2Proof.Machine

set_option Elab.async false

variable {s u v b : State} {e : Fin 64} {ecc : Ecc} {t p : Nat} {m : Mw} {x y : Thread}

/-! ### What specifiers and condition groups depend on (R90, R93) -/

theorem State.spec_congr {any : Bool} (ht : u.thread t = { s.thread t with any := any }) (he : u.eth = s.eth) (hm : u.mem = s.mem)
    (hn : u.now = s.now) (hf : u.freeCtr = s.freeCtr) : u.spec t m p = s.spec t m p := by
  have hframe (f : Nat) : u.frame f = s.frame f := by rw [frame, frame, he]
  have hctx (c i : Nat) : u.ctxWord c i = s.ctxWord c i := ctxWord_congr hm
  simp only [spec, pktOf, thFrame, ht, hn, hf, hframe, hctx, Thread.vreg]

theorem State.group_congr {g : Nat} {r : Word} (ht : u.thread t = s.thread t) (he : u.eth = s.eth) (hm : u.mem = s.mem)
    (hf : u.freeCtr = s.freeCtr) : u.group t g r = s.group t g r := by
  have hframe (f : Nat) : u.frame f = s.frame f := by rw [frame, frame, he]
  have hctx (c i : Nat) : u.ctxWord c i = s.ctxWord c i := ctxWord_congr hm
  simp only [group, thFrame, ht, hf, hframe, hctx]

/-! ### Steps of an issue -/

theorem State.IssuedAs.sameEngines (h : s.IssuedAs u e t x) : s.SameEngines u := fun f =>
  h.regs _ _ (engine_regAddr_ne (by decide) (by decide) (.inr (by decide))) (engine_regAddr_ne (by decide) (by decide) (.inr (by decide)))

theorem State.IssuedAs.cs (h : s.IssuedAs u e t x) : u.sedge.cs = s.sedge.cs := by rw [h.rest]

theorem State.IssuedAs.untraced (h : s.IssuedAs u e t x) : s.Untraced u := by
  have hregs : ∀ a d, traceReg a → mapGet d u.regs a = mapGet d s.regs a := fun a d ha =>
    h.regs a d (fun hq => not_traceReg_engine (by decide) (hq ▸ ha)) (fun hq => not_traceReg_engine (by decide) (hq ▸ ha))
  rw [h.rest]
  exact { regs := hregs }

/-- What happens to the thread alone after the issue. -/
theorem State.IssuedAs.onlyThread (h : s.IssuedAs u e t x) (k : u.OnlyThread v t) : s.IssuedAs v e t (v.thread t) where
  rest := by
    rw [k.rest, h.rest]
  thread := rfl
  others q hq := (k.others q hq).trans (h.others q hq)
  pointer := by
    obtain ⟨i, hi, he⟩ := h.pointer
    exact ⟨i, hi, by rw [k.rest]; exact he⟩
  engines f hf := by
    rw [k.rest]
    exact h.engines f hf
  regs a d := by
    rw [k.regs]
    exact h.regs a d
  count := by
    rw [k.rest]
    exact h.count

theorem State.IssuedAs.setThread (h : s.IssuedAs u e t x) (y : Thread) : s.IssuedAs (u.setThread t y) e t y := by
  have k := h.onlyThread (u.onlyThread_setThread t y)
  rwa [thread_setThread_self] at k

/-- A record that the thread has before the issue changes nothing after it. -/
theorem State.IssuedAs.setThread_left (h : s.IssuedAs u e t x) (y : Thread) : (s.setThread t y).IssuedAs u e t x where
  rest := h.rest
  thread := h.thread
  others q hq := (h.others q hq).trans (thread_setThread_ne _ hq).symm
  pointer := h.pointer
  engines := h.engines
  regs := h.regs
  count := h.count

/-- An effect outside Sedge and the registers is the same before the issue and after it. -/
theorem State.IssuedAs.of_beside {n : Nat} (h : s.IssuedAs u e t x) (hs : b.sedge = s.sedge) (hr : b.regs = s.regs)
    (hv : v = { b with sedge := u.sedge, regs := u.regs, freeCtr := n }) : b.IssuedAs v e t x := by
  subst hv
  have hcs : u.sedge = { b.sedge with threads := u.sedge.threads, engs := u.sedge.engs } := by rw [hs, h.rest]
  have hthread (q : Nat) : b.thread q = s.thread q := by rw [State.thread, State.thread, hs]
  have heng (f : Nat) : b.eng f = s.eng f := by rw [State.eng, State.eng, hs]
  have hrd (f : Nat) (g : Reg) : b.rd (.engine f) g = s.rd (.engine f) g := by rw [State.rd, State.rd, hr]
  have hths : b.engThreads e = s.engThreads e := SameEngines.engThreads (fun f => hrd f _) e
  obtain ⟨i, hi, he⟩ := h.pointer
  refine ⟨congrArg (fun z => ({ b with sedge := z, regs := u.regs, freeCtr := n } : State)) hcs, h.thread,
    fun q hq => (h.others q hq).trans (hthread q).symm, ⟨i, hths ▸ hi, ?_⟩, fun f hf => (h.engines f hf).trans (heng f).symm,
    fun a d => ?_, ?_⟩
  · rw [heng, hths]
    exact he
  · rw [hr]
    exact h.regs a d
  · rw [hrd, hrd]
    exact h.count

theorem State.IssuedAs.freeCtr (h : s.IssuedAs u e t x) (n : Nat) : s.IssuedAs { u with freeCtr := n } e t x :=
  ⟨by conv_lhs => rw [h.rest], h.thread, h.others, h.pointer, h.engines, h.regs, h.count⟩

/-- The thread goes on at `pc`. -/
theorem State.IssuedAs.reachPc (h : s.IssuedAs u e t x) (pc : Nat) : s.IssuedAs (u.reachPc t pc) e t (s.reaches t x pc) := by
  obtain ⟨ho, ht⟩ := u.reachPc_spec t pc
  have k := h.onlyThread ho
  have hm : u.mono = s.mono := by rw [h.rest]
  have hn : u.now = s.now := by rw [h.rest]
  rwa [ht, h.thread, reaches_congr hm hn h.cs h.sameEngines] at k

/-! ### The pointer and the count (R101) -/

theorem State.toNat_rd_bump64 {un : UnitId} {lo hi : Reg} (s : State) (n : Nat) (h : regAddr un lo 0 0 ≠ regAddr un hi 0 0) :
    ((s.bump64 un lo hi n).rd un lo).toNat + 2 ^ 32 * ((s.bump64 un lo hi n).rd un hi).toNat =
      ((s.rd un lo).toNat + 2 ^ 32 * (s.rd un hi).toNat + n) % 2 ^ 64 := by
  rw [bump64, rd_wr_self, rd_wr_ne _ _ _ _ _ _ _ _ _ _ h, rd_wr_self, lo32, hi32, BitVec.toNat_ofNat, BitVec.toNat_ofNat]
  omega

theorem exists_index_find {l : List Nat} {a : Nat} (h : a ∈ l) :
    l[((List.range l.length).find? (fun i => l[i]? == some a)).getD 0]? = some a := by
  obtain ⟨i, hi, rfl⟩ := List.getElem_of_mem h
  have hs : ((List.range l.length).find? (fun j => l[j]? == some l[i])).isSome :=
    List.find?_isSome.2 ⟨i, List.mem_range.2 hi, by simp [List.getElem?_eq_getElem hi]⟩
  obtain ⟨j, hj⟩ := Option.isSome_iff_exists.1 hs
  rw [hj]
  simpa using List.find?_some hj

/-- The address belongs to the issue count of engine `e`. -/
def isIssueCnt (e a : Nat) : Prop := a = regAddr (.engine e) R.ISSUE_CNT_LO 0 0 ∨ a = regAddr (.engine e) R.ISSUE_CNT_HI 0 0

theorem State.regsWithin_issueCnt (s : State) (e n : Nat) :
    s.RegsWithin (s.bump64 (.engine e) R.ISSUE_CNT_LO R.ISSUE_CNT_HI n) (isIssueCnt e) :=
  .trans (t := s.wr (.engine e) R.ISSUE_CNT_LO _) (regsWithin_wr (.inl rfl)) (regsWithin_wr (.inr rfl))

/-- Once the thread and the pointer have moved, the count completes the issue. -/
theorem State.issuedAs_count {g : State} {i : Nat} (hg : g = { s with sedge := { s.sedge with threads := g.sedge.threads, engs := g.sedge.engs } })
    (ht : g.thread t = x) (ho : ∀ q, q ≠ t → g.thread q = s.thread q) (hi : (s.engThreads e)[i]? = some t)
    (he : g.eng e = { s.eng e with rr := (i + 1) % (s.engThreads e).length }) (hf : ∀ f, f ≠ e.val → g.eng f = s.eng f) :
    s.IssuedAs (g.bump64 (.engine e) R.ISSUE_CNT_LO R.ISSUE_CNT_HI) e t x := by
  have hc := g.toNat_rd_bump64 1 (engine_regAddr_ne (e := e) (f := e) (g := R.ISSUE_CNT_LO) (k := R.ISSUE_CNT_HI) (by decide) (by decide)
    (.inr (by decide)))
  obtain ⟨hrest, hregs⟩ := g.regsWithin_issueCnt e 1
  have hr : g.regs = s.regs := by rw [hg]
  have hrd (r : Reg) : g.rd (.engine e) r = s.rd (.engine e) r := by rw [rd, rd, hr]
  rw [hrd, hrd] at hc
  exact ⟨hrest.trans (congrArg (fun z : State => { z with regs := (g.bump64 (.engine e) R.ISSUE_CNT_LO R.ISSUE_CNT_HI).regs,
                                                                 freeCtr := g.freeCtr }) hg), ht, ho,
    ⟨i, hi, he⟩, hf, fun a d hl hh => (hregs a d (not_or.2 ⟨hl, hh⟩)).trans (by rw [hr]), hc⟩

@[simp] theorem State.eng_setEng_self (s : State) (e : Nat) (x : Eng) : (s.setEng e x).eng e = x := mapGet_mapSet_self ..

theorem State.eng_setEng_ne {f e : Nat} (x : Eng) (h : f ≠ e) : (s.setEng e x).eng f = s.eng f := mapGet_mapSet_ne _ _ _ _ h

@[simp] theorem State.eng_setThread (s : State) (t : Nat) (x : Thread) (f : Nat) : (s.setThread t x).eng f = s.eng f := rfl
@[simp] theorem State.thread_setEng (s : State) (e : Nat) (x : Eng) (q : Nat) : (s.setEng e x).thread q = s.thread q := rfl

/-- The issue itself. -/
theorem State.issued_spec (ht : t ∈ s.engThreads e) : s.IssuedAs (s.issued e t) e t { s.thread t with any := false } := by
  obtain ⟨i, hi, he⟩ : ∃ i, (s.engThreads e)[i]? = some t ∧ s.issued e t =
      ((s.setEng e { s.eng e with rr := (i + 1) % (s.engThreads e).length }).setThread t { s.thread t with any := false }).bump64
        (.engine e) R.ISSUE_CNT_LO R.ISSUE_CNT_HI := by
    refine ⟨_, exists_index_find ht, ?_⟩
    rw [issued, max_eq_right (List.length_pos_of_mem ht)]
    rfl
  rw [he]
  refine issuedAs_count rfl (thread_setThread_self ..) (fun q hq => ?_) hi ?_ fun f hf => ?_
  · rw [thread_setThread_ne _ hq, thread_setEng]
  · rw [eng_setThread, eng_setEng_self]
  · rw [eng_setThread, eng_setEng_ne _ hf]

end Sys2Proof.Machine

/-! One microword, nothing in its way (R91 to R94): what issues it, operation A's result and flags, and the next address. -/

namespace Sys2Proof.Machine

set_option Elab.async false

variable {s u v b : State} {e : Fin 64} {ecc : Ecc} {t p : Nat} {m : Mw} {x y : Thread}

/-! ### Writes through specifiers (R90) -/

theorem State.IssuedAs.exists_eq (h : s.IssuedAs u e t x) : ∃ S R n, u = { s with sedge := S, regs := R, freeCtr := n } := ⟨_, _, _, h.rest⟩

theorem State.setBytes_beside (s : State) (S : SedgeSt) (R : Map Word) (n a : Nat) (d : List Byte) :
    State.setBytes { s with sedge := S, regs := R, freeCtr := n } a d = { s.setBytes a d with sedge := S, regs := R, freeCtr := n } := by
  induction d generalizing s a with
  | nil => rfl
  | cons c r ih => exact ih (s.setByte a c) (a + 1)

/-- A write through a specifier is the same before the issue and after it. -/
theorem State.IssuedAs.putSpec (h : s.IssuedAs u e t { s.thread t with any := false }) (p : Nat) (w : Word) :
    (s.putSpec t p w).IssuedAs (u.putSpec t p w) e t { (s.putSpec t p w).thread t with any := false } := by
  by_cases h1 : p < 16
  · simp only [State.putSpec, h1, if_true, h.thread, thread_setThread_self]
    exact (h.setThread _).setThread_left _
  by_cases h2 : p < 0x40
  · simpa only [State.putSpec, h1, h2, if_true, if_false] using h
  by_cases h3 : p < 0x80
  · obtain hp | ⟨f, hp⟩ := Option.eq_none_or_eq_some (s.thread t).pkt
    · simpa only [State.putSpec, h1, h2, h3, if_true, if_false, h.thread, hp] using h
    · simp only [State.putSpec, h1, h2, h3, if_true, if_false, h.thread, hp]
      rw [show u.frame f = s.frame f by rw [h.rest]; rfl]
      refine h.of_beside rfl rfl (n := u.freeCtr) ?_
      obtain ⟨S, R, n, rfl⟩ := h.exists_eq
      rfl
  · obtain hc | ⟨c, hc⟩ := Option.eq_none_or_eq_some (s.thread t).ctx
    · simpa only [State.putSpec, h1, h2, h3, if_false, h.thread, hc] using h
    · simp only [State.putSpec, h1, h2, h3, if_false, h.thread, hc, setCtxWord]
      obtain ⟨M, hM⟩ := s.setBytes_eq (ctxAddr c (p - 0x80)) (leBytes 4 w.toNat)
      rw [show (s.setBytes (ctxAddr c (p - 0x80)) (leBytes 4 w.toNat)).thread t = s.thread t by rw [hM]; rfl]
      refine h.of_beside (by rw [hM]) (by rw [hM]) (n := u.freeCtr) ?_
      obtain ⟨S, R, n, rfl⟩ := h.exists_eq
      exact setBytes_beside ..

/-! ### The issue of a microword (R91, R101) -/

/-- The thread that issues is one of the engine's, and neither FREE nor ending. -/
theorem State.nextThread_spec (h : s.nextThread e = some t) : t ∈ s.engThreads e ∧ (s.thread t).st ≠ 0 ∧ (s.thread t).st ≠ 4 := by
  have hmem := List.mem_of_find?_eq_some h
  have hst : s.thState t = 1 := by
    have hp := List.find?_some h
    simp only [Bool.and_eq_true, beq_iff_eq] at hp
    exact hp.1
  refine ⟨?_, fun h0 => ?_, fun h4 => ?_⟩
  · obtain hm | hm := List.mem_append.1 hmem
    · exact List.mem_of_mem_drop hm
    · exact List.mem_of_mem_take hm
  · rw [thState, if_pos h0] at hst
    cases hst
  · rw [thState, if_neg (by omega), if_pos h4] at hst
    cases hst

theorem State.Issues.spec0 (h : s.Issues e ecc t m) : s.IssuedAs (s.issued e t) e t { s.thread t with any := false } :=
  issued_spec (nextThread_spec h.next).1

/-- A row that accepts the microword executes it. -/
theorem State.Issues.issue_eq (h : s.Issues e ecc t m) {ok : Mw → Bool} (hok : ok m = true) :
    s.issue e ecc ok = s.execMw e t (s.thread t).pc m ecc := by
  obtain ⟨-, -, hissues, hnext, hword, hparity, hcause, -, hberr, hbrk, -⟩ := h
  have hhead : (if (s.thread t).excAct then [] else (s.engHits e (s.thread t).pc).filter (fun n => (s.cmp (.engine e) n).1.bit 8)).head? =
      none := by
    obtain hx | hx := hbrk
    · rw [if_pos hx]
      rfl
    · rw [List.filter_eq_nil_iff.2 (by simpa using hx), ite_self]
      rfl
  simp only [issue, hissues, hnext, hword, hparity, hcause, hberr, hok, hhead, ne_eq, not_true_eq_false, Bool.not_true, Bool.false_eq_true,
    false_or, if_false]

/-- After operation A and operation B: the free values a thread without a packet may have taken, and the next microword. -/
def State.goOn (s : State) (t : Nat) (bare : Bool) (next : Nat) : State :=
  let v := if bare then { s with freeCtr := s.freeCtr + 4 } else s
  if (v.thread t).st = 0 ∨ (v.thread t).st = 4 then v else (v.reachPc t next).berrNow t

/-- The thread goes on at `next`. -/
theorem State.IssuedAs.goOn (h : s.IssuedAs u e t x) (h0 : x.st ≠ 0) (h4 : x.st ≠ 4) (hb : x.berr = none) (bare : Bool) (next : Nat) :
    s.IssuedAs (u.goOn t bare next) e t (s.reaches t x next) := by
  have hv : s.IssuedAs (if bare then { u with freeCtr := u.freeCtr + 4 } else u) e t x := by
    split
    · exact h.freeCtr _
    · exact h
  unfold State.goOn
  dsimp only
  generalize (if bare then { u with freeCtr := u.freeCtr + 4 } else u) = v at hv
  have hr := hv.reachPc next
  have hberr : (v.reachPc t next).berrNow t = v.reachPc t next := by
    rw [berrNow, hr.thread]
    simp only [reaches, hb]
  rw [if_neg (by rw [hv.thread]; exact not_or.2 ⟨h0, h4⟩), hberr]
  exact hr

/-- The outcome of operation A of `m` (R94). -/
def State.opaRes (s : State) (t : Nat) (m : Mw) : Word :=
  if m.opa = 0 then 0 else opaResult m.opa (s.spec t m m.s1) (s.spec t m m.s2) (s.spec t m m.dst) (s.thread t).c

/-- The state that operation A leaves (R91, R94). -/
def State.afterA (s : State) (t : Nat) (m : Mw) : State :=
  let a := s.spec t m m.s1
  let b := s.spec t m m.s2
  let v := if m.opa = 0 then s else s.putSpec t m.dst (s.opaRes t m)
  if m.opa ≠ 0 ∧ m.setc then
    v.setThread t { v.thread t with z := s.opaRes t m == 0, n := (s.opaRes t m).bit 31, c := opaCarry m.opa a b, vf := opaOver m.opa a b }
  else v

/-- The microword after `m`, once operation A and operation B have left `s`. -/
def State.nextPc (s : State) (t : Nat) (m : Mw) (res : Word) : Nat :=
  if m.csel = 0 then m.next else m.next ||| (s.group t m.csel res % 2 ^ m.cbits)

/-- The steps of a microword that nothing stops. -/
theorem State.Issues.execMw_eq (h : s.Issues e ecc t m) :
    s.execMw e t (s.thread t).pc m ecc =
      let i := s.issued e t
      let v := (i.afterA t m).startB e t m (i.spec t m m.ab) (m.dataRun.map (i.spec t m))
      v.goOn t (i.thread t).pkt.isNone (if m.opb = 0x30 ∧ m.mod % 2 = 0 then (i.thread t).excPc else v.nextPc t m (i.opaRes t m)) := by
  have hctx : ¬ (ecc = .corr ∧ m.ctxReads ≠ []) := by
    rintro ⟨rfl, hne⟩
    obtain hc | hc := h.ctxOk
    · cases hc
    · exact hne hc
  have htr : s.trMw e t (s.thread t).pc = s := by simp [trMw, h.untraced]
  rw [execMw, if_neg hctx, htr]
  rfl

end Sys2Proof.Machine

/-! Operation A: the rows issue their microword, write its result and flags, and go on at the next address (R91, R93, R94). -/

namespace Sys2Proof.Machine

set_option Elab.async false

variable {s u v b : State} {e : Fin 64} {ecc : Ecc} {t p k : Nat} {m : Mw} {x y : Thread} {c o : Bool} {r : Word} {row : Instr}

theorem State.startB_none (h : m.opb = 0) (w : Word) (ws : List Word) : s.startB e t m w ws = s := by
  unfold startB
  extract_lets
  rw [h]
  rfl

theorem State.freeCtr_issued (s : State) (e t : Nat) : (s.issued e t).freeCtr = s.freeCtr := by
  simp only [issued, bump64, wr_freeCtr, setThread_freeCtr]
  rfl

/-- A specifier names the same word right after the issue. -/
theorem State.Issues.spec_issued (h : s.Issues e ecc t m) (p : Nat) : (s.issued e t).spec t m p = s.spec t m p := by
  have hi := h.spec0
  exact spec_congr hi.thread (by rw [hi.rest]) (by rw [hi.rest]) (by rw [hi.rest]) (freeCtr_issued ..)

/-- What operation A writes: its result to DST, and the flags with SETC. -/
def Thread.flagged (x : Thread) (m : Mw) (r : Word) (c o : Bool) : Thread :=
  if m.setc then { x with z := decide (r = 0), n := r.getLsbD 31, c := c, vf := o } else x

theorem bit_eq_getLsbD (w : Word) (i : Nat) : w.bit i = w.getLsbD i := by
  rw [Word.bit, BitVec.getLsbD]

/-- A write through a specifier changes a thread, frames or memory. -/
theorem State.putSpec_eq (s : State) (t p : Nat) (w : Word) : ∃ T E M, s.putSpec t p w =
    { s with sedge := { s.sedge with threads := T }, eth := E, mem := { s.mem with mem := M } } := by
  unfold putSpec
  split_ifs
  · exact ⟨_, _, _, rfl⟩
  · exact ⟨_, _, _, rfl⟩
  · split
    · exact ⟨_, _, _, rfl⟩
    · exact ⟨_, _, _, rfl⟩
  · split
    · obtain ⟨M, hM⟩ := s.setCtxWord_eq _ (p - 0x80) w
      exact ⟨_, _, M, hM⟩
    · exact ⟨_, _, _, rfl⟩

theorem State.putSpec_freeCtr (s : State) (t p : Nat) (w : Word) : (s.putSpec t p w).freeCtr = s.freeCtr := by
  obtain ⟨T, E, M, h⟩ := s.putSpec_eq t p w
  rw [h]

theorem State.putSpec_reaches (s : State) (t p : Nat) (w : Word) (n : Nat) : (s.putSpec t p w).reaches t x n = s.reaches t x n := by
  obtain ⟨T, E, M, h⟩ := s.putSpec_eq t p w
  rw [h]
  rfl

theorem State.putSpec_untraced (s : State) (t p : Nat) (w : Word) : s.Untraced (s.putSpec t p w) := by
  obtain ⟨T, E, M, h⟩ := s.putSpec_eq t p w
  rw [h]
  exact {}

theorem State.afterA_freeCtr (s : State) (t : Nat) (m : Mw) : (s.afterA t m).freeCtr = s.freeCtr := by
  unfold afterA
  dsimp only
  split_ifs
  · rfl
  · exact putSpec_freeCtr ..
  · rfl
  · exact putSpec_freeCtr ..

/-- Without operation A nothing is written. -/
theorem State.afterA_nop (ha : m.opa = 0) : s.afterA t m = s ∧ s.opaRes t m = 0 := by
  constructor
  · simp only [afterA, ha, if_true, ne_eq, not_true_eq_false, false_and, if_false]
  · rw [opaRes, if_pos ha]

/-- Operation A leaves a thread's state and its pending error alone. -/
theorem State.thread_putSpec (s : State) (t p : Nat) (w : Word) :
    ((s.putSpec t p w).thread t).st = (s.thread t).st ∧ ((s.putSpec t p w).thread t).berr = (s.thread t).berr := by
  unfold putSpec
  split_ifs
  · rw [thread_setThread_self]
    exact ⟨rfl, rfl⟩
  · exact ⟨rfl, rfl⟩
  · split <;> exact ⟨rfl, rfl⟩
  · split
    · obtain ⟨M, hM⟩ := s.setCtxWord_eq _ (p - 0x80) w
      rw [hM]
      exact ⟨rfl, rfl⟩
    · exact ⟨rfl, rfl⟩

theorem Thread.flagged_st (x : Thread) (m : Mw) (r : Word) (c o : Bool) :
    (x.flagged m r c o).st = x.st ∧ (x.flagged m r c o).berr = x.berr := by
  unfold flagged
  split <;> exact ⟨rfl, rfl⟩

section
variable (h : s.Issues e ecc t m)
include h

/-- Operation A leaves its result and its flags, beside the issue. -/
theorem State.Issues.afterA_spec (hk : m.opa ≠ 0) (hr : opaResult m.opa (s.spec t m m.s1) (s.spec t m m.s2) (s.spec t m m.dst)
    (s.thread t).c = r) (hc : opaCarry m.opa (s.spec t m m.s1) (s.spec t m m.s2) = c)
    (ho : opaOver m.opa (s.spec t m m.s1) (s.spec t m m.s2) = o) :
    (s.issued e t).opaRes t m = r ∧ (s.putSpec t m.dst r).IssuedAs ((s.issued e t).afterA t m) e t
      (Thread.flagged { (s.putSpec t m.dst r).thread t with any := false } m r c o) := by
  have hi := h.spec0
  have hres : (s.issued e t).opaRes t m = r := by
    rw [opaRes, if_neg hk, h.spec_issued, h.spec_issued, h.spec_issued, hi.thread]
    exact hr
  have hput := hi.putSpec m.dst r
  refine ⟨hres, ?_⟩
  simp only [afterA, hres, hk, h.spec_issued, hc, ho, if_false, ne_eq, not_false_eq_true, true_and]
  obtain hs | hs := Bool.eq_false_or_eq_true m.setc
  · simp only [hs, if_true, Thread.flagged, hput.thread, bit_eq_getLsbD]
    exact hput.setThread _
  · simpa only [hs, Bool.false_eq_true, if_false, Thread.flagged] using hput

/-- A row of operation A alone answers as R91, R93 and R94 say, its result and flags being those of `opaResult`. -/
theorem State.Issues.alu (hb : m.opb = 0) (hi : exec row s = (s.issue e ecc (mwOpa k)).done s) (h0 : k ≠ 0)
    (hr : opaResult k (s.spec t m m.s1) (s.spec t m m.s2) (s.spec t m m.dst) (s.thread t).c = r)
    (hc : opaCarry k (s.spec t m m.s1) (s.spec t m m.s2) = c) (ho : opaOver k (s.spec t m m.s1) (s.spec t m m.s2) = o) :
    s.Alu e t m row k r c o := by
  rintro rfl
  obtain ⟨hres, hv⟩ := h.afterA_spec h0 hr hc ho
  obtain ⟨-, hst0, hst4⟩ := nextThread_spec h.next
  obtain ⟨hst, hberr⟩ := s.thread_putSpec t m.dst r
  obtain ⟨hst', hberr'⟩ := Thread.flagged_st { (s.putSpec t m.dst r).thread t with any := false } m r c o
  replace hst := hst'.trans hst
  replace hberr := hberr'.trans hberr
  have hfree : ((s.issued e t).afterA t m).freeCtr = (s.putSpec t m.dst r).freeCtr := by
    rw [afterA_freeCtr, freeCtr_issued, putSpec_freeCtr]
  let y := Thread.flagged { (s.putSpec t m.dst r).thread t with any := false } m r c o
  have hgroup : ((s.issued e t).afterA t m).group t m.csel r = ((s.putSpec t m.dst r).setThread t y).group t m.csel r :=
    group_congr (hv.thread.trans (thread_setThread_self ..).symm) (by rw [hv.rest]; rfl) (by rw [hv.rest]; rfl) hfree
  have hexec : s.issue e ecc (mwOpa m.opa) = ((s.issued e t).afterA t m).goOn t ((s.issued e t).thread t).pkt.isNone
      (((s.issued e t).afterA t m).nextPc t m r) := by
    rw [h.issue_eq (ok := mwOpa m.opa) (beq_self_eq_true _), h.execMw_eq]
    dsimp only
    rw [startB_none hb, hres, if_neg (by simp [hb])]
  have hgo := hv.goOn (hst ▸ hst0) (hst ▸ hst4) (hberr.trans h.noErr) ((s.issued e t).thread t).pkt.isNone
    (((s.issued e t).afterA t m).nextPc t m r)
  rw [putSpec_reaches, nextPc, hgroup] at hgo
  exact h.calm.does (hi.trans (by rw [hexec, nextPc, hgroup])) ((s.putSpec_untraced ..).trans hgo.untraced) hgo

/-- Without operations a microword only goes on. -/
theorem State.Issues.nop (ha : m.opa = 0) (hb : m.opb = 0) (hi : exec row s = (s.issue e ecc (fun m => m.opa == 0 || decide (0x15 < m.opa))).done s) :
    s.Does row (fun u => s.IssuedAs u e t (s.reaches t { s.thread t with any := false }
      (if m.csel = 0 then m.next else m.next ||| ((s.setThread t { s.thread t with any := false }).group t m.csel 0 % 2 ^ m.cbits)))) := by
  obtain ⟨hv, hres⟩ := State.afterA_nop (s := s.issued e t) (t := t) ha
  obtain ⟨-, hst0, hst4⟩ := nextThread_spec h.next
  have hu := h.spec0
  have hgroup : (s.issued e t).group t m.csel 0 = (s.setThread t { s.thread t with any := false }).group t m.csel 0 :=
    group_congr (hu.thread.trans (thread_setThread_self ..).symm) (by rw [hu.rest]; rfl) (by rw [hu.rest]; rfl) (freeCtr_issued ..)
  have hexec : s.issue e ecc (fun m => m.opa == 0 || decide (0x15 < m.opa)) =
      (s.issued e t).goOn t ((s.issued e t).thread t).pkt.isNone ((s.issued e t).nextPc t m 0) := by
    rw [h.issue_eq (by simp [ha]), h.execMw_eq]
    dsimp only
    rw [startB_none hb, hres, hv, if_neg (by simp [hb])]
  have hgo := hu.goOn hst0 hst4 h.noErr ((s.issued e t).thread t).pkt.isNone ((s.issued e t).nextPc t m 0)
  rw [nextPc, hgroup] at hgo
  exact h.calm.does (hi.trans (by rw [hexec, nextPc, hgroup])) hgo.untraced hgo
end

end Sys2Proof.Machine

/-! What operation A computes, bit by bit (R94), and the statement. -/

namespace Sys2Proof.Machine

set_option Elab.async false

variable {s : State} {e : Fin 64} {ecc : Ecc} {t : Nat} {m : Mw}

/-! ### Bits of a word -/

theorem getLsbD_ofNat_word (n : Nat) {i : Nat} (h : i < 32) : (BitVec.ofNat 32 n).getLsbD i = n.testBit i := by
  rw [BitVec.getLsbD_ofNat, decide_eq_true h, Bool.true_and]

/-- Writing a field replaces its bits and no others (R4). -/
theorem getLsbD_setFld (w : Word) (f : Fld) (v : Nat) {i : Nat} (hi : i < 32) :
    (w.setFld f v).getLsbD i = if f.lo ≤ i ∧ i ≤ f.hi then v.testBit (i - f.lo) else w.getLsbD i := by
  have hones : Nat.testBit 0xFFFFFFFF i = true := by
    rw [show 0xFFFFFFFF = 2 ^ 32 - 1 from rfl, Nat.testBit_two_pow_sub_one, decide_eq_true hi]
  rw [Word.setFld, getLsbD_ofNat_word _ hi, BitVec.getLsbD]
  simp only [Fld.mask, Fld.width, Nat.testBit_or, Nat.testBit_and, Nat.testBit_xor, Nat.testBit_shiftLeft, Nat.testBit_two_pow_sub_one,
    Nat.testBit_mod_two_pow, hones]
  by_cases h1 : f.lo ≤ i
  · by_cases h2 : i ≤ f.hi
    · have h3 : i - f.lo < f.hi + 1 - f.lo := by omega
      simp [h1, h2, h3]
    · have h3 : ¬ i - f.lo < f.hi + 1 - f.lo := by omega
      simp [h1, h2, h3]
  · simp [h1]

/-! ### Results (R94) -/

theorem getLsbD_extr (x y : Word) {i : Nat} (h : i < 32) : (extr x y).getLsbD i =
    (decide (i < y.toNat / 32 % 32 + 1 ∧ y.toNat % 32 + i < 32) && x.getLsbD (y.toNat % 32 + i)) := by
  have hx : x.getLsbD (y.toNat % 32 + i) = (decide (y.toNat % 32 + i < 32) && x.getLsbD (y.toNat % 32 + i)) := by
    by_cases hp : y.toNat % 32 + i < 32
    · rw [decide_eq_true hp, Bool.true_and]
    · rw [BitVec.getLsbD_of_ge _ _ (by omega), Bool.and_false]
  rw [extr, getLsbD_ofNat_word _ h, fieldOf, Nat.testBit_mod_two_pow, Nat.testBit_div_two_pow, ← BitVec.getLsbD, Nat.add_comm i, hx,
    Bool.decide_and, Bool.and_assoc, Bool.and_self_left]

theorem getLsbD_ins (d x y : Word) {i : Nat} (h : i < 32) : (ins d x y).getLsbD i =
    if y.toNat % 32 ≤ i ∧ i ≤ min (y.toNat % 32 + (y.toNat / 32 % 32 + 1) - 1) 31 then x.getLsbD (i - y.toNat % 32) else d.getLsbD i :=
  getLsbD_setFld _ _ _ h

/-- The bytes of a number below 2^32 that is given by them. -/
theorem div_bytes {n b0 b1 b2 b3 : Nat} (h0 : b0 < 256) (h1 : b1 < 256) (h2 : b2 < 256) (h3 : b3 < 256)
    (hn : n = b0 + 256 * (b1 + 256 * (b2 + 256 * b3))) {k : Nat} (hk : k < 4) : n / 256 ^ k % 256 = [b0, b1, b2, b3].getD k 0 := by
  subst hn
  interval_cases k <;> simp only [List.getD_cons_zero, List.getD_cons_succ] <;> omega

theorem bswap_bytes (x : Word) {k : Nat} (h : k < 4) : (bswap x).toNat / 256 ^ k % 256 = x.toNat / 256 ^ (3 - k) % 256 := by
  let b (i : Nat) : Nat := x.toNat / 256 ^ i % 256
  have hb (i : Nat) : b i < 256 := Nat.mod_lt _ (by decide)
  have hw : (bswap x).toNat = b 3 + 256 * (b 2 + 256 * (b 1 + 256 * b 0)) := by
    have hof : ofBe (leBytes 4 x.toNat) = b 3 + 256 * (b 2 + 256 * (b 1 + 256 * b 0)) := by
      simp only [b, ofBe, leBytes, List.reverse_cons, List.reverse_nil, List.nil_append, List.cons_append, ofLe, BitVec.toNat_ofNat,
        Nat.div_div_eq_div_mul]
      norm_num
    have h0 := hb 0
    have h1 := hb 1
    have h2 := hb 2
    have h3 := hb 3
    rw [bswap, hof, BitVec.toNat_ofNat]
    exact Nat.mod_eq_of_lt (by omega)
  rw [div_bytes (hb 3) (hb 2) (hb 1) (hb 0) hw h]
  interval_cases k <;> rfl

theorem clz_spec (x : Word) : (clz x).toNat ≤ 32 ∧ (∀ i, i < 32 → 32 - (clz x).toNat ≤ i → x.getLsbD i = false) ∧
    ((clz x).toNat < 32 → x.getLsbD (31 - (clz x).toNat) = true) := by
  rcases hf : (List.range 32).find? (fun i => x.bit (31 - i)) with _ | n
  · have hz : (clz x).toNat = 32 := by rw [clz, hf]; rfl
    rw [List.find?_eq_none] at hf
    refine ⟨hz.le, fun i hi _ => ?_, fun h => absurd hz h.ne⟩
    have := hf (31 - i) (List.mem_range.2 (by omega))
    rwa [bit_eq_getLsbD, show 31 - (31 - i) = i by omega, Bool.not_eq_true] at this
  · have hn : n < 32 := List.mem_range.1 (List.mem_of_find?_eq_some hf)
    have hz : (clz x).toNat = n := by
      rw [clz, hf, BitVec.toNat_ofNat]
      exact Nat.mod_eq_of_lt (Nat.lt_trans hn (by decide))
    obtain ⟨hbit, -, hbefore⟩ := List.find?_range_eq_some.1 hf
    rw [hz]
    refine ⟨hn.le, fun i hi hle => ?_, fun _ => by rw [← bit_eq_getLsbD]; exact hbit⟩
    have := hbefore (31 - i) (by omega)
    rwa [bit_eq_getLsbD, show 31 - (31 - i) = i by omega, Bool.not_eq_true'] at this

theorem foldl_b2n (f : Nat → Bool) (l : List Nat) (a : Nat) : l.foldl (fun n i => n + b2n (f i)) a = a + l.countP f := by
  induction l generalizing a with
  | nil => rfl
  | cons b l ih =>
    rw [List.foldl_cons, ih, List.countP_cons, b2n]
    omega

theorem popc_eq (x : Word) : popc x = BitVec.ofNat 32 ((List.range 32).countP (fun i => x.getLsbD i)) := by
  rw [popc, foldl_b2n, Nat.zero_add]
  rfl

/-! ### CRC-32C (R94) -/

/-- One step of a reflected CRC register on a data bit. -/
def crcStep (poly c : Nat) (b : Bool) : Nat := if c.testBit 0 != b then (c / 2) ^^^ poly else c / 2

/-- A register that holds the data already steps as one that takes it bit by bit. -/
theorem crcBits_xor (poly k r d : Nat) (h : d < 2 ^ k) :
    crcBits poly k (r ^^^ d) = (List.range k).foldl (fun c i => crcStep poly c (d.testBit i)) r := by
  induction k generalizing r d with
  | zero =>
    obtain rfl : d = 0 := by simpa using h
    rw [Nat.xor_zero]
    rfl
  | succ k ih =>
    have hstep : (if (r ^^^ d) % 2 = 1 then ((r ^^^ d) / 2) ^^^ poly else (r ^^^ d) / 2) = crcStep poly r (d.testBit 0) ^^^ (d / 2) := by
      have hbit : (r ^^^ d) % 2 = 1 ↔ (r.testBit 0 != d.testBit 0) = true := by
        rw [← decide_eq_true_iff (p := (r ^^^ d) % 2 = 1), ← Nat.testBit_zero, Nat.testBit_xor]
      simp only [hbit, crcStep, Nat.xor_div_two]
      split
      · exact Nat.xor_right_comm ..
      · rfl
    rw [crcBits, hstep, ih _ _ (by rw [Nat.pow_succ] at h; omega), List.range_succ_eq_map, List.foldl_cons, List.foldl_map]
    simp only [Nat.testBit_succ]

theorem crcFeed_leBytes (poly r n x : Nat) :
    crcFeed poly r (leBytes n x) = (List.range (8 * n)).foldl (fun c i => crcStep poly c (x.testBit i)) r := by
  induction n generalizing r x with
  | zero => rfl
  | succ n ih =>
    have hlow : (List.range 8).foldl (fun c i => crcStep poly c ((BitVec.ofNat 8 x).toNat.testBit i)) r =
        (List.range 8).foldl (fun c i => crcStep poly c (x.testBit i)) r := by
      refine List.foldl_ext _ _ _ fun c i hi => ?_
      rw [BitVec.toNat_ofNat, Nat.testBit_mod_two_pow, decide_eq_true (List.mem_range.1 hi), Bool.true_and]
    have hhigh (i : Nat) : (x / 256).testBit i = x.testBit (8 + i) := by
      rw [show x / 256 = x / 2 ^ 8 from rfl, Nat.testBit_div_two_pow, Nat.add_comm]
    rw [show crcFeed poly r (leBytes (n + 1) x) = crcFeed poly (crcBits poly 8 (r ^^^ (BitVec.ofNat 8 x).toNat)) (leBytes n (x / 256)) from rfl,
      ih, crcBits_xor _ _ _ _ (BitVec.ofNat 8 x).isLt, hlow, Nat.mul_succ, Nat.add_comm, List.range_add, List.foldl_append, List.foldl_map]
    simp only [hhigh]

theorem crc_eq (x y : Word) : crc32c y.toNat (leBytes 4 x.toNat) = (List.range 32).foldl (fun c k =>
    if c.testBit 0 != x.getLsbD k then (c / 2) ^^^ 0x82F63B78 else c / 2) y.toNat := crcFeed_leBytes ..

/-! ### The statement -/

/-- Settles O44: every row by what `opaResult` and the flags are for its code. -/
theorem sedgeAlu : Obligations.SedgeAlu := by
  intro s e ecc t m h hb x y p w
  refine ⟨fun ha => h.nop ha hb rfl, h.alu hb rfl (by decide) rfl rfl rfl, h.alu hb rfl (by decide) rfl rfl rfl,
    h.alu hb rfl (by decide) rfl rfl rfl, h.alu hb rfl (by decide) rfl rfl rfl, h.alu hb rfl (by decide) rfl rfl rfl,
    h.alu hb rfl (by decide) rfl rfl rfl, h.alu hb rfl (by decide) rfl rfl rfl, h.alu hb rfl (by decide) rfl rfl rfl,
    h.alu hb rfl (by decide) rfl rfl rfl, h.alu hb rfl (by decide) rfl rfl rfl, h.alu hb rfl (by decide) rfl rfl rfl,
    ⟨extr x y, fun i hi => getLsbD_extr x y hi, h.alu hb rfl (by decide) rfl rfl rfl⟩,
    ⟨ins (s.spec t m m.dst) x y, fun i hi => getLsbD_ins _ x y hi, h.alu hb rfl (by decide) rfl rfl rfl⟩,
    ⟨bswap x, fun k hk => bswap_bytes x hk, h.alu hb rfl (by decide) rfl rfl rfl⟩,
    ⟨clz x, clz_spec x, h.alu hb rfl (by decide) rfl rfl rfl⟩, h.alu hb rfl (by decide) (popc_eq x) rfl rfl,
    h.alu hb rfl (by decide) rfl rfl rfl, h.alu hb rfl (by decide) rfl rfl rfl, h.alu hb rfl (by decide) rfl rfl rfl,
    h.alu hb rfl (by decide) rfl rfl rfl, h.alu hb rfl (by decide) (congrArg (BitVec.ofNat 32) (crc_eq x y)) rfl rfl⟩

end Sys2Proof.Machine

/-! What memory accesses, events, faults and trace leave alone: threads and engines, the packet path, PCIe, and the engines' registers. -/

namespace Sys2Proof.Machine

set_option Elab.async false

variable {s t x : State} {u : UnitId} {g : Reg} {a i j n p q k l : Nat} {r : Req} {w : Word}

/-! ### Registers that such steps do not reach -/

/-- A register that switches trace, or one in an engine's block. -/
def keptReg (a : Nat) : Prop := traceReg a ∨ ∃ e o, o < 0x8000 ∧ a = (UnitId.engine e).base + o

theorem keptReg_engine (h : g.off + i * g.s1 + j * g.s2 < 0x8000) : keptReg (regAddr (.engine n) g i j) :=
  .inr ⟨n, _, h, by simp only [regAddr, Nat.add_assoc]⟩

/-- Offset `o` in the block of quadrant `q` holds no such register outside the engines' blocks and beside FR_CFG. -/
theorem not_keptReg_quadrant {o : Nat} (ho : o < 0x800000) (h : o < 0x120000 ∨ 0x200000 ≤ o) (hf : o ≠ 0x7003C0) :
    ¬ keptReg (0x0E01000000 + q * 0x800000 + o) := by
  rintro ((⟨k, hk, e⟩ | ⟨t, ht, e⟩) | ⟨n, d, hd, e⟩)
  · simp only [regAddr, UnitId.base, R.HR_SRC_EN] at e
    omega
  · simp only [List.mem_cons, List.not_mem_nil, or_false] at ht
    simp only [regAddr, UnitId.base, R.FR_CFG] at e
    omega
  · simp only [UnitId.base] at e
    omega

/-- The registers of a unit whose block lies before the engines' in its quadrant. -/
theorem not_keptReg_er (h : g.off + i * g.s1 + j * g.s2 < 0x10000) : ¬ keptReg (regAddr (.er q) g i j) := by
  have k := not_keptReg_quadrant (q := q) (o := 0x10000 + g.off + i * g.s1 + j * g.s2) (by omega) (by omega) (by omega)
  simpa only [regAddr, UnitId.base, Nat.add_assoc] using k

theorem not_keptReg_sw (h : g.off + i * g.s1 + j * g.s2 < 0x10000) : ¬ keptReg (regAddr (.sw q) g i j) := by
  have k := not_keptReg_quadrant (q := q) (o := 0x30000 + g.off + i * g.s1 + j * g.s2) (by omega) (by omega) (by omega)
  simpa only [regAddr, UnitId.base, Nat.add_assoc] using k

theorem not_keptReg_slice (h : g.off + i * g.s1 + j * g.s2 < 0x10000) : ¬ keptReg (regAddr (.slice q) g i j) := by
  have k := not_keptReg_quadrant (q := q / 8) (o := 0x40000 + q % 8 * 0x10000 + g.off + i * g.s1 + j * g.s2) (by omega) (by omega) (by omega)
  simpa only [regAddr, UnitId.base, Nat.add_assoc] using k

theorem not_keptReg_tussock (h : g.off + i * g.s1 + j * g.s2 < 0x3C0) : ¬ keptReg (regAddr (.tussock q) g i j) := by
  have k := not_keptReg_quadrant (q := q / 7) (o := 0x400000 + q % 7 * 0x80000 + g.off + i * g.s1 + j * g.s2) (by omega) (by omega) (by omega)
  simpa only [regAddr, UnitId.base, Nat.add_assoc] using k

theorem not_keptReg_core (h : g.off + i * g.s1 + j * g.s2 < 0x8000) : ¬ keptReg (regAddr (.core q) g i j) := by
  have k := not_keptReg_quadrant (q := q / 63) (o := 0x400000 + q / 9 % 7 * 0x80000 + 0x10000 + q % 9 * 0x8000 + g.off + i * g.s1 + j * g.s2)
    (by omega) (by omega) (by omega)
  simpa only [regAddr, UnitId.base, Nat.add_assoc] using k

/-- Registers below the quadrants, but for Hedgerow's source enables, switch no trace and are no engine's. -/
theorem not_keptReg_low (h : a < 0x0E01000000) (hs : a < 0x0E00700140 ∨ 0x0E00700180 ≤ a) : ¬ keptReg a := by
  rintro ((⟨k, hk, e⟩ | ⟨t, ht, e⟩) | ⟨n, d, hd, e⟩)
  · simp only [regAddr, UnitId.base, R.HR_SRC_EN] at e
    omega
  · simp only [regAddr, UnitId.base, R.FR_CFG] at e
    omega
  · simp only [UnitId.base] at e
    omega

/-! ### Steps that keep all this -/

/-- From `s` to `t` neither the queue, nor time, nor threads and engines, nor the packet path, nor PCIe, nor what triggers Gorse's recorder
has changed, nor a register that switches trace or is an engine's. -/
structure State.Elsewhere (s t : State) : Prop where
  pending : t.pending = s.pending := by rfl
  mono : t.mono = s.mono := by rfl
  now : t.now = s.now := by rfl
  sedge : t.sedge = s.sedge := by rfl
  eth : t.eth = s.eth := by rfl
  pcie : t.pcie = s.pcie := by rfl
  vfail : t.gorse.vfail = s.gorse.vfail := by rfl
  mcActive : ∀ p, (t.core p).mcActive = (s.core p).mcActive := by exact fun _ => rfl
  regs : ∀ a d, keptReg a → mapGet d t.regs a = mapGet d s.regs a := by exact fun _ _ _ => rfl

theorem State.Elsewhere.refl (s : State) : s.Elsewhere s := {}

theorem State.Elsewhere.trans (h : s.Elsewhere t) (k : t.Elsewhere x) : s.Elsewhere x :=
  ⟨k.pending.trans h.pending, k.mono.trans h.mono, k.now.trans h.now, k.sedge.trans h.sedge, k.eth.trans h.eth, k.pcie.trans h.pcie,
    k.vfail.trans h.vfail, fun p => (k.mcActive p).trans (h.mcActive p), fun a d ha => (k.regs a d ha).trans (h.regs a d ha)⟩

theorem State.Elsewhere.foldl {α : Type} {f : State → α → State} (hf : ∀ t b, State.Elsewhere t (f t b)) (l : List α) (s : State) :
    s.Elsewhere (l.foldl f s) := by
  induction l generalizing s with
  | nil => exact .refl s
  | cons b l ih => exact (hf s b).trans (ih _)

/-- The same where what holds of the list's elements matters. -/
theorem State.Elsewhere.foldl_mem {α : Type} {f : State → α → State} {l : List α} (hf : ∀ t, ∀ b ∈ l, State.Elsewhere t (f t b)) (s : State) :
    s.Elsewhere (l.foldl f s) := by
  induction l generalizing s with
  | nil => exact .refl s
  | cons b l ih => exact (hf s b (by simp)).trans (ih (fun t c hc => hf t c (by simp [hc])) _)

theorem State.Elsewhere.ite {c : Prop} [Decidable c] {y : State} (hx : s.Elsewhere x) (hy : s.Elsewhere y) : s.Elsewhere (if c then x else y) := by
  split
  · exact hx
  · exact hy

theorem State.Elsewhere.untraced (h : s.Elsewhere t) : s.Untraced t :=
  ⟨h.pending, h.mono, h.now, h.vfail, h.mcActive 252, fun a d ha => h.regs a d (.inl ha)⟩

theorem State.elsewhere_wr {v : Word} (h : ¬ keptReg (regAddr u g i j)) : s.Elsewhere (s.wr u g v i j) where
  regs _ _ ha := mapGet_mapSet_ne _ _ _ _ (fun e => h (e ▸ ha))

theorem State.elsewhere_bump64 {lo hi : Reg} (hl : ¬ keptReg (regAddr u lo i j)) (hh : ¬ keptReg (regAddr u hi i j)) :
    s.Elsewhere (s.bump64 u lo hi n i j) := (elsewhere_wr hl).trans (elsewhere_wr hh)

theorem State.elsewhere_setCore {c : Core} (h : c.mcActive = (s.core p).mcActive) : s.Elsewhere (s.setCore p c) where
  mcActive q := by
    obtain rfl | hq := eq_or_ne q p
    · rw [core_setCore_self, h]
    · rw [core_setCore_ne _ _ _ _ hq]

/-! ### Banks and events (R263 to R268) -/

theorem State.elsewhere_wakeUnit : s.Elsewhere (s.wakeUnit u) := by
  unfold wakeUnit
  dsimp only
  split
  · exact {}
  · exact {}
  · exact .refl s

theorem State.elsewhere_perf4 : s.Elsewhere (s.perf p 4) := by
  unfold perf
  exact .ite (elsewhere_bump64 (not_keptReg_core (by decide)) (not_keptReg_core (by decide))) (.refl s)

theorem State.elsewhere_switchOut : s.Elsewhere (s.switchOut p q) := by
  unfold switchOut
  dsimp only
  exact .ite (.trans (t := s.setBank p q _) {} (elsewhere_setCore rfl)) (.refl s)

theorem State.elsewhere_switchTo : s.Elsewhere (s.switchTo p q) := by
  unfold switchTo
  extract_lets o s1 s2 s3
  have h1 : s.Elsewhere s1 := by
    unfold s1
    split
    · exact {}
    · exact .refl s
  have h2 : s1.Elsewhere s2 := .ite (.refl s1) (elsewhere_switchOut.trans elsewhere_perf4)
  have h3 : s2.Elsewhere s3 := .foldl (fun _ _ => elsewhere_wakeUnit) _ _
  exact ((h1.trans h2).trans h3).trans (.trans (t := s3.setBank p q _) {} (elsewhere_setCore rfl))

theorem State.elsewhere_resched : s.Elsewhere (s.resched p) := by
  unfold resched
  refine .ite ?_ (.refl s)
  split
  · exact .refl s
  · exact .ite (.refl s) elsewhere_switchTo

theorem State.elsewhere_bankEvent : s.Elsewhere (s.bankEvent p q n) := by
  unfold bankEvent
  exact .ite (.refl s) (.trans (t := s.setBank p q _) {} elsewhere_resched)

theorem State.elsewhere_idEvent : s.Elsewhere (s.idEvent i p q) := by
  unfold idEvent
  split
  · exact elsewhere_bankEvent
  · exact .refl s

theorem State.elsewhere_bsetEvent {o : Option Nat} : s.Elsewhere (s.bsetEvent q k p o) := by
  refine .foldl (fun t i => ?_) _ _
  refine .ite ?_ (.refl t)
  split
  · exact elsewhere_bankEvent
  · exact .refl t

theorem State.elsewhere_setErPend {v : Bool} (h : n < 1024) : s.Elsewhere (s.setErPend q n v) :=
  elsewhere_wr (not_keptReg_er (by simp only [R.ER_PEND]; omega))

theorem State.elsewhere_erRaise (h : n < 1024) : s.Elsewhere (s.erRaise q n) := by
  unfold erRaise
  refine .ite (.refl s) (.ite (.ite ?_ ?_) elsewhere_bsetEvent)
  · exact elsewhere_wr (not_keptReg_er (by decide))
  · exact (elsewhere_setErPend h).trans elsewhere_idEvent

theorem natBits_lt (n hi lo : Nat) : natBits n hi lo < 2 ^ (hi + 1 - lo) := Nat.mod_lt _ (Nat.two_pow_pos _)

theorem State.elsewhere_raiseEvt : s.Elsewhere (s.raiseEvt w) := by
  unfold raiseEvt
  exact .ite (elsewhere_erRaise (natBits_lt _ 9 0)) (.refl s)

/-! ### Faults, records and rejections (R18, R61, R338, R350) -/

theorem State.elsewhere_notifyRise : s.Elsewhere (s.notifyRise u n) := by
  unfold notifyRise
  split
  · exact .refl s
  · exact .foldl (fun t b => .ite elsewhere_raiseEvt (.refl t)) _ _

theorem State.elsewhere_setFault : s.Elsewhere (s.setFault u n) := by
  unfold setFault withNotify
  exact .trans (t := s.setUnit u _) {} (.foldl (fun _ _ => elsewhere_notifyRise) _ _)

theorem State.elsewhere_record {c d1 d2 : Nat} {id : Option Nat} : s.Elsewhere (s.record u k c a d1 d2 id) := by
  unfold record
  dsimp only
  split
  · exact {}
  · exact .trans (t := { s with fault := _ }) {} (elsewhere_wr (not_keptReg_low (by decide) (by decide)))

theorem State.elsewhere_quarantineStale {src : Option UnitId} : s.Elsewhere (s.quarantineStale r a src) := by
  unfold quarantineStale
  split
  · exact .ite (.trans (t := s.setHealth _ _) {} (elsewhere_setFault.trans elsewhere_record)) (.refl s)
  · exact .refl s

theorem State.elsewhere_pmonCount {ev : Nat} : s.Elsewhere (s.pmonCount k p ev n) := by
  refine .foldl_mem (fun t m hm => ?_) _
  have hm : m < 8 := List.mem_range.1 hm
  exact .ite (elsewhere_bump64 (not_keptReg_sw (by simp only [R.PMON_CNT_LO]; omega)) (not_keptReg_sw (by simp only [R.PMON_CNT_HI]; omega)))
    (.refl t)

theorem State.elsewhere_reject {op : AccOp} {src : Option UnitId} : s.Elsewhere (s.reject u k r op a n src) := by
  unfold reject
  extract_lets q s1 log v _ s2 s3
  have h1 : s.Elsewhere s1 := elsewhere_setFault
  have h2 : s1.Elsewhere s2 := .ite {} (elsewhere_wr (not_keptReg_sw (by decide)))
  have h3 : s2.Elsewhere s3 := elsewhere_pmonCount
  exact ((h1.trans h2).trans h3).trans (.ite elsewhere_quarantineStale (.refl s3))

theorem State.elsewhere_guardAcc {op : AccOp} {src : Option UnitId} : s.Elsewhere (s.guardAcc a r op src).2 := by
  unfold guardAcc
  extract_lets atid
  rcases h : s.atCheck atid r op with _ | c
  · dsimp only
    rw [apply_ite Prod.snd]
    dsimp only
    exact .ite elsewhere_reject (.refl s)
  · dsimp only
    exact elsewhere_reject

end Sys2Proof.Machine

/-! The same of accesses to memory: lines, caches and directories (R76 to R82, R299 to R331), and of the accesses of device masters. -/

namespace Sys2Proof.Machine

set_option Elab.async false

variable {s t x : State} {u : UnitId} {g : Reg} {a i j n p q k l m : Nat} {r : Req} {w : Word} {d b : List Byte} {c : Bool} {e : Ecc}

/-! ### Lines at their home (R76 to R82) -/

theorem State.elsewhere_setBytes : s.Elsewhere (s.setBytes a d) := by
  obtain ⟨M, hM⟩ := s.setBytes_eq a d
  rw [hM]
  exact {}

theorem State.elsewhere_cmpCount {o : Option Nat} {lo hi : Reg} (hl : lo.off + 7 * lo.s1 < 0x10000) (hh : hi.off + 7 * hi.s1 < 0x10000) :
    s.Elsewhere (s.cmpCount o lo hi) := by
  unfold cmpCount
  split
  · exact .refl s
  · refine .foldl_mem (fun t m hm => ?_) _
    have hm : m ≤ 7 := Nat.lt_succ_iff.1 (List.mem_range.1 hm)
    have hl' : m * lo.s1 ≤ 7 * lo.s1 := Nat.mul_le_mul_right _ hm
    have hh' : m * hi.s1 ≤ 7 * hi.s1 := Nat.mul_le_mul_right _ hm
    exact .ite (elsewhere_bump64 (not_keptReg_slice (by omega)) (not_keptReg_slice (by omega))) (.refl t)

theorem State.elsewhere_eccLog : s.Elsewhere (s.eccLog k a e c) := by
  unfold eccLog
  extract_lets v log
  have hlog (t : State) : t.Elsewhere (log t) :=
    .ite (.refl t) ((elsewhere_wr (not_keptReg_slice (by decide))).trans (elsewhere_wr (not_keptReg_slice (by decide))))
  split
  · exact .refl s
  · exact ((elsewhere_wr (not_keptReg_slice (by decide))).trans (hlog _)).trans elsewhere_setFault
  · exact (elsewhere_wr (not_keptReg_slice (by decide))).trans (hlog _)

theorem State.elsewhere_lineRead : s.Elsewhere (s.lineRead a e).2 := by
  unfold lineRead
  dsimp only
  exact elsewhere_eccLog.trans (.ite (.refl _) (elsewhere_cmpCount (by decide) (by decide)))

theorem State.elsewhere_lineStore {y : Bool} : s.Elsewhere (s.lineStore a d c y) := by
  unfold lineStore
  extract_lets k fmt s1 _ s2 reg s3
  have h1 : s.Elsewhere s1 := elsewhere_setBytes.trans (.trans (t := s1) {} (.refl s1))
  have h2 : s.Elsewhere s2 := h1.trans {}
  have h3 : s2.Elsewhere s3 := elsewhere_cmpCount (by decide) (by decide)
  exact h2.trans (.ite (h3.trans (.ite (.refl s3) (elsewhere_cmpCount (by decide) (by decide)))) (.refl s2))

theorem State.elsewhere_lineMerge : s.Elsewhere (s.lineMerge a n b c e) := by
  have h1 : s.Elsewhere (s.lineRead a e).2 := elsewhere_lineRead
  unfold lineMerge
  generalize s.lineRead a e = y at h1
  exact h1.trans elsewhere_lineStore

/-! ### Caching agents (R299 to R312, R324 to R328) -/

theorem State.elsewhere_l2Count (h : k < 8) : s.Elsewhere (s.l2Count q k n) := by
  unfold l2Count
  exact .ite (elsewhere_bump64 (not_keptReg_tussock (by simp only [R.L2_CNT_LO]; omega)) (not_keptReg_tussock (by simp only [R.L2_CNT_HI]; omega)))
    (.refl s)

theorem State.elsewhere_mem {y : MemSt} : s.Elsewhere { s with mem := y } := {}
theorem State.elsewhere_setSub {y : Sub} : s.Elsewhere (s.setSub q l y) := {}
theorem State.elsewhere_setSector {y : Option Sector} : s.Elsewhere (s.setSector q l y) := {}
theorem State.elsewhere_setEvb {y : List Evb} : s.Elsewhere (s.setEvb q y) := {}
theorem State.elsewhere_push {y : CohMsg} : s.Elsewhere (s.push p q l y) := {}
theorem State.elsewhere_setDir {y : Option DirEnt} : s.Elsewhere (s.setDir k y) := {}
theorem State.elsewhere_setPoison : s.Elsewhere (s.setPoison a c) := {}
theorem State.elsewhere_putBack {y : Bool} : s.Elsewhere (s.putBack q l y) := {}

theorem State.elsewhere_l1Drop : s.Elsewhere (s.l1Drop q l) := .foldl (fun _ _ => {}) _ _

theorem State.elsewhere_clearResv {o : Option (Nat × Nat)} : s.Elsewhere (s.clearResv q l o) :=
  .foldl (fun _ _ => .foldl (fun _ _ => .ite {} (.refl _)) _ _) _ _

theorem State.elsewhere_clearGran : s.Elsewhere (s.clearGran l) := .foldl (fun _ _ => .ite {} (.refl _)) _ _

theorem State.elsewhere_trimSector : s.Elsewhere (s.trimSector q l) := by
  unfold trimSector
  split
  · exact .ite {} (.refl s)
  · exact .refl s

/-- A sub-block is replaced, and copies in L1s and reservations end. -/
theorem State.elsewhere_subDrop {y : Sub} : s.Elsewhere (((s.setSub q l y).l1Drop q l).clearResv q l) :=
  .trans (t := s.setSub q l y) {} (elsewhere_l1Drop.trans elsewhere_clearResv)

theorem State.elsewhere_toI : s.Elsewhere (s.toI q l) := elsewhere_subDrop.trans elsewhere_trimSector

theorem State.elsewhere_evictSector : s.Elsewhere (s.evictSector q l) := by
  unfold evictSector
  refine .trans (.foldl (fun t i => ?_) _ _) elsewhere_setSector
  exact .trans (.ite (elsewhere_putBack.trans (elsewhere_l2Count (by decide))) (.refl t)) elsewhere_subDrop

theorem State.elsewhere_loseCopy : s.Elsewhere (s.loseCopy q l) := by
  unfold loseCopy
  extract_lets y s1
  have h1 : s.Elsewhere s1 := {}
  refine h1.trans ?_
  split
  · exact elsewhere_subDrop
  · exact .refl s1
  · exact .refl s1
  · exact elsewhere_toI

theorem State.elsewhere_serveStash : s.Elsewhere (s.serveStash q l d c) := by
  unfold serveStash
  extract_lets y inst refuse
  have hinst (t : State) : t.Elsewhere (inst t) := elsewhere_subDrop
  have hrefuse (t : State) : t.Elsewhere (refuse t) := by
    have h1 : t.Elsewhere (if y.st = .s then t.toI q l else t) := .ite elsewhere_toI (.refl t)
    exact h1.trans ((elsewhere_l2Count (by decide)).trans elsewhere_push)
  refine .ite (hrefuse s) ?_
  split
  · exact .ite ((hinst s).trans elsewhere_push) (hrefuse s)
  · rename_i sc nc set cp way _ _
    clear_value way
    cases way with
    | some w =>
      refine .ite ?_ (hrefuse s)
      extract_lets s1 _ s2
      have h1 : s.Elsewhere s1 := by
        unfold s1
        split
        · exact elsewhere_evictSector
        · exact .refl s
      have h2 : s1.Elsewhere s2 := elsewhere_mem
      exact (h1.trans h2).trans (elsewhere_setSector.trans ((hinst _).trans elsewhere_push))
    | none => exact hrefuse s

/-! ### Homes, and accesses of cacheless agents (R317 to R323) -/

theorem State.elsewhere_dirCount (h : i < 8) : s.Elsewhere (s.dirCount k i n) :=
  elsewhere_bump64 (not_keptReg_slice (by simp only [R.DIR_CNT_LO]; omega)) (not_keptReg_slice (by simp only [R.DIR_CNT_HI]; omega))

theorem State.elsewhere_patchLine : s.Elsewhere (s.patchLine l n b) := by
  unfold patchLine
  extract_lets fix s1 fixMsg net _ s2
  have h1 : s.Elsewhere s1 := by
    refine .foldl (fun t i => ?_) _ _
    exact .trans (.trans (.ite (.refl t) elsewhere_setSub) elsewhere_setEvb) elsewhere_clearResv
  clear_value s1
  have h2 : s1.Elsewhere s2 := elsewhere_mem
  exact (h1.trans h2).trans elsewhere_lineMerge

theorem State.elsewhere_recall : s.Elsewhere (s.recall l c) := by
  unfold State.recall
  extract_lets k s1
  have h1 : s.Elsewhere s1 := by
    refine .ite ?_ (.refl s)
    split
    · have h2 : s.Elsewhere (s.lineRead (64 * l)).2 := elsewhere_lineRead
      generalize s.lineRead (64 * l) = y at h2
      exact h2.trans elsewhere_lineStore
    · exact .refl s
  exact h1.trans (.trans (.foldl (fun _ _ => elsewhere_loseCopy) _ _) elsewhere_setDir)

theorem State.elsewhere_cohWrite : s.Elsewhere (s.cohWrite m l n b c) := by
  unfold cohWrite
  extract_lets s1 k s3 s2 n
  have h1 : s.Elsewhere s1 := elsewhere_clearGran
  have h2 : s1.Elsewhere s2 := elsewhere_recall
  have h3 : s1.Elsewhere s3 := elsewhere_patchLine
  have hstore : s2.Elsewhere (s2.lineStore (64 * l) b c true) := elsewhere_lineStore
  refine h1.trans (.ite (h3.trans (.ite elsewhere_setPoison (.refl _))) (.ite (h2.trans ?_) (elsewhere_recall.trans elsewhere_lineMerge)))
  split
  · refine .ite ?_ (hstore.trans (elsewhere_dirCount (by decide)))
    extract_lets s4 ok _ s5
    have h4 : s2.Elsewhere s4 := elsewhere_serveStash
    have h5 : s4.Elsewhere s5 := elsewhere_mem
    exact (h4.trans h5).trans (.ite elsewhere_setDir (elsewhere_lineStore.trans (elsewhere_dirCount (by decide))))
  · exact hstore

/-! ### Accesses of device masters (R21, R60, R63) -/

theorem State.elsewhere_touchChan : s.Elsewhere (s.touchChan k) := elsewhere_wakeUnit.trans {}

theorem State.elsewhere_memStore (f : Nat) : s.Elsewhere (s.memStore m f a b c) := by
  induction f generalizing s a b with
  | zero => exact .refl s
  | succ f ih =>
    unfold memStore
    refine .ite (.refl s) ?_
    extract_lets k s2 s3 s1
    have h2 : s.Elsewhere s2 := elsewhere_setBytes
    have h3 : s2.Elsewhere s3 := .ite elsewhere_setPoison (.ite elsewhere_setPoison (.refl s2))
    have h1 : s.Elsewhere s1 :=
      .ite (elsewhere_touchChan.trans elsewhere_cohWrite) ((h2.trans h3).trans (.ite elsewhere_clearGran (.refl s3)))
    exact h1.trans ih

theorem State.elsewhere_devWrite {src : Option UnitId} : s.Elsewhere (s.devWrite r a b c src).2 := by
  have h1 : s.Elsewhere (s.guardAcc a r .write src).2 := elsewhere_guardAcc
  unfold devWrite
  rw [apply_ite Prod.snd]
  refine .ite (.refl s) ?_
  generalize s.guardAcc a r .write src = y at h1
  rcases y with ⟨_ | k, y⟩
  · dsimp only at h1 ⊢
    split
    · exact h1
    · exact h1.trans (elsewhere_memStore _)
  · exact h1

theorem State.elsewhere_devWriteOut : s.Elsewhere (s.devWriteOut r a b c).2 := by
  have h1 : s.Elsewhere (s.guardAcc a r .write).2 := elsewhere_guardAcc
  unfold devWriteOut
  rw [apply_ite Prod.snd]
  refine .ite ?_ elsewhere_devWrite
  generalize s.guardAcc a r .write = y at h1
  rcases y with ⟨_ | k, y⟩
  · dsimp only at h1 ⊢
    rw [apply_ite Prod.snd]
    exact .ite (h1.trans {}) h1
  · exact h1

end Sys2Proof.Machine

/-! The same of everything a command adds to the trace (R404 to R416), so that what it did to threads and engines stands in what it answers. -/

namespace Sys2Proof.Machine

set_option Elab.async false

variable {s t x : State} {u : UnitId} {a i n p k : Nat} {d : List Byte}

/-! ### Recorders (R415, R416) -/

theorem State.elsewhere_setFrec {y : FrSt} : s.Elsewhere (s.setFrec k y) := {}
theorem State.elsewhere_setHr {y : HedgeSt} : s.Elsewhere (s.setHr y) := {}
theorem State.elsewhere_setTrSrc {y : TrSrc} : s.Elsewhere (s.setTrSrc i y) := {}

theorem State.elsewhere_frRaw : s.Elsewhere (s.frRaw k d) := by
  unfold frRaw
  dsimp only
  exact .trans (.foldl (fun _ _ => {}) _ _) elsewhere_setFrec

theorem State.elsewhere_frPut : s.Elsewhere (s.frPut k i d) := by
  unfold frPut
  extract_lets x room need s1 y pre s2
  have h1 : s.Elsewhere s1 := .ite elsewhere_frRaw (.refl s)
  have h2 : s1.Elsewhere s2 := elsewhere_frRaw
  exact .ite (.refl s) ((h1.trans h2).trans elsewhere_setFrec)

theorem State.elsewhere_frTrig {c : Bool} : s.Elsewhere (s.frTrig k i n c) := by
  unfold frTrig
  extract_lets x s1 y m
  have h1 : s.Elsewhere s1 := .ite (.refl s) elsewhere_frPut
  exact .ite (.refl s) (h1.trans elsewhere_setFrec)

theorem State.elsewhere_frFault : s.Elsewhere (s.frFault p) := .ite elsewhere_frTrig (.refl s)

/-! ### Hedgerow (R412 to R414) -/

/-- Hedgerow's status, ring pointer and count of losses are no register a step keeps. -/
theorem State.elsewhere_hedgerow {g : Reg} {w : Word} (h : g.off + 0 * g.s1 + 0 * g.s2 < 0x140) : s.Elsewhere (s.wr .hedgerow g w) :=
  elsewhere_wr (not_keptReg_low (by simp only [regAddr, UnitId.base]; omega) (by simp only [regAddr, UnitId.base]; omega))

theorem State.elsewhere_ringLine : s.Elsewhere (s.ringLine d) := by
  unfold ringLine
  extract_lets w w s1
  have h1 : s.Elsewhere s1 := elsewhere_devWriteOut
  refine .ite (.refl s) (h1.trans (.ite (elsewhere_hedgerow (by decide)) (.ite ?_ ?_)))
  · exact (elsewhere_hedgerow (by decide)).trans (elsewhere_hedgerow (by decide))
  · exact (elsewhere_hedgerow (by decide)).trans (elsewhere_hedgerow (by decide))

theorem State.elsewhere_ringPut (n : Nat) : s.Elsewhere (s.ringPut n) := by
  induction n generalizing s with
  | zero => exact .refl s
  | succ n ih =>
    unfold ringPut
    extract_lets h
    exact .ite (.refl s) ((elsewhere_setHr.trans elsewhere_ringLine).trans ih)

theorem State.elsewhere_hrOut : s.Elsewhere (s.hrOut d) := by
  unfold hrOut
  extract_lets k h s1 s2 y
  have h1 : s.Elsewhere s1 := elsewhere_setHr
  have h2 : s1.Elsewhere s2 := .ite {} (.refl s1)
  exact (h1.trans h2).trans (.ite (elsewhere_setHr.trans (elsewhere_ringPut _)) (.refl s2))

theorem State.elsewhere_hrPacket : s.Elsewhere (s.hrPacket i d) := by
  unfold hrPacket
  extract_lets h mark s1 _ s2 s3
  have h1 : s.Elsewhere s1 := .ite (elsewhere_setHr.trans elsewhere_hrOut) (.refl s)
  have h2 : s1.Elsewhere s2 := .ite (elsewhere_setHr.trans elsewhere_hrOut) (.refl s1)
  have h3 : s2.Elsewhere s3 := .ite (elsewhere_hedgerow (by decide)) (.refl s2)
  exact ((h1.trans h2).trans h3).trans elsewhere_hrOut

theorem State.elsewhere_trFlit : s.Elsewhere (s.trFlit i) :=
  .trans (t := s.setTrSrc i _) elsewhere_setTrSrc (.foldl (fun _ _ => elsewhere_hrPacket) _ _)

/-! ### Emission (R405 to R411) -/

theorem State.elsewhere_trPut : s.Elsewhere (s.trPut i d) := by
  unfold trPut
  extract_lets x s1 y pre
  have h1 : s.Elsewhere s1 := .ite elsewhere_trFlit (.refl s)
  exact h1.trans (.ite elsewhere_setTrSrc elsewhere_setTrSrc)

theorem State.elsewhere_trRaw : s.Elsewhere (s.trRaw i d) := by
  unfold trRaw
  extract_lets s1 s2
  have h1 : s.Elsewhere s1 := by
    unfold s1
    split
    · exact elsewhere_frPut
    · exact .refl s
  have h2 : s1.Elsewhere s2 := .ite elsewhere_trPut (.refl s1)
  exact (h1.trans h2).trans elsewhere_setTrSrc

theorem State.elsewhere_trSync : s.Elsewhere (s.trSync i) := by
  unfold trSync
  exact .trans (t := s.trRaw i _) elsewhere_trRaw elsewhere_setTrSrc

theorem State.elsewhere_trBr : s.Elsewhere (s.trBr i) := by
  unfold trBr
  exact .ite (.refl s) (elsewhere_setTrSrc.trans elsewhere_trRaw)

theorem State.elsewhere_trTime {c : Bool} : s.Elsewhere (s.trTime i c) := by
  unfold trTime
  exact .ite (.ite (.trans (t := s.trRaw i _) elsewhere_trRaw elsewhere_setTrSrc) elsewhere_trSync) (.refl s)

theorem State.elsewhere_trDue : s.Elsewhere (s.trDue i) := by
  unfold trDue
  exact .ite (elsewhere_trBr.trans elsewhere_trSync) (.refl s)

theorem State.elsewhere_trOpen : s.Elsewhere (s.trOpen i) := by
  unfold trOpen
  exact .ite (.refl s) (elsewhere_setTrSrc.trans elsewhere_trSync)

theorem State.elsewhere_trWake : s.Elsewhere (s.trWake i) := by
  unfold trWake
  exact .ite ((elsewhere_setTrSrc.trans elsewhere_trRaw).trans elsewhere_trSync) (.refl s)

theorem State.elsewhere_trSleep : s.Elsewhere (s.trSleep i) := by
  unfold trSleep
  exact .ite (.trans (t := (s.trBr i).trRaw i _) (elsewhere_trBr.trans elsewhere_trRaw) elsewhere_setTrSrc) (.refl s)

theorem State.elsewhere_trEmit : s.Elsewhere (s.trEmit i d) := by
  unfold trEmit
  extract_lets s1 s2
  have h1 : s.Elsewhere s1 := ((elsewhere_trOpen.trans elsewhere_trWake).trans elsewhere_trBr).trans elsewhere_trTime
  have h2 : s1.Elsewhere s2 := elsewhere_trRaw
  exact .ite ((h1.trans h2).trans (.ite (.refl s2) elsewhere_trDue)) (.refl s)

theorem State.elsewhere_trContext {c : Bool} : s.Elsewhere (s.trContext i c) := by
  unfold trContext
  extract_lets s1 y
  have h1 : s.Elsewhere s1 := elsewhere_trWake
  refine .ite (h1.trans (.ite elsewhere_trDue ?_)) (.ite elsewhere_setTrSrc (.refl s))
  exact (elsewhere_setTrSrc.trans elsewhere_trBr).trans elsewhere_trSync

/-! ### What a command shows -/

theorem State.elsewhere_devTrace : s.Elsewhere (s.devTrace x) := by
  unfold devTrace
  extract_lets s1 s2 out s3 s4 s5
  have h1 : s.Elsewhere s1 := .foldl (fun t _ => .ite elsewhere_trEmit (.refl t)) _ _
  have h2 : s1.Elsewhere s2 := .foldl (fun t _ => .ite elsewhere_trEmit (.refl t)) _ _
  have h3 : s2.Elsewhere s3 := .ite elsewhere_trEmit (.refl s2)
  have h4 : s3.Elsewhere s4 := by
    refine .foldl (fun t _ => ?_) _ _
    exact .ite elsewhere_trEmit (.ite elsewhere_trEmit (.refl t))
  have h5 : s4.Elsewhere s5 := by
    refine .foldl (fun t _ => ?_) _ _
    exact .ite elsewhere_trEmit (.refl t)
  refine ((((h1.trans h2).trans h3).trans h4).trans h5).trans (.foldl (fun t _ => ?_) _ _)
  exact .ite elsewhere_trEmit (.refl t)

theorem State.elsewhere_engTrace : s.Elsewhere (s.engTrace x) := by
  refine .foldl (fun t j => ?_) _ _
  dsimp only
  have hput {c : Bool} {pk : List Byte} : t.Elsewhere
      (if ((t.trContext (0x100 + j / 16) c).trSrc (0x100 + j / 16)).ctx then (t.trContext (0x100 + j / 16) c).trEmit (0x100 + j / 16) pk
       else t.trContext (0x100 + j / 16) c) :=
    elsewhere_trContext.trans (.ite elsewhere_trEmit (.refl _))
  exact .ite (.refl t) (.ite hput (.ite hput (.ite hput (.refl t))))

theorem State.elsewhere_sleepTrace : s.Elsewhere s.sleepTrace :=
  .foldl (fun t _ => .ite elsewhere_trSleep (.ite elsewhere_trWake (.refl t))) _ _

theorem State.elsewhere_faultTrace : s.Elsewhere (s.faultTrace x) := by
  unfold faultTrace
  extract_lets m cores s1 s2
  have h1 : s.Elsewhere s1 := .foldl (fun _ _ => elsewhere_frFault) _ _
  have h2 : s1.Elsewhere s2 := .foldl (fun t _ => .ite elsewhere_frFault (.refl t)) _ _
  exact (h1.trans h2).trans (.ite elsewhere_frTrig (.refl s2))

theorem State.elsewhere_traced : s.Elsewhere (s.traced x) := by
  unfold traced
  extract_lets s1
  have h1 : s.Elsewhere s1 := .ite (.refl s) elsewhere_faultTrace
  exact h1.trans (.ite ((elsewhere_devTrace.trans elsewhere_engTrace).trans elsewhere_sleepTrace) (.refl s1))

/-- What a command whose meaning is `x` does to threads, engines, the packet path and PCIe stands in its answer, whatever it adds to the
trace. -/
theorem State.does_of_done {c : Instr} {P : State → Prop} (h : exec c s = x.done s)
    (hP : ∀ y, y.sedge = x.sedge → y.eth = x.eth → y.pcie = x.pcie → (∀ b d, keptReg b → mapGet d y.regs b = mapGet d x.regs b) → P y) :
    s.Does c P := by
  have k : x.Elsewhere (x.traced s) := elsewhere_traced
  exact ⟨_, h, hP _ k.sedge k.eth k.pcie k.regs⟩

end Sys2Proof.Machine

/-! Fields of ENG_STATUS, the commands of ENG_CTL (R105), and the ends of HALTING and RETURNING. -/

namespace Sys2Proof.Machine

set_option Elab.async false

variable {s u x : State} {r : Req} {g : Reg} {e f a t c i v n : Nat} {w : Word} {k l : Fld}

/-! ### Fields (R4) -/

/-- Writing a field leaves the fields that share no bit with it. -/
theorem fld_setFld_apart (w : Word) (v : Nat) (h : k.hi < l.lo ∨ l.hi < k.lo) (hl : l.hi < 32) : (w.setFld k v).fld l = w.fld l := by
  refine Nat.eq_of_testBit_eq fun i => ?_
  simp only [Word.fld, natBits, Nat.testBit_mod_two_pow, Nat.testBit_shiftRight]
  by_cases hi : i < l.hi + 1 - l.lo
  · have hb : (w.setFld k v).toNat.testBit (l.lo + i) = w.toNat.testBit (l.lo + i) := by
      refine (getLsbD_setFld w k v (i := l.lo + i) (by omega)).trans (if_neg ?_)
      omega
    simp only [hb]
  · simp only [hi, decide_false, Bool.false_and]

/-- A field of ENG_STATUS of engine `e` is set (R105, R106). -/
def State.setStatus (s : State) (e : Nat) (k : Fld) (v : Nat) : State := s.wf (.engine e) R.ENG_STATUS k v

theorem State.rf_setStatus_self (h : k.hi < 32) : (s.setStatus e k v).rf (.engine e) R.ENG_STATUS k = v % 2 ^ k.width := rf_wf _ _ _ _ _ _ h

/-- The other fields stay, and every field of other engines. -/
theorem State.rf_setStatus (h : f ≠ e ∨ k.hi < l.lo ∨ l.hi < k.lo) (hl : l.hi < 32) :
    (s.setStatus e k v).rf (.engine f) R.ENG_STATUS l = s.rf (.engine f) R.ENG_STATUS l := by
  obtain rfl | hf := eq_or_ne f e
  · rw [rf, setStatus, wf, rd_wr_self, fld_setFld_apart _ _ (h.resolve_left (· rfl)) hl]
    rfl
  · rw [rf, setStatus, wf, rd_wr_ne _ _ _ _ _ _ _ _ _ _ (engine_regAddr_ne (by decide) (by decide) (.inl hf))]
    rfl

theorem State.untraced_setStatus : s.Untraced (s.setStatus e k v) where
  regs _ _ ha := mapGet_mapSet_ne _ _ _ _ (fun h => not_traceReg_engine (by decide) (h ▸ ha))

/-- Other registers stay. -/
theorem State.rd_setStatus (hg : g.off < 0x8000) (h : g.off ≠ 0x104) : (s.setStatus e k v).rd (.engine f) g = s.rd (.engine f) g :=
  rd_wr_ne _ _ _ _ _ _ _ _ _ _ (engine_regAddr_ne hg (by decide) (.inr h))

theorem State.setEngState_eq : s.setEngState e v = s.setStatus e F.ENG_STATUS_STATE v := rfl

theorem State.engState_setEngState (h : v < 8) : (s.setEngState e v).engState e = v :=
  (rf_setStatus_self (by decide)).trans (Nat.mod_eq_of_lt h)

theorem State.engState_setStatus (h : f ≠ e ∨ 3 ≤ k.lo) : (s.setStatus e k v).engState f = s.engState f :=
  rf_setStatus (h.imp_right fun h => .inr h) (by decide)

theorem State.adopted_setStatus (h : f ≠ e ∨ k.hi < 4 ∨ 4 < k.lo) : (s.setStatus e k v).adopted f = s.adopted f := by
  rw [adopted, rb, rf_setStatus h (by decide)]
  rfl

theorem State.adopting_setStatus (h : f ≠ e ∨ k.hi < 7 ∨ 7 < k.lo) : (s.setStatus e k v).adopting f = s.adopting f := by
  rw [adopting, rb, rf_setStatus h (by decide)]
  rfl

theorem State.holder_setStatus (h : f ≠ e ∨ k.hi < 4 ∨ 6 < k.lo) : (s.setStatus e k v).holder f = s.holder f := by
  rw [holder, adopted_setStatus (by omega), rf_setStatus (l := F.ENG_STATUS_ADOPTER) (by simp only [F.ENG_STATUS_ADOPTER]; omega) (by decide)]
  rfl

theorem State.thEng_setStatus (h : thOwner t ≠ e ∨ k.hi < 4 ∨ 6 < k.lo) : (s.setStatus e k v).thEng t = s.thEng t := holder_setStatus h

/-! ### Writes of an engine's registers -/

/-- A granted write of an engine's register leaves what the register makes of it. -/
theorem State.Calm.sets_engine {i : Instr} {P : State → Prop} (hc : s.Calm) (he : exec i s = (s.wrTo r (.engine e) g w).done s)
    (hw : regWritable g ≠ 0) (hg : 0x100 ≤ g.off) (hr : s.wrRefuse r (.engine e) g 0 (s.rd (.engine e) g) w none = none)
    (hd : s.wrDiscard (.engine e) g 0 w = false)
    (hx : (s.fieldsWritten r (.engine e) g 0 0 w).wrPost r (.engine e) g 0 (s.rd (.engine e) g) w = x) (hu : s.Untraced x)
    (hP : P (x.answer (.ok 0))) : s.Sets r (.engine e) g 0 i P := fun hgr =>
  hc.does (by rw [he, State.wrTo_ok hgr (State.regWrite_ok hw hg hr hd (by simp) (by simp) (by simp)), hx]) (hu.trans {}) ⟨rfl, hP⟩

/-- What a granted write of ENG_CTL does when the engine's state allows its command. -/
theorem State.Calm.sets_engCtl {i : Instr} {P : State → Prop} (hc : s.Calm)
    (he : exec i s = (s.engWrite r e c).done s) (hk : c < 8) (hok : s.engCmdOk e c = true)
    (h : ∀ U, State.Untraced { s with units := U } (({ s with units := U } : State).engCommand e c) ∧
      P ((({ s with units := U } : State).engCommand e c).answer (.ok 0))) : s.Sets r (.engine e) R.ENG_CTL 0 i P := by
  have hcmd : ((0 : Word).setFld F.ENG_CTL_CMD c).fld F.ENG_CTL_CMD = c := (fld_setFld _ _ _ (by decide)).trans (Nat.mod_eq_of_lt hk)
  obtain ⟨U, hU⟩ := s.fieldsWritten_writeOnly (r := r) (u := .engine e) (g := R.ENG_CTL) (i := 0) (j := 0)
    (v := (0 : Word).setFld F.ENG_CTL_CMD c) rfl rfl rfl
  unfold engWrite at he
  generalize (0 : Word).setFld F.ENG_CTL_CMD c = w at he hcmd hU
  refine hc.sets_engine he (by decide) (by decide) rfl ?_ ?_ (.trans (t := { s with units := U }) {} (h U).1) (h U).2
  · simp [wrDiscard, hcmd, hok]
  · rw [hU]
    simp [wrPost, hcmd]

/-- A command that the engine's state does not allow is discarded. -/
theorem State.Calm.sets_engCtl_discarded {i : Instr} (hc : s.Calm) (he : exec i s = (s.engWrite r e c).done s) (hk : c < 8)
    (hok : s.engCmdOk e c = false) : s.Sets r (.engine e) R.ENG_CTL 0 i (fun y => y = { s with resp := .ok 0 }) := fun hgr => by
  have hcmd : ((0 : Word).setFld F.ENG_CTL_CMD c).fld F.ENG_CTL_CMD = c := (fld_setFld _ _ _ (by decide)).trans (Nat.mod_eq_of_lt hk)
  unfold engWrite at he
  generalize (0 : Word).setFld F.ENG_CTL_CMD c = w at he hcmd
  have hw : s.regWrite r (.engine e) R.ENG_CTL 0 0 w none = (none, s) := by
    simp [regWrite, wrRefuse, wrDiscard, hcmd, hok, show regWritable R.ENG_CTL ≠ 0 by decide, show ¬ R.ENG_CTL.off < 0x100 by decide,
      show R.ENG_CTL ≠ R.CS_IMAGE by decide]
  exact hc.does (x := s.answer (.ok 0)) (by rw [he, State.wrTo_ok hgr hw]) {} ⟨rfl, rfl⟩

/-! ### What commands do (R105) -/

theorem State.engCommand_run (hl : (s.eng e).lost = false) : s.engCommand e 1 = s.setEngState e 1 :=
  if_neg (by rw [hl]; exact Bool.false_ne_true)

theorem State.engCommand_stop : s.engCommand e 2 = (s.setEng e { s.eng e with since := s.mono }).setEngState e 2 := rfl

theorem State.engCommand_readmit (hl : (s.eng e).lost = false) :
    s.engCommand e 4 = (s.setEng e { s.eng e with since := s.mono }).setEngState e 5 :=
  if_neg (by rw [hl]; exact Bool.false_ne_true)

/-- A test run begins in thread 0 alone. -/
theorem State.engCommand_test_spec (s : State) (e : Nat) : s.Untraced (s.engCommand e 3) ∧ (s.engCommand e 3).engState e = 4 ∧
    (s.engCommand e 3).thread (16 * e) = s.reaches (16 * e) { st := 1, nextOp := (s.thread (16 * e)).nextOp }
      (s.rf (.engine e) R.ENTRY F.ENTRY_ADDR 15) := by
  obtain ⟨ho, ht⟩ := (s.setEngState e 4).setThread_reachPc_spec (16 * e) { st := 1, nextOp := (s.thread (16 * e)).nextOp }
    ((s.setEngState e 4).rf (.engine e) R.ENTRY F.ENTRY_ADDR 15)
  have hstate : (s.engCommand e 3).engState e = (s.setEngState e 4).engState e := by
    rw [engState, rf, rd, show (s.engCommand e 3).regs = _ from ho.regs]
    rfl
  have hentry : (s.setEngState e 4).rf (.engine e) R.ENTRY F.ENTRY_ADDR 15 = s.rf (.engine e) R.ENTRY F.ENTRY_ADDR 15 := by
    rw [rf, rf]
    refine congrArg (fun w => Word.fld w F.ENTRY_ADDR) (rd_wr_ne _ _ _ _ _ _ _ _ _ _ ?_)
    simp only [regAddr, R.ENTRY, R.ENG_STATUS]
    omega
  have hth : (s.setEngState e 4).thEng (16 * e) = s.thEng (16 * e) := thEng_setStatus (.inr (.inl (by decide)))
  refine ⟨untraced_setStatus.trans ho.untraced, hstate.trans (engState_setEngState (by decide)), ht.trans ?_⟩
  rw [hentry, reaches, reaches, hth]
  rfl

/-! ### The ends of HALTING and RETURNING -/

/-- When an engine's work comes back it runs, and neither side shows the adoption. -/
theorem State.returned_spec (s : State) (e : Nat) : s.Untraced (s.returned e) ∧ (s.returned e).engState e = 1 ∧
    (s.returned e).adopted e = false ∧ (s.holder e ≠ e → (s.returned e).adopting (s.holder e) = false) := by
  unfold returned
  extract_lets a q mine s1 s2
  have h1 : s.Untraced s1 := {}
  have h2 : s1.Untraced s2 := by
    unfold s2
    split
    · exact {}
    · exact untraced_setStatus
  refine ⟨((h1.trans h2).trans untraced_setStatus).trans untraced_setStatus, engState_setEngState (by decide), ?_, fun ha => ?_⟩
  · rw [setEngState_eq, adopted_setStatus (.inr (.inl (by decide)))]
    exact congrArg (· != 0) (rf_setStatus_self (s := s2) (by decide))
  · rw [setEngState_eq, adopting_setStatus (.inl ha)]
    refine (adopting_setStatus (.inl ha)).trans ?_
    have hs2 : s2 = s1.setStatus a F.ENG_STATUS_ADOPTING 0 := if_neg ha
    rw [hs2]
    exact congrArg (· != 0) (rf_setStatus_self (by decide))

/-- At the time limit of RETURNING the work comes back, once its threads have ended. -/
theorem State.returnTimeout_free (hst : s.engState e = 5) (hd : (s.eng e).since + 100000 ≤ s.mono)
    (hf : ∀ k, k < 16 → (s.thread (16 * e + k)).st = 0) : s.returnTimeout e = s.returned e := by
  refine (if_pos ⟨hst, hd⟩).trans (congrArg (State.returned · e) ?_)
  have hl : ∀ l : List Nat, (∀ k ∈ l, k < 16) →
      l.foldl (fun s t => if (State.thread s (16 * e + t)).st = 0 then s else State.threadKill s (16 * e + t)) s = s := by
    intro l hl
    induction l with
    | nil => rfl
    | cons k l ih =>
      rw [List.foldl_cons, if_pos (hf k (hl k (by simp)))]
      exact ih fun j hj => hl j (by simp [hj])
  exact hl _ fun k hk => List.mem_range.1 hk

theorem State.haltDone_free (hst : s.engState e = 2) (h : ∀ t ∈ s.engThreads e, (s.thread t).st = 0) : s.haltDone e = s.setEngState e 0 :=
  if_pos ⟨hst, List.all_eq_true.2 fun t ht => beq_iff_eq.2 (h t ht)⟩

theorem State.haltDone_busy (h : ∃ t ∈ s.engThreads e, (s.thread t).st ≠ 0) : s.haltDone e = s := by
  obtain ⟨t, ht, h0⟩ := h
  exact if_neg fun k => h0 (beq_iff_eq.1 (List.all_eq_true.1 k.2 t ht))

/-- After 100 µs HALTING ends, whatever the threads that remain let go of. -/
theorem State.haltTimeout_does (i : Instr) (he : exec i s = (s.haltTimeout e).done s) (hst : s.engState e = 2)
    (hd : (s.eng e).since + 100000 ≤ s.mono) : s.Does i (fun y => y.engState e = 0) := by
  have hx : s.haltTimeout e = ((s.engThreads e).foldl (fun s t => if (State.thread s t).st = 0 then s else State.threadKill s t) s).setEngState e 0 :=
    if_pos ⟨hst, hd⟩
  rw [hx] at he
  refine does_of_done he fun y _ _ _ hr => ?_
  rw [engState, rf, rd, hr _ _ (keptReg_engine (by decide))]
  exact engState_setEngState (by decide)

end Sys2Proof.Machine

/-! A parity mismatch makes an engine FAILED, and a sibling takes its work over (R106, R107). -/

namespace Sys2Proof.Machine

set_option Elab.async false

variable {s z : State} {e f a t n : Nat} {u v : UnitId}

/-! ### What answers (R24) -/

theorem State.unit_setUnit_base {x : UnitRt} (h : v.base = u.base) : (s.setUnit u x).unit v = x := by
  rw [State.unit, h]
  exact mapGet_mapSet_self ..

/-- A unit's FAULT_SUM has no part in whether units answer. -/
theorem State.answers_setFsum : (s.setUnit u { s.unit u with fsum := n }).answers v = s.answers v := by
  have hunit (w : UnitId) : ∃ k, (s.setUnit u { s.unit u with fsum := n }).unit w = { s.unit w with fsum := k } := by
    by_cases hw : w.base = u.base
    · refine ⟨n, ?_⟩
      have hs : s.unit w = s.unit u := by rw [State.unit, State.unit, hw]
      rw [unit_setUnit_base hw, hs]
    · exact ⟨_, unit_setUnit_ne _ _ _ _ hw⟩
  have hreset : (s.setUnit u { s.unit u with fsum := n }).inReset v = s.inReset v := by
    refine congrArg _ (funext fun w => ?_)
    obtain ⟨k, hk⟩ := hunit w
    rw [hk]
    rfl
  have hoff : (s.setUnit u { s.unit u with fsum := n }).isOff v = s.isOff v := by
    refine congrArg _ (funext fun w => ?_)
    obtain ⟨k, hk⟩ := hunit w
    rw [hk]
  rw [answers, answers, hreset, hoff]
  rfl

/-! ### The record of the mismatch -/

theorem State.renewals_record {k c d1 d2 : Nat} {id : Option Nat} : (s.record u k c a d1 d2 id).fault.renewals = s.fault.renewals := by
  unfold record
  dsimp only
  split
  · rfl
  · rfl

/-- What MC_LOG then holds of the thread and of the word at its pc. -/
def State.parityLog (s : State) (e t : Nat) : Nat := 2 ^ 31 + t % 16 * 2 ^ 22 + s.csBad e (s.thread t).pc * 2 ^ 14 + (s.thread t).pc

/-- From `s` to `z` engine `e` has recorded that `w` is in MC_LOG, and no more that its failure depends on has changed. -/
structure State.Logged (s z : State) (e : Nat) (w : Word) : Prop where
  rest : z = { s with fault := z.fault, regs := z.regs, units := z.units }
  renewals : z.fault.renewals = s.fault.renewals
  log : z.rd (.engine e) R.MC_LOG = w
  regs : ∀ b d, b ≠ regAddr (.engine e) R.MC_LOG 0 0 → b ≠ regAddr .device R.MCLOG_OVF 0 0 → mapGet d z.regs b = mapGet d s.regs b
  answers : ∀ v, z.answers v = s.answers v

theorem engine_ne_mclogOvf {g : Reg} (h : g.off < 0x8000) : regAddr (.engine e) g 0 0 ≠ regAddr .device R.MCLOG_OVF 0 0 := by
  simp only [regAddr, UnitId.base, R.MCLOG_OVF]
  omega

theorem State.Logged.rd {w : Word} {g : Reg} (h : s.Logged z e w) (hg : g.off < 0x8000) (hn : g.off ≠ 0x10C) :
    z.rd (.engine f) g = s.rd (.engine f) g :=
  h.regs _ _ (engine_regAddr_ne hg (by decide) (.inr hn)) (engine_ne_mclogOvf hg)

theorem State.Logged.untraced {w : Word} (h : s.Logged z e w) : s.Untraced z := by
  obtain ⟨hz, -, -, hr, -⟩ := h
  have hregs : ∀ b d, traceReg b → mapGet d z.regs b = mapGet d s.regs b := fun b d hb =>
    hr b d (fun k => not_traceReg_engine (by decide) (k ▸ hb)) (fun k => not_traceReg_mclogOvf (k ▸ hb))
  rw [hz]
  exact { regs := hregs }

theorem State.Mute.congr (h : s.Mute) (hd : z.rd .device R.FAULT_EVT_D = s.rd .device R.FAULT_EVT_D)
    (hq : ∀ q, z.rd (.quad q) R.FAULT_EVT_Q = s.rd (.quad q) R.FAULT_EVT_Q) : z.Mute :=
  ⟨hd.symm ▸ h.1, fun q k => (hq q).symm ▸ h.2 q k⟩

theorem State.Mute.wr_engine {g : Reg} {w : Word} (h : s.Mute) (hg : g.off < 0x8000) : (s.wr (.engine e) g w).Mute := by
  refine h.congr (rd_wr_ne _ _ _ _ _ _ _ _ _ _ ?_) fun q => rd_wr_ne _ _ _ _ _ _ _ _ _ _ ?_
  · simp only [regAddr, UnitId.base, R.FAULT_EVT_D]
    omega
  · simp only [regAddr, UnitId.base, R.FAULT_EVT_Q]
    omega

theorem State.Mute.record {k c d1 d2 : Nat} {id : Option Nat} (h : s.Mute) : (s.record u k c a d1 d2 id).Mute := by
  obtain ⟨F, M, hR, hM⟩ := s.record_eq u k c a d1 d2 id
  rw [hR]
  refine h.congr (hM _ _ (by decide)) fun q => hM _ _ ?_
  simp only [regAddr, UnitId.base, R.FAULT_EVT_Q, R.MCLOG_OVF]
  omega

theorem State.logged_parity {w : Word} {k c d1 d2 : Nat} {id : Option Nat} (hm : s.Mute) (he : e < 64) :
    s.Logged (((s.wr (.engine e) R.MC_LOG w).record (.engine e) k c a d1 d2 id).setFault (.engine e) fsUnitFatal) e w := by
  have hv : (UnitId.engine e).valid = true := decide_eq_true he
  rw [(Mute.record (hm.wr_engine (by decide))).setFault hv]
  have hren : ((s.wr (.engine e) R.MC_LOG w).record (.engine e) k c a d1 d2 id).fault.renewals = s.fault.renewals := renewals_record
  have hans (v : UnitId) := answers_setFsum (s := (s.wr (.engine e) R.MC_LOG w).record (.engine e) k c a d1 d2 id) (u := .engine e)
    (n := (((s.wr (.engine e) R.MC_LOG w).record (.engine e) k c a d1 d2 id).unit (.engine e)).fsum ||| fsUnitFatal) (v := v)
  obtain ⟨F, M, hR, hM⟩ := (s.wr (.engine e) R.MC_LOG w).record_eq (.engine e) k c a d1 d2 id
  rw [hR] at hren hans ⊢
  refine ⟨rfl, hren, ?_, fun b d h1 h2 => (hM b d h2).trans (mapGet_mapSet_ne _ _ _ _ h1), hans⟩
  exact (hM _ _ (engine_ne_mclogOvf (by decide))).trans (rd_wr_self ..)

/-! ### The adopter (R106) -/

/-- The siblings R106 tries, in order. -/
theorem adopter_candidate (h : a ∈ [1, 2, 3].map (fun k => e / 4 * 4 + (e % 4 ^^^ k))) : a / 4 = e / 4 ∧ a ≠ e := by
  obtain ⟨k, hk, rfl⟩ := List.mem_map.1 h
  have hx : ∀ r < 4, ∀ k ∈ [1, 2, 3], r ^^^ k < 4 ∧ r ^^^ k ≠ r := by decide
  obtain ⟨hlt, hne⟩ := hx (e % 4) (Nat.mod_lt _ (by decide)) k hk
  omega

theorem State.adopterFor_spec (h : s.adopterFor e = some a) : a / 4 = e / 4 ∧ a ≠ e := adopter_candidate (List.mem_of_find?_eq_some h)

/-- The choice follows from what the siblings show, and from the images. -/
theorem State.adopterFor_congr (h : ∀ b, b ≠ e → z.engState b = s.engState b ∧ z.adopting b = s.adopting b ∧ z.answers (.engine b) = s.answers (.engine b))
    (hi : ∀ b, z.rd (.engine b) R.CS_IMAGE = s.rd (.engine b) R.CS_IMAGE) : z.adopterFor e = s.adopterFor e := by
  refine List.find?_congr fun b hb => ?_
  obtain ⟨hst, had, han⟩ := h b (adopter_candidate hb).2
  rw [hst, had, han, hi, hi]

/-! ### Failure and takeover -/

/-- Engine `e` is FAILED, its identity is lost and renewed, and the broadcast is asked for. -/
def State.failed (s : State) (e : Nat) : State :=
  let n := mapGet 0 s.fault.renewals (0x100 + e) + 1
  let x := (s.setEngState e engFailed).setEng e { s.eng e with lost := true, waitCmd := none }
  { x with fault := { x.fault with renewals := mapSet 0 x.fault.renewals (0x100 + e) n },
           sward := { x.sward with bcasts := x.sward.bcasts ++ [⟨e / 16, 0x100 + e, n % 16⟩] } }

/-- Engine `a` holds the queue of `e`, and both show the adoption. -/
def State.handedOver (s : State) (e a : Nat) : State :=
  ((((((s.setDispq a (s.dispq a ++ s.dispq e)).setDispq e []).setStatus e F.ENG_STATUS_ADOPTED 1).setStatus e F.ENG_STATUS_ADOPTER (a % 4)).setStatus a
    F.ENG_STATUS_ADOPTING 1).setStatus a F.ENG_STATUS_ADOPTEE (e % 4))

theorem State.regs_failed : (s.failed e).regs = (s.setStatus e F.ENG_STATUS_STATE 3).regs := rfl
theorem State.mode_failed : (s.failed e).mode = s.mode := rfl
theorem State.threads_failed : (s.failed e).sedge.threads = s.sedge.threads := rfl
theorem State.eth_failed : (s.failed e).eth = s.eth := rfl
theorem State.shadowValid_failed : (s.failed e).sward.shadowValid = s.sward.shadowValid := rfl
theorem State.shadowPlan_failed : (s.failed e).sward.shadowPlan = s.sward.shadowPlan := rfl
theorem State.bcasts_failed : (s.failed e).sward.bcasts =
    s.sward.bcasts ++ [⟨e / 16, 0x100 + e, (mapGet 0 s.fault.renewals (0x100 + e) + 1) % 16⟩] := rfl

/-- An engine's registers are those that the change of its state leaves. -/
theorem State.rd_failed_eq {g : Reg} {i j : Nat} : (s.failed e).rd u g i j = (s.setStatus e F.ENG_STATUS_STATE 3).rd u g i j := by
  rw [rd, rd, regs_failed]

theorem State.rd_failed {g : Reg} (hg : g.off < 0x8000) (h : g.off ≠ 0x104) : (s.failed e).rd (.engine f) g = s.rd (.engine f) g :=
  rd_failed_eq.trans (rd_setStatus hg h)

theorem State.rf_failed {g : Reg} {l : Fld} : (s.failed e).rf u g l = (s.setStatus e F.ENG_STATUS_STATE 3).rf u g l := by
  rw [rf, rf, rd_failed_eq]

theorem State.engState_failed : (s.failed e).engState e = 3 := rf_failed.trans (engState_setEngState (by decide))

theorem State.status_failed (h : f ≠ e) : (s.failed e).rd (.engine f) R.ENG_STATUS = s.rd (.engine f) R.ENG_STATUS :=
  rd_failed_eq.trans (rd_wr_ne _ _ _ _ _ _ _ _ _ _ (engine_regAddr_ne (by decide) (by decide) (.inl h)))

theorem State.adopterFor_failed : (s.failed e).adopterFor e = s.adopterFor e := by
  refine adopterFor_congr (fun b hb => ⟨?_, ?_, rfl⟩) fun b => ?_
  · rw [engState, engState, rf, rf, status_failed hb]
  · rw [adopting, adopting, rb, rb, rf, rf, status_failed hb]
  · exact rd_failed (by decide) (by decide)

theorem State.adoptee_failed : (s.failed e).adoptee e = s.adoptee e := by
  have had : (s.failed e).adopting e = s.adopting e :=
    (congrArg (· != 0) rf_failed).trans (adopting_setStatus (.inr (.inl (by decide))))
  rw [adoptee, adoptee, had, rf_failed, rf_setStatus (.inr (.inl (by decide))) (by decide)]

/-- A failed engine whose identity can be renewed hands its work to the sibling R106 chooses. -/
theorem State.engTakeover_adopted (hn : mapGet 0 s.fault.renewals (0x100 + e) < 15) (h0 : s.adoptee e = none) (ha : s.adopterFor e = some a) :
    s.engTakeover e = ((s.failed e).handedOver e a).rcvTrigger 2 := by
  have hren : ((s.setEngState e engFailed).setEng e { (s.setEngState e engFailed).eng e with lost := true, waitCmd := none }).renew
      (.engine e) (e / 16) (0x100 + e) = (true, s.failed e) :=
    if_neg (Nat.not_le.2 (Nat.succ_lt_succ hn))
  unfold engTakeover
  simp only [hren, adoptee_failed, adopterFor_failed, h0, ha]
  rfl

theorem State.untraced_failed : s.Untraced (s.failed e) := .trans (t := s.setStatus e F.ENG_STATUS_STATE 3) untraced_setStatus {}

theorem State.lost_failed : ((s.failed e).eng e).lost = true := by
  rw [eng, failed]
  exact congrArg Eng.lost (mapGet_mapSet_self ({} : Eng) _ _ _)

@[simp] theorem State.mode_setStatus {k : Fld} {v : Nat} : (s.setStatus e k v).mode = s.mode := rfl
@[simp] theorem State.sward_setStatus {k : Fld} {v : Nat} : (s.setStatus e k v).sward = s.sward := rfl
@[simp] theorem State.sedge_setStatus {k : Fld} {v : Nat} : (s.setStatus e k v).sedge = s.sedge := rfl
@[simp] theorem State.mode_setDispq {l : List DispEnt} : (s.setDispq e l).mode = s.mode := rfl
@[simp] theorem State.sward_setDispq {l : List DispEnt} : (s.setDispq e l).sward = s.sward := rfl
@[simp] theorem State.sedge_setDispq {l : List DispEnt} : (s.setDispq e l).sedge = s.sedge := rfl
@[simp] theorem State.rd_setDispq {l : List DispEnt} {g : Reg} {i j : Nat} : (s.setDispq e l).rd u g i j = s.rd u g i j := rfl

theorem State.mode_handedOver : (s.handedOver e a).mode = s.mode := by simp [handedOver]
theorem State.sward_handedOver : (s.handedOver e a).sward = s.sward := by simp [handedOver]
theorem State.sedge_handedOver : (s.handedOver e a).sedge = s.sedge := by simp [handedOver]

theorem State.rd_handedOver {g : Reg} (hg : g.off < 0x8000) (h : g.off ≠ 0x104) : (s.handedOver e a).rd (.engine f) g = s.rd (.engine f) g := by
  simp [handedOver, rd_setStatus hg h]

theorem State.dispq_setDispq_self {l : List DispEnt} : (s.setDispq e l).dispq e = l := mapGet_mapSet_self ..

theorem State.dispq_setDispq_ne {l : List DispEnt} (h : f ≠ e) : (s.setDispq e l).dispq f = s.dispq f := mapGet_mapSet_ne _ _ _ _ h

theorem State.dispq_setStatus {k : Fld} {v : Nat} : (s.setStatus e k v).dispq f = s.dispq f := rfl

/-- What the hand-over leaves. -/
theorem State.handedOver_spec (h4 : a / 4 = e / 4) (hne : a ≠ e) :
    let y := s.handedOver e a
    s.Untraced y ∧ y.adopted e = true ∧ y.holder e = a ∧ y.adoptee a = some e ∧ y.dispq a = s.dispq a ++ s.dispq e ∧ y.dispq e = [] ∧
      y.engState e = s.engState e := by
  intro y
  let q : State := (s.setDispq a (s.dispq a ++ s.dispq e)).setDispq e []
  let q1 := q.setStatus e F.ENG_STATUS_ADOPTED 1
  let q2 := q1.setStatus e F.ENG_STATUS_ADOPTER (a % 4)
  let q3 := q2.setStatus a F.ENG_STATUS_ADOPTING 1
  have hy : y = q3.setStatus a F.ENG_STATUS_ADOPTEE (e % 4) := rfl
  have had2 : q2.adopted e = true := by
    refine (adopted_setStatus (.inr (.inr (by decide)))).trans ?_
    exact congrArg (· != 0) (rf_setStatus_self (s := q) (k := F.ENG_STATUS_ADOPTED) (v := 1) (by decide))
  have had : y.adopted e = true := by
    rw [hy, adopted_setStatus (.inl hne.symm), adopted_setStatus (.inl hne.symm), had2]
  have hholder : y.rf (.engine e) R.ENG_STATUS F.ENG_STATUS_ADOPTER = a % 4 := by
    rw [hy, rf_setStatus (.inl hne.symm) (by decide), rf_setStatus (.inl hne.symm) (by decide)]
    exact (rf_setStatus_self (by decide)).trans (Nat.mod_mod ..)
  have hing : y.adopting a = true := by
    rw [hy, adopting_setStatus (.inr (.inr (by decide)))]
    exact congrArg (· != 0) (rf_setStatus_self (s := q2) (k := F.ENG_STATUS_ADOPTING) (v := 1) (by decide))
  have hee : y.rf (.engine a) R.ENG_STATUS F.ENG_STATUS_ADOPTEE = e % 4 := (rf_setStatus_self (by decide)).trans (Nat.mod_mod ..)
  have hq : s.Untraced q := {}
  refine ⟨(((hq.trans untraced_setStatus).trans untraced_setStatus).trans untraced_setStatus).trans untraced_setStatus, had, ?_, ?_, ?_, ?_, ?_⟩
  · rw [holder, had, hholder, if_pos rfl]
    omega
  · rw [adoptee, hing, hee, if_pos rfl]
    exact congrArg some (by omega)
  · rw [hy, dispq_setStatus, dispq_setStatus, dispq_setStatus, dispq_setStatus, dispq_setDispq_ne hne, dispq_setDispq_self]
  · rw [hy, dispq_setStatus, dispq_setStatus, dispq_setStatus, dispq_setStatus, dispq_setDispq_self]
  · rw [hy, engState_setStatus (.inl hne.symm), engState_setStatus (.inl hne.symm), engState_setStatus (.inr (by decide)),
      engState_setStatus (.inr (by decide))]
    rfl

/-- R106: a parity mismatch of the word that a thread would issue is recorded, and the engine's work taken over. -/
theorem State.csParity_adopted (hi : s.engIssues e = true) (ht : s.nextThread e = some t) (hb : s.csBad e (s.thread t).pc ≠ 0)
    (h0 : s.adoptee e = none) (ha : s.adopterFor e = some a) (hn : mapGet 0 s.fault.renewals (0x100 + e) < 15) (hm : s.Mute) (he : e < 64) :
    ∃ z, s.Logged z e (BitVec.ofNat 32 (s.parityLog e t)) ∧ s.csParity e = ((z.failed e).handedOver e a).rcvTrigger 2 := by
  have hsame (z : State) (w : Word) (hz : s.Logged z e w) : z.engTakeover e = ((z.failed e).handedOver e a).rcvTrigger 2 := by
    have hst (f : Nat) : z.rd (.engine f) R.ENG_STATUS = s.rd (.engine f) R.ENG_STATUS := hz.rd (by decide) (by decide)
    have hing (f : Nat) : z.adopting f = s.adopting f := by rw [adopting, adopting, rb, rb, rf, rf, hst]
    refine engTakeover_adopted (hz.renewals ▸ hn) ?_ ((adopterFor_congr (fun b _ => ⟨?_, hing b, hz.answers _⟩) fun b => ?_).trans ha)
    · rw [adoptee, hing, rf, hst]
      exact h0
    · rw [engState, engState, rf, rf, hst]
    · exact hz.rd (by decide) (by decide)
  unfold csParity
  rw [if_pos hi, ht]
  dsimp only
  rw [if_neg hb]
  exact ⟨_, logged_parity hm he, hsame _ _ (logged_parity hm he)⟩

theorem State.Settled.congr (h : s.Settled) (hm : z.mode = s.mode) (hv : z.hasV = s.hasV) : z.Settled := by
  rw [Settled, hm, hv]
  exact h

/-- A trigger that leaves Sedge, the packet path and registers. -/
theorem State.Triggered.of_mode {y : State} {c : Nat} (h : z.Triggered y c) (hm : z.mode = s.mode) : s.Triggered y c := by
  rw [Triggered, hm] at h
  exact h

/-! ### What a change of mode leaves -/

theorem State.untraced_setMode {m : ModeSt} : s.Untraced (s.setMode m) := {}

theorem State.rd_setMode {m : ModeSt} {g : Reg} {i j : Nat} : (s.setMode m).rd u g i j = s.rd u g i j := rfl

theorem State.rf_setMode {m : ModeSt} {g : Reg} {l : Fld} : (s.setMode m).rf u g l = s.rf u g l := by rw [rf, rf, rd_setMode]

theorem State.engState_setMode {m : ModeSt} : (s.setMode m).engState e = s.engState e := rf_setMode

theorem State.adopted_setMode {m : ModeSt} : (s.setMode m).adopted e = s.adopted e := by rw [adopted, adopted, rb, rb, rf_setMode]

theorem State.holder_setMode {m : ModeSt} : (s.setMode m).holder e = s.holder e := by rw [holder, holder, adopted_setMode, rf_setMode]

theorem State.adoptee_setMode {m : ModeSt} : (s.setMode m).adoptee e = s.adoptee e := by
  rw [adoptee, adoptee, adopting, adopting, rb, rb, rf_setMode, rf_setMode]

theorem State.sedge_setMode {m : ModeSt} : (s.setMode m).sedge = s.sedge := rfl

theorem State.sward_setMode {m : ModeSt} : (s.setMode m).sward = s.sward := rfl

theorem State.eth_setMode {m : ModeSt} : (s.setMode m).eth = s.eth := rfl

theorem State.eng_setMode {m : ModeSt} : (s.setMode m).eng e = s.eng e := by rw [eng, eng, sedge_setMode]

theorem State.thread_setMode {m : ModeSt} : (s.setMode m).thread t = s.thread t := by rw [thread, thread, sedge_setMode]

theorem State.dispq_setMode {m : ModeSt} : (s.setMode m).dispq e = s.dispq e := by rw [dispq, dispq, eth_setMode]

/-- What a failure with an adopter leaves (R37, R62, R106, R107). -/
theorem State.csParity_spec (hi : s.engIssues e = true) (ht : s.nextThread e = some t) (hb : s.csBad e (s.thread t).pc ≠ 0)
    (h0 : s.adoptee e = none) (ha : s.adopterFor e = some a) (hn : mapGet 0 s.fault.renewals (0x100 + e) < 15) (hm : s.Mute) (hs : s.Settled)
    (he : e < 64) :
    ∃ y, s.csParity e = y ∧ s.Untraced y ∧ y.engState e = 3 ∧ (y.eng e).lost = true ∧ s.Triggered y 2 ∧
      y.rd (.engine e) R.MC_LOG = BitVec.ofNat 32 (s.parityLog e t) ∧ y.adopted e = true ∧ y.holder e = a ∧ y.adoptee a = some e ∧
      y.dispq a = s.dispq a ++ s.dispq e ∧ y.dispq e = [] ∧ y.thread t = s.thread t ∧
      y.sward.bcasts = s.sward.bcasts ++ [⟨e / 16, 0x100 + e, mapGet 0 s.fault.renewals (0x100 + e) + 1⟩] := by
  obtain ⟨z, hz, hy⟩ := csParity_adopted hi ht hb h0 ha hn hm he
  obtain ⟨h4, hne⟩ := adopterFor_spec ha
  obtain ⟨hu, had, hho, hae, hqa, hqe, hst⟩ := (z.failed e).handedOver_spec h4 hne
  have hmode : z.mode = s.mode := by rw [hz.rest]
  have hsward : z.sward = s.sward := by rw [hz.rest]
  have hsedge : z.sedge = s.sedge := by rw [hz.rest]
  have heth : z.eth = s.eth := by rw [hz.rest]
  have hdq (f : Nat) : (z.failed e).dispq f = s.dispq f := by rw [dispq, dispq, eth_failed, heth]
  have hmode' : ((z.failed e).handedOver e a).mode = s.mode := mode_handedOver.trans (mode_failed.trans hmode)
  have hsward' : ((z.failed e).handedOver e a).sward = (z.failed e).sward := sward_handedOver
  have hsedge' : ((z.failed e).handedOver e a).sedge = (z.failed e).sedge := sedge_handedOver
  have hset : ((z.failed e).handedOver e a).Settled := by
    refine hs.congr hmode' ?_
    rw [hasV, hasV, hsward', shadowValid_failed, shadowPlan_failed, hsward]
  have hmc : ((z.failed e).handedOver e a).rd (.engine e) R.MC_LOG = BitVec.ofNat 32 (s.parityLog e t) := by
    rw [rd_handedOver (by decide) (by decide), rd_failed (by decide) (by decide), hz.log]
  have hlost : (((z.failed e).handedOver e a).eng e).lost = true := by
    rw [eng, hsedge']
    exact lost_failed
  have hthread : ((z.failed e).handedOver e a).thread t = s.thread t := by rw [thread, thread, hsedge', threads_failed, hsedge]
  have hbcasts : ((z.failed e).handedOver e a).sward.bcasts =
      s.sward.bcasts ++ [⟨e / 16, 0x100 + e, mapGet 0 s.fault.renewals (0x100 + e) + 1⟩] := by
    rw [hsward', bcasts_failed, hsward, hz.renewals, Nat.mod_eq_of_lt (by omega)]
  have hw : s.Untraced ((z.failed e).handedOver e a) := (hz.untraced.trans untraced_failed).trans hu
  have hqa' := hqa.trans (congrArg₂ (· ++ ·) (hdq a) (hdq e))
  have hst' := hst.trans engState_failed
  generalize (z.failed e).handedOver e a = w at *
  obtain ⟨m, hm, htr⟩ := rcvTrigger_settled hset 2
  refine ⟨w.setMode m, hy.trans hm, hw.trans untraced_setMode, ?_⟩
  rw [engState_setMode, eng_setMode, rd_setMode, adopted_setMode, holder_setMode, adoptee_setMode, dispq_setMode, dispq_setMode, thread_setMode,
    sward_setMode]
  exact ⟨hst', hlost, htr.of_mode hmode', hmc, had, hho, hae, hqa', hqe, hthread, hbcasts⟩

end Sys2Proof.Machine

/-! The control store's image, its test fault, and writes through the engines' windows (R86, R87, R106); then the statement on engines. -/

namespace Sys2Proof.Machine

set_option Elab.async false

variable {s t x : State} {r : Req} {g : Reg} {e f a o n i : Nat} {w v : Word} {d : List Byte}

/-! ### CS_IMAGE and CS_ERR_INJ -/

/-- Gorse's write of CS_IMAGE takes the tag and sets CS_VALID. -/
theorem State.csImage_spec (s : State) (r : Req) (e : Nat) (v : Word) :
    ∃ y, (s.fieldsWritten r (.engine e) R.CS_IMAGE 0 0 v).setStatus e F.ENG_STATUS_CS_VALID 1 = y ∧ s.Untraced y ∧
      y.rd (.engine e) R.CS_IMAGE = v ∧ y.rb (.engine e) R.ENG_STATUS F.ENG_STATUS_CS_VALID = true := by
  obtain ⟨M, U, hM, hrd, hne⟩ := s.fieldsWritten_eq r (.engine e) R.CS_IMAGE 0 0 v
  have hall : regWritten R.CS_IMAGE (s.rd (.engine e) R.CS_IMAGE) v = v := by
    have h1 (x : Word) : x.toNat &&& 0xFFFFFFFF = x.toNat := toNat_and_ones x
    have h2 (x : Word) : x.toNat &&& 0 = 0 := Nat.and_zero _
    simp [regWritten, R.CS_IMAGE, h1]
  refine ⟨_, rfl, (fieldsWritten_untraced (not_traceReg_engine (by decide))).trans untraced_setStatus, ?_, ?_⟩
  · rw [rd_setStatus (by decide) (by decide), hrd, hall]
  · exact congrArg (· != 0) (rf_setStatus_self (by decide))

theorem regWrite_csImage_refused (h : masterClass r.master.toNat ≠ 5) :
    s.regWrite r (.engine e) R.CS_IMAGE 0 0 v none = (some 3, s) := by
  simp [State.regWrite, State.wrRefuse, h, show regWritable R.CS_IMAGE ≠ 0 by decide, show ¬ R.CS_IMAGE.off < 0x100 by decide]

/-- The stored parity bit flips, and no other. -/
theorem State.csBad_csInject (hn : n < 16384) (hi : i < 8) :
    (s.csInject e n i).csBad e a = if a = n then s.csBad e a ^^^ 2 ^ i else s.csBad e a := by
  rw [csInject, Nat.mod_eq_of_lt hn, Nat.mod_eq_of_lt hi]
  split_ifs with h
  · rw [h]
    exact mapGet_mapSet_self ..
  · exact mapGet_mapSet_ne _ _ _ _ (by omega)

/-! ### The windows (R21, R86, R87) -/

/-- The windows of engine `e` in the map. -/
theorem State.place_window (he : e < 64) (ho : o < 0x60000) (ha : a = 0xD00000000 + e * 0x100000 + o) : s.place a = .engine e o := by
  have h1 : (a - 0xD00000000) % 0x100000 = o := by omega
  have h2 : (a - 0xD00000000) / 0x100000 = e := by omega
  have hd : ¬ a < 0xC00000000 := by omega
  have hs : ¬ a < 0xC0E000000 := by omega
  have hw : 0xD00000000 ≤ a ∧ a < 0xD04000000 := by omega
  simp only [place, if_neg hd, if_neg hs, if_pos hw, h1, h2, if_pos ho]

/-- A write through a window that is routed, permitted and answered comes to the store. -/
theorem State.reqTarget_window {p : Bool} (hp : s.place a = .engine e o) (ha : s.answers (.group (e / 4)) = true)
    (hr : s.Reaches r a) (hg : s.guardAcc a r .write none = (none, s)) :
    s.reqTarget r none a (.write d p) = if o < 0x40000 then s.csTarget r none a e o (.write d p)
      else if s.stalled (.ctx (e / 4)) then (.waits, s) else s.ctxTarget a e (.write d p) := by
  have hg' : s.guardAcc a r (TReq.op (.write d p)) none = (none, s) := hg
  rcases hm : s.masterRouter r.master.toNat with _ | b
  · simp [State.reqTarget, hp, hg', hm, ha]
  · simp [State.reqTarget, hp, hg', hm, hr b hm, ha]

/-- The state after `n` microwords of `d` are written from address `a` on. -/
def State.csWrites (s : State) (e a : Nat) (d : List Byte) (n : Nat) : State :=
  (List.range n).foldl (fun s i => State.csWrite s e (a + i) (BitVec.ofNat 128 (ofLe ((d.drop (16 * i)).take 16)))) s

theorem State.csWrites_succ : s.csWrites e a d (n + 1) =
    (s.csWrites e a d n).csWrite e (a + n) (BitVec.ofNat 128 (ofLe ((d.drop (16 * n)).take 16))) := by
  rw [csWrites, List.range_succ, List.foldl_append]
  rfl

theorem State.csWord_csWrite {b : Nat} {y : BitVec 128} : (s.csWrite e a y).csWord e b = if b = a then y else s.csWord e b := by
  split_ifs with h
  · rw [h]
    exact mapGet_mapSet_self ..
  · exact mapGet_mapSet_ne _ _ _ _ (by omega)

theorem State.csBad_csWrite {b : Nat} {y : BitVec 128} : (s.csWrite e a y).csBad e b = if b = a then 0 else s.csBad e b := by
  have hpar : (s.csWrite e a y).sedge.csPar = mapSet 0 s.sedge.csPar (16384 * e + a) 0 := rfl
  rw [csBad, hpar]
  split_ifs with h
  · rw [h, mapGet_mapSet_self]
  · rw [mapGet_mapSet_ne _ _ _ _ (by omega), csBad]

theorem State.untraced_csWrite {y : BitVec 128} : s.Untraced (s.csWrite e a y) := 
  .trans (t := { s with sedge := _ }) {} untraced_setStatus

/-- Microwords written have their parity, and CS_VALID clears. -/
theorem State.csWrites_spec (s : State) (e a : Nat) (d : List Byte) (n : Nat) :
    s.Untraced (s.csWrites e a d n) ∧ (0 < n → (s.csWrites e a d n).rb (.engine e) R.ENG_STATUS F.ENG_STATUS_CS_VALID = false) ∧
      ∀ k, k < n → (s.csWrites e a d n).csWord e (a + k) = BitVec.ofNat 128 (ofLe ((d.drop (16 * k)).take 16)) ∧
        (s.csWrites e a d n).csBad e (a + k) = 0 := by
  induction n with
  | zero => exact ⟨{}, fun h => absurd h (lt_irrefl 0), fun k hk => absurd hk (Nat.not_lt_zero k)⟩
  | succ n ih =>
    obtain ⟨hu, -, hw⟩ := ih
    rw [csWrites_succ]
    refine ⟨hu.trans untraced_csWrite, fun _ => congrArg (· != 0) (rf_setStatus_self (by decide)), fun k hk => ?_⟩
    rw [csWord_csWrite, csBad_csWrite]
    split_ifs with h
    · rw [show k = n by omega]
      exact ⟨rfl, rfl⟩
    · exact hw k (by omega)

/-- R86: Gorse writes microwords of a stopped or failed engine. -/
theorem State.csTarget_write {p : Bool} (hd : d.length = 16 ∨ d.length = 32 ∨ d.length = 64) (ho : o % d.length = 0)
    (hm : masterClass r.master.toNat = 5) (hst : s.engState e = 0 ∨ s.engState e = 3) :
    s.csTarget r none a e o (.write d p) = (.data [] false, s.csWrites e (o / 16) d (d.length / 16)) := by
  have hshape : ((d.length == 16 || d.length == 32 || d.length == 64) && o % d.length == 0) = true := by
    rw [ho]
    rcases hd with h | h | h <;> rw [h] <;> rfl
  have hs : ¬ (s.engState e ≠ engStopped ∧ s.engState e ≠ engFailed) := by
    rcases hst with h | h <;> rw [h] <;> decide
  simp only [csTarget, TReq.len, hshape, Bool.not_true, Bool.false_eq_true, if_false, hm, ne_eq, not_true, hs]
  rfl

/-- R87: the context store takes aligned writes while the engine is stopped and keeps its own work. -/
theorem State.ctxTarget_write {p : Bool} (hd : 4 ≤ d.length) (h4 : d.length % 4 = 0) (ha : a % 4 = 0) (hl : a % 64 + d.length ≤ 64) :
    s.ctxTarget a e (.write d p) =
      if s.engState e = engStopped ∧ !s.adopted e then (.data [] false, (s.setBytes a d).setPoison a p) else (.err 5, s) := by
  have hshape : ¬ (a % 4 ≠ 0 ∨ d.length % 4 ≠ 0 ∨ d.length < 4 ∨ 64 < d.length ∨ 64 < a % 64 + d.length) := by omega
  simp only [ctxTarget, TReq.len]
  exact if_neg hshape

/-- Bytes written with their poison mark, and nothing else. -/
theorem State.put_setPoison (s : State) (a : Nat) (d : List Byte) (p : Bool) : s.Put ((s.setBytes a d).setPoison a p) a d := by
  have hw := (s.wrote_setBytes a d).setPoison a p
  obtain ⟨M, hM⟩ := s.setBytes_eq a d
  refine ⟨?_, ?_, hw.bytes, fun y => hw.byte_of_apart⟩
  · rw [hM]
    rfl
  · rw [hM]
    exact fun _ _ => rfl

end Sys2Proof.Machine

/-! The statement on engines (R86, R87, R105 to R107). -/

namespace Sys2Proof.Machine

set_option Elab.async false

variable {s t x : State} {r : Req} {e : Fin 64} {v : Word} {d : List Byte}

/-! ### Commands of ENG_CTL -/

/-- RUN starts the engine. -/
theorem State.Calm.sets_engRun (hc : s.Calm) (hok : s.engCmdOk e 1 = true) (hl : (s.eng e).lost = false) :
    s.Sets r (.engine e) R.ENG_CTL 0 (.engRun r e) (fun y => y.engState e = 1) := by
  refine hc.sets_engCtl (c := 1) rfl (by decide) hok fun U => ?_
  rw [engCommand_run (s := { s with units := U }) hl]
  exact ⟨untraced_setStatus, engState_setEngState (by decide)⟩

/-- STOP lets the engine's threads end, from now on. -/
theorem State.Calm.sets_engStop (hc : s.Calm) (hok : s.engCmdOk e 2 = true) :
    s.Sets r (.engine e) R.ENG_CTL 0 (.engStop r e) (fun y => y.engState e = 2 ∧ (y.eng e).since = s.mono) := by
  refine hc.sets_engCtl (c := 2) rfl (by decide) hok fun U => ?_
  rw [engCommand_stop]
  have hs : State.Untraced { s with units := U } (State.setEng { s with units := U } e { s.eng e with since := s.mono }) := {}
  exact ⟨hs.trans untraced_setStatus, engState_setEngState (by decide), congrArg Eng.since (mapGet_mapSet_self ({} : Eng) _ _ _)⟩

/-- TEST runs thread 0. -/
theorem State.Calm.sets_engTest (hc : s.Calm) (hok : s.engCmdOk e 3 = true) :
    s.Sets r (.engine e) R.ENG_CTL 0 (.engTest r e) (fun y => y.engState e = 4 ∧ y.thread (16 * e.val) = s.reaches (16 * e.val)
      { st := 1, nextOp := (s.thread (16 * e.val)).nextOp } (s.rf (.engine e) R.ENTRY F.ENTRY_ADDR 15)) := by
  refine hc.sets_engCtl (c := 3) rfl (by decide) hok fun U => ?_
  exact State.engCommand_test_spec { s with units := U } e

/-- READMIT begins the return of the engine's work. -/
theorem State.Calm.sets_engReadmit (hc : s.Calm) (hok : s.engCmdOk e 4 = true) (hl : (s.eng e).lost = false) :
    s.Sets r (.engine e) R.ENG_CTL 0 (.engReadmit r e) (fun y => y.engState e = 5 ∧ (y.eng e).since = s.mono) := by
  refine hc.sets_engCtl (c := 4) rfl (by decide) hok fun U => ?_
  rw [engCommand_readmit (s := { s with units := U }) hl]
  have hs : State.Untraced { s with units := U } (State.setEng { s with units := U } e { s.eng e with since := s.mono }) := {}
  exact ⟨hs.trans untraced_setStatus, engState_setEngState (by decide), congrArg Eng.since (mapGet_mapSet_self ({} : Eng) _ _ _)⟩

/-! ### The control store -/

theorem State.Calm.sets_csImage (hc : s.Calm) (hm : masterClass r.master.toNat = 5) :
    s.Sets r (.engine e) R.CS_IMAGE 0 (.csImageWrite r e v) (fun y =>
      y.rd (.engine e) R.CS_IMAGE = v ∧ y.rb (.engine e) R.ENG_STATUS F.ENG_STATUS_CS_VALID = true) := by
  obtain ⟨y, hy, hu, hrd, hrb⟩ := s.csImage_spec r e v
  exact hc.sets_engine rfl (by decide) (by decide) (if_neg fun h => h.2 hm) rfl hy hu ⟨hrd, hrb⟩

theorem State.Calm.sets_csErrInj (hc : s.Calm) :
    s.Sets r (.engine e) R.CS_ERR_INJ 0 (.csErrInj r e v) (fun y => ∀ a, a < 16384 → y.csBad e a =
      if a = v.fld F.CS_ERR_INJ_ADDR then s.csBad e a ^^^ 2 ^ v.fld F.CS_ERR_INJ_PIECE else s.csBad e a) := by
  obtain ⟨U, hU⟩ := s.fieldsWritten_writeOnly (r := r) (u := .engine e) (g := R.CS_ERR_INJ) (i := 0) (j := 0) (v := v) rfl rfl rfl
  have ha : v.fld F.CS_ERR_INJ_ADDR < 16384 := natBits_lt _ 13 0
  have hi : v.fld F.CS_ERR_INJ_PIECE < 8 := natBits_lt _ 16 14
  exact hc.sets_engine (x := ({ s with units := U } : State).csInject e (v.fld F.CS_ERR_INJ_ADDR) (v.fld F.CS_ERR_INJ_PIECE))
    rfl (by decide) (by decide) rfl rfl (by rw [hU]; rfl) {} fun a _ => State.csBad_csInject (s := { s with units := U }) ha hi

/-! ### The windows -/

theorem State.Calm.does_csWindow {o : BitVec 18} (hc : s.Calm) (hd : d.length = 16 ∨ d.length = 32 ∨ d.length = 64)
    (ho : o.toNat % d.length = 0) (hm : masterClass r.master.toNat = 5) (hst : s.engState e = 0 ∨ s.engState e = 3)
    (ha : s.answers (.group (e.val / 4)) = true) (hr : s.Reaches r (0xD00000000 + e.val * 0x100000 + o.toNat))
    (hg : s.guardAcc (0xD00000000 + e.val * 0x100000 + o.toNat) r .write none = (none, s)) :
    s.Does (.csWindowWrite r e o d) (fun y => y.rb (.engine e) R.ENG_STATUS F.ENG_STATUS_CS_VALID = false ∧
      ∀ k, k < d.length / 16 → y.csWord e (o.toNat / 16 + k) = BitVec.ofNat 128 (ofLe ((d.drop (16 * k)).take 16)) ∧
        y.csBad e (o.toNat / 16 + k) = 0) := by
  have ho' : o.toNat < 0x40000 := o.isLt
  have hp := s.place_window e.isLt (o := o.toNat) (by omega) rfl
  have ht := (State.reqTarget_window (d := d) (p := false) hp ha hr hg).trans (if_pos ho')
  rw [State.csTarget_write hd ho hm hst] at ht
  obtain ⟨hu, hv, hw⟩ := s.csWrites_spec e (o.toNat / 16) d (d.length / 16)
  exact hc.does (congrArg (State.done · s) (State.request_data ht)) (hu.trans untraced_answer) ⟨hv (by omega), hw⟩

section
variable {o : BitVec 17} {p : Bool} (hc : s.Calm) (hd : 4 ≤ d.length) (h4 : d.length % 4 = 0) (ho : o.toNat % 4 = 0) (hl : o.toNat % 64 + d.length ≤ 64)
  (ha : s.answers (.group (e.val / 4)) = true) (hs : s.stalled (.ctx (e.val / 4)) = false)
  (hr : s.Reaches r (0xD00000000 + e.val * 0x100000 + 0x40000 + o.toNat))
  (hg : s.guardAcc (0xD00000000 + e.val * 0x100000 + 0x40000 + o.toNat) r .write none = (none, s))
include hd h4 ho hl ha hs hr hg

theorem State.reqTarget_ctxWindow : s.reqTarget r none (0xD00000000 + e.val * 0x100000 + (0x40000 + o.toNat)) (.write d p) =
    if s.engState e = engStopped ∧ !s.adopted e then
      (.data [] false, (s.setBytes (0xD00000000 + e.val * 0x100000 + 0x40000 + o.toNat) d).setPoison
        (0xD00000000 + e.val * 0x100000 + 0x40000 + o.toNat) p)
    else (.err 5, s) := by
  have ho' : o.toNat < 0x20000 := o.isLt
  have hp := s.place_window e.isLt (o := 0x40000 + o.toNat) (by omega) rfl
  rw [← Nat.add_assoc] at hp ⊢
  rw [State.reqTarget_window hp ha hr hg, if_neg (by omega), if_neg (by rw [hs]; exact Bool.false_ne_true),
    State.ctxTarget_write hd h4 (by omega) (by omega)]

include hc

theorem State.Calm.does_ctxWindow (hst : s.engState e = 0) (had : s.adopted e = false) :
    s.Does (.ctxWindowWrite r e o d p) (fun y => ∃ b, s.Put b (0xD00000000 + e.val * 0x100000 + 0x40000 + o.toNat) d ∧
      y = { b with resp := .ok 0 } ∧ y.poisoned (0xD00000000 + e.val * 0x100000 + 0x40000 + o.toNat) = p) := by
  have ht := (State.reqTarget_ctxWindow (p := p) hd h4 ho hl ha hs hr hg).trans (if_pos ⟨hst, by rw [had]; rfl⟩)
  generalize 0xD00000000 + e.val * 0x100000 + 0x40000 + o.toNat = a at *
  have hw := (s.wrote_setBytes a d).setPoison a p
  exact hc.does (congrArg (State.done · s) (State.request_data ht)) (hw.untraced.trans untraced_answer)
    ⟨_, s.put_setPoison a d p, rfl, mapGet_mapSet_self ..⟩

theorem State.Calm.does_ctxWindow_refused (h : s.engState e ≠ 0 ∨ s.adopted e = true) :
    s.Does (.ctxWindowWrite r e o d p) (fun y => y = { s with resp := .err 5 }) := by
  have hno : ¬ (s.engState e = engStopped ∧ (!s.adopted e) = true) := by
    rintro ⟨h0, had⟩
    rcases h with h | h
    · exact h h0
    · rw [h] at had
      cases had
  have ht := (State.reqTarget_ctxWindow (p := p) hd h4 ho hl ha hs hr hg).trans (if_neg hno)
  exact hc.does (congrArg (State.done · s) (State.request_err ht)) {} rfl

end

/-- Settles O48: commands, halting, returning, failure and takeover of engines, and writes of their stores. -/
theorem sedgeEngines : Obligations.SedgeEngines := by
  intro s r e v hc u idle valid st cmd
  have discards (i : Instr) (k : Nat) (hk : k < 8) (he : exec i s = (s.engWrite r e k).done s) (h : s.engCmdOk e k = false) :
      s.Sets r u R.ENG_CTL 0 i (fun y => y = { s with resp := .ok 0 }) := hc.sets_engCtl_discarded he hk h
  refine ⟨?_, ?_, ?_, ?_, ⟨fun hok hl => hc.sets_engRun hok hl, discards _ 1 (by decide) rfl⟩, ⟨fun hok _ => hc.sets_engStop hok, discards _ 2 (by decide) rfl⟩,
    ⟨fun hok _ => hc.sets_engTest hok, discards _ 3 (by decide) rfl⟩, ⟨fun hok hl => hc.sets_engReadmit hok hl, discards _ 4 (by decide) rfl⟩,
    fun hst => ⟨fun h => ?_, fun h => ?_, fun h => State.haltTimeout_does _ rfl hst h⟩, fun hst => ?_, ?_, hc.sets_csImage,
    fun hm hg => hc.does (congrArg (State.done · s) (State.wrTo_refused hg (regWrite_csImage_refused hm))) {} rfl, hc.sets_csErrInj, ?_, ?_⟩
  · simp [State.engCmdOk, idle, st, valid, csValid, engStopped, u, and_assoc]
  · simp [State.engCmdOk, idle, st, engRunning, engTesting]
  · simp [State.engCmdOk, idle, st, valid, csValid, engStopped, u]
  · simp [State.engCmdOk, idle, st, valid, csValid, engStopped, u, and_assoc]
  · exact hc.does (congrArg (State.done · s) (State.haltDone_free hst h)) State.untraced_setStatus rfl
  · exact hc.does (congrArg (State.done · s) (State.haltDone_busy h)) {} rfl
  · intro back
    obtain ⟨hu, hback⟩ := s.returned_spec e
    exact ⟨fun h => hc.does (congrArg (State.done · s) (if_pos ⟨hst, h⟩)) hu hback,
      fun h hf => hc.does (congrArg (State.done · s) (State.returnTimeout_free hst h hf)) hu hback⟩
  · intro t a hi ht hb h0 ha hn hm hs
    obtain ⟨y, hy, hu, hP⟩ := State.csParity_spec hi ht hb h0 ha hn hm hs e.isLt
    exact hc.does (congrArg (State.done · s) hy) hu hP
  · exact fun o d hd ho hm hst ha hr hg => hc.does_csWindow hd ho hm hst ha hr hg
  · exact fun o d p hd h4 ho hl ha hs hr hg => ⟨hc.does_ctxWindow hd h4 ho hl ha hs hr hg, hc.does_ctxWindow_refused hd h4 ho hl ha hs hr hg⟩

end Sys2Proof.Machine

/-! Operation B's statement fails: a store to scratch changes more of a bank than its reservation, where a bank number above 7 names the bank
of another core (R95, R247).

`State.bank p b` is entry `8 * p + b` of the map of banks, with the reset value of bank `b` of core `p` where there is none. Entry 12 is bank
4 of core 1, which stands in its trap window after reset, and bank 12 of core 0, which would not. A bank that holds its reset value has no
entry. So when the end of a reservation leaves core 1's bank 4 at its reset value, bank 12 of core 0 leaves the trap window, against
`State.Put.banks`, which speaks of every bank number. -/

namespace Sys2Proof.Machine

set_option Elab.async false

/-- A microword that stores v5 at segment 0 plus v1. -/
def storeWord : BitVec 128 := BitVec.ofNat 128 (2 * 2 ^ 58 + 5 * 2 ^ 50 + 1 * 2 ^ 42)

/-- Engine 0 is about to store to the first word of scratch, whose line bank 4 of core 1 has reserved. -/
def reservedState : State :=
  let s : State := { State.reset with
    tusUp := List.range 28
    ling := { banks := [(12, { trap := true, ldxGran := some 0x30000000 })] }
    sedge := { cs := [(0, storeWord)], threads := [(0, { st := 1 })] } }
  let s := (s.wf (.tussock 0) R.L2_WAYS F.L2_WAYS_SCRATCH 8).setAtEntry 16 0x100 0x1C0
  ((s.setEngState 0 engRunning).wr (.engine 0) R.SEG_BASE 0xC000000).wf (.engine 0) R.SEG_LIMIT F.SEG_LIMIT_SIZE 16

theorem reservedState_issues : reservedState.Issues 0 .clean 0 (mwOf storeWord) where
  calm := by
    unfold State.Calm
    decide +kernel
  untraced := by decide +kernel
  issues := by decide +kernel
  next := by decide +kernel
  word := by decide +kernel
  parity := by decide +kernel
  noCause := by decide +kernel
  ctxOk := .inl rfl
  noErr := by decide +kernel
  noBrk := .inr (by decide +kernel)
  opIds := by decide +kernel

theorem reservedState_scratchFor :
    reservedState.ScratchFor (reservedState.reqOf (.engine 0)) (some (.engine 0)) 0xC00000000 .write where
  place := ⟨0, 0, by decide +kernel⟩
  routed b hb := by
    have hr : reservedState.masterRouter (reservedState.reqOf (.engine 0)).master.toNat = some (UnitId.engine 0).router := by decide +kernel
    obtain rfl : (UnitId.engine 0).router = b := Option.some.inj (hr.symm.trans hb)
    decide +kernel
  granted := by decide +kernel
  answers := by decide +kernel

/-- Bank `b` of core `p` is in its trap window once a command has answered a next state. -/
def trapsAfter (o : Host.Outcome State Fault Refusal) (p b : Nat) : Bool :=
  match o with
  | .next u => (u.bank p b).trap
  | .fault _ | .refused _ => false

theorem reservedState_bank : (reservedState.bank 0 12).trap = true := by decide +kernel

/-- The store ends core 1's reservation, and entry 12 with it. -/
theorem trapsAfter_store : trapsAfter (exec (.opbSt 0 .clean) reservedState) 0 12 = false := by decide +kernel

theorem State.IssuedAs.bank {s u : State} {e : Fin 64} {t : Nat} {x : Thread} (h : s.IssuedAs u e t x) (p b : Nat) : u.bank p b = s.bank p b := by
  rw [State.bank, State.bank, h.rest]

/-- Refutes O45: in its clause on ST, no state is `State.Put` of `reservedState` and what the store leaves, for bank 12 of core 0 has left its
trap window. -/
theorem not_sedgeOperations : ¬ Obligations.SedgeOperations := by
  unfold Obligations.SedgeOperations
  intro h
  obtain ⟨-, hlive, -⟩ := h reservedState 0 .clean 0 (mwOf storeWord) reservedState_issues (by decide +kernel) (by decide +kernel)
  obtain ⟨-, hst, -⟩ := hlive (by decide +kernel)
  have haddr : 256 * (reservedState.rd (.engine 0) R.SEG_BASE (mwOf storeWord).mod).toNat +
      (reservedState.spec 0 (mwOf storeWord) (mwOf storeWord).ab + (mwOf storeWord).imm).toNat = 0xC00000000 := by decide +kernel
  obtain ⟨b, hput, u, hexec, o, -, -, -, -, -, hissued⟩ := hst (by decide +kernel) (haddr ▸ reservedState_scratchFor) (by decide +kernel)
  have hafter : (b.bank 0 12).trap = false := by
    rw [← hissued.bank, ← trapsAfter_store, hexec]
    rfl
  have hbefore : (b.bank 0 12).trap = true := (congrArg Bank.trap (hput.banks 0 12)).trans reservedState_bank
  exact Bool.false_ne_true (hafter.symm.trans hbefore)

end Sys2Proof.Machine

/-! What only the packet path changes of what the ports show: the frames sent, ETH_CFG and the lanes that have failed. Checks, memory and
the trace keep it, so what a command did to it stands in its answer. -/

namespace Sys2Proof.Machine

set_option Elab.async false

variable {s t x : State} {u : UnitId} {g : Reg} {a i j n p q k l m : Nat} {r : Req} {w : Word} {d b : List Byte} {c : Bool} {e : Ecc}

/-! ### What the ports show -/

/-- What every step of a fold keeps the fold keeps. -/
theorem State.foldl_keeps {α β : Type} {f : State → α → State} (π : State → β) (hf : ∀ t b, π (f t b) = π t) (L : List α) :
    π (L.foldl f s) = π s := by
  induction L generalizing s with
  | nil => rfl
  | cons b L ih => exact ih.trans (hf s b)

/-- Something a port sends as a frame. -/
@[reducible] def Out.isFrame : Out → Bool
  | .frame _ _ => true
  | _ => false

/-- What only the packet path changes of what its ports show: the frames they have sent, ETH_CFG, and the lanes that have failed. -/
def State.portSide (s : State) : List Out × Word × Nat :=
  (s.out.filter Out.isFrame, s.rd .eth R.ETH_CFG, s.rf .eth R.ETH_STATUS F.ETH_STATUS_LANE_FAIL)

/-- Units whose blocks lie above the Ethernet complex's (R21). -/
@[reducible] def pastEth : UnitId → Bool
  | .core _ | .er _ | .sw _ | .slice _ | .tussock _ | .hedgerow => true
  | _ => false

theorem base_of_pastEth (h : pastEth u = true) : 0x0E00700000 ≤ u.base := by
  cases u with
  | core | er | sw | slice | tussock => simp only [UnitId.base]; omega
  | hedgerow => exact le_rfl
  | _ => cases h

theorem State.portSide_of_same (ho : t.out = s.out) (hr : t.regs = s.regs) : t.portSide = s.portSide := by
  simp only [portSide, rf, rd, ho, hr]

theorem State.portSide_wr {v : Word} (hc : regAddr .eth R.ETH_CFG 0 0 ≠ regAddr u g i j) (hs : regAddr .eth R.ETH_STATUS 0 0 ≠ regAddr u g i j) :
    (s.wr u g v i j).portSide = s.portSide := by
  simp only [portSide, rf, rd_wr_ne _ _ _ _ _ _ _ _ _ _ hc, rd_wr_ne _ _ _ _ _ _ _ _ _ _ hs, wr_out]

@[simp] theorem State.portSide_wr_past {v : Word} (h : pastEth u = true) : (s.wr u g v i j).portSide = s.portSide := by
  have := base_of_pastEth h
  have hlt : ∀ o < 0x500000, UnitId.base .eth + o ≠ regAddr u g i j := by
    intro o ho
    simp only [regAddr, show UnitId.base .eth = 0x0E00200000 from rfl]
    omega
  exact portSide_wr (hlt 0x100 (by decide)) (hlt 0x104 (by decide))

@[simp] theorem State.portSide_wf_past {f : Fld} {v : Nat} (h : pastEth u = true) : (s.wf u g f v i j).portSide = s.portSide := portSide_wr_past h

@[simp] theorem State.portSide_bump_past (h : pastEth u = true) : (s.bump u g n i j).portSide = s.portSide := portSide_wr_past h

@[simp] theorem State.portSide_bump64_past {lo hi : Reg} (h : pastEth u = true) : (s.bump64 u lo hi n i j).portSide = s.portSide :=
  (portSide_wr_past h).trans (portSide_wr_past h)

@[simp] theorem State.portSide_send {o : Out} (h : o.isFrame = false) : (s.send o).portSide = s.portSide := by
  simp only [portSide, send_out, List.filter_cons, h]
  rfl

@[simp] theorem State.portSide_ite {h : Prop} [Decidable h] : (if h then s else t).portSide = if h then s.portSide else t.portSide :=
  apply_ite portSide h s t

@[simp] theorem State.portSide_foldl {α : Type} {f : State → α → State} (hf : ∀ t b, (f t b).portSide = t.portSide) (l : List α) :
    (l.foldl f s).portSide = s.portSide := foldl_keeps portSide hf l

@[simp] theorem State.portSide_mem {y : MemSt} : portSide { s with mem := y } = s.portSide := portSide_of_same rfl rfl
@[simp] theorem State.portSide_sward {y : SwardSt} : portSide { s with sward := y } = s.portSide := portSide_of_same rfl rfl
@[simp] theorem State.portSide_setUnit {y : UnitRt} : (s.setUnit u y).portSide = s.portSide := portSide_of_same rfl rfl
@[simp] theorem State.portSide_setHealth {y : Health} : (s.setHealth p y).portSide = s.portSide := portSide_of_same rfl rfl
@[simp] theorem State.portSide_setBank {y : Bank} : (s.setBank p q y).portSide = s.portSide := portSide_of_same rfl rfl
@[simp] theorem State.portSide_setCore {y : Core} : (s.setCore p y).portSide = s.portSide := portSide_of_same rfl rfl
@[simp] theorem State.portSide_setByte {y : Byte} : (s.setByte a y).portSide = s.portSide := portSide_of_same rfl rfl
@[simp] theorem State.portSide_setPoison : (s.setPoison a c).portSide = s.portSide := portSide_of_same rfl rfl
@[simp] theorem State.portSide_setSub {y : Sub} : (s.setSub q l y).portSide = s.portSide := portSide_of_same rfl rfl
@[simp] theorem State.portSide_setSector {y : Option Sector} : (s.setSector q l y).portSide = s.portSide := portSide_of_same rfl rfl
@[simp] theorem State.portSide_setEvb {y : List Evb} : (s.setEvb q y).portSide = s.portSide := portSide_of_same rfl rfl
@[simp] theorem State.portSide_setDir {y : Option DirEnt} : (s.setDir k y).portSide = s.portSide := portSide_of_same rfl rfl
@[simp] theorem State.portSide_setChan {y : Chan} : (s.setChan k y).portSide = s.portSide := portSide_of_same rfl rfl
@[simp] theorem State.portSide_push {y : CohMsg} : (s.push p q l y).portSide = s.portSide := portSide_of_same rfl rfl
@[simp] theorem State.portSide_setFrec {y : FrSt} : (s.setFrec k y).portSide = s.portSide := portSide_of_same rfl rfl
@[simp] theorem State.portSide_setHr {y : HedgeSt} : (s.setHr y).portSide = s.portSide := portSide_of_same rfl rfl
@[simp] theorem State.portSide_setTrSrc {y : TrSrc} : (s.setTrSrc i y).portSide = s.portSide := portSide_of_same rfl rfl

@[simp] theorem State.portSide_wakeUnit : (s.wakeUnit u).portSide = s.portSide := by
  unfold wakeUnit; dsimp only; split <;> rfl

@[simp] theorem State.portSide_perf : (s.perf p k n).portSide = s.portSide := by simp [perf, pastEth]

@[simp] theorem State.portSide_switchOut : (s.switchOut p q).portSide = s.portSide := by simp [switchOut]

@[simp] theorem State.portSide_switchTo : (s.switchTo p q).portSide = s.portSide := by
  unfold switchTo
  split <;> simp

@[simp] theorem State.portSide_resched : (s.resched p).portSide = s.portSide := by
  unfold resched
  cases s.choose p with
  | none => simp
  | some b => simp

@[simp] theorem State.portSide_bankEvent : (s.bankEvent p q n).portSide = s.portSide := by simp [bankEvent]

@[simp] theorem State.portSide_idEvent : (s.idEvent i p q).portSide = s.portSide := by
  unfold idEvent
  cases s.coreOf i with
  | none => rfl
  | some p => simp

@[simp] theorem State.portSide_bsetEvent {o : Option Nat} : (s.bsetEvent q k p o).portSide = s.portSide := by
  refine portSide_foldl (fun t i => ?_) _
  cases t.coreOf (63 * q + i) with
  | none => simp
  | some p => simp

@[simp] theorem State.portSide_setErPend {v : Bool} : (s.setErPend q n v).portSide = s.portSide := portSide_wf_past rfl

@[simp] theorem State.portSide_erRaise : (s.erRaise q n).portSide = s.portSide := by simp [erRaise, pastEth]

@[simp] theorem State.portSide_raiseEvt : (s.raiseEvt w).portSide = s.portSide := by simp [raiseEvt]

@[simp] theorem State.portSide_notifyRise : (s.notifyRise u n).portSide = s.portSide := by
  unfold notifyRise
  cases s.faultEvt u with
  | none => rfl
  | some w => simp

@[simp] theorem State.portSide_setFault : (s.setFault u n).portSide = s.portSide := by simp [setFault, withNotify]

@[simp] theorem State.portSide_record {c d1 d2 : Nat} {id : Option Nat} : (s.record u k c a d1 d2 id).portSide = s.portSide := by
  unfold record
  dsimp only
  split
  · rfl
  · exact (portSide_wr (by decide) (by decide)).trans rfl

@[simp] theorem State.portSide_quarantineStale {src : Option UnitId} : (s.quarantineStale r a src).portSide = s.portSide := by
  unfold quarantineStale
  split
  · simp
  · rfl

@[simp] theorem State.portSide_pmonCount {ev : Nat} : (s.pmonCount k p ev n).portSide = s.portSide := by simp [pmonCount, pastEth]

@[simp] theorem State.portSide_reject {op : AccOp} {src : Option UnitId} : (s.reject u k r op a n src).portSide = s.portSide := by
  simp [reject, pastEth]

@[simp] theorem State.portSide_guardAcc {op : AccOp} {src : Option UnitId} : (s.guardAcc a r op src).2.portSide = s.portSide := by
  unfold guardAcc
  cases h : s.atCheck (s.atidOf a) r op with
  | none => simp [h, apply_ite Prod.snd]
  | some c => simp [h]

/-! ### Memory -/

@[simp] theorem State.portSide_setBytes : (s.setBytes a d).portSide = s.portSide := by
  obtain ⟨M, hM⟩ := s.setBytes_eq a d
  rw [hM]
  rfl

@[simp] theorem State.portSide_cmpCount {o : Option Nat} {lo hi : Reg} : (s.cmpCount o lo hi).portSide = s.portSide := by
  cases o with
  | none => rfl
  | some n =>
    refine portSide_foldl (fun t m => ?_) _
    split
    · exact portSide_bump64_past rfl
    · rfl

@[simp] theorem State.portSide_eccLog : (s.eccLog k a e c).portSide = s.portSide := by
  cases e with
  | clean => rfl
  | corr => simp [eccLog, pastEth]
  | ue => simp [eccLog, pastEth]

@[simp] theorem State.portSide_lineRead : (s.lineRead a e).2.portSide = s.portSide := by simp [lineRead]

@[simp] theorem State.portSide_lineStore {y : Bool} : (s.lineStore a d c y).portSide = s.portSide := by simp [lineStore]

@[simp] theorem State.portSide_lineMerge : (s.lineMerge a n b c e).portSide = s.portSide :=
  portSide_lineStore.trans (portSide_lineRead (s := s) (a := a) (e := e))

@[simp] theorem State.portSide_l2Count : (s.l2Count q k n).portSide = s.portSide := by simp [l2Count, pastEth]

@[simp] theorem State.portSide_l1Drop : (s.l1Drop q l).portSide = s.portSide := by
  refine portSide_foldl ?_ _
  exact fun _ _ => rfl

@[simp] theorem State.portSide_clearResv {o : Option (Nat × Nat)} : (s.clearResv q l o).portSide = s.portSide := by simp [clearResv]

@[simp] theorem State.portSide_clearGran : (s.clearGran l).portSide = s.portSide := by simp [clearGran]

@[simp] theorem State.portSide_trimSector : (s.trimSector q l).portSide = s.portSide := by
  unfold trimSector
  cases s.sector q l with
  | none => rfl
  | some x => simp

@[simp] theorem State.portSide_toI : (s.toI q l).portSide = s.portSide := by simp [toI]

@[simp] theorem State.portSide_putBack {y : Bool} : (s.putBack q l y).portSide = s.portSide := rfl

@[simp] theorem State.portSide_evictSector : (s.evictSector q l).portSide = s.portSide := by simp [evictSector]

@[simp] theorem State.portSide_loseCopy : (s.loseCopy q l).portSide = s.portSide := by
  unfold loseCopy
  dsimp only
  split <;> simp

@[simp] theorem State.portSide_serveStash : (s.serveStash q l d c).portSide = s.portSide := by
  unfold serveStash
  extract_lets y inst refuse sc nc set cp way
  have hinst (t : State) : (inst t).portSide = t.portSide := by simp [inst]
  have hrefuse (t : State) : (refuse t).portSide = t.portSide := by simp [refuse]
  clear_value inst refuse way
  cases s.sector q l with
  | some sec => simp [hinst, hrefuse]
  | none =>
    cases way with
    | none => simp [hrefuse]
    | some w =>
      dsimp only
      cases s.wayLine q l w <;> simp [hinst, hrefuse]

@[simp] theorem State.portSide_dirCount : (s.dirCount k i n).portSide = s.portSide := by
  unfold dirCount
  exact portSide_bump64_past rfl

@[simp] theorem State.portSide_patchLine : (s.patchLine l n b).portSide = s.portSide := by
  unfold patchLine
  extract_lets fix s1 fixMsg net _ s2
  have h1 : s1.portSide = s.portSide := by
    refine portSide_foldl (fun t i => portSide_clearResv.trans (portSide_setEvb.trans ?_)) _
    split
    · rfl
    · exact portSide_setSub
  clear_value s1
  have h2 : s2.portSide = s1.portSide := portSide_mem
  exact portSide_lineMerge.trans (h2.trans h1)

@[simp] theorem State.portSide_recall : (s.recall l c).portSide = s.portSide := by
  unfold State.recall
  extract_lets k s1
  have h1 : s1.portSide = s.portSide := by
    unfold s1
    split
    · split
      · exact portSide_lineStore.trans portSide_lineRead
      · rfl
    · rfl
  clear_value s1
  exact portSide_setDir.trans ((portSide_foldl (fun _ _ => portSide_loseCopy) _).trans h1)

@[simp] theorem State.portSide_cohWrite : (s.cohWrite m l n b c).portSide = s.portSide := by
  unfold cohWrite
  extract_lets s1 k s3 s2 n
  have h1 : s1.portSide = s.portSide := portSide_clearGran
  have h2 : s2.portSide = s.portSide := portSide_recall.trans h1
  have h3 : s3.portSide = s.portSide := portSide_patchLine.trans h1
  cases s2.stashHint l m with
  | none => simp [h1, h2, h3]
  | some t => simp [h1, h2, h3]

@[simp] theorem State.portSide_cohRead : (s.cohRead l e).2.portSide = s.portSide := by
  unfold cohRead
  split
  · rfl
  · split
    · rfl
    · split
      · rfl
      · exact portSide_lineRead

@[simp] theorem State.portSide_touchChan : (s.touchChan k).portSide = s.portSide := by simp [touchChan]

@[simp] theorem State.portSide_memBytes (f : Nat) : (s.memBytes f a n).2.portSide = s.portSide := by
  induction f generalizing s a n with
  | zero => rfl
  | succ f ih =>
    have h : (((s.touchChan (keyChan (s.dramKey a))).cohRead (a / 64)).2).portSide = s.portSide := portSide_cohRead.trans portSide_touchChan
    unfold memBytes
    split
    · rfl
    · split
      · exact ih.trans h
      · exact ih

@[simp] theorem State.portSide_memStore (f : Nat) : (s.memStore m f a b c).portSide = s.portSide := by
  induction f generalizing s a b with
  | zero => rfl
  | succ f ih =>
    unfold memStore
    extract_lets k s2 s3 s1
    have h1 : s1.portSide = s.portSide := by
      have h2 : s2.portSide = s.portSide := portSide_setBytes
      have h3 : s3.portSide = s2.portSide := by simp [s3]
      clear_value s3
      simp [s1, h2, h3]
    split
    · rfl
    · exact ih.trans h1

@[simp] theorem State.portSide_devWrite {src : Option UnitId} : (s.devWrite r a b c src).2.portSide = s.portSide := by
  have h : (s.guardAcc a r .write src).2.portSide = s.portSide := portSide_guardAcc
  unfold devWrite
  split
  · rfl
  · generalize s.guardAcc a r .write src = y at h
    rcases y with ⟨_ | k, y⟩
    · dsimp only at h ⊢
      split
      · exact h
      · exact (portSide_memStore _).trans h
    · exact h

@[simp] theorem State.portSide_devWriteOut : (s.devWriteOut r a b c).2.portSide = s.portSide := by
  have h : (s.guardAcc a r .write).2.portSide = s.portSide := portSide_guardAcc
  unfold devWriteOut
  split
  · generalize s.guardAcc a r .write = y at h
    rcases y with ⟨_ | k, y⟩
    · dsimp only at h ⊢
      split
      · exact (portSide_send rfl).trans h
      · exact h
    · exact h
  · exact portSide_devWrite

/-! ### The trace (R404 to R416) -/

theorem State.portSide_if {h : Prop} [Decidable h] (h1 : t.portSide = s.portSide) (h2 : x.portSide = s.portSide) :
    (if h then t else x).portSide = s.portSide := by
  split
  · exact h1
  · exact h2

@[simp] theorem State.portSide_frRaw : (s.frRaw k d).portSide = s.portSide := by simp [frRaw]

@[simp] theorem State.portSide_frPut : (s.frPut k i d).portSide = s.portSide := by simp [frPut]

@[simp] theorem State.portSide_frTrig : (s.frTrig k i n c).portSide = s.portSide := by simp [frTrig]

@[simp] theorem State.portSide_frFault : (s.frFault p).portSide = s.portSide := by simp [frFault]

@[simp] theorem State.portSide_ringLine : (s.ringLine d).portSide = s.portSide := by simp [ringLine, pastEth]

@[simp] theorem State.portSide_ringPut (n : Nat) : (s.ringPut n).portSide = s.portSide := by
  induction n generalizing s with
  | zero => rfl
  | succ n ih => simp [ringPut, ih]

@[simp] theorem State.portSide_hrOut : (s.hrOut d).portSide = s.portSide := by simp [hrOut]

@[simp] theorem State.portSide_hrPacket : (s.hrPacket i d).portSide = s.portSide := by simp [hrPacket, pastEth]

@[simp] theorem State.portSide_trFlit : (s.trFlit i).portSide = s.portSide := by simp [trFlit]

@[simp] theorem State.portSide_trPut : (s.trPut i d).portSide = s.portSide := by simp [trPut]

@[simp] theorem State.portSide_trRaw : (s.trRaw i d).portSide = s.portSide := by
  unfold trRaw
  cases s.frTakes i with
  | none => simp
  | some k => simp

@[simp] theorem State.portSide_trSync : (s.trSync i).portSide = s.portSide := by simp [trSync]

@[simp] theorem State.portSide_trBr : (s.trBr i).portSide = s.portSide := by simp [trBr]

@[simp] theorem State.portSide_trTime : (s.trTime i c).portSide = s.portSide := by simp [trTime]

@[simp] theorem State.portSide_trDue : (s.trDue i).portSide = s.portSide := by simp [trDue]

@[simp] theorem State.portSide_trOpen : (s.trOpen i).portSide = s.portSide := by simp [trOpen]

@[simp] theorem State.portSide_trWake : (s.trWake i).portSide = s.portSide := by simp [trWake]

@[simp] theorem State.portSide_trSleep : (s.trSleep i).portSide = s.portSide := by simp [trSleep]

@[simp] theorem State.portSide_trEmit : (s.trEmit i d).portSide = s.portSide := by simp [trEmit]

@[simp] theorem State.portSide_trContext : (s.trContext i c).portSide = s.portSide := by simp [trContext]

theorem State.portSide_devTrace : (s.devTrace x).portSide = s.portSide := by
  unfold devTrace
  extract_lets s1 s2 out s3 s4 s5
  have h1 : s1.portSide = s.portSide := portSide_foldl (fun t _ => portSide_if portSide_trEmit rfl) _
  have h2 : s2.portSide = s1.portSide := portSide_foldl (fun t _ => portSide_if portSide_trEmit rfl) _
  have h3 : s3.portSide = s2.portSide := portSide_if portSide_trEmit rfl
  have h4 : s4.portSide = s3.portSide := portSide_foldl (fun t _ => portSide_if portSide_trEmit (portSide_if portSide_trEmit rfl)) _
  have h5 : s5.portSide = s4.portSide := portSide_foldl (fun t _ => portSide_if portSide_trEmit rfl) _
  have h : s5.portSide = s.portSide := h5.trans (h4.trans (h3.trans (h2.trans h1)))
  exact .trans (portSide_foldl (fun t _ => portSide_if portSide_trEmit rfl) _) h

theorem State.portSide_engTrace : (s.engTrace x).portSide = s.portSide := by
  refine portSide_foldl (fun t j => ?_) _
  simp

theorem State.portSide_sleepTrace : s.sleepTrace.portSide = s.portSide :=
  portSide_foldl (fun _ _ => portSide_if portSide_trSleep (portSide_if portSide_trWake rfl)) _

theorem State.portSide_faultTrace : (s.faultTrace x).portSide = s.portSide := by
  unfold faultTrace
  extract_lets m cores s1 s2
  have h1 : s1.portSide = s.portSide := portSide_foldl (fun _ _ => portSide_frFault) _
  have h2 : s2.portSide = s1.portSide := portSide_foldl (fun _ _ => portSide_if portSide_frFault rfl) _
  exact portSide_if (portSide_frTrig.trans (h2.trans h1)) (h2.trans h1)

theorem State.portSide_traced : (s.traced x).portSide = s.portSide := by
  unfold traced
  extract_lets s1
  have h1 : s1.portSide = s.portSide := portSide_if rfl portSide_faultTrace
  exact portSide_if (portSide_sleepTrace.trans (portSide_engTrace.trans (portSide_devTrace.trans h1))) h1

/-- What a command whose meaning is `x` does to the packet path and to what its ports show stands in its answer, whatever it adds to the
trace. -/
theorem State.does_of_done_port {c : Instr} {P : State → Prop} (h : exec c s = x.done s)
    (hP : ∀ y, y.portSide = x.portSide → y.eth = x.eth → P y) : s.Does c P := by
  have k : x.Elsewhere (x.traced s) := elsewhere_traced
  exact ⟨_, h, hP _ portSide_traced k.eth⟩

end Sys2Proof.Machine

/-! Registers of the Ethernet complex, and what counting and dropping a frame leaves of the ports and of the packet path. -/

namespace Sys2Proof.Machine

set_option Elab.async false

variable {s t x : State} {u : UnitId} {g : Reg} {a f i j n p q k l m v : Nat} {r : Req} {w : Word} {d b : List Byte} {c : Bool} {e : Ecc} {z : Fld}

/-! ### Registers of the Ethernet complex -/

theorem not_traceReg_eth (h : g.off + i * g.s1 + j * g.s2 < 0x500000) : ¬ traceReg (regAddr .eth g i j) := by
  rintro (⟨k, hk, e⟩ | ⟨t, ht, e⟩)
  · simp only [regAddr, UnitId.base, R.HR_SRC_EN] at e
    omega
  · simp only [regAddr, UnitId.base, R.FR_CFG] at e
    omega

theorem State.untraced_wr_eth (h : g.off + i * g.s1 + j * g.s2 < 0x500000) : s.Untraced (s.wr .eth g w i j) where
  regs _ _ ha := mapGet_mapSet_ne _ _ _ _ fun e => not_traceReg_eth h (e ▸ ha)

theorem State.untraced_bump64_eth {lo hi : Reg} (hl : lo.off + i * lo.s1 + j * lo.s2 < 0x500000) (hh : hi.off + i * hi.s1 + j * hi.s2 < 0x500000) :
    s.Untraced (s.bump64 .eth lo hi n i j) :=
  (untraced_wr_eth hl).trans (untraced_wr_eth hh)

@[simp] theorem State.portSide_wr_eth (h : 0x108 ≤ g.off) : (s.wr .eth g w i j).portSide = s.portSide := by
  refine portSide_wr ?_ ?_
  · simp only [regAddr, R.ETH_CFG]
    omega
  · simp only [regAddr, R.ETH_STATUS]
    omega

@[simp] theorem State.portSide_bump_eth (h : 0x108 ≤ g.off) : (s.bump .eth g n i j).portSide = s.portSide := portSide_wr_eth h

@[simp] theorem State.portSide_bump64_eth {lo hi : Reg} (hl : 0x108 ≤ lo.off) (hh : 0x108 ≤ hi.off) :
    (s.bump64 .eth lo hi n i j).portSide = s.portSide := (portSide_wr_eth hh).trans (portSide_wr_eth hl)

/-- Fields of ETH_STATUS other than LANE_FAIL. -/
theorem State.portSide_wf_status (h : z.hi < F.ETH_STATUS_LANE_FAIL.lo ∨ F.ETH_STATUS_LANE_FAIL.hi < z.lo) :
    (s.wf .eth R.ETH_STATUS z v).portSide = s.portSide := by
  have hc : (s.wf .eth R.ETH_STATUS z v).rd .eth R.ETH_CFG = s.rd .eth R.ETH_CFG := rd_wr_ne _ _ _ _ _ _ _ _ _ _ (by decide)
  have hf : (s.wf .eth R.ETH_STATUS z v).rf .eth R.ETH_STATUS F.ETH_STATUS_LANE_FAIL = s.rf .eth R.ETH_STATUS F.ETH_STATUS_LANE_FAIL := by
    rw [rf, wf, rd_wr_self, fld_setFld_apart _ _ h (by decide)]
    rfl
  rw [portSide, hc, hf]
  rfl

@[simp] theorem State.portSide_portCnt : (s.portCnt p k n).portSide = s.portSide := by simp [portCnt, R.PORTCNT_LO, R.PORTCNT_HI]

/-! ### What counting and dropping a frame leaves -/

@[simp] theorem State.portSide_eth {y : EthSt} : portSide { s with eth := y } = s.portSide := portSide_of_same rfl rfl
@[simp] theorem State.portSide_setEPort {y : EPort} : (s.setEPort p y).portSide = s.portSide := portSide_of_same rfl rfl
@[simp] theorem State.portSide_setFrame {y : Frame} : (s.setFrame f y).portSide = s.portSide := portSide_of_same rfl rfl
@[simp] theorem State.portSide_setTi {y : Ti} : (s.setTi n y).portSide = s.portSide := portSide_of_same rfl rfl
@[simp] theorem State.portSide_setEgress {y : List Nat} : (s.setEgress k y).portSide = s.portSide := portSide_of_same rfl rfl
@[simp] theorem State.portSide_forget : (s.forget f).portSide = s.portSide := portSide_of_same rfl rfl

@[simp] theorem State.portSide_pfcSend : (s.pfcSend k n).portSide = s.portSide := by simp [pfcSend]

@[simp] theorem State.portSide_pfcCheck : (s.pfcCheck k).portSide = s.portSide := by
  unfold pfcCheck
  cases mapGet none s.eth.pauseOut k with
  | none => simp
  | some b => simp

@[simp] theorem State.portSide_cntAdd {src : Option UnitId} : (s.cntAdd r k i v src).2.portSide = s.portSide := by
  unfold cntAdd
  extract_lets size a
  split
  · exact portSide_wf_status (z := F.ETH_STATUS_CNT_OOR) (by decide)
  · have h : (s.guardAcc a r .write src).2.portSide = s.portSide := portSide_guardAcc
    generalize s.guardAcc a r .write src = y at h
    rcases y with ⟨_ | k, y⟩
    · dsimp only at h ⊢
      cases y.memDown a with
      | none => exact (portSide_memStore _).trans ((portSide_memBytes _).trans h)
      | some b => exact h
    · exact h

@[simp] theorem State.portSide_tiCount : (s.tiCount n k v).portSide = s.portSide := by simp [tiCount]

@[simp] theorem State.portSide_countDrop : (s.countDrop c n k).portSide = s.portSide := by simp [countDrop, R.DROP_CNT]

@[simp] theorem State.portSide_release : (s.release f).portSide = s.portSide := by simp [release]

@[simp] theorem State.portSide_dropKeep : (s.dropKeep f n).portSide = s.portSide := by simp [dropKeep]

@[simp] theorem State.portSide_reap : (s.reap f).portSide = s.portSide := by simp [reap]

@[simp] theorem State.portSide_flushPort : (s.flushPort p).portSide = s.portSide := by simp [flushPort]

@[simp] theorem State.portSide_linkBits : s.linkBits.portSide = s.portSide := portSide_wf_status (z := F.ETH_STATUS_LINK_UP) (by decide)

@[simp] theorem State.portSide_portDown : (s.portDown p).portSide = s.portSide := by simp [portDown]

@[simp] theorem State.portSide_portStart : (s.portStart p).portSide = s.portSide := by simp [portStart]

/-! ### Counters in memory (R132) -/

theorem State.elsewhere_cohRead : s.Elsewhere (s.cohRead l e).2 := by
  unfold cohRead
  split
  · exact .refl s
  · split
    · exact .refl s
    · split
      · exact .refl s
      · exact elsewhere_lineRead

theorem State.elsewhere_memBytes (f : Nat) : s.Elsewhere (s.memBytes f a n).2 := by
  induction f generalizing s a n with
  | zero => exact .refl s
  | succ f ih =>
    have h : s.Elsewhere ((s.touchChan (keyChan (s.dramKey a))).cohRead (a / 64)).2 := elsewhere_touchChan.trans elsewhere_cohRead
    unfold memBytes
    split
    · exact .refl s
    · split
      · exact h.trans ih
      · exact ih

theorem State.elsewhere_cntAdd {src : Option UnitId} : s.Elsewhere (s.cntAdd r k i v src).2 := by
  unfold cntAdd
  extract_lets size a
  split
  · exact elsewhere_wr (not_keptReg_low (by decide) (by decide))
  · have h : s.Elsewhere (s.guardAcc a r .write src).2 := elsewhere_guardAcc
    generalize s.guardAcc a r .write src = y at h
    rcases y with ⟨_ | k, y⟩
    · dsimp only at h ⊢
      cases y.memDown a with
      | none =>
        generalize 3 = fuel
        exact h.trans ((elsewhere_memBytes fuel).trans (elsewhere_memStore fuel))
      | some b => exact h
    · exact h

theorem State.elsewhere_tiCount : s.Elsewhere (s.tiCount n k v) := .ite (.refl s) elsewhere_cntAdd

@[simp] theorem State.eth_tiCount : (s.tiCount n k v).eth = s.eth := elsewhere_tiCount.eth

@[simp] theorem State.eth_countDrop : (s.countDrop c n k).eth = s.eth := by
  have h (t : State) (n : Nat) : (if 0xF0 ≤ k then t.bump .eth R.DROP_CNT 1 n else t).eth = t.eth := by split <;> rfl
  exact (h _ _).trans eth_tiCount

end Sys2Proof.Machine

/-! Ports that go down and start: their queues, their lanes, and PORT_LINK_DOWN (R109, R125, R136). -/

namespace Sys2Proof.Machine

set_option Elab.async false

variable {s t x : State} {u : UnitId} {g : Reg} {a f i j n p q k l m v : Nat} {r : Req} {w : Word} {d b : List Byte} {c : Bool} {e : Ecc} {z : Fld}

/-! ### What releasing a frame leaves of the packet path -/

/-- The packet path without its frames, and without what they hold of the buffer and of the peers' classes. -/
def State.path (s : State) : EthSt := { s.eth with frames := [], cells := [], pauseOut := [] }

theorem State.path_of_eth (h : t.eth = s.eth) : t.path = s.path := by rw [path, path, h]

theorem State.egress_of_eth (h : t.eth = s.eth) : t.egress k = s.egress k := by rw [egress, egress, h]

theorem State.egress_of_path (h : t.path = s.path) : t.egress k = s.egress k := by
  have he : t.path.egress = s.path.egress := by rw [h]
  exact congrArg (mapGet [] · k) he

theorem State.ports_of_path (h : t.path = s.path) : t.eth.ports = s.eth.ports := by
  have he : t.path.ports = s.path.ports := by rw [h]
  exact he

@[simp] theorem State.path_portCnt : (s.portCnt p k n).path = s.path := rfl
@[simp] theorem State.path_countDrop : (s.countDrop c n k).path = s.path := path_of_eth eth_countDrop

@[simp] theorem State.path_pfcCheck : (s.pfcCheck k).path = s.path := by
  unfold pfcCheck
  dsimp only
  split
  · split
    · rfl
    · rfl
  · split
    · rfl
    · rfl

theorem State.path_release : (s.release f).path = s.path := by
  unfold release
  extract_lets y s1 _ s2
  have h : s2.path = s.path := by
    unfold s2
    split
    · rfl
    · rfl
  split
  · exact h
  · exact path_pfcCheck.trans h

@[simp] theorem State.path_dropKeep : (s.dropKeep f n).path = s.path := path_release.trans path_countDrop

@[simp] theorem State.path_reap : (s.reap f).path = s.path := by
  unfold reap
  split
  · rfl
  · rfl

/-! ### Ports that go down (R109, R136) -/

theorem State.egress_setEgress_self {y : List Nat} : (s.setEgress k y).egress k = y := mapGet_mapSet_self _ _ _ _

theorem State.egress_setEgress_ne {y : List Nat} (h : l ≠ k) : (s.setEgress k y).egress l = s.egress l := mapGet_mapSet_ne _ _ _ _ h

/-- What `flushPort` does to one class of a port. -/
def State.flushClass (s : State) (k : Nat) : State := (s.egress k).foldl (fun s f => (s.dropKeep f dLinkDown).reap f) (s.setEgress k [])

theorem State.flushPort_eq : s.flushPort p = (List.range 8).foldl (fun s c => s.flushClass (8 * p + c)) s := rfl

theorem State.path_flushClass : (s.flushClass k).path = (s.setEgress k []).path := by
  unfold flushClass
  exact foldl_keeps path (fun _ _ => path_reap.trans path_dropKeep) _

theorem State.ports_flushClass : (s.flushClass k).eth.ports = s.eth.ports :=
  (ports_of_path path_flushClass).trans rfl

theorem State.egress_flushClass_self : (s.flushClass k).egress k = [] := (egress_of_path path_flushClass).trans egress_setEgress_self

theorem State.egress_flushClass_nil (h : s.egress l = []) : (s.flushClass k).egress l = [] := by
  by_cases hl : l = k
  · exact hl ▸ egress_flushClass_self
  · exact (egress_of_path path_flushClass).trans ((egress_setEgress_ne hl).trans h)

theorem State.ports_flushPort : (s.flushPort p).eth.ports = s.eth.ports := by
  rw [flushPort_eq]
  exact foldl_keeps (fun t => t.eth.ports) (fun _ _ => ports_flushClass) _

theorem State.egress_foldl_flushClass_nil (cs : List Nat) (h : s.egress l = []) :
    (cs.foldl (fun s c => s.flushClass (8 * p + c)) s).egress l = [] := by
  induction cs generalizing s with
  | nil => exact h
  | cons c cs ih => exact ih (egress_flushClass_nil h)

theorem State.egress_foldl_flushClass (cs : List Nat) (h : k ∈ cs) :
    (cs.foldl (fun s c => s.flushClass (8 * p + c)) s).egress (8 * p + k) = [] := by
  induction cs generalizing s with
  | nil => cases h
  | cons c cs ih =>
    rcases List.mem_cons.mp h with rfl | h
    · exact egress_foldl_flushClass_nil cs egress_flushClass_self
    · exact ih h

theorem State.egress_flushPort (h : k < 8) : (s.flushPort p).egress (8 * p + k) = [] :=
  egress_foldl_flushClass _ (List.mem_range.mpr h)

theorem State.ePort_setEPort_self {y : EPort} : (s.setEPort p y).ePort p = y := mapGet_mapSet_self _ _ _ _

theorem State.ePort_setEPort_ne {y : EPort} (h : q ≠ p) : (s.setEPort p y).ePort q = s.ePort q := mapGet_mapSet_ne _ _ _ _ h

theorem State.ePort_of_ports (h : t.eth.ports = s.eth.ports) : t.ePort q = s.ePort q := by rw [ePort, ePort, h]

theorem State.eth_linkBits : s.linkBits.eth = s.eth := rfl

/-- Going down is the port's own bit, what waited for its peer, its queues and LINK_UP. -/
theorem State.portDown_eth : ∃ t : State, t.eth.ports = (s.setEPort p { s.ePort p with up := false }).eth.ports ∧
    (s.portDown p).eth = (t.flushPort p).eth := by
  unfold portDown
  extract_lets y down eth cut
  exact ⟨cut, rfl, eth_linkBits⟩

theorem State.ports_portDown : (s.portDown p).eth.ports = (s.setEPort p { s.ePort p with up := false }).eth.ports := by
  obtain ⟨t, ht, he⟩ := s.portDown_eth (p := p)
  rw [he, ports_flushPort, ht]

theorem State.ePort_portDown_self : (s.portDown p).ePort p = { s.ePort p with up := false } :=
  (ePort_of_ports ports_portDown).trans ePort_setEPort_self

theorem State.egress_portDown (h : k < 8) : (s.portDown p).egress (8 * p + k) = [] := by
  obtain ⟨t, -, he⟩ := s.portDown_eth (p := p)
  exact (egress_of_eth he).trans (egress_flushPort h)

/-- What a port starts with in the port set. -/
def State.freshPort (s : State) (p : Nat) : EPort :=
  if s.portExists p then { up := false, lanes := s.healthyLanes p, training := s.healthyLanes p != 0 } else {}

theorem State.portStart_eq : s.portStart p = s.setEPort p (s.freshPort p) := by
  unfold portStart freshPort
  split
  · rfl
  · rfl

theorem State.freshPort_of_exists (h : s.portExists p = true) :
    s.freshPort p = { up := false, lanes := s.healthyLanes p, training := s.healthyLanes p != 0 } := if_pos h

theorem State.up_freshPort : (s.freshPort p).up = false := by
  unfold freshPort
  split
  · rfl
  · rfl

theorem State.ePort_portStart_self : (s.portStart p).ePort p = s.freshPort p := by rw [portStart_eq, ePort_setEPort_self]

theorem State.egress_portStart : (s.portStart p).egress k = s.egress k := by
  rw [portStart_eq]
  rfl

theorem State.linkUp_of_up (h : (s.ePort p).up = false) : s.linkUp p = false := by simp [linkUp, h]

/-- R109, R125: PORT_LINK_DOWN. -/
theorem State.does_portLinkDown {p : Fin 8} :
    s.Does (.portLinkDown p) (fun t => t.linkUp p = false ∧ ∀ k, k < 8 → t.egress (8 * p.val + k) = []) := by
  have h : ((s.linkLost p).ePort p).up = false ∧ ∀ k, k < 8 → (s.linkLost p).egress (8 * p.val + k) = [] := by
    unfold linkLost
    extract_lets may
    split
    · exact ⟨(congrArg EPort.up ePort_portStart_self).trans up_freshPort, fun k hk => egress_portStart.trans (egress_portDown hk)⟩
    · exact ⟨congrArg EPort.up ePort_portDown_self, fun k hk => egress_portDown hk⟩
  refine does_of_done (x := s.linkLost p) rfl fun y _ he _ _ => ⟨linkUp_of_up ?_, fun k hk => ?_⟩
  · exact (congrArg EPort.up (ePort_of_ports (congrArg EthSt.ports he))).trans h.1
  · exact (egress_of_eth he).trans (h.2 k hk)

end Sys2Proof.Machine

/-! LANE_FAIL and PORT_LINK_UP (R109, R110). -/

namespace Sys2Proof.Machine

set_option Elab.async false

variable {s t x : State} {u : UnitId} {g : Reg} {a f i j n p q k l m v : Nat} {r : Req} {w : Word} {d b : List Byte} {c : Bool} {e : Ecc} {z : Fld}

/-! ### The port set and LANE_FAIL (R109, R110) -/

theorem State.cfg_of_portSide (h : t.portSide = s.portSide) : t.rd .eth R.ETH_CFG = s.rd .eth R.ETH_CFG := congrArg (·.2.1) h

theorem State.laneFail_of_portSide (h : t.portSide = s.portSide) :
    t.rf .eth R.ETH_STATUS F.ETH_STATUS_LANE_FAIL = s.rf .eth R.ETH_STATUS F.ETH_STATUS_LANE_FAIL := congrArg (·.2.2) h

theorem State.portMode_of_cfg (h : t.rd .eth R.ETH_CFG = s.rd .eth R.ETH_CFG) : t.portMode = s.portMode := by
  rw [portMode, portMode, ethF, ethF, rf, rf, h]

theorem State.portExists_of_cfg (h : t.rd .eth R.ETH_CFG = s.rd .eth R.ETH_CFG) : t.portExists p = s.portExists p := by
  rw [portExists, portExists, portCount, portCount, portMode_of_cfg h]

theorem State.cfg_wr (h : 0x104 ≤ g.off) : (s.wr .eth g w i j).rd .eth R.ETH_CFG = s.rd .eth R.ETH_CFG := by
  refine rd_wr_ne _ _ _ _ _ _ _ _ _ _ ?_
  simp only [regAddr, R.ETH_CFG]
  omega

theorem State.healthyLanes_and : s.healthyLanes p &&& s.rf .eth R.ETH_STATUS F.ETH_STATUS_LANE_FAIL = 0 := by
  unfold healthyLanes
  extract_lets bad width grp cand
  change (cand.find? fun m => m &&& bad == 0).getD 0 &&& bad = 0
  cases h : cand.find? fun m => m &&& bad == 0 with
  | none => exact Nat.zero_and _
  | some m => exact beq_iff_eq.mp (List.find?_some (p := fun m => m &&& bad == 0) h)

/-- Lane `p` marked as failed. -/
def State.laneMarked (s : State) (p : Nat) : State :=
  s.wf .eth R.ETH_STATUS F.ETH_STATUS_LANE_FAIL (s.rf .eth R.ETH_STATUS F.ETH_STATUS_LANE_FAIL ||| 2 ^ p)

theorem State.rf_lt {y : UnitId} : s.rf y g z i j < 2 ^ z.width := Nat.mod_lt _ (Nat.two_pow_pos _)

theorem State.rf_laneMarked (h : p < 8) : (s.laneMarked p).rf .eth R.ETH_STATUS F.ETH_STATUS_LANE_FAIL =
    s.rf .eth R.ETH_STATUS F.ETH_STATUS_LANE_FAIL ||| 2 ^ p :=
  (rf_wf _ _ _ _ _ _ (by decide)).trans (Nat.mod_eq_of_lt (Nat.or_lt_two_pow rf_lt (Nat.pow_lt_pow_right (by decide) h)))

theorem State.cfg_laneMarked : (s.laneMarked p).rd .eth R.ETH_CFG = s.rd .eth R.ETH_CFG := cfg_wr (by decide)

theorem State.laneFail_eq : s.laneFail l = if s.portExists (l / s.portWidth) ∧ (s.ePort (l / s.portWidth)).lanes.testBit l
    then ((s.laneMarked l).portDown (l / s.portWidth)).portStart (l / s.portWidth) else s.laneMarked l := by
  have h : (s.laneMarked l).portExists (l / s.portWidth) = s.portExists (l / s.portWidth) := portExists_of_cfg cfg_laneMarked
  rw [← h]
  rfl

/-- R110: a lane that its port uses fails. -/
theorem State.does_laneFail {p : Fin 8} (he : s.portExists (p.val / s.portWidth) = true)
    (hl : (s.ePort (p.val / s.portWidth)).lanes.testBit p = true) : s.Does (.laneFail p) (fun t =>
      t.rf .eth R.ETH_STATUS F.ETH_STATUS_LANE_FAIL = s.rf .eth R.ETH_STATUS F.ETH_STATUS_LANE_FAIL ||| 2 ^ p.val ∧
      (t.ePort (p.val / s.portWidth)).up = false ∧
      (t.ePort (p.val / s.portWidth)).lanes &&& (s.rf .eth R.ETH_STATUS F.ETH_STATUS_LANE_FAIL ||| 2 ^ p.val) = 0 ∧
      ((t.ePort (p.val / s.portWidth)).training = true ↔ (t.ePort (p.val / s.portWidth)).lanes ≠ 0)) := by
  generalize hq : p.val / s.portWidth = q at he hl ⊢
  have hbad := s.rf_laneMarked p.isLt
  have hdown : ((s.laneMarked p).portDown q).portSide = (s.laneMarked p).portSide := portSide_portDown
  have hexists : ((s.laneMarked p).portDown q).portExists q = true := by
    rw [portExists_of_cfg (cfg_of_portSide hdown), portExists_of_cfg cfg_laneMarked, he]
  have hport := ePort_portStart_self.trans (freshPort_of_exists hexists)
  have hand := ((s.laneMarked p).portDown q).healthyLanes_and (p := q)
  rw [laneFail_of_portSide hdown, hbad] at hand
  generalize ((s.laneMarked p).portDown q).healthyLanes q = m at hport hand
  have hx : s.laneFail p = ((s.laneMarked p).portDown q).portStart q := by rw [laneFail_eq, hq, if_pos ⟨he, hl⟩]
  refine does_of_done_port (x := ((s.laneMarked p).portDown q).portStart q) (congrArg (State.done · s) hx) fun y hs he => ?_
  have hy : y.ePort q = { up := false, lanes := m, training := m != 0 } := (ePort_of_ports (congrArg EthSt.ports he)).trans hport
  rw [hy, laneFail_of_portSide (hs.trans (portSide_portStart.trans hdown)), hbad]
  exact ⟨rfl, rfl, hand, bne_iff_ne⟩

theorem State.Calm.does_laneFail_unused {p : Fin 8} (hc : s.Calm)
    (h : s.portExists (p.val / s.portWidth) = false ∨ (s.ePort (p.val / s.portWidth)).lanes.testBit p = false) :
    s.Does (.laneFail p) (fun t =>
      t = s.wf .eth R.ETH_STATUS F.ETH_STATUS_LANE_FAIL (s.rf .eth R.ETH_STATUS F.ETH_STATUS_LANE_FAIL ||| 2 ^ p.val)) := by
  have hx : s.laneFail p = s.laneMarked p := by
    rw [laneFail_eq, if_neg]
    rintro ⟨he, hl⟩
    rcases h with h | h
    · rw [h] at he
      cases he
    · rw [h] at hl
      cases hl
  exact hc.does (x := s.laneMarked p) (congrArg (State.done · s) hx) (untraced_wr_eth (by decide)) rfl

/-! ### LINK_UP (R109) -/

/-- Bits summed up in their places. -/
theorem sumBits_lt (f : Nat → Bool) (n : Nat) : (List.range n).foldl (fun m p => m + 2 ^ p * b2n (f p)) 0 < 2 ^ n := by
  induction n with
  | zero => exact Nat.one_pos
  | succ n ih =>
    rw [List.range_succ, List.foldl_append, List.foldl_cons, List.foldl_nil, Nat.pow_succ]
    have hb : 2 ^ n * b2n (f n) ≤ 2 ^ n * 1 := Nat.mul_le_mul_left _ (by cases f n <;> decide)
    omega

theorem testBit_sumBits (f : Nat → Bool) (n q : Nat) (h : q < n) :
    ((List.range n).foldl (fun m p => m + 2 ^ p * b2n (f p)) 0).testBit q = f q := by
  induction n with
  | zero => cases h
  | succ n ih =>
    rw [List.range_succ, List.foldl_append, List.foldl_cons, List.foldl_nil, Nat.add_comm, Nat.testBit_two_pow_mul_add _ (sumBits_lt f n)]
    split
    · rename_i hq
      exact ih hq
    · obtain rfl : q = n := by omega
      rw [Nat.sub_self]
      cases f q
      · rfl
      · rfl

theorem State.testBit_linkBits (h : q < 8) : (s.linkBits.rf .eth R.ETH_STATUS F.ETH_STATUS_LINK_UP).testBit q = s.linkUp q := by
  rw [linkBits, rf_wf _ _ _ _ _ _ (by decide)]
  exact (congrArg (Nat.testBit · q) (Nat.mod_eq_of_lt (sumBits_lt s.linkUp 8))).trans (testBit_sumBits _ _ _ h)

theorem State.linkUp_linkBits : s.linkBits.linkUp q = s.linkUp q :=
  congrArg ((s.ePort q).up && ·) (portExists_of_cfg (cfg_wr (by decide)))

/-- R109: a port that trains comes up. -/
theorem State.Calm.does_portLinkUp {p : Fin 8} (hc : s.Calm) (ht : (s.ePort p).training = true) (he : s.portExists p = true)
    (ha : s.answers .eth = true) (hm : s.mode.mode ≠ .boot) : s.Does (.portLinkUp p) (fun t =>
      t.ePort p = { s.ePort p with up := true, training := false } ∧ (∀ q, q ≠ p.val → t.ePort q = s.ePort q) ∧
      ∀ q, q < 8 → (t.rf .eth R.ETH_STATUS F.ETH_STATUS_LINK_UP).testBit q = t.linkUp q) := by
  have hx : s.portUp p = (s.setEPort p { s.ePort p with up := true, training := false }).linkBits := if_pos ⟨ht, he, ha, hm⟩
  refine hc.does (x := (s.setEPort p { s.ePort p with up := true, training := false }).linkBits) (congrArg (State.done · s) hx)
    (.trans (t := s.setEPort p _) {} (untraced_wr_eth (by decide))) ⟨ePort_setEPort_self, fun q hq => ePort_setEPort_ne hq, fun q hq => ?_⟩
  rw [testBit_linkBits hq, linkUp_linkBits]

end Sys2Proof.Machine

/-! Writes of registers of the Ethernet complex, and PORT_MODE (R109). -/

namespace Sys2Proof.Machine

set_option Elab.async false

variable {s t x y : State} {u : UnitId} {g : Reg} {a f i j n p q k l m : Nat} {r : Req} {v w : Word} {d b : List Byte} {c : Bool} {z : Fld}

/-! ### Writes of registers of the Ethernet complex -/

theorem State.regWrite_eth (hw : regWritable g ≠ 0) (hg : 0x100 ≤ g.off) (hs : g ≠ R.KEY_SALT) (hk : g ≠ R.KEY_WORD) :
    s.regWrite r .eth g i j v none = (none, (s.fieldsWritten r .eth g i j v).ethPost g i (s.rd .eth g i j) v) := by
  have hshadow : ∀ z : State, z.shadowWrite .eth g i j = z := fun _ => rfl
  simp [regWrite, hw, Nat.not_lt.2 hg, hs, hk, hshadow, fieldsWritten, wrRefuse, wrDiscard, wrPost]

/-- `y` is `s` with what register `g`, `n` makes of the value `v` written to it, and with the configuration event. -/
structure State.EthWritten (s : State) (g : Reg) (n : Nat) (v : Word) (y : State) : Prop where
  parts : ∃ M U, y = { s with regs := M, units := U }
  rd : y.rd .eth g n = regWritten g (s.rd .eth g n) v
  other : ∀ a d, a ≠ regAddr .eth g n 0 → mapGet d y.regs a = mapGet d s.regs a

theorem State.EthWritten.eth (h : s.EthWritten g n v y) : y.eth = s.eth := by
  obtain ⟨M, U, rfl⟩ := h.parts
  rfl

theorem State.EthWritten.mode (h : s.EthWritten g n v y) : y.mode = s.mode := by
  obtain ⟨M, U, rfl⟩ := h.parts
  rfl

/-- A granted write leaves what the register makes of its fields and of the configuration event. -/
theorem State.Calm.sets_eth {o : Instr} {P : State → Prop} (hc : s.Calm) (he : exec o s = (s.wrTo r .eth g v n).done s)
    (hw : regWritable g ≠ 0) (hg : 0x100 ≤ g.off) (hs : g ≠ R.KEY_SALT) (hk : g ≠ R.KEY_WORD)
    (h : ∀ y, s.EthWritten g n v y →
      y.Untraced (y.ethPost g n (s.rd .eth g n) v) ∧ P ((y.ethPost g n (s.rd .eth g n) v).answer (.ok 0))) :
    s.Sets r .eth g n o P := fun hgr => by
  obtain ⟨M, U, hy, hrd, hne⟩ := s.fieldsWritten_eq r .eth g n 0 v
  have hu : s.Untraced (s.fieldsWritten r .eth g n 0 v) := fieldsWritten_untraced (hgr.not_traceReg (by simp) (by simp))
  obtain ⟨hpost, hP⟩ := h _ ⟨⟨M, U, hy⟩, hrd, fun a d ha => (congrArg (fun y : State => mapGet d y.regs a) hy).trans (hne a d ha)⟩
  exact hc.does (by rw [he, wrTo_ok hgr (regWrite_eth hw hg hs hk)]) ((hu.trans hpost).trans {}) ⟨rfl, hP⟩

/-! ### PORT_MODE (R109) -/

theorem natBits_cfgWritten (old v : Word) : natBits (regWritten R.ETH_CFG old v).toNat 1 0 = v.toNat % 4 := by
  refine Nat.eq_of_testBit_eq fun i => ?_
  change ((regWritten R.ETH_CFG old v).toNat % 2 ^ 2).testBit i = (v.toNat % 2 ^ 2).testBit i
  rw [Nat.testBit_mod_two_pow, Nat.testBit_mod_two_pow]
  by_cases hi : i < 2
  · have hrw : Nat.testBit 0x30FF0703 i = true := by interval_cases i <;> rfl
    have hones : Nat.testBit 0xFFFFFFFF i = true := by interval_cases i <;> rfl
    simp only [regWritten, R.ETH_CFG, BitVec.toNat_ofNat, Nat.testBit_mod_two_pow, Nat.testBit_or, Nat.testBit_and, Nat.testBit_xor, hrw, hones]
    simp [show i < 32 by omega]
  · simp [hi]

theorem State.freshPort_of_portSide (h : t.portSide = s.portSide) : t.freshPort p = s.freshPort p := by
  have hw : t.portWidth = s.portWidth := by rw [portWidth, portWidth, portMode_of_cfg (cfg_of_portSide h)]
  have hl : t.healthyLanes p = s.healthyLanes p := by
    unfold healthyLanes ethF
    rw [hw, laneFail_of_portSide h]
  rw [freshPort, freshPort, portExists_of_cfg (cfg_of_portSide h), hl]

theorem State.portWidth_cases : s.portWidth = 4 ∨ s.portWidth = 2 ∨ s.portWidth = 1 := by
  unfold portWidth
  split
  · exact .inl rfl
  · exact .inr (.inl rfl)
  · exact .inr (.inr rfl)

/-- With no lane failed a port starts on all its lanes. -/
theorem State.healthyLanes_all (h : s.rf .eth R.ETH_STATUS F.ETH_STATUS_LANE_FAIL = 0) :
    s.healthyLanes p = (2 ^ s.portWidth - 1) * 2 ^ (s.portWidth * p) := by
  unfold healthyLanes ethF
  rw [h]
  rcases s.portWidth_cases with hw | hw | hw
  · simp [hw]
  · simp [hw]
  · simp [hw]

theorem State.freshPort_all (h : s.rf .eth R.ETH_STATUS F.ETH_STATUS_LANE_FAIL = 0) (hp : p < s.portCount) :
    s.freshPort p = { up := false, lanes := (2 ^ s.portWidth - 1) * 2 ^ (s.portWidth * p), training := true } := by
  have hpos : (2 ^ s.portWidth - 1) * 2 ^ (s.portWidth * p) ≠ 0 := by
    have h1 : 0 < 2 ^ s.portWidth - 1 := by rcases s.portWidth_cases with hw | hw | hw <;> rw [hw] <;> decide
    positivity
  have hne : ((2 ^ s.portWidth - 1) * 2 ^ (s.portWidth * p) != 0) = true := bne_iff_ne.mpr hpos
  rw [freshPort_of_exists (decide_eq_true hp), healthyLanes_all h, hne]

/-- What a port becomes when every link is taken down. -/
def State.portAfter (s : State) (restart : Bool) (p : Nat) : EPort := if restart then s.freshPort p else {}

theorem State.portRestarted_eq : (if c then s.portStart p else s.setEPort p {}) = s.setEPort p (s.portAfter c p) := by
  cases c
  · rfl
  · exact portStart_eq

theorem State.portAfter_of_portSide (h : t.portSide = s.portSide) : t.portAfter c p = s.portAfter c p := by
  rw [portAfter, portAfter, freshPort_of_portSide h]

theorem State.ePort_foldl_setEPort (ps : List Nat) (h : t.portSide = s.portSide) (hq : q ∈ ps ∨ t.ePort q = s.portAfter c q) :
    (ps.foldl (fun s p => s.setEPort p (s.portAfter c p)) t).ePort q = s.portAfter c q := by
  induction ps generalizing t with
  | nil => exact hq.resolve_left List.not_mem_nil
  | cons p ps ih =>
    refine ih (portSide_setEPort.trans h) ?_
    by_cases hqp : q = p
    · subst hqp
      exact .inr (ePort_setEPort_self.trans (portAfter_of_portSide h))
    · rw [ePort_setEPort_ne hqp]
      exact hq.imp_left fun hm => (List.mem_cons.mp hm).resolve_left hqp

theorem State.linksDown_eq : s.linksDown c =
    (List.range 8).foldl (fun s p => s.setEPort p (s.portAfter c p)) ((List.range 8).foldl (fun s p => s.portDown p) s) := by
  simp only [linksDown, ← portRestarted_eq]

theorem State.portSide_linksDown : (s.linksDown c).portSide = s.portSide := by
  rw [linksDown_eq]
  exact (portSide_foldl (fun _ _ => portSide_setEPort) _).trans (portSide_foldl (fun _ _ => portSide_portDown) _)

theorem State.ePort_linksDown (h : q < 8) : (s.linksDown c).ePort q = s.portAfter c q := by
  rw [linksDown_eq]
  exact ePort_foldl_setEPort _ (portSide_foldl (fun _ _ => portSide_portDown) _) (.inl (List.mem_range.mpr h))

theorem State.portCount_le : s.portCount ≤ 8 := by
  unfold portCount
  split <;> omega

/-- R109: a write that changes PORT_MODE while no frame waits at a port. -/
theorem State.Calm.sets_portMode (hc : s.Calm) (hv : v.toNat % 4 ≠ (s.rd .eth R.ETH_CFG).toNat % 4) (hq : s.eth.egress = []) :
    s.Sets r .eth R.ETH_CFG 0 (.portModeChange r v) (fun t =>
      t.rf .eth R.ETH_STATUS F.ETH_STATUS_LANE_FAIL = 0 ∧ (∀ q, q < 8 → t.linkUp q = false) ∧ t.portMode = v.toNat % 4 ∧
      (s.mode.mode ≠ .boot ∧ s.mode.mode ≠ .dormant → ∀ q, q < t.portCount →
        t.ePort q = { up := false, lanes := (2 ^ t.portWidth - 1) * 2 ^ (t.portWidth * q), training := true })) := by
  refine hc.sets_eth rfl (by decide) (by decide) (by decide) (by decide) fun y hy => ?_
  have hchanged : natBits (s.rd .eth R.ETH_CFG).toNat 1 0 ≠ natBits (y.rd .eth R.ETH_CFG).toNat 1 0 := by
    rw [hy.rd, natBits_cfgWritten]
    exact hv.symm
  have hpost : y.ethPost R.ETH_CFG 0 (s.rd .eth R.ETH_CFG) v =
      (y.wf .eth R.ETH_STATUS F.ETH_STATUS_LANE_FAIL 0).linksDown (y.mode.mode != .boot && y.mode.mode != .dormant) := by
    rw [ethPost, if_pos rfl, if_pos hchanged]
  generalize hz : y.wf .eth R.ETH_STATUS F.ETH_STATUS_LANE_FAIL 0 = z at hpost
  have huz : y.Untraced z := hz ▸ untraced_wr_eth (by decide)
  have hzq : z.eth.egress = [] := hz ▸ hy.eth ▸ hq
  have hzm : z.rd .eth R.ETH_CFG = regWritten R.ETH_CFG (s.rd .eth R.ETH_CFG) v := by
    rw [← hz, wf, cfg_wr (by decide), hy.rd]
  have hzl : z.rf .eth R.ETH_STATUS F.ETH_STATUS_LANE_FAIL = 0 := hz ▸ rf_wf _ _ _ _ _ _ (by decide)
  rw [hpost]
  generalize hrs : (y.mode.mode != .boot && y.mode.mode != .dormant) = restart
  have hside : ((z.linksDown restart).answer (.ok 0)).portSide = z.portSide := (portSide_of_same rfl rfl).trans portSide_linksDown
  have hport (q : Nat) (hq : q < 8) : ((z.linksDown restart).answer (.ok 0)).ePort q = z.portAfter restart q := ePort_linksDown hq
  generalize (z.linksDown restart).answer (.ok 0) = t at hside hport
  have hcfg := cfg_of_portSide hside
  refine ⟨huz.trans (aside_linksDown hzq).untraced, (laneFail_of_portSide hside).trans hzl, fun q hq => linkUp_of_up ?_, ?_, ?_⟩
  · rw [hport q hq, portAfter]
    split
    · exact up_freshPort
    · rfl
  · rw [portMode, ethF, rf, hcfg, hzm]
    exact natBits_cfgWritten _ _
  · rintro ⟨hboot, hdorm⟩ q hq
    have hr : restart = true := by
      rw [← hrs]
      simp [hy.mode, hboot, hdorm]
    have hfresh := freshPort_all ((laneFail_of_portSide hside).trans hzl) hq
    rw [hport q (hq.trans_le portCount_le), portAfter, hr, if_pos rfl, ← freshPort_of_portSide hside, hfresh]

/-- R109: a write that leaves PORT_MODE. -/
theorem State.Calm.sets_portMode_same (hc : s.Calm) (hv : v.toNat % 4 = (s.rd .eth R.ETH_CFG).toNat % 4) :
    s.Sets r .eth R.ETH_CFG 0 (.portModeChange r v) (fun t => t.eth = s.eth) := by
  refine hc.sets_eth rfl (by decide) (by decide) (by decide) (by decide) fun y hy => ?_
  have hsame : natBits (s.rd .eth R.ETH_CFG).toNat 1 0 = natBits (y.rd .eth R.ETH_CFG).toNat 1 0 := by
    rw [hy.rd, natBits_cfgWritten]
    exact hv.symm
  have hpost : y.ethPost R.ETH_CFG 0 (s.rd .eth R.ETH_CFG) v = y := by
    rw [ethPost, if_pos rfl, if_neg (not_not_intro hsame)]
  rw [hpost]
  exact ⟨{}, hy.eth⟩

end Sys2Proof.Machine

/-! Frames that arrive: counted and discarded, or in the buffer until their lookup is done (R111, R112, R121, R123). -/

namespace Sys2Proof.Machine

set_option Elab.async false

variable {s t x y : State} {u : UnitId} {g : Reg} {a f i j n p q k l m : Nat} {r : Req} {v w : Word} {d b : List Byte} {c : Bool} {z : Fld}

/-! ### Counting at the ports (R111, R122) -/

/-- From `s` to `t` of the registers only counters of the ports have changed, and neither the mode nor time. -/
structure State.Counted (s t : State) : Prop where
  now : t.now = s.now := by rfl
  mode : t.mode = s.mode := by rfl
  regs : ∀ a d, a < 0x0E00200800 → mapGet d t.regs a = mapGet d s.regs a := by exact fun _ _ _ => rfl

theorem State.Counted.trans (h : s.Counted t) (h' : t.Counted x) : s.Counted x :=
  ⟨h'.now.trans h.now, h'.mode.trans h.mode, fun a d ha => (h'.regs a d ha).trans (h.regs a d ha)⟩

theorem State.counted_wr (h : 0x800 ≤ g.off) : s.Counted (s.wr .eth g w i j) where
  regs a d ha := mapGet_mapSet_ne _ _ _ _ (by simp only [regAddr, UnitId.base]; omega)

theorem State.counted_bump64 {lo hi : Reg} (hl : 0x800 ≤ lo.off) (hh : 0x800 ≤ hi.off) : s.Counted (s.bump64 .eth lo hi n i j) :=
  (counted_wr hl).trans (counted_wr hh)

theorem State.counted_portCnt : s.Counted (s.portCnt p k n) := counted_bump64 (by decide) (by decide)

theorem State.eth_bump64 {lo hi : Reg} : (s.bump64 u lo hi n i j).eth = s.eth := rfl

theorem State.eth_portCnt : (s.portCnt p k n).eth = s.eth := eth_bump64

theorem State.counted_eth {y : EthSt} : s.Counted { s with eth := y } := {}

theorem State.counted_pfcSend : s.Counted (s.pfcSend k n) := .trans (t := s.send _) {} counted_portCnt

theorem State.counted_pfcCheck : s.Counted (s.pfcCheck k) := by
  unfold pfcCheck
  dsimp only
  split
  · split
    · exact counted_pfcSend.trans counted_eth
    · exact {}
  · split
    · exact counted_pfcSend.trans counted_eth
    · exact {}

section
variable (h : s.Counted t)
include h

theorem State.Counted.rd (ha : regAddr u g i j < 0x0E00200800) : t.rd u g i j = s.rd u g i j := h.regs _ _ ha

theorem State.Counted.rf (ha : regAddr u g i j < 0x0E00200800) : t.rf u g z i j = s.rf u g z i j := by rw [State.rf, State.rf, h.rd ha]

theorem State.Counted.dpOn : t.dpOn = s.dpOn := by rw [State.dpOn, State.dpOn, rb, rb, h.mode, h.rf (by decide)]

theorem State.Counted.bufCells : t.bufCells = s.bufCells := by rw [State.bufCells, State.bufCells, ethF, ethF, h.rf (by decide)]

theorem State.Counted.tblOn : t.tblOn 0 = s.tblOn 0 := by
  have hf (z : Fld) : t.rf .eth R.TBL_CFG z 0 = s.rf .eth R.TBL_CFG z 0 := h.rf (by decide)
  simp only [State.tblOn, hf]

theorem State.Counted.rxClass : t.rxClass d = s.rxClass d := by rw [State.rxClass, State.rxClass, ethF, ethF, h.rf (by decide)]

theorem State.Counted.rxTime (hp : p < 8) : t.rxTime p = s.rxTime p := by
  have ha : regAddr .eth R.TS_CORR p 0 < 0x0E00200800 := by
    simp only [regAddr, UnitId.base, R.TS_CORR]
    omega
  rw [State.rxTime, State.rxTime, h.now, h.rf ha]

theorem State.Counted.errAction : t.ethF R.ETH_CFG F.ETH_CFG_ERR_ACTION = s.ethF R.ETH_CFG F.ETH_CFG_ERR_ACTION := h.rf (by decide)

end

/-! ### Cells of a frame (R121) -/

theorem State.frame_setFrame_self {y : Frame} : (s.setFrame f y).frame f = y := mapGet_mapSet_self _ _ _ _

theorem State.frame_of_eth (h : t.eth = s.eth) : t.frame f = s.frame f := by rw [frame, frame, h]

@[simp] theorem State.frame_pfcCheck : (s.pfcCheck k).frame f = s.frame f := by
  unfold pfcCheck
  dsimp only
  split
  · split
    · rfl
    · rfl
  · split
    · rfl
    · rfl

/-- What a frame is charged lies in its own count, its class, its TI and the pauses sent. -/
theorem State.charge_facts : (s.charge f n).frame f = { s.frame f with cells := (s.frame f).cells + n } ∧ (s.charge f n).path = s.path ∧
    s.Counted (s.charge f n) := by
  unfold charge
  extract_lets y s1 _ s2 _ s3
  have h3 : s3.frame f = { s.frame f with cells := (s.frame f).cells + n } ∧ s3.path = s.path ∧ s.Counted s3 := by
    have h1 : s1.frame f = { s.frame f with cells := (s.frame f).cells + n } := frame_setFrame_self
    unfold s3
    split
    · exact ⟨h1, rfl, {}⟩
    · exact ⟨h1, rfl, {}⟩
  exact ⟨frame_pfcCheck.trans h3.1, path_pfcCheck.trans h3.2.1, h3.2.2.trans counted_pfcCheck⟩

/-! ### Frames that arrive (R111, R112, R121, R123) -/

/-- The record of a frame that arrives at port `p`. -/
def State.arrival (s : State) (p : Nat) (d : List Byte) (c : Bool) : Frame :=
  { data := d, tail := c, port := p, tc := s.rxClass d, arr := s.rxTime p, ti := s.ethF R.MISS_CFG F.MISS_CFG_MISS_TI,
    cls := 8 * p + s.rxClass d, rx := true }

theorem State.admitFrame_eq (hd : s.dpOn = true) (hr : s.usedCells + cellsFor d.length ≤ s.bufCells) :
    s.admitFrame p d c = (some s.eth.nextFrame, (s.addFrame (s.arrival p d c)).2.charge s.eth.nextFrame (cellsFor d.length)) := by
  unfold admitFrame
  simp only [hd, Bool.not_true, Bool.false_eq_true, if_false, if_neg (Nat.not_lt.mpr hr)]
  rfl

theorem State.admitFrame_facts (hd : s.dpOn = true) (hr : s.usedCells + cellsFor d.length ≤ s.bufCells) :
    ∃ y, s.admitFrame p d c = (some s.eth.nextFrame, y) ∧ s.Counted y ∧
      (y.eth.fcache = s.eth.fcache ∧ y.eth.looks = s.eth.looks ∧ y.eth.nextFrame = s.eth.nextFrame + 1) ∧
      y.frame s.eth.nextFrame = { s.arrival p d c with cells := cellsFor d.length } := by
  obtain ⟨hf, hpath, hcount⟩ := ((s.addFrame (s.arrival p d c)).2).charge_facts (f := s.eth.nextFrame) (n := cellsFor d.length)
  have hnew : (s.addFrame (s.arrival p d c)).2.frame s.eth.nextFrame = s.arrival p d c := frame_setFrame_self
  have hcache := congrArg EthSt.fcache hpath
  have hlooks := congrArg EthSt.looks hpath
  have hnext := congrArg EthSt.nextFrame hpath
  refine ⟨_, admitFrame_eq hd hr, .trans (t := (s.addFrame (s.arrival p d c)).2) {} hcount, ⟨hcache, hlooks, hnext⟩, hf.trans ?_⟩
  rw [hnew, arrival, Nat.zero_add]

/-- The parser leaves of a frame its bytes and where and when it came. -/
theorem State.parseInto_facts : ∃ y : Frame, (s.parseInto f).2 = s.setFrame f y ∧ y.data = (s.frame f).data ∧ y.tail = (s.frame f).tail ∧
    y.port = (s.frame f).port ∧ y.arr = (s.frame f).arr ∧ y.tc = (s.frame f).tc := by
  unfold parseInto
  extract_lets y p key h miss y'
  exact ⟨y', rfl, rfl, rfl, rfl, rfl, rfl⟩

theorem State.fcLine_nil (h : s.eth.fcache = []) : s.fcLine q a = none := by
  rw [fcLine, h]
  rfl

theorem State.look_nil (h : s.eth.fcache = []) {key : List Word} : s.look n key w = none := by
  unfold look
  dsimp only
  rw [fcLine_nil h]

theorem State.ingestN_of_none (h : s.ingest1 f = (none, t)) : s.ingestN (n + 1) f = t := by rw [ingestN, h]

/-- With an empty flow cache a frame waits for its lookup, its record parsed. -/
theorem State.ingest_waits (ha : s.ethF R.ETH_CFG F.ETH_CFG_ERR_ACTION = 0) (ht : s.tblOn 0 = true) (hf : s.eth.fcache = []) :
    ∃ y : Frame, (y.data = (s.frame f).data ∧ y.tail = (s.frame f).tail ∧ y.port = (s.frame f).port ∧ y.arr = (s.frame f).arr ∧
      y.tc = (s.frame f).tc) ∧ s.ingest f = { s.setFrame f y with
        eth := { (s.setFrame f y).eth with looks := s.eth.looks ++ [⟨0, leWords 11 y.key, y.hash, .frame f⟩] } } := by
  obtain ⟨y, hp, hy⟩ := s.parseInto_facts (f := f)
  refine ⟨y, hy, ?_⟩
  have h1 : s.ingest1 f = (none, { s.setFrame f y with
      eth := { (s.setFrame f y).eth with looks := s.eth.looks ++ [⟨0, leWords 11 y.key, y.hash, .frame f⟩] } }) := by
    unfold ingest1
    generalize s.parseInto f = o at hp
    obtain ⟨p, t⟩ := o
    obtain rfl : t = s.setFrame f y := hp
    have ha' : (s.setFrame f y).ethF R.ETH_CFG F.ETH_CFG_ERR_ACTION = 0 := ha
    have ht' : (s.setFrame f y).tblOn 0 = true := ht
    have hl : (s.setFrame f y).look 0 (leWords 11 y.key) y.hash = none := look_nil hf
    simp [ha', ht', hl, frame_setFrame_self]
  exact ingestN_of_none h1

/-- In `t` the frame that came in at port `p` of `s` waits for its lookup. -/
def State.ArrivedAs (s t : State) (p : Nat) (d : List Byte) : Prop :=
  (t.frame s.eth.nextFrame).data = d ∧ (t.frame s.eth.nextFrame).port = p ∧ (t.frame s.eth.nextFrame).arr = s.rxTime p ∧
    (t.frame s.eth.nextFrame).tc = s.rxClass d ∧ t.eth.nextFrame = s.eth.nextFrame + 1 ∧
    t.eth.looks = s.eth.looks ++ [⟨0, leWords 11 (t.frame s.eth.nextFrame).key, (t.frame s.eth.nextFrame).hash, .frame s.eth.nextFrame⟩]

theorem State.ArrivedAs.of_eth (h : s.ArrivedAs t p d) (he : x.eth = t.eth) : s.ArrivedAs x p d := by
  rw [ArrivedAs, frame_of_eth he, he]
  exact h

/-- Counting the frame first changes none of it. -/
theorem State.Counted.arrivedAs (h : s.Counted t) (he : t.eth = s.eth) (hp : p < 8) (ha : t.ArrivedAs x p d) : s.ArrivedAs x p d := by
  rw [ArrivedAs, he, h.rxTime hp, h.rxClass] at ha
  exact ha

section
variable (ha : s.ethF R.ETH_CFG F.ETH_CFG_ERR_ACTION = 0) (ht : s.tblOn 0 = true) (hf : s.eth.fcache = [])
include ha ht hf

/-- An admitted frame is parsed and waits. -/
theorem State.arrivedAs_ingest (hy : s.Counted y) (hcache : y.eth.fcache = s.eth.fcache) (hlooks : y.eth.looks = s.eth.looks)
    (hnext : y.eth.nextFrame = s.eth.nextFrame + 1) (hframe : y.frame s.eth.nextFrame = { s.arrival p d c with cells := n }) :
    s.ArrivedAs (y.ingest s.eth.nextFrame) p d ∧ ((y.ingest s.eth.nextFrame).frame s.eth.nextFrame).tail = c ∧
      (y.ingest s.eth.nextFrame).eth.part = y.eth.part := by
  obtain ⟨z, ⟨hdata, htail, hport, harr, htc⟩, hz⟩ :=
    y.ingest_waits (f := s.eth.nextFrame) (hy.errAction.trans ha) (hy.tblOn.trans ht) (hcache.trans hf)
  rw [hframe] at hdata htail hport harr htc
  have hself : (y.ingest s.eth.nextFrame).frame s.eth.nextFrame = z := by
    rw [hz]
    exact frame_setFrame_self
  rw [ArrivedAs, hself, hz, ← hlooks]
  exact ⟨⟨hdata, hport, harr, htc, hnext, rfl⟩, htail, rfl⟩

/-- R111, R121: a whole frame with room in the buffer. -/
theorem State.does_frameReceive {p : Fin 8} (hl : s.linkUp p = true) (hd : s.dpOn = true) (h1 : 64 ≤ d.length) (h2 : d.length ≤ s.maxFrame)
    (h3 : d.drop (d.length - 4) = fcs (d.take (d.length - 4))) (hr : s.usedCells + cellsFor (d.take (d.length - 4)).length ≤ s.bufCells) :
    s.Does (.frameReceive p d) (fun t => s.ArrivedAs t p (d.take (d.length - 4)) ∧ (t.frame s.eth.nextFrame).tail = true) := by
  generalize hb : d.take (d.length - 4) = body at h3 hr ⊢
  generalize ht1 : ((s.portCnt p 0).portCnt p 1 d.length).bump64 .eth R.RX_TC_LO R.RX_TC_HI 1 p (s.rxClass body) = t
  have hcount : s.Counted t := by
    rw [← ht1]
    exact (counted_portCnt.trans counted_portCnt).trans (counted_bump64 (by decide) (by decide))
  have heth : t.eth = s.eth := by
    rw [← ht1, eth_bump64, eth_portCnt, eth_portCnt]
  have hused : t.usedCells = s.usedCells := by rw [usedCells, usedCells, heth]
  obtain ⟨y, hadmit, hy, ⟨hcache, hlooks, hnext⟩, hframe⟩ :=
    t.admitFrame_facts (p := p) (d := body) (c := true) (hcount.dpOn.trans hd) (by rw [hused, hcount.bufCells]; exact hr)
  have hx : s.frameRx p d = y.ingest t.eth.nextFrame := by
    unfold frameRx
    simp only [hl, Bool.not_true, Bool.false_eq_true, if_false, if_neg (Nat.not_lt.mpr h1), if_neg (Nat.not_lt.mpr h2), hb, h3, ne_eq,
      not_true_eq_false, ht1, hadmit]
  obtain ⟨harr, htail, -⟩ := arrivedAs_ingest (hcount.errAction.trans ha) (hcount.tblOn.trans ht) (heth ▸ hf) hy
    hcache hlooks hnext hframe
  refine does_of_done (congrArg (State.done · s) hx) fun z _ he _ _ => ⟨(hcount.arrivedAs heth p.isLt harr).of_eth he, ?_⟩
  rw [← heth, frame_of_eth he]
  exact htail

/-- R123: the first bytes of a frame at a port with CUT_EN. -/
theorem State.does_cutThrough {p : Fin 8} (hl : s.linkUp p = true) (hd : s.dpOn = true)
    (hcut : (s.rf .eth R.ETH_CFG F.ETH_CFG_CUT_EN).testBit p = true) (hlen : 256 ≤ d.length) (hpart : mapGet none s.eth.part p = none)
    (hr : s.usedCells + cellsFor d.length ≤ s.bufCells) : s.Does (.cutThroughDispatch p d) (fun t =>
      s.ArrivedAs t p d ∧ (t.frame s.eth.nextFrame).tail = false ∧ mapGet none t.eth.part p = some s.eth.nextFrame) := by
  obtain ⟨y, hadmit, hy, ⟨hcache, hlooks, hnext⟩, hframe⟩ := s.admitFrame_facts (p := p) (d := d) (c := false) hd hr
  generalize hz : { y with eth := { y.eth with part := mapSet none y.eth.part p (some s.eth.nextFrame) } } = z
  have hx : s.cutRx p d = z.ingest s.eth.nextFrame := by
    unfold cutRx
    simp [hl, ethF, hcut, Nat.not_lt.mpr hlen, hpart, hadmit, hz]
  have hz' : z.eth = { y.eth with part := mapSet none y.eth.part p (some s.eth.nextFrame) } := hz ▸ rfl
  have hframe' : z.frame s.eth.nextFrame = { s.arrival p d false with cells := cellsFor d.length } := hz ▸ hframe
  obtain ⟨harr, htail, hp⟩ := arrivedAs_ingest ha ht hf (hz ▸ hy.trans {} : s.Counted z)
    (hz'.symm ▸ hcache) (hz'.symm ▸ hlooks) (hz'.symm ▸ hnext) hframe'
  refine does_of_done (congrArg (State.done · s) hx) fun t _ he _ _ => ⟨harr.of_eth he, ?_, ?_⟩
  · rw [frame_of_eth he]
    exact htail
  · simp [he, hp, hz']

end

/-! ### Frames that are counted and discarded (R111) -/

theorem State.untraced_portCnt {p : Fin 8} (hk : k < 16) : s.Untraced (s.portCnt p k n) :=
  untraced_bump64_eth (by simp only [R.PORTCNT_LO]; omega) (by simp only [R.PORTCNT_HI]; omega)

theorem State.Calm.does_frameReceive_counted {p : Fin 8} (hc : s.Calm) (hx : s.frameRx p d = s.portCnt p k) (hk : k < 16) :
    s.Does (.frameReceive p d) (fun t => t = s.bump64 .eth R.PORTCNT_LO R.PORTCNT_HI 1 p k) :=
  hc.does (x := s.portCnt p k) (congrArg (State.done · s) hx) (untraced_portCnt hk) rfl

theorem State.frameRx_down (h : s.linkUp p = false) : s.frameRx p d = s := by simp [frameRx, h]

theorem State.frameRx_short (h : s.linkUp p = true) (hd : d.length < 64) : s.frameRx p d = s.portCnt p 3 := by simp [frameRx, h, hd]

theorem State.frameRx_long (h : s.linkUp p = true) (h1 : 64 ≤ d.length) (hd : s.maxFrame < d.length) : s.frameRx p d = s.portCnt p 4 := by
  simp [frameRx, h, Nat.not_lt.mpr h1, hd]

theorem State.frameRx_fcs (h : s.linkUp p = true) (h1 : 64 ≤ d.length) (h2 : d.length ≤ s.maxFrame)
    (hd : d.drop (d.length - 4) ≠ fcs (d.take (d.length - 4))) : s.frameRx p d = s.portCnt p 2 := by
  unfold frameRx
  simp only [h, Bool.not_true, Bool.false_eq_true, if_false, if_neg (Nat.not_lt.mpr h1), if_neg (Nat.not_lt.mpr h2), if_pos hd]

end Sys2Proof.Machine

/-! The rest of a frame whose first bytes have been dispatched (R123). -/

namespace Sys2Proof.Machine

set_option Elab.async false

variable {s t x y : State} {u : UnitId} {g : Reg} {a f i j n p q k l m : Nat} {r : Req} {v w : Word} {d b : List Byte} {c : Bool} {z : Fld}

/-! ### The rest of a frame that came in parts (R123) -/

/-- The frame takes the bytes that came and is charged for them. -/
theorem State.tailRx_facts {part : Map (Option Nat)} (hs : s.eth.part = part) {y : Frame} :
    let t := if y.cells = 0 then s.setFrame f y else (s.setFrame f y).charge f n
    t.eth.part = part ∧ t.eth.txCut = s.eth.txCut ∧ (t.frame f).data = y.data ∧ (t.frame f).tail = y.tail ∧ (t.frame f).bad = y.bad := by
  intro t
  have hself : (s.setFrame f y).frame f = y := frame_setFrame_self
  unfold t
  split
  · rw [hself]
    exact ⟨hs, rfl, rfl, rfl, rfl⟩
  · obtain ⟨hf, hpath, -⟩ := (s.setFrame f y).charge_facts (f := f) (n := n)
    have hpart := congrArg EthSt.part hpath
    have hcut := congrArg EthSt.txCut hpath
    rw [hf, hself]
    exact ⟨hpart.trans hs, hcut, rfl, rfl, rfl⟩

theorem State.does_frameTailArrival {p : Fin 8} (hp : mapGet none s.eth.part p = some f) (hf : s.eth.frames.any (fun e => e.1 == f) = true)
    (hcut : s.eth.txCut = []) {whole body : List Byte} (hw : (s.frame f).data ++ d = whole) (hb : whole.take (whole.length - 4) = body) :
    s.Does (.frameTailArrival p d) (fun t => mapGet none t.eth.part p = none ∧ (t.frame f).data = body ∧ (t.frame f).tail = true ∧
      ((t.frame f).bad = true ↔ whole.drop (whole.length - 4) ≠ fcs body ∨ s.maxFrame < whole.length)) := by
  generalize hbad : decide (whole.drop (whole.length - 4) ≠ fcs body ∨ s.maxFrame < whole.length) = bad
  generalize hs1 : ({ s with eth := { s.eth with part := mapSet none s.eth.part p none } } : State) = s1
  generalize hs2 : (if bad = true then s1.portCnt p 2 else ((s1.portCnt p 0).portCnt p 1 whole.length).bump64 .eth R.RX_TC_LO R.RX_TC_HI 1 p
    (s.frame f).tc) = s2
  have heth : s2.eth = { s.eth with part := mapSet none s.eth.part p none } := by
    rw [← hs2, ← hs1]
    split
    · exact eth_portCnt
    · rw [eth_bump64, eth_portCnt, eth_portCnt]
  have hpart : s2.eth.part = mapSet none s.eth.part p none := by rw [heth]
  have hany : s2.eth.frames.any (fun e => e.1 == f) = true := by
    rw [heth]
    exact hf
  obtain ⟨htp, htc, hdata, htail, hfbad⟩ := s2.tailRx_facts (f := f) (n := cellsFor body.length - (s.frame f).cells) hpart
    (y := { s.frame f with data := body, tail := true, bad := bad })
  generalize hx : (if (s.frame f).cells = 0 then _ else _) = x at htp htc hdata htail hfbad
  have hfind : x.eth.txCut.find? (fun e => e.2 == some f) = none := by
    rw [htc, heth, hcut]
    rfl
  have hexec : s.tailRx p d = x := by
    unfold tailRx
    rw [hp]
    dsimp only
    rw [hs1, hw, hb, hbad, hs2, if_pos hany, hx, hfind]
  refine does_of_done (congrArg (State.done · s) hexec) fun t _ he _ _ => ?_
  rw [frame_of_eth he, he, htp, hdata, htail, hfbad, mapGet_mapSet_self, ← hbad]
  exact ⟨rfl, rfl, rfl, decide_eq_true_iff⟩

end Sys2Proof.Machine

/-! Reads of scratch by the Ethernet complex, and the fill that completes a lookup (R118). -/

namespace Sys2Proof.Machine

set_option Elab.async false

variable {s t x y : State} {u : UnitId} {g : Reg} {a f i j n p q k l m : Nat} {r : Req} {v w : Word} {d b : List Byte} {c : Bool} {z : Fld}

/-! ### Reads of scratch by the Ethernet complex (R21, R309) -/

/-- A read that `s` permits, in a state that differs from it in nothing the access checks look at. -/
theorem State.ScratchFor.devRead (h : s.ScratchFor r none a .read) (hp : t.place a = s.place a) (hs : t.sward = s.sward)
    (hm : t.memDown a = s.memDown a) (n : Nat) : ∃ e, t.devRead r a n = ({ data := t.bytes a n, poison := e }, t) := by
  obtain ⟨⟨k, o, hplace⟩, -, hgrant, hdown⟩ := h
  have hcheck : s.atCheck (s.atidOf a) r .read = none := by
    cases hc : s.atCheck (s.atidOf a) r .read with
    | none => rfl
    | some c => simp [guardAcc, hc] at hgrant
  have hcheck' : t.atCheck (t.atidOf a) r .read = none := by
    rw [← hcheck]
    simp only [atCheck, atEntry, atidOf, hp, hplace, hs]
  have hgrant' : t.guardAcc a r .read none = (none, t) := by simp [guardAcc, hcheck', hp, hplace]
  obtain ⟨e, hread⟩ := t.memBytes_high (a := a) (n := n) (f := n / 64 + 2) (le_of_place_scratch hplace) (by omega)
  refine ⟨e, ?_⟩
  simp [State.devRead, hp, hplace, hgrant', hm, hdown, hread]

/-! ### The flow cache and its fills (R118) -/

/-- A second fill leaves the line of the first. -/
theorem State.fcLine_fcFill_fcFill {a' : Nat} {d' : List Byte} {c' : Bool} (h : s.eth.fcache = []) :
    ∃ e, ((s.fcFill q a d c).fcFill q a' d' c').fcLine q a = some (d, e) := by
  have hset : mapGet {} (s.fcFill q a d c).eth.fcache (fcSetOf q a) = { ways := [(0, a, d, c)], ptr := 0 } := by
    simp [fcFill, h, mapInsert, show List.range 8 = [0, 1, 2, 3, 4, 5, 6, 7] from rfl]
  by_cases hk : fcSetOf q a = fcSetOf q a'
  · have hset' : mapGet {} ((s.fcFill q a d c).fcFill q a' d' c').eth.fcache (fcSetOf q a) =
        { ways := [(0, a, d, c), (1, a', d', c')], ptr := 0 } := by
      rw [fcFill, ← hk, hset]
      simp [mapInsert, show List.range 8 = [0, 1, 2, 3, 4, 5, 6, 7] from rfl]
    rw [fcLine, hset']
    exact ⟨c, by simp⟩
  · have hset' : mapGet {} ((s.fcFill q a d c).fcFill q a' d' c').eth.fcache (fcSetOf q a) = { ways := [(0, a, d, c)], ptr := 0 } :=
      (mapGet_mapSet_ne _ _ _ _ hk).trans hset
    rw [fcLine, hset']
    exact ⟨c, by simp⟩

theorem State.look_hit {key ws : List Word} {e : Bool}
    (hl : s.fcLine (natBits w.toNat 31 30) (s.bucketAddr n (s.buckets n w).1) = some (d, e)) (hf : findEntry d key = some (i, ws)) :
    s.look n key w = some (some (4 * (s.buckets n w).1 + i, ws)) := by
  unfold look
  dsimp only
  rw [hl]
  dsimp only
  rw [hf]

theorem State.fcFill_eq : ∃ F, s.fcFill q a d c = { s with eth := { s.eth with fcache := F } } := ⟨_, rfl⟩

/-- Both buckets are read into the flow cache. -/
theorem State.lookFill_eq {d1 d2 : List Byte} {e1 e2 : Bool}
    (h1 : s.devRead (s.reqOf .eth) (s.bucketAddr n (s.buckets n w).1) 256 = ({ data := d1, poison := e1 }, s))
    (ht : s.fcFill (natBits w.toNat 31 30) (s.bucketAddr n (s.buckets n w).1) d1 e1 = t)
    (h2 : t.devRead (t.reqOf .eth) (t.bucketAddr n (s.buckets n w).2) 256 = ({ data := d2, poison := e2 }, t)) :
    s.lookFill n w = (none, t.fcFill (natBits w.toNat 31 30) (t.bucketAddr n (s.buckets n w).2) d2 e2) := by
  unfold lookFill
  dsimp only
  rw [h1]
  dsimp only
  rw [ht, h2]

/-- Both buckets read from scratch, the flow cache holds the first and nothing else has changed. -/
theorem State.lookFill_facts {y : EthSt} (ht : t = { s with eth := y }) (hc : y.fcache = [])
    (h1 : s.ScratchFor (s.reqOf .eth) none (s.bucketAddr n (s.buckets n w).1) .read)
    (h2 : s.ScratchFor (s.reqOf .eth) none (s.bucketAddr n (s.buckets n w).2) .read) :
    ∃ F e, t.lookFill n w = (none, { s with eth := { y with fcache := F } }) ∧
      ({ s with eth := { y with fcache := F } } : State).fcLine (natBits w.toNat 31 30) (s.bucketAddr n (s.buckets n w).1) =
        some (s.bytes (s.bucketAddr n (s.buckets n w).1) 256, e) := by
  subst ht
  generalize ha : s.bucketAddr n (s.buckets n w).1 = a at h1 ⊢
  generalize hb : s.bucketAddr n (s.buckets n w).2 = b at h2
  obtain ⟨e1, hr1⟩ := h1.devRead (t := { s with eth := y }) rfl rfl rfl 256
  obtain ⟨F1, hF1⟩ := State.fcFill_eq (s := { s with eth := y }) (q := natBits w.toNat 31 30) (a := a) (d := s.bytes a 256) (c := e1)
  obtain ⟨e2, hr2⟩ := h2.devRead (t := { s with eth := { y with fcache := F1 } }) rfl rfl rfl 256
  obtain ⟨e, hline⟩ := State.fcLine_fcFill_fcFill (s := { s with eth := y }) (q := natBits w.toNat 31 30) (a := a)
    (d := s.bytes a 256) (c := e1) (a' := b) (d' := s.bytes b 256) (c' := e2) hc
  rw [hF1] at hline
  subst ha hb
  exact ⟨_, e, lookFill_eq hr1 hF1 hr2, hline⟩

theorem State.lookDone_op {l : Lookup} {th o : Nat} {ws : List Word} (hl : s.eth.looks = [l]) (hw : l.who = .op th o)
    (ht : ({ s with eth := { s.eth with looks := [] } } : State).lookFill l.tbl l.hash = (none, t))
    (hk : t.look l.tbl l.key l.hash = some (some (i, ws))) : s.lookDone 0 = t.opResult th o 0 ws := by
  unfold lookDone
  simp only [hl, List.getElem?_cons_zero, List.take_zero, List.any_nil, Bool.false_eq_true, if_false, List.eraseIdx_cons_zero, ht, hk, hw,
    Option.getD_some]

theorem State.ops_opResult {o : Op} {th code : Nat} {ws : List Word} (ho : (s.thread th).ops = [o]) (hres : o.res = none) :
    ((s.opResult th o.id code ws).thread th).ops = [{ o with res := some (code, ws) }] := by
  have hself : (s.opResult th o.id code ws).thread th = { s.thread th with
      ops := (s.thread th).ops.map (fun p => if p.id = o.id ∧ p.res.isNone then { p with res := some (code, ws) } else p) } :=
    mapGet_mapSet_self _ _ _ _
  rw [hself, ho]
  simp [hres]

/-- R118: the fill completes the only lookup with the entry it finds. -/
theorem State.Calm.does_fill {l : Lookup} {o : Op} {th : Nat} {ws : List Word} (hc : s.Calm) (hl : s.eth.looks = [l])
    (hw : l.who = .op th o.id) (ho : (s.thread th).ops = [o]) (hres : o.res = none) (hcache : s.eth.fcache = [])
    (h1 : s.ScratchFor (s.reqOf .eth) none (s.bucketAddr l.tbl (s.buckets l.tbl l.hash).1) .read)
    (h2 : s.ScratchFor (s.reqOf .eth) none (s.bucketAddr l.tbl (s.buckets l.tbl l.hash).2) .read)
    (hf : findEntry (s.bytes (s.bucketAddr l.tbl (s.buckets l.tbl l.hash).1) 256) l.key = some (i, ws)) :
    s.Does (.flowCacheMissFill 0) (fun t => t.eth.looks = [] ∧ (t.thread th).ops = [{ o with res := some (0, ws) }] ∧ t.mem = s.mem) := by
  obtain ⟨F, e, hfill, hline⟩ := lookFill_facts (s := s) (y := { s.eth with looks := [] }) rfl hcache h1 h2
  have hx := lookDone_op hl hw hfill (look_hit hline hf)
  exact hc.does (congrArg (State.done · s) hx) {} ⟨rfl, ops_opResult ho hres, rfl⟩

end Sys2Proof.Machine

/-! FC_INV (R118), pauses sent and received (R122), and the shapers' changed values (R124). -/

namespace Sys2Proof.Machine

set_option Elab.async false

variable {s t x y : State} {u : UnitId} {g : Reg} {a f i j n q k l m : Nat} {r : Req} {v w : Word} {d b : List Byte}

/-! ### FC_INV (R118) -/

/-- What holds of the default and of every value a filter leaves under a key holds of the value it leaves there. -/
theorem mapGet_filterMap {α : Type} {P : α → Prop} {e : α} {F : Nat × α → Option (Nat × α)} (h0 : P e)
    (hF : ∀ y z, F y = some z → z.1 = k → P z.2) (L : Map α) : P (mapGet e (L.filterMap F) k) := by
  induction L with
  | nil => exact h0
  | cons y L ih =>
    rw [List.filterMap_cons]
    cases hy : F y with
    | none => exact ih
    | some z =>
      obtain ⟨j, z⟩ := z
      simp only [mapGet]
      split
      · rename_i hj
        exact hF y _ hy hj
      · exact ih

theorem State.fcLine_fcInv : (s.fcInv a).fcLine q a = none := by
  have h : (mapGet {} (s.fcInv a).eth.fcache (fcSetOf q a)).ways.find? (fun e => e.2.1 == a) = none := by
    refine mapGet_filterMap (P := fun x : FcSet => x.ways.find? (fun e => e.2.1 == a) = none) rfl (fun y z hz hk => ?_) _
    simp only at hz
    split_ifs at hz with h1 h2
    · cases hz
      simp
    · cases hz
      rw [fcSetOf] at hk
      omega
  rw [fcLine, h]
  rfl

theorem State.Calm.sets_fcInv (hc : s.Calm) : s.Sets r .eth R.FC_INV 0 (.fcInv r v) (fun t =>
    ∀ q, q < 4 → t.fcLine q (256 * v.toNat) = none) := by
  refine hc.sets_eth rfl (by decide) (by decide) (by decide) (by decide) fun y hy => ?_
  have hpost : y.ethPost R.FC_INV 0 (s.rd .eth R.FC_INV) v = y.fcInv (256 * v.toNat) := rfl
  rw [hpost]
  exact ⟨{}, fun q _ => fcLine_fcInv⟩

/-! ### PFC (R122) -/

theorem State.Calm.does_pfcRefresh {p c : Fin 8} (hc : s.Calm) (hu : mapGet none s.eth.pauseOut (8 * p.val + c.val) = some n) (hn : n ≤ s.mono)
    (hl : s.linkUp p = true) : s.Does (.pfcRefresh p c) (fun t => t.out = .pfc p c 0xFFFF :: s.out ∧
      mapGet none t.eth.pauseOut (8 * p.val + c.val) = some (s.mono + 0xFFFF * 512 / max 1 (s.portRate p) / 2)) := by
  have hp : (8 * p.val + c.val) / 8 = p.val := by omega
  have hcl : (8 * p.val + c.val) % 8 = c.val := by omega
  have hx : s.pfcRefresh (8 * p.val + c.val) = { (s.send (.pfc p c 0xFFFF)).portCnt p 8 with eth := { s.eth with
      pauseOut := mapSet none s.eth.pauseOut (8 * p.val + c.val) (some (s.mono + s.halfPause p)) } } := by
    unfold pfcRefresh
    rw [hu]
    dsimp only
    rw [hp, if_pos ⟨hn, hl⟩, pfcSend, hp, hcl]
    rfl
  exact hc.does (congrArg (State.done · s) hx) ((Untraced.trans (t := s.send _) {} (untraced_portCnt (k := 8) (by decide))).trans {})
    ⟨rfl, by simp [halfPause]⟩

/-- How long a received pause of `q` quanta lasts. -/
def State.pauseUntil (s : State) (p q : Nat) : Option Nat := if q = 0 then none else some (s.mono + q * 512 / max 1 (s.portRate p))

/-- Class `c` takes its pause from a PFC frame. -/
def State.pfcClass (s : State) (p en : Nat) (quanta : List Nat) (c : Nat) : State :=
  if en.testBit c then
    { s with eth := { s.eth with pauseIn := mapSet none s.eth.pauseIn (8 * p + c) (s.pauseUntil p (quanta.getD c 0 % 65536)) } }
  else s

/-- The first `n` classes do. -/
def State.pfcTake (s : State) (p en : Nat) (quanta : List Nat) (n : Nat) : State := (List.range n).foldl (fun s c => s.pfcClass p en quanta c) s

section
variable {p en : Nat} {quanta : List Nat}

theorem State.pauseUntil_pfcClass : (s.pfcClass p en quanta n).pauseUntil p q = s.pauseUntil p q := by
  unfold pfcClass
  split
  · rfl
  · rfl

theorem State.pauseIn_pfcClass : mapGet none (s.pfcClass p en quanta n).eth.pauseIn k =
    if k = 8 * p + n ∧ en.testBit n then s.pauseUntil p (quanta.getD n 0 % 65536) else mapGet none s.eth.pauseIn k := by
  unfold pfcClass
  split
  · rename_i hen
    simp [mapGet_mapSet, hen]
  · rename_i hen
    simp [hen]

theorem State.pfcTake_succ : s.pfcTake p en quanta (n + 1) = (s.pfcTake p en quanta n).pfcClass p en quanta n := by
  simp only [pfcTake, List.range_succ, List.foldl_append, List.foldl_cons, List.foldl_nil]

theorem State.pauseUntil_pfcTake : (s.pfcTake p en quanta n).pauseUntil p q = s.pauseUntil p q := by
  induction n with
  | zero => rfl
  | succ n ih => rw [pfcTake_succ, pauseUntil_pfcClass, ih]

theorem State.pauseIn_pfcTake (h : n ≤ 8) : mapGet none (s.pfcTake p en quanta n).eth.pauseIn k =
    if k / 8 = p ∧ k % 8 < n ∧ en.testBit (k % 8) then s.pauseUntil p (quanta.getD (k % 8) 0 % 65536) else mapGet none s.eth.pauseIn k := by
  induction n with
  | zero => simp [pfcTake]
  | succ n ih =>
    rw [pfcTake_succ, pauseIn_pfcClass, pauseUntil_pfcTake, ih (by omega)]
    by_cases hk : k = 8 * p + n
    · subst hk
      have hp : (8 * p + n) / 8 = p := by omega
      have hn : (8 * p + n) % 8 = n := by omega
      simp only [hp, hn, true_and, Nat.lt_irrefl, Nat.lt_succ_self, false_and, if_false]
    · have hiff : (k / 8 = p ∧ k % 8 < n) ↔ (k / 8 = p ∧ k % 8 < n + 1) := by omega
      rw [if_neg (fun h => hk h.1)]
      exact if_congr (by rw [← and_assoc, hiff, and_assoc]) rfl rfl

end

theorem getD_map_toNat (quanta : List (BitVec 16)) (k : Nat) : (quanta.map (·.toNat)).getD k 0 % 65536 = (quanta.getD k 0).toNat := by
  rw [List.getD_eq_getElem?_getD, List.getD_eq_getElem?_getD, List.getElem?_map]
  cases quanta[k]? with
  | none => rfl
  | some q => exact Nat.mod_eq_of_lt q.isLt

theorem State.does_pfcFrameReceive {p : Fin 8} {en : BitVec 8} {quanta : List (BitVec 16)} (hl : s.linkUp p = true) :
    s.Does (.pfcFrameReceive p en quanta) (fun t => ∀ k, mapGet none t.eth.pauseIn k =
      if k / 8 = p.val ∧ en.getLsbD (k % 8) = true then
        (if quanta.getD (k % 8) 0 = 0 then none else some (s.mono + (quanta.getD (k % 8) 0).toNat * 512 / max 1 (s.portRate p)))
      else mapGet none s.eth.pauseIn k) := by
  have hx : s.pfcRx p en.toNat (quanta.map (·.toNat)) = (s.portCnt p 5).pfcTake p en.toNat (quanta.map (·.toNat)) 8 := by
    unfold pfcRx
    simp only [hl, Bool.not_true, Bool.false_eq_true, if_false]
    rfl
  refine does_of_done (congrArg (State.done · s) hx) fun y _ he _ _ k => ?_
  rw [he, pauseIn_pfcTake le_rfl]
  refine if_congr (and_congr_right fun _ => and_iff_right (Nat.mod_lt _ (by decide))) ?_ rfl
  rw [getD_map_toNat]
  unfold pauseUntil
  exact if_congr (by rw [BitVec.toNat_eq]; rfl) rfl rfl

theorem State.Calm.does_pfcPauseExpire {p c : Fin 8} (hc : s.Calm) (hu : mapGet none s.eth.pauseIn (8 * p.val + c.val) = some n)
    (hn : n ≤ s.mono) : s.Does (.pfcPauseExpire p c) (fun t =>
      t = { s with eth := { s.eth with pauseIn := mapSet none s.eth.pauseIn (8 * p.val + c.val) none } }) := by
  have hx : s.pauseEnd (8 * p.val + c.val) =
      { s with eth := { s.eth with pauseIn := mapSet none s.eth.pauseIn (8 * p.val + c.val) none } } := by
    simp [pauseEnd, hu, hn]
  exact hc.does (congrArg (State.done · s) hx) {} rfl

/-! ### Shaping (R124) -/

/-- The written SHAPE of every node of `ns` takes effect. -/
def State.shapeTake (s : State) (ns : List Nat) : State :=
  ns.foldl (fun s i => { s with eth := { s.eth with
    shape := mapSet {} s.eth.shape i { mapGet {} s.eth.shape i with active := s.rd .eth R.SHAPE i } } }) s

theorem State.active_shapeTake (ns : List Nat) (hr : t.regs = s.regs) :
    (mapGet {} (t.shapeTake ns).eth.shape i).active = if i ∈ ns then s.rd .eth R.SHAPE i else (mapGet {} t.eth.shape i).active := by
  induction ns generalizing t with
  | nil => simp [shapeTake]
  | cons n ns ih =>
    refine (ih (t := { t with eth := { t.eth with
      shape := mapSet {} t.eth.shape n { mapGet {} t.eth.shape n with active := t.rd .eth R.SHAPE n } } }) hr).trans ?_
    have hrd : t.rd .eth R.SHAPE n = s.rd .eth R.SHAPE n := by rw [rd, rd, hr]
    by_cases hi : i = n
    · subst hi
      simp [hrd]
    · simp [mapGet_mapSet_ne _ _ _ _ hi, hi]

theorem State.does_shapeApply (h : s.now % 1000 = 0) : s.Does .shapeApply (fun t => t.eth.shapeNew = [] ∧ ∀ i, (mapGet {} t.eth.shape i).active =
    if i ∈ s.eth.shapeNew then s.rd .eth R.SHAPE i else (mapGet {} s.eth.shape i).active) := by
  have hx : s.shapeApply = { s.shapeTake s.eth.shapeNew with eth := { (s.shapeTake s.eth.shapeNew).eth with shapeNew := [] } } := if_pos h
  refine does_of_done (congrArg (State.done · s) hx) fun y _ he _ _ => ?_
  rw [he]
  exact ⟨rfl, fun i => active_shapeTake _ rfl⟩

theorem State.Calm.does_shapeApply_between (hc : s.Calm) (h : s.now % 1000 ≠ 0) : s.Does .shapeApply (fun t => t = s) :=
  hc.does (x := s) (congrArg (State.done · s) (if_neg h)) {} rfl

end Sys2Proof.Machine

/-! Transmission (R125), the transmit timestamp queue (R231), INJ_PROD (R130) and the key slots (R127). -/

namespace Sys2Proof.Machine

set_option Elab.async false

variable {s t x y : State} {u : UnitId} {g : Reg} {a f i j n q k l m : Nat} {r : Req} {v w : Word} {d b : List Byte}

/-! ### Transmission (R125, R229) -/

/-- With PTP off at the port a frame goes as it is. -/
theorem State.txPtp_off {p : Nat} (h : natBits (s.rd .eth R.PTP_CFG p).toNat 31 30 = 0) : s.txPtp p d = (d, s) := by
  have hbit (i : Nat) (hi : i < 2) : (s.rd .eth R.PTP_CFG p).bit (30 + i) = false := by
    have hb : (natBits (s.rd .eth R.PTP_CFG p).toNat 31 30).testBit i = false := by rw [h, Nat.zero_testBit]
    simp only [natBits, Nat.testBit_mod_two_pow, Nat.testBit_shiftRight] at hb
    rw [Word.bit]
    simpa [hi] using hb
  have h30 := hbit 0 (by decide)
  have h31 := hbit 1 (by decide)
  unfold txPtp
  split
  · rfl
  · simp [h30, h31]

/-- What leaving a port counts for frame `f` of class `c` and its TI, and the frame's end. -/
def State.sentOff (s : State) (p f k len ti : Nat) : State :=
  ((((((s.portCnt p 6).portCnt p 7 len).bump64 .eth R.TX_TC_LO R.TX_TC_HI 1 p k).tiCount ti 3 1).tiCount ti 4 len).release f).reap f

theorem State.path_sentOff {p ti : Nat} : (s.sentOff p f k n ti).path = s.path := by
  rw [sentOff, path_reap, path_release, path_of_eth eth_tiCount, path_of_eth eth_tiCount, path_of_eth eth_bump64, path_portCnt, path_portCnt]

theorem State.portSide_sentOff {p ti : Nat} : (s.sentOff p f k n ti).portSide = s.portSide := by
  simp [sentOff, R.TX_TC_LO, R.TX_TC_HI]

theorem State.emit_off {p : Nat} (h : natBits (s.rd .eth R.PTP_CFG p).toNat 31 30 = 0) (hd : padTo 60 (s.frame f).data = d) :
    s.emit p f false = (s.send (.frame p (d ++ fcs d))).sentOff p f (s.frame f).tc (d.length + 4) (s.frame f).ti := by
  unfold emit
  simp only [hd, txPtp_off h, Bool.false_eq_true, if_false]
  rfl

theorem State.mem_out_of_portSide {o : Out} (h : t.portSide = s.portSide) (ho : o.isFrame = true) (hm : o ∈ s.out) : o ∈ t.out := by
  have hout : t.out.filter Out.isFrame = s.out.filter Out.isFrame := congrArg (·.1) h
  exact List.mem_of_mem_filter (hout ▸ List.mem_filter.mpr ⟨hm, ho⟩)

theorem State.transmit_eq {p : Nat} {q : List Nat} (hl : s.linkUp p = true) (hc : mapGet none s.eth.txCut p = none)
    (hq : s.egress (8 * p + k) = f :: q) (hr : s.txReady p k = true) (hk : k < 8) (hh : ∀ j, k < j → j < 8 → s.txReady p j = false)
    (ht : (s.frame f).tail = true) : s.transmit p = (s.setEgress (8 * p + k) q).emit p f (s.frame f).bad := by
  have hfind : [7, 6, 5, 4, 3, 2, 1, 0].find? (fun c => s.txReady p c) = some k := by
    interval_cases k <;> simp [hr, hh]
  unfold transmit
  simp only [hl, hc, Bool.not_true, Bool.false_eq_true, Option.isSome_none, or_self, if_false, hfind, hq]
  exact if_pos ht

/-- R125: the highest ready class of a port gives its first frame. -/
theorem State.does_frameTransmit {p c : Fin 8} {q : List Nat} (hl : s.linkUp p = true) (hcut : mapGet none s.eth.txCut p = none)
    (hq : s.egress (8 * p.val + c.val) = f :: q) (hr : s.txReady p c = true) (hh : ∀ k, c.val < k → k < 8 → s.txReady p k = false)
    (ht : (s.frame f).tail = true) (hb : (s.frame f).bad = false) (hp : natBits (s.rd .eth R.PTP_CFG p).toNat 31 30 = 0) :
    s.Does (.frameTransmit p) (fun t => t.egress (8 * p.val + c.val) = q ∧
      .frame p (padTo 60 (s.frame f).data ++ fcs (padTo 60 (s.frame f).data)) ∈ t.out) := by
  generalize hd : padTo 60 (s.frame f).data = d
  have hx := transmit_eq hl hcut hq hr c.isLt hh ht
  rw [hb, emit_off (s := s.setEgress (8 * p.val + c.val) q) hp hd] at hx
  refine does_of_done_port (congrArg (State.done · s) hx) fun y hside he => ⟨?_, mem_out_of_portSide (hside.trans portSide_sentOff) rfl ?_⟩
  · exact (egress_of_eth he).trans ((egress_of_path path_sentOff).trans egress_setEgress_self)
  · exact List.mem_cons_self

/-! ### The transmit timestamp queue (R231) -/

section
variable {p : Fin 8} (hd : r.debug = false)
include hd

/-- A read of TXTS_POP takes the head entry, and latches its time. -/
theorem State.regRead_txtsPop : ∃ L, s.regRead r .eth R.TXTS_POP p 0 = (none, (s.txtsPop p).1, { (s.txtsPop p).2.2 with latches := L }) := by
  have hl : latchOf .eth R.TXTS_POP p 0 = none := rfl
  have hq : s.quiet r = false := by simp [quiet, hd]
  have hp : s.popReg r .eth R.TXTS_POP p = some (s.txtsPop p) := rfl
  unfold regRead
  rw [hl]
  dsimp only
  rw [if_neg (by simp), hp, hq]
  by_cases hw : (s.txtsPop p).2.1 = []
  · exact ⟨_, by simp only [hw, if_true]; rfl⟩
  · exact ⟨_, by simp only [hw, if_false]; rfl⟩

theorem State.Calm.gets_txtsPop (hc : s.Calm) {P : State → Prop} (hu : s.Untraced (s.txtsPop p).2.2)
    (hP : ∀ t : State, t.eth = (s.txtsPop p).2.2.eth → P t) : s.Gets r .eth R.TXTS_POP p (.txtsPop r p) (s.txtsPop p).1 P := fun hgr => by
  obtain ⟨L, hread⟩ := s.regRead_txtsPop hd (p := p)
  exact hc.does (congrArg (State.done · s) (rdFrom_ok hgr hread)) (hu.trans {}) ⟨rfl, hP _ rfl⟩

end

theorem State.txtsPop_cons {p : Nat} {L : List (Nat × Word)} (h : mapGet [] s.eth.txts p = (n, w) :: L) :
    s.txtsPop p = (w, [lo32 n, hi32 n], { s with eth := { s.eth with txts := mapSet [] s.eth.txts p L } }) := by rw [txtsPop, h]

theorem State.txtsPop_nil {p : Nat} (h : mapGet [] s.eth.txts p = []) : s.txtsPop p = (0, [0, 0], s) := by rw [txtsPop, h]

theorem State.Calm.gets_txtsPop_head {p : Fin 8} {L : List (Nat × Word)} (hc : s.Calm) (hd : r.debug = false)
    (h : mapGet [] s.eth.txts p = (n, w) :: L) : s.Gets r .eth R.TXTS_POP p (.txtsPop r p) w (fun t => mapGet [] t.eth.txts p = L) := by
  have hx := txtsPop_cons h
  have hg := hc.gets_txtsPop hd (p := p) (P := fun t => mapGet [] t.eth.txts p = L)
  rw [hx] at hg
  exact hg {} fun t ht => by rw [ht, mapGet_mapSet_self]

theorem State.Calm.gets_txtsPop_empty {p : Fin 8} (hc : s.Calm) (hd : r.debug = false) (h : mapGet [] s.eth.txts p = []) :
    s.Gets r .eth R.TXTS_POP p (.txtsPop r p) 0 (fun t => t.eth = s.eth) := by
  have hx := txtsPop_nil h
  have hg := hc.gets_txtsPop hd (p := p) (P := fun t => t.eth = s.eth)
  rw [hx] at hg
  exact hg {} fun t ht => ht

/-! ### Injection (R130) -/

theorem State.Calm.sets_injProd {n : Fin 16} (hc : s.Calm) : s.Sets r .eth R.INJ_PROD n (.injProdWrite r n v) (fun t =>
    t.rd .eth R.INJ_PROD n = regWritten R.INJ_PROD (s.rd .eth R.INJ_PROD n) v) := by
  refine hc.sets_eth rfl (by decide) (by decide) (by decide) (by decide) fun y hy => ?_
  have hpost : y.ethPost R.INJ_PROD n (s.rd .eth R.INJ_PROD n) v = y := rfl
  rw [hpost]
  exact ⟨{}, hy.rd⟩

/-! ### Key slots (R127) -/

/-- What KEY_COMMIT makes of the key registers. -/
def State.keyEntered (s : State) : KeySlot :=
  { key := (List.range 8).flatMap (fun w => leBytes 4 (s.rd .eth R.KEY_WORD w).toNat), salt := s.rd .eth R.KEY_SALT,
    ti := (s.rd .eth R.KEY_ATTR).toNat % 2048, shared := (s.rd .eth R.KEY_ATTR).bit 11, valid := (s.rd .eth R.KEY_ATTR).bit 12 }

/-- The slot that KEY_SLOT names takes them. -/
def State.keyStored (s : State) : State :=
  { s with eth := { s.eth with keys := mapSet {} s.eth.keys (s.rf .eth R.KEY_SLOT F.KEY_SLOT_SLOT) s.keyEntered } }

/-- The first `n` words of the key are cleared. -/
def State.keyCleared (s : State) (n : Nat) : State := (List.range n).foldl (fun s w => s.wr .eth R.KEY_WORD 0 w) s

theorem State.ethPost_keyCommit {old : Word} : s.ethPost R.KEY_COMMIT 0 old 1 = s.keyStored.keyCleared 8 := rfl

theorem State.keyCleared_succ : s.keyCleared (n + 1) = (s.keyCleared n).wr .eth R.KEY_WORD 0 n := by
  simp only [keyCleared, List.range_succ, List.foldl_append, List.foldl_cons, List.foldl_nil]

theorem State.keyCleared_facts (h : n ≤ 8) : s.Untraced (s.keyCleared n) ∧ (s.keyCleared n).eth = s.eth ∧
    ∀ i, i < n → (s.keyCleared n).rd .eth R.KEY_WORD i = 0 := by
  induction n with
  | zero => exact ⟨{}, rfl, fun i hi => by omega⟩
  | succ n ih =>
    obtain ⟨hu, he, hw⟩ := ih (by omega)
    rw [keyCleared_succ]
    refine ⟨hu.trans (untraced_wr_eth (by simp only [R.KEY_WORD]; omega)), he, fun i hi => ?_⟩
    by_cases hin : i = n
    · subst hin
      exact rd_wr_self _ _ _ _ _ _
    · rw [rd_wr_ne _ _ _ _ _ _ _ _ _ _ (by simp only [regAddr, R.KEY_WORD]; omega)]
      exact hw i (by omega)

theorem State.Calm.sets_keyCommit (hc : s.Calm) : s.Sets r .eth R.KEY_COMMIT 0 (.keyCommit r) (fun t =>
    mapGet {} t.eth.keys (s.rf .eth R.KEY_SLOT F.KEY_SLOT_SLOT) = s.keyEntered ∧ ∀ w, w < 8 → t.rd .eth R.KEY_WORD w = 0) := by
  refine hc.sets_eth (v := 1) rfl (by decide) (by decide) (by decide) (by decide) fun y hy => ?_
  have hrd (g : Reg) (i : Nat) (h : regAddr .eth g i 0 ≠ regAddr .eth R.KEY_COMMIT 0 0) : y.rd .eth g i = s.rd .eth g i := hy.other _ _ h
  have hword (i : Nat) : y.rd .eth R.KEY_WORD i = s.rd .eth R.KEY_WORD i :=
    hrd _ _ (by simp only [regAddr, R.KEY_WORD, R.KEY_COMMIT]; omega)
  have hkey : y.keyEntered = s.keyEntered := by
    simp only [keyEntered, hword, hrd R.KEY_SALT 0 (by decide), hrd R.KEY_ATTR 0 (by decide)]
  have hslot : y.rf .eth R.KEY_SLOT F.KEY_SLOT_SLOT = s.rf .eth R.KEY_SLOT F.KEY_SLOT_SLOT := by rw [rf, rf, hrd _ _ (by decide)]
  obtain ⟨hu, he, hw⟩ := y.keyStored.keyCleared_facts (n := 8) le_rfl
  rw [ethPost_keyCommit]
  refine ⟨.trans (t := y.keyStored) {} hu, ?_, hw⟩
  have hans : ((y.keyStored.keyCleared 8).answer (.ok 0)).eth = y.keyStored.eth := he
  have hkeys : y.keyStored.eth.keys = mapSet {} y.eth.keys (y.rf .eth R.KEY_SLOT F.KEY_SLOT_SLOT) y.keyEntered := rfl
  rw [hans, ← hslot, ← hkey, hkeys, mapGet_mapSet_self]

end Sys2Proof.Machine

/-! INJECTION_CONSUME (R130). -/

namespace Sys2Proof.Machine

set_option Elab.async false

variable {s t x y : State} {u : UnitId} {g : Reg} {a f i j n q k l m : Nat} {r : Req} {v w : Word} {d b : List Byte}

/-! ### Injection queues (R130) -/

theorem State.take_drop_bytes (h : i + k ≤ n) : ((s.bytes a n).drop i).take k = s.bytes (a + i) k := by
  obtain ⟨j, rfl⟩ := Nat.exists_eq_add_of_le h
  rw [Nat.add_assoc, bytes_add, List.drop_left' (length_bytes _ _ _), bytes_add, List.take_left' (length_bytes _ _ _)]

/-- Registers of the Ethernet complex decide nothing about where an address lies. -/
theorem State.place_wr_eth (h : g.off + i * g.s1 + j * g.s2 < 0x500000) : (s.wr .eth g w i j).place a = s.place a := by
  have hsize (t : Nat) : (s.wr .eth g w i j).scratchSize t = s.scratchSize t := by
    rw [scratchSize, scratchSize, rf, rf, rd_wr_ne _ _ _ _ _ _ _ _ _ _ (by simp only [regAddr, UnitId.base]; omega)]
  simp only [place, hsize]

theorem State.memDown_wr_eth (h : g.off + i * g.s1 + j * g.s2 < 0x500000) (hp : s.place a = .scratch k l) :
    (s.wr .eth g w i j).memDown a = s.memDown a := by
  simp only [memDown, place_wr_eth h, hp]
  rfl

/-- The slot of injection queue `n` that is next. -/
def State.injSlot (s : State) (n : Nat) : Nat := 256 * (s.rd .eth R.INJ_BASE n).toNat +
  ringSlot (s.rd .eth R.INJ_CFG n) * ((s.rd .eth R.INJ_CONS n).toNat % ringSlots (s.rd .eth R.INJ_CFG n))

/-- Its consumer index has moved on. -/
def State.injTaken (s : State) (n : Nat) : State :=
  s.wr .eth R.INJ_CONS (BitVec.ofNat 32 (((s.rd .eth R.INJ_CONS n).toNat + 1) % 65536)) n

/-- A bad slot is counted. -/
def State.injBad (s : State) : State :=
  s.wf .eth R.ETH_STATUS F.ETH_STATUS_INJ_BAD (min 63 (s.ethF R.ETH_STATUS F.ETH_STATUS_INJ_BAD + 1))

theorem le_ringSlot (w : Word) : 512 ≤ ringSlot w := Nat.le_mul_of_pos_right _ (Nat.two_pow_pos _)

/-- What INJECTION_CONSUME does once the slot has been read. -/
def State.injRun (s : State) (slot : Nat) (d : List Byte) (e : Bool) : State :=
  let len := natBits (ofLe (d.take 4)) 13 0
  if len < 14 ∨ s.maxFrame - 4 < len ∨ slot - 64 < len then s.injBad
  else match s.dest (BitVec.ofNat 32 (ofLe ((d.drop 4).take 4))) with
    | none => s.injBad
    | some (k, p, c, t) =>
      let y := s.addFrame { data := (d.drop 64).take len, port := p, tc := c, arr := s.now, ti := t, cls := 8 * p + c, rx := decide (k = 1),
                            recirc := k, poison := e }
      if k = 0 then y.2.enqueue p c y.1 else y.2.ingest y.1

theorem State.injLen {slot : Nat} (h : 512 ≤ slot) : natBits (ofLe ((s.bytes a slot).take 4)) 13 0 = s.leAt a 4 % 16384 := by
  have htake := s.take_drop_bytes (a := a) (i := 0) (k := 4) (n := slot) (by omega)
  rw [List.drop_zero, Nat.add_zero] at htake
  rw [htake]
  rfl

theorem State.injRun_short {slot : Nat} {e : Bool} (h : natBits (ofLe (d.take 4)) 13 0 < 14) : s.injRun slot d e = s.injBad :=
  if_pos (.inl h)

/-- The frame of a slot goes to a port that is up. -/
theorem State.injRun_forward {slot p c ti : Nat} {e : Bool} (h1 : 14 ≤ natBits (ofLe (d.take 4)) 13 0)
    (h2 : natBits (ofLe (d.take 4)) 13 0 ≤ s.maxFrame - 4) (h3 : natBits (ofLe (d.take 4)) 13 0 ≤ slot - 64)
    (hd : s.dest (BitVec.ofNat 32 (ofLe ((d.drop 4).take 4))) = some (0, p, c, ti)) (hl : s.linkUp p = true) :
    ∃ y : Frame, y.data = (d.drop 64).take (natBits (ofLe (d.take 4)) 13 0) ∧
      s.injRun slot d e = (s.addFrame y).2.setEgress (8 * p + c) (s.egress (8 * p + c) ++ [s.eth.nextFrame]) := by
  refine ⟨{ data := (d.drop 64).take (natBits (ofLe (d.take 4)) 13 0), port := p, tc := c, arr := s.now, ti := ti, cls := 8 * p + c,
            rx := false, recirc := 0, poison := e }, rfl, ?_⟩
  unfold injRun
  dsimp only
  rw [if_neg (by omega), hd]
  exact if_pos hl

theorem State.untraced_injTaken {n : Fin 16} : s.Untraced (s.injTaken n) := untraced_wr_eth (by simp only [R.INJ_CONS]; omega)

section
variable {n : Fin 16} (hen : (s.rd .eth R.INJ_CFG n).bit 7 = true) (hne : (s.rd .eth R.INJ_PROD n).toNat ≠ (s.rd .eth R.INJ_CONS n).toNat)
  (hs : s.ScratchFor (s.reqOf .eth) none (s.injSlot n) .read)
include hen hne hs

theorem State.inject_eq : ∃ e, s.inject n = (s.injTaken n).injRun (ringSlot (s.rd .eth R.INJ_CFG n))
    (s.bytes (s.injSlot n) (ringSlot (s.rd .eth R.INJ_CFG n))) e := by
  obtain ⟨k, o, hp⟩ := hs.place
  have hoff : R.INJ_CONS.off + n * R.INJ_CONS.s1 + 0 * R.INJ_CONS.s2 < 0x500000 := by
    simp only [R.INJ_CONS]
    omega
  obtain ⟨e, hread⟩ := hs.devRead (t := s.injTaken n) (place_wr_eth hoff) rfl (memDown_wr_eth hoff hp) (ringSlot (s.rd .eth R.INJ_CFG n))
  refine ⟨e, ?_⟩
  have hreq : (s.injTaken n).reqOf .eth = s.reqOf .eth := rfl
  rw [← hreq] at hread
  unfold inject
  dsimp only
  rw [if_neg (by simp [hen, hne])]
  change (match (s.injTaken n).devRead ((s.injTaken n).reqOf .eth) (s.injSlot n) (ringSlot (s.rd .eth R.INJ_CFG n)) with
    | ({ err := some _, .. }, s) => s.injBad
    | (r, s) => _) = _
  rw [hread]
  rfl

/-- A frame too short is discarded and counted. -/
theorem State.Calm.does_inject_short (hc : s.Calm) (hlen : s.leAt (s.injSlot n) 4 % 16384 < 14) : s.Does (.injectionConsume n) (fun t =>
    t.rd .eth R.INJ_CONS n = BitVec.ofNat 32 (((s.rd .eth R.INJ_CONS n).toNat + 1) % 65536) ∧ t.eth = s.eth ∧
    t.rf .eth R.ETH_STATUS F.ETH_STATUS_INJ_BAD = min 63 (s.rf .eth R.ETH_STATUS F.ETH_STATUS_INJ_BAD + 1)) := by
  obtain ⟨e, hx⟩ := inject_eq hen hne hs
  rw [injRun_short (injLen (by have := le_ringSlot (s.rd .eth R.INJ_CFG n); omega) ▸ hlen)] at hx
  have hstatus : (s.injTaken n).rf .eth R.ETH_STATUS F.ETH_STATUS_INJ_BAD = s.rf .eth R.ETH_STATUS F.ETH_STATUS_INJ_BAD := by
    rw [rf, rf, injTaken, rd_wr_ne _ _ _ _ _ _ _ _ _ _ (by simp only [regAddr, R.ETH_STATUS, R.INJ_CONS]; omega)]
  refine hc.does (congrArg (State.done · s) hx) ((untraced_injTaken).trans (untraced_wr_eth (by decide))) ⟨?_, rfl, ?_⟩
  · rw [injBad, wf, rd_wr_ne _ _ _ _ _ _ _ _ _ _ (by simp only [regAddr, R.ETH_STATUS, R.INJ_CONS]; omega)]
    exact rd_wr_self _ _ _ _ _ _
  · rw [injBad, rf_wf _ _ _ _ _ _ (by decide), ethF, hstatus]
    exact Nat.mod_eq_of_lt (Nat.lt_of_le_of_lt (Nat.min_le_left _ _) (by decide))

/-- A frame for a port that is up joins the queue of its class. -/
theorem State.Calm.does_inject_forward (hc : s.Calm) {p k ti : Nat} (h1 : 14 ≤ s.leAt (s.injSlot n) 4 % 16384)
    (h2 : s.leAt (s.injSlot n) 4 % 16384 ≤ s.maxFrame - 4) (h3 : s.leAt (s.injSlot n) 4 % 16384 ≤ ringSlot (s.rd .eth R.INJ_CFG n) - 64)
    (hd : s.dest (BitVec.ofNat 32 (s.leAt (s.injSlot n + 4) 4)) = some (0, p, k, ti)) (hl : s.linkUp p = true) :
    s.Does (.injectionConsume n) (fun t => t.rd .eth R.INJ_CONS n = BitVec.ofNat 32 (((s.rd .eth R.INJ_CONS n).toNat + 1) % 65536) ∧
      t.egress (8 * p + k) = s.egress (8 * p + k) ++ [s.eth.nextFrame] ∧
      (t.frame s.eth.nextFrame).data = s.bytes (s.injSlot n + 64) (s.leAt (s.injSlot n) 4 % 16384)) := by
  obtain ⟨e, hx⟩ := inject_eq hen hne hs
  have hslot := le_ringSlot (s.rd .eth R.INJ_CFG n)
  generalize ringSlot (s.rd .eth R.INJ_CFG n) = slot at hx hslot h3
  have hlen := s.injLen (a := s.injSlot n) hslot
  have hword : ((s.bytes (s.injSlot n) slot).drop 4).take 4 = s.bytes (s.injSlot n + 4) 4 := take_drop_bytes (by omega)
  have hdata := s.take_drop_bytes (a := s.injSlot n) (i := 64) (k := s.leAt (s.injSlot n) 4 % 16384) (n := slot) (by omega)
  have hcfg : (s.injTaken n).rd .eth R.ETH_CFG = s.rd .eth R.ETH_CFG := cfg_wr (by decide)
  have hmax : (s.injTaken n).maxFrame = s.maxFrame := by
    rw [maxFrame, maxFrame, ethF, ethF, rf, rf, injTaken, rd_wr_ne _ _ _ _ _ _ _ _ _ _ (by simp only [regAddr, R.MAX_FRAME, R.INJ_CONS]; omega)]
  have hdest : (s.injTaken n).dest (BitVec.ofNat 32 (s.leAt (s.injSlot n + 4) 4)) = some (0, p, k, ti) := by
    rw [← hd, dest, dest, portExists_of_cfg hcfg]
  have hlink : (s.injTaken n).linkUp p = true := by
    rw [← hl, linkUp, linkUp, portExists_of_cfg hcfg]
    rfl
  obtain ⟨y, hy, hrun⟩ := injRun_forward (s := s.injTaken n) (d := s.bytes (s.injSlot n) slot) (slot := slot) (e := e) (hlen ▸ h1)
    (by rw [hlen, hmax]; exact h2) (hlen ▸ h3) (by rw [hword]; exact hdest) hlink
  rw [hlen, hdata] at hy
  rw [hrun] at hx
  refine hc.does (congrArg (State.done · s) hx) (untraced_injTaken.trans {}) ⟨rd_wr_self _ _ _ _ _ _, egress_setEgress_self, ?_⟩
  have hself : (((s.injTaken n).addFrame y).2.setEgress (8 * p + k) (s.egress (8 * p + k) ++ [s.eth.nextFrame])).frame s.eth.nextFrame = y :=
    frame_setFrame_self
  exact (congrArg Frame.data hself).trans hy

end

end Sys2Proof.Machine

/-! The send fetcher: the head of the send queue of a queue pair through the jobs it starts (R124, R150, R151). -/

namespace Sys2Proof.Machine

set_option Elab.async false

variable {s t : State} {x : Job} {i j l m n h v k q c : Nat} {ok : Bool}

/-! ### Queue pairs while their jobs run (R150, R151) -/

/-- A page request or its refusal: the queue pairs and the job stay, and what finishes has failed. -/
theorem State.xlateFail_facts : (s.xlateFail j x n).2.pcie.tis = s.pcie.tis ∧
    ∀ ok, (s.xlateFail j x n).1 = some ok → (s.xlateFail j x n).2.job j = s.job j ∧ ok = false := by
  unfold xlateFail
  split
  · split
    · exact ⟨rfl, fun ok h => by cases h⟩
    · exact ⟨rfl, fun ok h => ⟨rfl, by cases h; rfl⟩⟩
  · exact ⟨rfl, fun ok h => ⟨rfl, by cases h; rfl⟩⟩

/-- A step of a job leaves the queue pairs; one that finishes it leaves the job, and a read does not finish well at once. -/
theorem State.jobStep_facts (hj : s.job j = some x) : (s.jobStep j).2.pcie.tis = s.pcie.tis ∧
    ∀ ok, (s.jobStep j).1 = some ok → (s.jobStep j).2.job j = some x ∧ (x.write = false → ok = false) := by
  unfold jobStep
  rw [hj]
  dsimp only
  split
  · exact ⟨rfl, fun ok h => by cases h⟩
  split
  · exact ⟨rfl, fun ok h => by cases h; exact ⟨hj, fun _ => rfl⟩⟩
  cases s.xlate x with
  | deny page =>
    obtain ⟨htis, hfail⟩ := s.xlateFail_facts (j := j) (x := x) (n := page)
    exact ⟨htis, fun ok h => ⟨(hfail ok h).1.trans hj, fun _ => (hfail ok h).2⟩⟩
  | miss page =>
    dsimp only
    split
    · exact ⟨rfl, fun ok h => by cases h⟩
    · exact ⟨rfl, fun ok h => by cases h⟩
  | done xl =>
    dsimp only
    split
    · rename_i hw
      refine ⟨foldl_keeps (fun t => t.pcie.tis) ?_ _, fun ok h => ⟨(foldl_keeps (fun t => t.job j) ?_ _).trans hj, ?_⟩⟩
      · exact fun _ _ => rfl
      · exact fun _ _ => rfl
      · intro hr
        rw [hr] at hw
        cases hw
    · split
      · exact ⟨rfl, fun ok h => by cases h⟩
      · refine ⟨(foldl_keeps (fun t => t.pcie.tis) ?_ _).trans rfl, fun ok h => by cases h⟩
        exact fun _ _ => rfl

theorem State.tis_addJob : (s.addJob x).2.pcie.tis = s.pcie.tis := rfl

theorem State.tis_readSent : (s.readSent j x n).pcie.tis = s.pcie.tis := rfl

theorem State.tis_vector : (s.vector l v).pcie.tis = s.pcie.tis := by
  unfold vector
  split
  · rfl
  · split
    · rfl
    · rfl

theorem State.tis_tiVector : (s.tiVector h v).pcie.tis = s.pcie.tis := by
  unfold tiVector
  dsimp only
  split
  · rfl
  · exact tis_vector

theorem State.tis_admWrite {cid st res head : Nat} : (s.admWrite l cid st res head).pcie.tis = s.pcie.tis := by
  unfold admWrite
  dsimp only
  split
  · exact tis_vector
  · rfl

theorem State.tis_admEvent : (s.admEvent h c).pcie.tis = s.pcie.tis := by
  unfold admEvent
  dsimp only
  split
  · rfl
  · exact tis_admWrite

/-- The head of the send queue of queue pair `h` is at `v`, and the queue pair is not being disabled. -/
def State.SqAt (s : State) (h v : Nat) : Prop := ∃ y, s.qp h = some y ∧ y.sqHead = v ∧ y.closing = false

theorem State.qp_of_tis (ht : t.pcie.tis = s.pcie.tis) : t.qp h = s.qp h := by rw [qp, qp, ti, ti, ht]

theorem State.sqAt_of_tis (ht : t.pcie.tis = s.pcie.tis) (hs : s.SqAt h v) : t.SqAt h v := by
  rw [SqAt, qp_of_tis ht]
  exact hs

theorem State.sqAt_setQp {y : Qp} (h1 : y.sqHead = v) (h2 : y.closing = false) : (s.setQp h (some y)).SqAt h v := ⟨y, qp_setQp _ _ _, h1, h2⟩

theorem State.SqAt.qpClosePoll (hs : s.SqAt h v) : s.qpClosePoll h = s := by
  obtain ⟨y, hy, -, hc⟩ := hs
  simp [State.qpClosePoll, hy, hc]

theorem State.SqAt.qpError (hs : s.SqAt h v) : (s.qpError h c).SqAt h v := by
  obtain ⟨y, hy, h1, h2⟩ := hs
  unfold State.qpError
  rw [hy]
  exact sqAt_of_tis tis_admEvent (sqAt_setQp h1 h2)

theorem State.SqAt.cqCheck (hs : s.SqAt h v) : (s.cqCheck h).SqAt h v := by
  obtain ⟨y, hy, h1, h2⟩ := hs
  unfold State.cqCheck
  rw [hy]
  dsimp only
  split
  · exact sqAt_of_tis tis_tiVector (sqAt_setQp h1 h2)
  · exact ⟨y, hy, h1, h2⟩

/-- Job `j` writes a completion of queue pair `h`. -/
def State.WritesCq (s : State) (h j : Nat) : Prop := ∃ x rq i th, s.job j = some x ∧ x.what = .cqWrite h rq i th

/-- The jobs of a queue pair's completions, at most one. -/
def State.CqJobs (s : State) (h : Nat) (js : List Nat) : Prop := js = [] ∨ ∃ j, js = [j] ∧ s.WritesCq h j

theorem State.SqAt.cqFlush (hs : s.SqAt h v) : (s.cqFlush h).2.SqAt h v ∧ (s.cqFlush h).2.CqJobs h (s.cqFlush h).1 := by
  obtain ⟨y, hy, h1, h2⟩ := id hs
  unfold State.cqFlush
  rw [hy]
  dsimp only
  split
  · exact ⟨hs, .inl rfl⟩
  · split
    · exact ⟨hs, .inl rfl⟩
    · exact ⟨sqAt_of_tis tis_addJob (sqAt_setQp h1 h2), .inr ⟨_, rfl, _, _, _, _, job_addJob _ _, rfl⟩⟩

theorem State.SqAt.cqComplete {rq : Bool} {ws : List Word} (hs : s.SqAt h v) :
    (s.cqComplete h rq i ws).2.SqAt h v ∧ (s.cqComplete h rq i ws).2.CqJobs h (s.cqComplete h rq i ws).1 := by
  obtain ⟨y, hy, h1, h2⟩ := hs
  unfold State.cqComplete
  rw [hy]
  dsimp only
  refine SqAt.cqFlush (sqAt_setQp ?_ ?_)
  · exact h1
  · exact h2

/-- What the end of a completion write does to its queue pair. -/
def State.cqWritten (s : State) (h : Nat) (rq : Bool) (i : Nat) (ok : Bool) : List Nat × State :=
  if ok then match s.qp h with
    | some q =>
      let q := { q with cqp := idxInc q.cqp, cqBusy := false, nzAt := if q.n = 0 then s.mono else q.nzAt,
                        pend := q.pend.filter (fun e => !(e.rq == rq && e.idx == i)) }
      ((((s.setQp h (some q)).cqCheck h).cqFlush h).1, (((s.setQp h (some q)).cqCheck h).cqFlush h).2.qpClosePoll h)
    | none => ([], s)
  else ([], (s.qpError h 3).qpClosePoll h)

theorem State.jobDone_cqWrite {rq : Bool} {th : Option (Nat × Nat)} (hj : s.job j = some x) (hw : x.what = .cqWrite h rq i th) :
    ∃ t : State, t.pcie.tis = s.pcie.tis ∧ s.jobDone j ok = t.cqWritten h rq i ok := by
  unfold jobDone
  rw [hj]
  dsimp only
  rw [hw]
  rcases th with _ | ⟨t, o⟩
  · exact ⟨s.setJob j none, rfl, rfl⟩
  · exact ⟨(s.setJob j none).opResult t o (if ok then 0 else 5), rfl, rfl⟩

/-- It leaves the send queue, and starts at most the next one. -/
theorem State.SqAt.cqWritten {rq : Bool} (hs : s.SqAt h v) :
    (s.cqWritten h rq i ok).2.SqAt h v ∧ (s.cqWritten h rq i ok).2.CqJobs h (s.cqWritten h rq i ok).1 := by
  unfold State.cqWritten
  split
  · obtain ⟨y, hy, h1, h2⟩ := id hs
    rw [hy]
    dsimp only
    generalize hz : ({ y with cqp := idxInc y.cqp, cqBusy := false, nzAt := if y.n = 0 then s.mono else y.nzAt,
                              pend := y.pend.filter (fun e => !(e.rq == rq && e.idx == i)) } : Qp) = z
    have hset : (s.setQp h (some z)).SqAt h v := sqAt_setQp (hz ▸ h1) (hz ▸ h2)
    obtain ⟨hq, hjobs⟩ := hset.cqCheck.cqFlush
    rw [hq.qpClosePoll]
    exact ⟨hq, hjobs⟩
  · have herr := hs.qpError (c := 3)
    rw [herr.qpClosePoll]
    exact ⟨herr, .inl rfl⟩

theorem State.SqAt.jobDone_cqWrite {rq : Bool} {th : Option (Nat × Nat)} (hs : s.SqAt h v) (hj : s.job j = some x)
    (hw : x.what = .cqWrite h rq i th) : (s.jobDone j ok).2.SqAt h v ∧ (s.jobDone j ok).2.CqJobs h (s.jobDone j ok).1 := by
  obtain ⟨t, ht, hdone⟩ := State.jobDone_cqWrite (ok := ok) hj hw
  rw [hdone]
  exact (sqAt_of_tis ht hs).cqWritten

/-- A fetch of a frame that fails completes with an error. -/
theorem State.SqAt.jobDone_txFrame {d : List Byte} (hs : s.SqAt h v) (hj : s.job j = some x) (hw : x.what = .txFrame h i d) :
    (s.jobDone j false).2.SqAt h v ∧ (s.jobDone j false).2.CqJobs h (s.jobDone j false).1 := by
  unfold jobDone
  rw [hj]
  dsimp only
  rw [hw]
  exact SqAt.cqComplete (sqAt_of_tis rfl hs)

/-- Job `j` fetches a frame of queue pair `h` or writes one of its completions. -/
def State.SqJob (s : State) (h j : Nat) : Prop :=
  s.WritesCq h j ∨ ∃ x i d, s.job j = some x ∧ x.what = .txFrame h i d ∧ x.write = false

/-- Running it leaves the head of the send queue. -/
theorem State.SqAt.jobRun (hs : s.SqAt h v) (hj : s.SqJob h j) : (State.jobRun n s j).SqAt h v := by
  induction n generalizing s j with
  | zero => exact hs
  | succ n ih =>
    obtain ⟨x, hx⟩ : ∃ x, s.job j = some x := by
      rcases hj with ⟨x, _, _, _, hx, _⟩ | ⟨x, _, _, hx, _⟩
      · exact ⟨x, hx⟩
      · exact ⟨x, hx⟩
    obtain ⟨htis, hdone⟩ := jobStep_facts hx
    have hs' := sqAt_of_tis htis hs
    unfold State.jobRun
    generalize s.jobStep j = o at hs' hdone
    obtain ⟨_ | ok, t⟩ := o
    · exact hs'
    · obtain ⟨hxt, hread⟩ := hdone ok rfl
      have hfin : (t.jobDone j ok).2.SqAt h v ∧ (t.jobDone j ok).2.CqJobs h (t.jobDone j ok).1 := by
        rcases hj with ⟨z, rq, i, th, hz, hw⟩ | ⟨z, i, d, hz, hw, hwr⟩
        · obtain rfl : x = z := Option.some.inj (hx.symm.trans hz)
          exact hs'.jobDone_cqWrite hxt hw
        · obtain rfl : x = z := Option.some.inj (hx.symm.trans hz)
          rw [hread hwr]
          exact hs'.jobDone_txFrame hxt hw
      change ((t.jobDone j ok).1.foldl (fun s k => State.jobRun n s k) (t.jobDone j ok).2).SqAt h v
      generalize t.jobDone j ok = o at hfin
      obtain ⟨js, z⟩ := o
      obtain ⟨hz, rfl | ⟨k, rfl, hk⟩⟩ := hfin
      · exact hz
      · exact ih hz (.inl hk)

theorem State.SqAt.nodeEmpty (hs : s.SqAt h v) : (s.nodeEmpty m).SqAt h v := by
  unfold State.nodeEmpty
  split
  · exact sqAt_of_tis rfl hs
  · exact hs

/-! ### One action of the fetcher (R124) -/

/-- The job that reads the descriptor at the head of the send queue of queue pair `h` of TI `m` over link `l`. -/
def Qp.readAhead (y : Qp) (h m l : Nat) : Job :=
  { what := .sqDesc h, link := l, ti := some m, addr := y.sqBase + 32 * (y.sqHead % 2 ^ y.sqLog), len := 32, data := [], write := false }

/-- The job that fetches the frame of descriptor `d`, number `i`. -/
def frameFetch (h i m l : Nat) (d : List Byte) : Job :=
  { what := .txFrame h i d, link := l, ti := some m, addr := descAddr d, len := descLen d, data := [], write := false }

/-- The queue pair once the descriptor at the head has been taken. -/
def Qp.headTaken (y : Qp) : Qp := { y with sqHead := idxInc y.sqHead, desc := none, pend := y.pend ++ [⟨false, y.sqHead, none, none⟩] }

/-- A node after a frame of `n` bytes. -/
def State.shapeCharged (s : State) (m n : Nat) : Shape :=
  { s.shape m with deficit := (s.shape m).deficit - n, tokens := s.tokensNow m - (1000000 * n : Nat), filled := s.mono }

section
variable {y : Qp} (hd : s.dpOn = true) (ha : s.answers .eth = true) (hin : s.eth.drrIn = true) (hm : s.eth.drr = m)
  (hready : s.tiList.filter (fun k => s.nodeReady k) = [m]) (hf : s.fetchQp m = some q) (hy : s.qp (m + 2048 * q) = some y)
include hd ha hin hm hready hf hy

/-- The descriptor of the next frame is read ahead. -/
theorem State.sendFetch_ahead (hdesc : y.desc = none) : s.sendFetch =
    let t := s.setQp (m + 2048 * q) (some { y with busy := true })
    let u := t.addJob (y.readAhead (m + 2048 * q) m (t.ti m).link)
    u.2.runJobs [u.1] := by
  unfold sendFetch
  simp [hd, ha, hin, hm, hready, hf, hy, hdesc, Qp.readAhead]

/-- With too small a deficit the visit ends. -/
theorem State.sendFetch_leave {d : List Byte} (hdesc : y.desc = some d) (hbad : s.badSend y.mode d = false)
    (hlt : (s.shape m).deficit < descLen d + 4) : s.sendFetch = { s with eth := { s.eth with drr := m + 1, drrIn := false } } := by
  unfold sendFetch
  simp [hd, ha, hin, hm, hready, hf, hy, hdesc, hbad, Nat.not_le.mpr hlt]

/-- With enough deficit its frame is fetched. -/
theorem State.sendFetch_take {d : List Byte} (hdesc : y.desc = some d) (hbad : s.badSend y.mode d = false)
    (hle : descLen d + 4 ≤ (s.shape m).deficit) : s.sendFetch =
    let t := (s.setQp (m + 2048 * q) (some y.headTaken)).setShape m (s.shapeCharged m (descLen d + 4))
    let u := t.addJob (frameFetch (m + 2048 * q) y.sqHead m (t.ti m).link d)
    (u.2.runJobs [u.1]).nodeEmpty m := by
  unfold sendFetch
  simp [hd, ha, hin, hm, hready, hf, hy, hdesc, hbad, hle, frameFetch, Qp.headTaken, shapeCharged]

end

/-- The queue pair the fetcher takes is not being disabled. -/
theorem State.closing_of_fetchQp {y : Qp} (hf : s.fetchQp m = some q) (hy : s.qp (m + 2048 * q) = some y) : y.closing = false := by
  have h := List.find?_some hf
  rw [hy] at h
  simp only [Bool.and_eq_true, Bool.not_eq_true'] at h
  obtain ⟨⟨⟨⟨⟨-, hc⟩, -⟩, -⟩, -⟩, -⟩ := h
  exact hc

theorem State.ti_setQp {y : Option Qp} : ((s.setQp h y).ti m).link = (s.ti m).link ∧ ((s.setQp h y).ti m).pasid = (s.ti m).pasid := by
  rw [setQp, ti, setTi, mapGet_mapSet]
  split
  · rename_i hm
    subst hm
    exact ⟨rfl, rfl⟩
  · exact ⟨rfl, rfl⟩

/-- Without ATS host addresses are used as they are (R155). -/
theorem State.xlate_plain (h : (s.pf x.link).atsEn = false) : s.xlate x = .done (x.pieces.map (fun p => (p.1, x.addr + p.1))) := by
  unfold xlate
  split
  · rfl
  · simp [h]

theorem State.runJobs_one : s.runJobs [j] = State.jobRun 8 s j := rfl

theorem State.jobRun_of_none (h : s.jobStep j = (none, t)) : State.jobRun (n + 1) s j = t := by rw [State.jobRun, h]

section
variable {y : Qp} (hd : s.dpOn = true) (ha : s.answers .eth = true) (hin : s.eth.drrIn = true) (hm : s.eth.drr = m)
  (hready : s.tiList.filter (fun k => s.nodeReady k) = [m]) (hf : s.fetchQp m = some q) (hy : s.qp (m + 2048 * q) = some y)
include hd ha hin hm hready hf hy

theorem State.Calm.does_sendFetch_ahead (hc : s.Calm) (hdesc : y.desc = none) (hl : s.linkReady (s.ti m).link = true)
    (hats : (s.pf (s.ti m).link).atsEn = false) (hpage : (y.sqBase + 32 * (y.sqHead % 2 ^ y.sqLog)) % 4096 ≤ 4064)
    (htag : s.tagsUsed (s.ti m).link < s.tagLimit) : s.Does .sendFetch (fun t =>
      t.out = .pcieRead (s.ti m).link (y.sqBase + 32 * (y.sqHead % 2 ^ y.sqLog)) 32 (s.ti m).pasid s.pcie.nextTag :: s.out ∧
      t.qp (m + 2048 * q) = some { y with busy := true }) := by
  have hx := sendFetch_ahead hd ha hin hm hready hf hy hdesc
  dsimp only at hx
  generalize hs1 : s.setQp (m + 2048 * q) (some { y with busy := true }) = s1 at hx
  have hqp : s1.qp (m + 2048 * q) = some { y with busy := true } := hs1 ▸ qp_setQp _ _ _
  obtain ⟨hlink, hpasid⟩ : (s1.ti m).link = (s.ti m).link ∧ (s1.ti m).pasid = (s.ti m).pasid := hs1 ▸ ti_setQp
  rw [hlink] at hx
  generalize hJ : y.readAhead (m + 2048 * q) m (s.ti m).link = J at hx
  have haddr : J.addr = y.sqBase + 32 * (y.sqHead % 2 ^ y.sqLog) := hJ ▸ rfl
  have hlen : J.len = 32 := hJ ▸ rfl
  have hJl : J.link = (s.ti m).link := hJ ▸ rfl
  have hJt : J.ti = some m := hJ ▸ rfl
  have hone : J.pieces = [(0, J.len)] := Job.pieces_one (by omega) (by rw [haddr, hlen]; omega)
  have hready' : (s1.addJob J).2.linkReady J.link = true := by
    rw [hJl, ← hs1]
    exact hl
  have hplain : (s1.addJob J).2.xlate J = .done [(0, J.addr)] := by
    rw [xlate_plain, hone]
    · rfl
    · rw [hJl, ← hs1]
      exact hats
  have hused : (s1.addJob J).2.tagsUsed J.link < (s1.addJob J).2.tagLimit := by
    rw [hJl, ← hs1]
    exact htag
  have hstep := jobStep_read (job_addJob s1 J) (hJ ▸ rfl) hready' hone hplain (hJ ▸ rfl) hused
  have hrun : ((s1.addJob J).2.runJobs [(s1.addJob J).1]) = (s1.addJob J).2.readSent s1.pcie.nextJob J J.addr :=
    runJobs_one.trans (jobRun_of_none hstep)
  rw [hrun] at hx
  have hu1 : s.Untraced s1 := hs1 ▸ untraced_setQp
  refine hc.does (congrArg (State.done · s) hx) (hu1.trans (untraced_addJob.trans untraced_readSent)) ⟨?_, ?_⟩
  · rw [out_readSent, jobPasid, hJt, hJl, haddr, hlen]
    change Out.pcieRead _ _ _ (s1.ti m).pasid s1.pcie.nextTag :: s1.out = _
    rw [hpasid, ← hs1]
    rfl
  · exact (qp_of_tis (tis_readSent.trans tis_addJob)).trans hqp

theorem State.does_sendFetch_take {d : List Byte} (hdesc : y.desc = some d) (hbad : s.badSend y.mode d = false)
    (hle : descLen d + 4 ≤ (s.shape m).deficit) : s.Does .sendFetch (fun t => ∃ z, t.qp (m + 2048 * q) = some z ∧
      z.sqHead = (y.sqHead + 1) % 65536) := by
  have hx := sendFetch_take hd ha hin hm hready hf hy hdesc hbad hle
  have hclosing := closing_of_fetchQp hf hy
  dsimp only at hx
  have hset : (s.setQp (m + 2048 * q) (some y.headTaken)).SqAt (m + 2048 * q) (idxInc y.sqHead) := sqAt_setQp rfl hclosing
  generalize s.setQp (m + 2048 * q) (some y.headTaken) = s1 at hset hx
  generalize hs2 : s1.setShape m _ = s2 at hx
  have hs2' : s2.SqAt (m + 2048 * q) (idxInc y.sqHead) := hs2 ▸ sqAt_of_tis rfl hset
  have hjob : (s2.addJob (frameFetch (m + 2048 * q) y.sqHead m (s2.ti m).link d)).2.SqJob (m + 2048 * q) s2.pcie.nextJob :=
    .inr ⟨_, y.sqHead, d, job_addJob _ _, rfl, rfl⟩
  have hrun := ((sqAt_of_tis tis_addJob hs2').jobRun (n := 8) hjob).nodeEmpty (m := m)
  refine does_of_done (congrArg (State.done · s) hx) fun t _ _ hp _ => ?_
  obtain ⟨w, hw, hhead, -⟩ := sqAt_of_tis (t := t) (congrArg PcieSt.tis hp) hrun
  exact ⟨w, hw, hhead⟩

theorem State.Calm.does_sendFetch_leave {d : List Byte} (hc : s.Calm) (hdesc : y.desc = some d) (hbad : s.badSend y.mode d = false)
    (hlt : (s.shape m).deficit < descLen d + 4) :
    s.Does .sendFetch (fun t => t = { s with eth := { s.eth with drr := m + 1, drrIn := false } }) :=
  hc.does (congrArg (State.done · s) (sendFetch_leave hd ha hin hm hready hf hy hdesc hbad hlt)) {} rfl

end

end Sys2Proof.Machine

/-! The statement on the packet path. -/

namespace Sys2Proof.Machine

set_option Elab.async false

variable {s : State} {r : Req} {p c : Fin 8} {n : Fin 16}

/-- R124: the three things one action of the fetcher can do with the queue pair it takes. -/
theorem State.Calm.does_sendFetch (hc : s.Calm) {q m : Nat} {x : Qp} (hd : s.dpOn = true) (ha : s.answers .eth = true)
    (hin : s.eth.drrIn = true) (hm : s.eth.drr = m) (hready : s.tiList.filter (fun k => s.nodeReady k) = [m]) (hf : s.fetchQp m = some q)
    (hx : s.qp (m + 2048 * q) = some x) :
    (x.desc = none → s.linkReady (s.ti m).link = true → (s.pf (s.ti m).link).atsEn = false →
      (x.sqBase + 32 * (x.sqHead % 2 ^ x.sqLog)) % 4096 ≤ 4064 → s.tagsUsed (s.ti m).link < s.tagLimit → s.Does .sendFetch (fun t =>
        t.out = .pcieRead (s.ti m).link (x.sqBase + 32 * (x.sqHead % 2 ^ x.sqLog)) 32 (s.ti m).pasid s.pcie.nextTag :: s.out ∧
        t.qp (m + 2048 * q) = some { x with busy := true })) ∧
    (∀ d, x.desc = some d → s.badSend x.mode d = false →
      (descLen d + 4 ≤ (s.shape m).deficit → s.Does .sendFetch (fun t =>
        ∃ y, t.qp (m + 2048 * q) = some y ∧ y.sqHead = (x.sqHead + 1) % 65536)) ∧
      ((s.shape m).deficit < descLen d + 4 →
        s.Does .sendFetch (fun t => t = { s with eth := { s.eth with drr := m + 1, drrIn := false } }))) :=
  ⟨fun hdesc hl hats hpage htag => hc.does_sendFetch_ahead hd ha hin hm hready hf hx hdesc hl hats hpage htag,
    fun _ hdesc hbad => ⟨does_sendFetch_take hd ha hin hm hready hf hx hdesc hbad,
      hc.does_sendFetch_leave hd ha hin hm hready hf hx hdesc hbad⟩⟩

/-- Settles O49: the ports by what taking one down and starting it leaves (`portDown`, `freshPort`), frames by the record that waits for
its lookup (`ArrivedAs`), the fetcher by the queue pair's send head, which every job it starts keeps (`SqAt.jobRun`); where a drop's
counters may reach registers that switch trace, by what the trace keeps of the packet path (`portSide`). -/
theorem ethernetPath : Obligations.EthernetPath := by
  unfold Obligations.EthernetPath
  intro s r p c n v hc
  dsimp only
  refine ⟨hc.sets_portMode, hc.sets_portMode_same, ⟨State.does_laneFail, hc.does_laneFail_unused⟩, hc.does_portLinkUp,
    State.does_portLinkDown, ?down, ?receive, ?tail, ?fill, hc.sets_fcInv, ?refresh, ?pause, ?expire, ?fetch, State.does_shapeApply,
    hc.does_shapeApply_between, ?transmit, ?stamps, hc.sets_injProd, ?inject, hc.sets_keyCommit⟩
  case down => exact fun hl d => hc.does (congrArg (State.done · s) (State.frameRx_down hl)) {} rfl
  case receive =>
    refine fun hl d => ⟨fun h => hc.does_frameReceive_counted (State.frameRx_short hl h) (by decide),
      fun h1 h => hc.does_frameReceive_counted (State.frameRx_long hl h1 h) (by decide),
      fun h1 h2 h => hc.does_frameReceive_counted (State.frameRx_fcs hl h1 h2 h) (by decide), fun hd ha ht hf => ⟨?_, ?_⟩⟩
    · exact State.does_frameReceive ha ht hf hl hd
    · exact State.does_cutThrough ha ht hf hl hd
  case tail => exact fun g d hp hf hcut => State.does_frameTailArrival hp hf hcut rfl rfl
  case fill => exact fun l o th i w hl hw ho hres hcache h1 h2 hf => hc.does_fill hl hw ho hres hcache h1 h2 hf
  case refresh => exact fun u hu hn hl => hc.does_pfcRefresh hu hn hl
  case pause => exact fun hl en quanta _ => State.does_pfcFrameReceive hl
  case expire => exact fun u hu hn => hc.does_pfcPauseExpire hu hn
  case fetch =>
    rintro h q m x hd ha hin hm hready hf rfl - - hx
    exact hc.does_sendFetch hd ha hin hm hready hf hx
  case transmit => exact fun g l hl hcut hq hr hh ht hb hp => State.does_frameTransmit hl hcut hq hr hh ht hb hp
  case stamps => exact fun hd => ⟨fun u w l h => hc.gets_txtsPop_head hd h, hc.gets_txtsPop_empty hd⟩
  case inject =>
    refine fun hen hne hs => ⟨fun h1 h2 h3 q k ti hd hl => ?_, hc.does_inject_short hen hne hs⟩
    exact hc.does_inject_forward hen hne hs h1 h2 h3 hd hl

end Sys2Proof.Machine

/-! Answers of admin commands: what a completion entry leaves, which command runs next, and what failing and waiting come to (R141, R143, R157). -/

namespace Sys2Proof.Machine

set_option Elab.async false

variable {s x : State} {i : Instr} {P : State → Prop} {l : Fin 2} {c : AdmCmd} {n op status result : Nat}
  {f : State → Nat → Nat → Ti → AdmCmd → State}

/-! ### The completion entry (R143) -/

/-- `s` with other admin rings, other pending vectors and another record of what was sent. -/
def State.withRings (s : State) (A : Map Adm) (M : List Nat) (O : List Out) : State :=
  { s with pcie := { s.pcie with adm := A, msixPend := M }, out := O }

theorem State.vector_rings (s : State) (l v : Nat) : ∃ M O, s.vector l v = s.withRings s.pcie.adm M O ∧ ∀ o ∈ s.out, o ∈ O := by
  unfold vector
  split
  · exact ⟨s.pcie.msixPend, s.out, rfl, fun _ => id⟩
  · split
    · exact ⟨_, s.out, rfl, fun _ => id⟩
    · exact ⟨s.pcie.msixPend, _, rfl, fun _ => List.mem_cons_of_mem _⟩

/-- An entry moves the completion ring on and is sent; whether its vector is signalled too concerns pending vectors and what is sent alone. -/
theorem State.admWrite_rings (s : State) (l cid status result head : Nat) : ∃ A M O, s.admWrite l cid status result head = s.withRings A M O ∧
    mapGet {} A l = { s.adm l with cqTail := idxInc (s.adm l).cqTail } ∧
    .pcieWrite l (s.bar64 l R.ADM_CQ_BASE_LO R.ADM_CQ_BASE_HI + 16 * ((s.adm l).cqTail % 2 ^ s.admCqLog l))
      (leBytes 4 (cid % 65536 + 65536 * status) ++ leBytes 4 result ++ leBytes 4 (head % 65536) ++
        leBytes 4 (2 ^ 31 * b2n ((s.adm l).cqTail / 2 ^ s.admCqLog l % 2 == 0))) none false ∈ O := by
  unfold admWrite
  extract_lets a k phase d s1 s2 v held
  have hget : mapGet {} (mapSet {} s.pcie.adm l { a with cqTail := idxInc a.cqTail }) l = { a with cqTail := idxInc a.cqTail } :=
    mapGet_mapSet_self ..
  split
  · obtain ⟨M, O, hv, hO⟩ := s2.vector_rings l v
    exact ⟨_, M, O, hv, hget, hO _ (List.mem_cons_self ..)⟩
  · exact ⟨_, s.pcie.msixPend, _, rfl, hget, List.mem_cons_self ..⟩

theorem State.ti_withRings {A : Map Adm} {M : List Nat} {O : List Out} : (s.withRings A M O).ti n = s.ti n := rfl

/-- `x` has the completion ring of link `l` where `s` has it. -/
structure State.RingKept (s x : State) (l : Nat) : Prop where
  tail : (x.adm l).cqTail = (s.adm l).cqTail := by rfl
  rd : ∀ g, x.rd (.bar0 l) g = s.rd (.bar0 l) g := by exact fun _ => rfl

theorem State.RingKept.cqBase (h : s.RingKept x l) : x.bar64 l R.ADM_CQ_BASE_LO R.ADM_CQ_BASE_HI = s.bar64 l R.ADM_CQ_BASE_LO R.ADM_CQ_BASE_HI := by
  rw [bar64, bar64, h.rd, h.rd]

theorem State.RingKept.admCqLog (h : s.RingKept x l) : x.admCqLog l = s.admCqLog l := by
  rw [State.admCqLog, State.admCqLog, rf, rf, h.rd]

theorem State.ringKept_setTi {y : Ti} : s.RingKept (s.setTi n y) l := {}

theorem State.ringKept_setQp {y : Option Qp} : s.RingKept (s.setQp n y) l := {}

theorem State.ringKept_setKey {y : KeySlot} : s.RingKept (s.setKey n y) l := {}

theorem State.ringKept_setAdm {y : Adm} (h : y.cqTail = (s.adm l).cqTail) : s.RingKept (s.setAdm l y) l where
  tail := (congrArg Adm.cqTail (s.adm_setAdm l y)).trans h

theorem State.RingKept.trans {y : State} (h : s.RingKept x l) (h' : x.RingKept y l) : s.RingKept y l where
  tail := h'.tail.trans h.tail
  rd := fun g => (h'.rd g).trans (h.rd g)

/-- The end of the one command in progress answers it, and changes no more than the rings. -/
theorem State.admFinish_answers (hk : s.RingKept x l) (hp : (x.adm l).prog = [c]) : ∃ A M O,
    x.admFinish l 0 status result = x.withRings A M O ∧ s.Answered (x.withRings A M O) l c status result := by
  obtain ⟨A, M, O, hw, hA, hO⟩ := (x.setAdm l { x.adm l with prog := [] }).admWrite_rings l c.cid status result c.head
  have hadm : (x.setAdm l { x.adm l with prog := [] }).adm l = { x.adm l with prog := [] } := adm_setAdm ..
  rw [hadm] at hA hO
  refine ⟨A, M, O, ?_, ?_, ?_, ?_⟩
  · simp only [admFinish, hp, List.getElem?_cons_zero, List.eraseIdx_cons_zero]
    exact hw
  · exact congrArg Adm.prog hA
  · exact (congrArg Adm.cqTail hA).trans (congrArg idxInc hk.tail)
  · have hphase : 2 ^ 31 * b2n ((s.adm l).cqTail / 2 ^ s.admCqLog l % 2 == 0) =
        if (s.adm l).cqTail / 2 ^ s.admCqLog l % 2 = 0 then 2 ^ 31 else 0 := by
      simp only [b2n, beq_iff_eq]
      split <;> rfl
    have hset : s.RingKept (x.setAdm l { x.adm l with prog := [] }) l := ⟨(congrArg Adm.cqTail hadm).trans hk.tail, hk.rd⟩
    rw [hset.cqBase, hset.admCqLog, hk.tail, hphase] at hO
    exact hO

theorem State.untraced_setTi {y : Ti} : s.Untraced (s.setTi n y) := {}

theorem State.untraced_setKey {y : KeySlot} : s.Untraced (s.setKey n y) := {}

theorem State.untraced_setAdm {y : Adm} : s.Untraced (s.setAdm n y) := {}

theorem State.untraced_withRings {A : Map Adm} {M : List Nat} {O : List Out} : s.Untraced (s.withRings A M O) := {}

/-- A command that ends the one admin command in progress once it has made `x` of `s`. -/
theorem State.Calm.does_answer (hc : s.Calm) (he : exec i s = (x.admFinish l 0 status result).done s) (hp : (x.adm l).prog = [c])
    (hP : ∀ A M O, s.Answered (x.withRings A M O) l c status result → P (x.withRings A M O)) (hu : s.Untraced x := by exact {})
    (hk : s.RingKept x l := by exact {}) : s.Does i P := by
  obtain ⟨A, M, O, hx, ha⟩ := admFinish_answers (status := status) (result := result) hk hp
  exact hc.does (he.trans (congrArg (State.done · s) hx)) (hu.trans untraced_withRings) (hP A M O ha)

/-! ### The command that runs (R141) -/

theorem State.admNext_one (hp : (s.adm l).prog = [c]) (hph : c.ph = 0) (hw : c.wellFormed = true) (hop : c.op = op) :
    s.admNext l op = some (0, c) := by
  simp [admNext, hp, hph, hw, hop]

/-- The command in progress runs, its TI being the link's and in a state that allows it. -/
theorem State.Runs.admRun (h : s.Runs l op c n) : s.admRun l op f = f s 0 n (s.ti n) c := by
  have hst : ¬ ((s.ti n).st ≠ 1 ∧ (s.ti n).st ≠ 2) := by
    rcases h.state with h | h <;> simp [h]
  simp only [State.admRun, admNext_one h.prog h.fresh h.good h.code, ← h.ti, h.link, ne_eq, not_true_eq_false, and_false, if_false, hst]

theorem State.Runs.lt (h : s.Runs l op c n) : n < 2048 := by
  rw [h.ti]
  exact Nat.mod_lt _ (by decide)

/-- It fails, and its TI is as it was. -/
theorem State.Runs.does_fail (h : s.Runs l op c n) (hc : s.Calm) (he : exec i s = (s.admRun l op f).done s)
    (hf : f s 0 n (s.ti n) c = s.admFinish l 0 status 0) :
    s.Does i (fun t => s.Answered t l c status 0 ∧ t.ti n = s.ti n) :=
  hc.does_answer (by rw [he, h.admRun, hf]) h.prog fun _ _ _ ha => ⟨ha, rfl⟩

theorem State.admPhase_one {ph due arg : Nat} (hp : (s.adm l).prog = [c]) : s.admPhase l 0 ph due arg result =
    s.setAdm l { s.adm l with prog := [{ c with ph := ph, due := due, arg := arg, result := result }] } := by
  simp [admPhase, hp]

/-- It waits for its boundary. -/
theorem State.Runs.does_wait {arg : Nat} (h : s.Runs l op c n) (hc : s.Calm) (he : exec i s = (s.admRun l op f).done s)
    (hf : f s 0 n (s.ti n) c = s.admPhase l 0 1 s.quantum arg result) : s.Does i (fun t => s.Waits t l c arg result) :=
  hc.does (by rw [he, h.admRun, hf, admPhase_one h.prog]; rfl) untraced_setAdm rfl

/-- It ends well once it has made `x` of `s`. -/
theorem State.Runs.does_answer (h : s.Runs l op c n) (hc : s.Calm) (he : exec i s = (s.admRun l op f).done s)
    (hf : f s 0 n (s.ti n) c = x.admFinish l 0 status result) (hp : (x.adm l).prog = (s.adm l).prog)
    (hP : ∀ A M O, s.Answered (x.withRings A M O) l c status result → P (x.withRings A M O)) (hu : s.Untraced x := by exact {})
    (hk : s.RingKept x l := by exact {}) : s.Does i P :=
  hc.does_answer (by rw [he, h.admRun, hf]) (hp.trans h.prog) hP hu hk

end Sys2Proof.Machine

/-! The registers of the admin rings (R140). -/

namespace Sys2Proof.Machine

set_option Elab.async false

variable {s : State} {l : Fin 2} {g : Reg} {v old : Word} {P : State → Prop}

/-! ### Writes of BAR0 registers -/

/-- A register of BAR0 that is neither a word of the MSI-X table nor of another unit. -/
structure RingReg (l : Fin 2) (g : Reg) : Prop where
  found : bar0Reg l g.off = some (g, 0, 0) := by fin_cases l <;> decide
  low : g.off < 0x100000 := by decide
  writable : regWritable g ≠ 0 := by decide

theorem State.bar0Write_eq (hup : s.barUp l = true) (hg : RingReg l g) :
    s.bar0Write l g.off v = (s.fieldsWritten (barReq l) (.bar0 l) g 0 0 v).bar0Post l g (s.rd (.bar0 l) g) v := by
  have hm : s.msixAt l g.off = none := if_neg fun h => absurd hg.low (Nat.not_lt.2 h.1)
  simp only [bar0Write, hup, hm, hg.found, Bool.not_true, Bool.false_eq_true, if_false]
  simp [regWrite, hg.writable, UnitId.cls, wrRefuse, wrDiscard, wrPost, shadowWrite, fieldsWritten]

/-- A write of an admin register changes its fields, and then does what R140 says. -/
theorem State.Calm.does_bar0Write {i : Instr} (hc : s.Calm) (he : exec i s = (s.bar0Write l g.off v).done s) (hup : s.barUp l = true)
    (hg : RingReg l g) (hP : ∀ M U, let x : State := { s with regs := M, units := U }
      x.rd (.bar0 l) g = regWritten g (s.rd (.bar0 l) g) v → (∀ r : Reg, r.off ≠ g.off → x.rd (.bar0 l) r = s.rd (.bar0 l) r) →
      x.Untraced (x.bar0Post l g (s.rd (.bar0 l) g) v) ∧ P (x.bar0Post l g (s.rd (.bar0 l) g) v)) : s.Does i P := by
  obtain ⟨M, U, hx, hrd, hne⟩ := s.fieldsWritten_eq (barReq l) (.bar0 l) g 0 0 v
  have hlow : ¬ traceReg (regAddr (.bar0 l) g 0 0) := fun h => by
    have := h.lt
    have := le_base_bar0 l
    simp only [regAddr] at *
    omega
  rw [hx] at hrd
  obtain ⟨hu, hp⟩ := hP M U hrd fun r hr => hne _ _ (by simp only [regAddr]; omega)
  refine hc.does (he.trans (congrArg (State.done · s) (bar0Write_eq hup hg))) ?_ (hx ▸ hp)
  exact (fieldsWritten_untraced hlow).trans (by rw [hx]; exact hu)

/-- A 16-bit ring index reads back what was written to it. -/
theorem regWritten_index (hr : g.rw = 0xFFFF) (hc : g.w1c = 0) (hs : g.w1s = 0) : (regWritten g old v).toNat % 65536 = v.toNat % 65536 := by
  simp only [regWritten, hr, hc, hs, BitVec.toNat_ofNat]
  apply Nat.eq_of_testBit_eq
  intro k
  rw [show 65536 = 2 ^ 16 from rfl, show 0xFFFF = 2 ^ 16 - 1 from rfl, show 0xFFFFFFFF = 2 ^ 32 - 1 from rfl]
  simp only [Nat.testBit_mod_two_pow, Nat.testBit_and, Nat.testBit_or, Nat.testBit_xor, Nat.testBit_two_pow_sub_one, Nat.zero_testBit]
  by_cases h : k < 16
  · have h32 : k < 32 := by omega
    simp [h, h32]
  · simp [h]

/-! ### The rings -/

/-- A tail index within the ring, with both rings set up, enables the rings. -/
theorem State.Calm.does_admSqTailWrite (hc : s.Calm) (hup : s.barUp l = true)
    (hin : (v.toNat % 65536 + 65536 - (s.adm l).sqHead) % 65536 ≤ 2 ^ s.admSqLog l)
    (hs4 : 4 ≤ s.admSqLog l) (hs12 : s.admSqLog l ≤ 12) (hq4 : 4 ≤ s.admCqLog l) (hq12 : s.admCqLog l ≤ 12)
    (hsq : s.bar64 l R.ADM_SQ_BASE_LO R.ADM_SQ_BASE_HI ≠ 0) (hcq : s.bar64 l R.ADM_CQ_BASE_LO R.ADM_CQ_BASE_HI ≠ 0) :
    s.Does (.admSqTailWrite l v) (fun t => t.adm l = { s.adm l with en := true } ∧
      (t.rd (.bar0 l) R.ADM_SQ_TAIL).toNat % 65536 = v.toNat % 65536) := by
  refine hc.does_bar0Write rfl hup (g := R.ADM_SQ_TAIL) {} fun M U hrd hne => ?_
  have hsl : State.admSqLog { s with regs := M, units := U } l = s.admSqLog l := by simp only [admSqLog, rf, hne R.ADM_CTL (by decide)]
  have hql : State.admCqLog { s with regs := M, units := U } l = s.admCqLog l := by simp only [admCqLog, rf, hne R.ADM_CTL (by decide)]
  have hsb : State.bar64 { s with regs := M, units := U } l R.ADM_SQ_BASE_LO R.ADM_SQ_BASE_HI = s.bar64 l R.ADM_SQ_BASE_LO R.ADM_SQ_BASE_HI := by
    simp only [bar64, hne R.ADM_SQ_BASE_LO (by decide), hne R.ADM_SQ_BASE_HI (by decide)]
  have hqb : State.bar64 { s with regs := M, units := U } l R.ADM_CQ_BASE_LO R.ADM_CQ_BASE_HI = s.bar64 l R.ADM_CQ_BASE_LO R.ADM_CQ_BASE_HI := by
    simp only [bar64, hne R.ADM_CQ_BASE_LO (by decide), hne R.ADM_CQ_BASE_HI (by decide)]
  have hpost : State.bar0Post { s with regs := M, units := U } l R.ADM_SQ_TAIL (s.rd (.bar0 l) R.ADM_SQ_TAIL) v =
      State.setAdm { s with regs := M, units := U } l { s.adm l with en := true } := by
    rw [bar0Post, if_neg (by decide), if_neg (by decide), if_pos rfl, if_neg, if_pos]
    · rfl
    · exact ⟨hsb ▸ hsq, hqb ▸ hcq, by simp [hsl, hs4, hs12], by simp [hql, hq4, hq12]⟩
    · rw [hsl]
      exact Nat.not_lt.2 hin
  rw [hpost]
  exact ⟨untraced_setAdm, adm_setAdm .., (congrArg (fun w : Word => w.toNat % 65536) hrd).trans (regWritten_index rfl rfl rfl)⟩

theorem State.Calm.does_admCqHeadWrite (hc : s.Calm) (hup : s.barUp l = true)
    (hin : ((s.adm l).cqTail + 65536 - v.toNat % 65536) % 65536 ≤ ((s.adm l).cqTail + 65536 - (s.rd (.bar0 l) R.ADM_CQ_HEAD).toNat) % 65536) :
    s.Does (.admCqHeadWrite l v) (fun t => (t.rd (.bar0 l) R.ADM_CQ_HEAD).toNat % 65536 = v.toNat % 65536) := by
  refine hc.does_bar0Write rfl hup (g := R.ADM_CQ_HEAD) {} fun M U hrd _ => ?_
  have hpost : State.bar0Post { s with regs := M, units := U } l R.ADM_CQ_HEAD (s.rd (.bar0 l) R.ADM_CQ_HEAD) v =
      { s with regs := M, units := U } := by
    rw [bar0Post, if_neg (by decide), if_neg (by decide), if_neg (by decide), if_pos rfl, if_neg]
    exact Nat.not_lt.2 hin
  rw [hpost]
  exact ⟨{}, (congrArg (fun w : Word => w.toNat % 65536) hrd).trans (regWritten_index rfl rfl rfl)⟩

theorem State.Calm.does_admCtlWrite (hc : s.Calm) (hup : s.barUp l = true) :
    s.Does (.admCtlWrite l v) (fun t => t.adm l = { s.adm l with en := false } ∧
      t.rd (.bar0 l) R.ADM_CTL = regWritten R.ADM_CTL (s.rd (.bar0 l) R.ADM_CTL) v) := by
  refine hc.does_bar0Write rfl hup (g := R.ADM_CTL) {} fun M U hrd _ => ?_
  have hpost : State.bar0Post { s with regs := M, units := U } l R.ADM_CTL (s.rd (.bar0 l) R.ADM_CTL) v =
      State.setAdm { s with regs := M, units := U } l { s.adm l with en := false } := by
    rw [bar0Post, if_pos rfl]
    rfl
  rw [hpost]
  exact ⟨untraced_setAdm, adm_setAdm .., hrd⟩

end Sys2Proof.Machine

/-! The fetch of admin commands (R140, R141). -/

namespace Sys2Proof.Machine

set_option Elab.async false

variable {s : State} {l : Fin 2}

/-- The job that fetches the command at the head of the submission ring of link `l`. -/
def State.cmdFetch (s : State) (l : Nat) : Job :=
  { what := .admCmd (idxInc (s.adm l).sqHead), link := l, ti := none,
    addr := s.bar64 l R.ADM_SQ_BASE_LO R.ADM_SQ_BASE_HI + 64 * ((s.adm l).sqHead % 2 ^ s.admSqLog l), len := 64, data := [], write := false }

theorem State.adm_addJob (s : State) (x : Job) : (s.addJob x).2.pcie.adm = s.pcie.adm := rfl

theorem State.adm_readSent (s : State) (j : Nat) (x : Job) (ta : Nat) : (s.readSent j x ta).pcie.adm = s.pcie.adm := rfl

theorem State.jobPasid_of_ti_none {x : Job} (h : x.ti = none) : s.jobPasid x = none := by
  rw [jobPasid, h, Option.bind_none]

theorem State.admFetch_read (hen : (s.adm l).en = true) (htail : (s.rd (.bar0 l) R.ADM_SQ_TAIL).toNat ≠ (s.adm l).sqHead)
    (hroom : (s.adm l).prog.length + (s.adm l).fetching < 64) (hfree : s.admCqFree l ≠ 0) (hlink : s.linkReady l = true) :
    s.admFetch l =
      let t := s.setAdm l { s.adm l with sqHead := idxInc (s.adm l).sqHead, fetching := (s.adm l).fetching + 1 }
      let u := t.addJob (s.cmdFetch l)
      u.2.runJobs [u.1] := by
  simp only [admFetch, hen, htail, hfree, hlink, Nat.not_le.2 hroom, Bool.not_true, Bool.false_eq_true, or_self, if_false]
  rfl

/-- A command is fetched where its completion has a slot. -/
theorem State.Calm.does_adminCommandFetch (hc : s.Calm) (hen : (s.adm l).en = true)
    (htail : (s.rd (.bar0 l) R.ADM_SQ_TAIL).toNat ≠ (s.adm l).sqHead) (hroom : (s.adm l).prog.length + (s.adm l).fetching < 64)
    (hfree : s.admCqFree l ≠ 0) (hlink : s.linkReady l = true) (htag : s.tagsUsed l < s.tagLimit)
    (hpage : (s.cmdFetch l).addr % 4096 ≤ 4032) : s.Does (.adminCommandFetch l) (fun t =>
      t.adm l = { s.adm l with sqHead := ((s.adm l).sqHead + 1) % 65536, fetching := (s.adm l).fetching + 1 } ∧
      t.out = .pcieRead l (s.cmdFetch l).addr 64 none s.pcie.nextTag :: s.out) := by
  have hx := admFetch_read hen htail hroom hfree hlink
  dsimp only at hx
  generalize hs1 : s.setAdm l { s.adm l with sqHead := idxInc (s.adm l).sqHead, fetching := (s.adm l).fetching + 1 } = s1 at hx
  have hone : (s.cmdFetch l).pieces = [(0, 64)] := Job.pieces_one (by decide : 0 < 64) (Nat.add_le_add_right hpage 64)
  have hplain : (s1.addJob (s.cmdFetch l)).2.xlate (s.cmdFetch l) = .done [(0, (s.cmdFetch l).addr)] := by
    rw [xlate_of_ti_none rfl, hone]
    rfl
  have hready : (s1.addJob (s.cmdFetch l)).2.linkReady l = true := hs1 ▸ hlink
  have hused : (s1.addJob (s.cmdFetch l)).2.tagsUsed l < (s1.addJob (s.cmdFetch l)).2.tagLimit := hs1 ▸ htag
  have hstep := jobStep_read (job_addJob s1 (s.cmdFetch l)) rfl hready hone hplain rfl hused
  have hrun : (s1.addJob (s.cmdFetch l)).2.runJobs [(s1.addJob (s.cmdFetch l)).1] =
      (s1.addJob (s.cmdFetch l)).2.readSent s1.pcie.nextJob (s.cmdFetch l) (s.cmdFetch l).addr := runJobs_one.trans (jobRun_of_none hstep)
  rw [hrun] at hx
  have hu : s.Untraced s1 := hs1 ▸ untraced_setAdm
  refine hc.does (congrArg (State.done · s) hx) (hu.trans (untraced_addJob.trans untraced_readSent)) ⟨?_, ?_⟩
  · rw [State.adm, adm_readSent, adm_addJob, ← hs1]
    exact adm_setAdm ..
  · rw [out_readSent, jobPasid_of_ti_none rfl]
    change Out.pcieRead l _ 64 none s1.pcie.nextTag :: s1.out = _
    rw [← hs1]
    rfl

end Sys2Proof.Machine

/-! Admin commands that are answered at once, and growth that waits for its boundary (R144, R145, R157). -/

namespace Sys2Proof.Machine

set_option Elab.async false

variable {s x : State} {l : Fin 2} {c : AdmCmd} {n : Nat}

/-! ### The shaper's register of a TI (R124) -/

theorem regAddr_shape_lt (h : n < 2048) : R.SHAPE.off + n * R.SHAPE.s1 + 0 * R.SHAPE.s2 < 0x500000 := by
  simp only [R.SHAPE]
  omega

theorem State.untraced_shapeSet {w : Word} (h : n < 2048) : s.Untraced (s.shapeSet n w) :=
  (untraced_wr_eth (regAddr_shape_lt h)).trans {}

theorem State.rd_shapeSet (s : State) (n : Nat) (w : Word) : (s.shapeSet n w).rd .eth R.SHAPE n = w := rd_wr_self ..

theorem State.active_shapeSet (s : State) (n : Nat) (w : Word) : ((s.shapeSet n w).shape n).active = w :=
  congrArg Shape.active (mapGet_mapSet_self ..)

theorem State.bar0_shapeSet {w : Word} (h : n < 2048) (g : Reg) : (s.shapeSet n w).rd (.bar0 l) g = s.rd (.bar0 l) g :=
  rd_wr_ne _ _ _ _ _ _ _ _ _ _ (by
    have := regAddr_shape_lt h
    have := le_base_bar0 l
    simp only [regAddr, UnitId.base] at *
    omega)

theorem State.ringKept_shapeSet {w : Word} (h : n < 2048) : s.RingKept (s.shapeSet n w) l := { rd := bar0_shapeSet h }

theorem State.ti_shapeSet {w : Word} {m : Nat} : (s.shapeSet n w).ti m = s.ti m := rfl

/-! ### TI_CREATE -/

section
variable (hp : (s.adm l).prog = [c]) (hph : c.ph = 0) (hw : c.wellFormed = true) (hop : c.op = 1) (hti : c.tiOf = some n)
include hp hph hw hop hti

theorem State.Calm.does_tiCreate (hc : s.Calm) (hst : (s.ti n).st = 0) : s.Does (.tiCreate l) (fun t =>
    t.ti n = { st := 1, link := l, cells := (s.ti n).cells } ∧ t.rd .eth R.SHAPE n = 1 ∧ s.Answered t l c 0 n) := by
  have hn : n < 2048 := by
    unfold AdmCmd.tiOf at hti
    split at hti
    · exact absurd hti nofun
    · rw [← Option.some.inj hti]
      exact Nat.mod_lt _ (by decide)
  let y := s.setTi n { st := 1, link := l, cells := (s.ti n).cells }
  have he : s.tiCreate l = (y.shapeSet n 1).admFinish l 0 0 n := by
    simp [tiCreate, admNext_one hp hph hw hop, hti, hst, y]
  exact hc.does_answer (congrArg (State.done · s) he) hp
    (fun A M O ha => ⟨ti_withRings.trans (ti_shapeSet.trans (s.ti_setTi n _)), y.rd_shapeSet n 1, ha⟩)
    (untraced_setTi.trans (untraced_shapeSet hn)) (ringKept_setTi.trans (ringKept_shapeSet hn))

theorem State.Calm.does_tiCreate_elsewhere (hc : s.Calm) (hst : (s.ti n).st ≠ 0) (hl : (s.ti n).link ≠ l) :
    s.Does (.tiCreate l) (fun t => s.Answered t l c 6 0 ∧ t.ti n = s.ti n) := by
  have he : s.tiCreate l = s.admFinish l 0 6 0 := by simp [tiCreate, admNext_one hp hph hw hop, hti, hst, hl]
  exact hc.does_answer (congrArg (State.done · s) he) hp fun _ _ _ ha => ⟨ha, rfl⟩

theorem State.Calm.does_tiCreate_exists (hc : s.Calm) (hst : (s.ti n).st ≠ 0) (hl : (s.ti n).link = l) :
    s.Does (.tiCreate l) (fun t => s.Answered t l c 2 0 ∧ t.ti n = s.ti n) := by
  have he : s.tiCreate l = s.admFinish l 0 2 0 := by simp [tiCreate, admNext_one hp hph hw hop, hti, hst, hl]
  exact hc.does_answer (congrArg (State.done · s) he) hp fun _ _ _ ha => ⟨ha, rfl⟩

end

/-! ### BIND_PASID -/

/-- A command that ends well once it has given its TI the fields `t`. -/
theorem State.Runs.does_setTi {i : Instr} {op result : Nat} {f : State → Nat → Nat → Ti → AdmCmd → State} {t : Ti} (h : s.Runs l op c n)
    (hc : s.Calm) (he : exec i s = (s.admRun l op f).done s) (hf : f s 0 n (s.ti n) c = (s.setTi n t).admFinish l 0 0 result) :
    s.Does i (fun u => u.ti n = t ∧ s.Answered u l c 0 result) :=
  h.does_answer hc he hf rfl (fun _ _ _ ha => ⟨s.ti_setTi n t, ha⟩) untraced_setTi ringKept_setTi

theorem State.Runs.does_unbind (h : s.Runs l 4 c n) (hc : s.Calm) (hu : c.byte 12 / 2 % 2 = 1) (hst : (s.ti n).st = 2)
    (hq : (s.ti n).qps = []) : s.Does (.bindPasid l) (fun t =>
      t.ti n = { s.ti n with st := 1, pasid := none, pri := false } ∧ s.Answered t l c 0 0) :=
  h.does_setTi hc rfl (by simp only [hu, hst, Ti.idle, hq, List.all_nil, and_self, if_true])

theorem State.Runs.does_bind (h : s.Runs l 4 c n) (hc : s.Calm) (hu : c.byte 12 / 2 % 2 = 0) (hst : (s.ti n).st = 1)
    (hen : (s.pf l).pasidEn = true) (htis : s.pcie.tis = [(n, s.ti n)]) : s.Does (.bindPasid l) (fun t =>
      t.ti n = { s.ti n with st := 2, pasid := some (c.num 8 4 % 2 ^ 20), pri := decide (c.byte 12 % 2 = 1) } ∧ s.Answered t l c 0 0) :=
  h.does_setTi hc rfl (by simp [hu, hst, hen, htis, beq_eq_decide])

theorem State.Runs.does_bind_bound (h : s.Runs l 4 c n) (hc : s.Calm) (hu : c.byte 12 / 2 % 2 = 0) (hst : (s.ti n).st = 2) :
    s.Does (.bindPasid l) (fun t => s.Answered t l c 2 0 ∧ t.ti n = s.ti n) :=
  h.does_fail hc rfl (by simp [hu, hst])

/-! ### Queue pairs -/

theorem State.Runs.does_setQpCount (h : s.Runs l 0x10 c n) (hc : s.Calm) (h16 : c.byte 8 ≤ 16)
    (hpool : s.pool n (·.qpCount) + c.byte 8 ≤ 16384) (hq : (s.ti n).qps = []) :
    s.Does (.setQpCount l) (fun t => s.Waits t l c (c.byte 8) (s.ti n).qpCount) :=
  h.does_wait hc rfl (by simp [Nat.not_lt.2 h16, Nat.not_lt.2 hpool, hq])

theorem State.Runs.does_setQpCount_range (h : s.Runs l 0x10 c n) (hc : s.Calm) (h16 : 16 < c.byte 8) :
    s.Does (.setQpCount l) (fun t => s.Answered t l c 1 0 ∧ t.ti n = s.ti n) :=
  h.does_fail hc rfl (if_pos h16)

/-- The queue pair that QP_CONFIG asks for (R144). -/
def AdmCmd.qpAsked (c : AdmCmd) : Qp :=
  { sqBase := c.num 8 8, rqBase := c.num 16 8, cqBase := c.num 24 8, sqLog := c.byte 33, rqLog := c.byte 34, cqLog := c.byte 35,
    vec := c.num 36 2, modCount := c.byte 38, modTime := c.num 40 2 % 1024, mode := c.byte 42 % 4, sel := c.byte 42 / 16,
    eng := c.byte 43 % 64 }

/-- A queue pair that TI `t` may configure: log sizes 6 to 16, a vector of its own or none, a known mode, and aligned rings. -/
structure Qp.Fits (x : Qp) (t : Ti) : Prop where
  sqLog : 6 ≤ x.sqLog ∧ x.sqLog ≤ 16
  rqLog : 6 ≤ x.rqLog ∧ x.rqLog ≤ 16
  cqLog : 6 ≤ x.cqLog ∧ x.cqLog ≤ 16
  vec : x.vec = 0xFFFF ∨ x.vec < t.vecCount
  mode : x.mode ≠ 3
  aligned : x.sqBase % 64 = 0 ∧ x.rqBase % 64 = 0 ∧ x.cqBase % 64 = 0

theorem State.Runs.does_qpConfig (h : s.Runs l 0x11 c n) (hc : s.Calm) (hst : (s.ti n).st = 2) (hnone : s.qp (n + 2048 * c.byte 32) = none)
    (hq : c.byte 32 < (s.ti n).qpCount) (hfit : c.qpAsked.Fits (s.ti n)) : s.Does (.qpConfig l) (fun t =>
      t.qp (n + 2048 * c.byte 32) = some c.qpAsked ∧ s.Answered t l c 0 0) := by
  refine h.does_answer hc rfl (x := s.setQp (n + 2048 * c.byte 32) (some c.qpAsked)) ?_ rfl (fun _ _ _ ha => ⟨qp_setQp .., ha⟩)
    untraced_setQp ringKept_setQp
  obtain ⟨⟨hs6, hs16⟩, ⟨hr6, hr16⟩, ⟨hc6, hc16⟩, hvec, hmode, hsq, hrq, hcq⟩ := hfit
  simp only [AdmCmd.qpAsked] at *
  have hlog : ([c.byte 33, c.byte 34, c.byte 35].any fun k => decide (k < 6 ∨ 16 < k)) = false := by
    simp only [List.any_cons, List.any_nil, Bool.or_false, Bool.or_eq_false_iff, decide_eq_false_iff_not]
    omega
  have hvec' : ¬ (c.num 36 2 ≠ 0xFFFF ∧ (s.ti n).vecCount ≤ c.num 36 2) := by omega
  simp only [hst, hlog, hvec', hmode, hsq, hrq, hcq, hnone, Nat.not_le.2 hq, ne_eq, not_true_eq_false, if_false, or_self, Bool.false_eq_true,
    Option.isSome_none]

theorem State.Runs.does_qpConfig_unbound (h : s.Runs l 0x11 c n) (hc : s.Calm) (hst : (s.ti n).st = 1) :
    s.Does (.qpConfig l) (fun t => s.Answered t l c 2 0 ∧ t.ti n = s.ti n) :=
  h.does_fail hc rfl (by simp [hst])

/-- A queue pair without work is disabled at once. -/
theorem State.Runs.does_qpDisable {y : Qp} (h : s.Runs l 0x12 c n) (hc : s.Calm) (hy : s.qp (n + 2048 * c.byte 8) = some y)
    (hpend : y.pend = []) (hbusy : y.busy = false) : s.Does (.qpDisable l) (fun t =>
      t.qp (n + 2048 * c.byte 8) = none ∧ s.Answered t l c 0 0) := by
  let k := n + 2048 * c.byte 8
  let c3 : AdmCmd := { c with ph := 3, due := 0, arg := k, result := 0 }
  let a := (s.setQp k (some { y with closing := true })).setAdm l { s.adm l with prog := [c3] }
  have hqp : a.qp k = some { y with closing := true } := qp_setQp ..
  have hlink : (a.ti (hTi k)).link = l := by
    have hTi : hTi k = n := hTi_handle ⟨n, h.lt⟩ _
    rw [hTi]
    exact ti_setQp.1.trans h.link
  have hadm : a.adm l = { s.adm l with prog := [c3] } := adm_setAdm ..
  have hp : ((a.setQp k none).adm l).prog = [c3] := congrArg Adm.prog hadm
  have hpoll : a.qpClosePoll k = (a.setQp k none).admFinish l 0 0 0 := by
    simp only [qpClosePoll, hqp, hpend, hbusy, hlink, hp]
    simp [c3]
  have hrun : s.qpDisable l = (a.setQp k none).admFinish l 0 0 0 := by
    have hph : (s.setQp k (some { y with closing := true })).admPhase l 0 3 0 k 0 = a := admPhase_one h.prog
    rw [qpDisable, h.admRun]
    dsimp only
    rw [hy]
    exact (congrArg (State.qpClosePoll · k) hph).trans hpoll
  have hkept : (s.setQp k (some { y with closing := true })).RingKept a l := ringKept_setAdm rfl
  exact hc.does_answer (congrArg (State.done · s) hrun) hp (fun _ _ _ ha => ⟨qp_setQp .., ⟨ha.prog, ha.tail, ha.entry⟩⟩)
    ((untraced_setQp.trans untraced_setAdm).trans untraced_setQp) ((ringKept_setQp.trans hkept).trans ringKept_setQp)

/-! ### Quotas, vectors, telemetry and forecasts -/

theorem State.Runs.does_setCtxQuota_grow (h : s.Runs l 0x13 c n) (hc : s.Calm) (hmax : c.num 8 2 ≤ s.ctxMax)
    (hpool : s.pool n (·.ctxQuota) + c.num 8 2 ≤ 16384) (hle : (s.ti n).ctxQuota ≤ c.num 8 2) :
    s.Does (.setCtxQuota l) (fun t => s.Waits t l c (c.num 8 2) 0) :=
  h.does_wait hc rfl (by simp only [Nat.not_lt.2 hmax, Nat.not_lt.2 hpool, hle, if_false, if_true])

theorem State.Runs.does_setCtxQuota_shrink (h : s.Runs l 0x13 c n) (hc : s.Calm) (hmax : c.num 8 2 ≤ s.ctxMax)
    (hpool : s.pool n (·.ctxQuota) + c.num 8 2 ≤ 16384) (hlt : c.num 8 2 < (s.ti n).ctxQuota) (hctx : s.pcie.ctxo = []) :
    s.Does (.setCtxQuota l) (fun t => t.ti n = { s.ti n with ctxQuota := c.num 8 2 } ∧ s.Answered t l c 0 0) := by
  refine h.does_setTi hc rfl ?_
  have hdrain : (s.setTi n { s.ti n with ctxQuota := c.num 8 2 }).drainCtx n (c.num 8 2) = none := by
    unfold drainCtx
    rw [show (s.setTi n { s.ti n with ctxQuota := c.num 8 2 }).pcie.ctxo = [] from hctx]
    rfl
  simp only [Nat.not_lt.2 hmax, Nat.not_lt.2 hpool, Nat.not_le.2 hlt, hdrain, if_false, Option.isNone_none, if_true]

theorem State.Runs.does_setBufQuota (h : s.Runs l 0x15 c n) (hc : s.Calm) (hle : c.num 8 4 ≤ 2097152) :
    s.Does (.setBufQuota l) (fun t => s.Waits t l c (c.num 8 4) 0) :=
  h.does_wait hc rfl (if_neg (Nat.not_lt.2 hle))

theorem State.Runs.does_setVectors (h : s.Runs l 0x16 c n) (hc : s.Calm) (h256 : c.num 10 2 ≤ 256)
    (hrange : c.num 8 2 + c.num 10 2 ≤ if s.twoLinks then 2048 else 4096) (htis : s.pcie.tis = [(n, s.ti n)]) (hq : (s.ti n).qps = []) :
    s.Does (.setVectors l) (fun t => s.Waits t l c 0 0) :=
  h.does_wait hc rfl (by
    have hno : ¬ (256 < c.num 10 2 ∨ (if s.twoLinks then 2048 else 4096) < c.num 8 2 + c.num 10 2) := by omega
    simp [hno, htis, hq])

/-! ### Keys -/

/-- The slot a key command names (R144). -/
def AdmCmd.keySlot (c : AdmCmd) : Nat := c.num 8 2 % 32768

/-- TI `n` may have slot `k`: it is in the range of the admin rings, and not VALID under another owner (R144). -/
def State.KeyMine (s : State) (n k : Nat) : Prop :=
  s.rf .pcie R.ADM_KEY_RANGE F.ADM_KEY_RANGE_FIRST ≤ k ∧
    k < s.rf .pcie R.ADM_KEY_RANGE F.ADM_KEY_RANGE_FIRST + s.rf .pcie R.ADM_KEY_RANGE F.ADM_KEY_RANGE_COUNT ∧
    ((mapGet {} s.eth.keys k).valid = false ∨ (mapGet {} s.eth.keys k).ti = n)

theorem State.keyGrant_iff : s.keyGrant n c.keySlot = true ↔ s.KeyMine n c.keySlot := by
  have hlt : c.keySlot < 32768 := Nat.mod_lt _ (by decide)
  simp [keyGrant, KeyMine, hlt, and_assoc]

theorem State.Runs.does_keyWrite (h : s.Runs l 0x20 c n) (hc : s.Calm) (hk : s.KeyMine n c.keySlot) : s.Does (.keyWrite l) (fun t =>
    mapGet {} t.eth.keys c.keySlot = ⟨(c.data.drop 16).take 32, BitVec.ofNat 32 (c.num 12 4), n, decide (c.byte 10 % 2 = 1), true⟩ ∧
    s.Answered t l c 0 0) :=
  h.does_answer hc rfl (if_pos (keyGrant_iff.2 hk)) rfl (fun _ _ _ ha => ⟨mapGet_mapSet_self .., ha⟩) untraced_setKey ringKept_setKey

theorem State.Runs.does_keyClear (h : s.Runs l 0x21 c n) (hc : s.Calm) (hk : s.KeyMine n c.keySlot) : s.Does (.keyClear l) (fun t =>
    (mapGet {} t.eth.keys c.keySlot).key = [] ∧ (mapGet {} t.eth.keys c.keySlot).valid = false ∧ s.Answered t l c 0 0) :=
  h.does_answer hc rfl (if_pos (keyGrant_iff.2 hk)) rfl
    (fun _ _ _ ha => ⟨congrArg KeySlot.key (mapGet_mapSet_self ..), congrArg KeySlot.valid (mapGet_mapSet_self ..), ha⟩)
    untraced_setKey ringKept_setKey

theorem State.Runs.does_keyWrite_denied (h : s.Runs l 0x20 c n) (hc : s.Calm) (hk : ¬ s.KeyMine n c.keySlot) :
    s.Does (.keyWrite l) (fun t => s.Answered t l c 6 0 ∧ t.ti n = s.ti n) :=
  h.does_fail hc rfl (if_neg (hk ∘ keyGrant_iff.1))

theorem State.Runs.does_keyClear_denied (h : s.Runs l 0x21 c n) (hc : s.Calm) (hk : ¬ s.KeyMine n c.keySlot) :
    s.Does (.keyClear l) (fun t => s.Answered t l c 6 0 ∧ t.ti n = s.ti n) :=
  h.does_fail hc rfl (if_neg (hk ∘ keyGrant_iff.1))

end Sys2Proof.Machine

/-! Resets and destruction of TIs, and the threads that hold their packets (R160, R162). -/

namespace Sys2Proof.Machine

set_option Elab.async false

variable {s t x : State} {l : Fin 2} {c : AdmCmd} {m n f k reason : Nat} {rx : Bool} {r : TiReset}

/-! ### What drops leave of a TI -/

/-- From `s` to `t` nothing of TI `n` has changed but the cells charged to it. -/
def State.TiKept (n : Nat) (s t : State) : Prop := ∃ k, t.ti n = { s.ti n with cells := k }

theorem State.TiKept.of_tis (h : t.pcie.tis = s.pcie.tis) : s.TiKept n t := ⟨(s.ti n).cells, by rw [ti, ti, h]⟩

theorem State.TiKept.trans (h : TiKept n s t) (h' : TiKept n t x) : TiKept n s x := by
  obtain ⟨j, hj⟩ := h
  obtain ⟨k, hk⟩ := h'
  exact ⟨k, by rw [hk, hj]⟩

theorem State.TiKept.foldl {α : Type} {g : State → α → State} (hg : ∀ s a, TiKept n s (g s a)) (as : List α) (s : State) :
    TiKept n s (as.foldl g s) := by
  induction as generalizing s with
  | nil => exact .of_tis rfl
  | cons a as ih => exact (hg s a).trans (ih _)

theorem State.tiKept_cells : TiKept n s (s.setTi m { s.ti m with cells := k }) := by
  obtain rfl | hm := eq_or_ne n m
  · exact ⟨k, ti_setTi ..⟩
  · exact ⟨(s.ti n).cells, mapGet_mapSet_ne _ _ _ _ hm⟩

theorem State.tis_pfcCheck : (s.pfcCheck k).pcie.tis = s.pcie.tis := by
  unfold pfcCheck
  dsimp only
  split
  · split
    · rfl
    · rfl
  · split
    · rfl
    · rfl

theorem State.tis_countDrop : (s.countDrop rx m reason).pcie.tis = s.pcie.tis := by
  have hcount : (s.tiCount m (if rx then 2 else 5) 1).pcie.tis = s.pcie.tis := congrArg PcieSt.tis elsewhere_tiCount.pcie
  unfold countDrop
  dsimp only
  split
  · exact hcount
  · exact hcount

theorem State.tiKept_release : TiKept n s (s.release f) := by
  unfold release
  extract_lets y s1 u s2
  have h2 : TiKept n s s2 := by
    unfold s2
    split
    · exact .trans (.of_tis rfl) tiKept_cells
    · exact .of_tis rfl
  split
  · exact h2
  · exact h2.trans (.of_tis tis_pfcCheck)

theorem State.tiKept_drop : TiKept n s (s.drop f reason) :=
  .trans (.trans (.of_tis tis_countDrop) tiKept_release) (.of_tis rfl)

/-! ### The squash (R160) -/

/-- The squash of a TI takes its queue pairs, and of its record no more than cells besides. -/
theorem State.ti_squash (s : State) (n : Nat) : ∃ k, (s.squash n).ti n = { s.ti n with qps := [], cells := k } := by
  unfold squash
  extract_lets threads mine tags pcie jobs rec pairs gone fs eth left
  have hthreads : threads.pcie.tis = s.pcie.tis := by
    refine foldl_keeps (fun u => u.pcie.tis) (fun u e => ?_) _
    rfl
  have htags : tags.pcie.tis = threads.pcie.tis := by
    refine foldl_keeps (fun u => u.pcie.tis) (fun u e => ?_) _
    dsimp only
    split
    · split
      · split
        · rfl
        · rfl
      · rfl
    · rfl
  have hpairs : left.ti n = { s.ti n with qps := [] } := by
    have hjobs : jobs.ti n = s.ti n := congrArg (mapGet ({} : Ti) · n) (htags.trans hthreads)
    exact (jobs.ti_setTi n { jobs.ti n with qps := [] }).trans (by rw [hjobs])
  obtain ⟨k, hk⟩ := TiKept.foldl (n := n) (fun u f => tiKept_drop (f := f) (reason := dTiReset) (s := u)) fs left
  exact ⟨k, hk.trans (by rw [hpairs])⟩

/-- The record of a TI whose reset or destruction `r` begins with the squash. -/
theorem State.ti_startReset (hs : r.squash = true) : ∃ k,
    (s.startReset n r).ti n = { s.ti n with st := if r.destroy then 4 else 3, rst := some r, qps := [], cells := k } := by
  obtain ⟨k, hk⟩ := (s.setTi n { s.ti n with st := if r.destroy then 4 else 3, rst := some r }).ti_squash n
  rw [ti_setTi] at hk
  exact ⟨k, by rw [startReset, if_pos hs, hk]⟩

theorem State.startReset_drain (hs : r.squash = false) :
    s.startReset n r = s.setTi n { s.ti n with st := if r.destroy then 4 else 3, rst := some r } := by
  simp [startReset, hs]

/-- A command that begins a squash: whatever the drops reach, the TI's record is as the squash leaves it. -/
theorem State.does_startReset {i : Instr} {P : State → Prop} (he : exec i s = (x.startReset n r).done s) (hs : r.squash = true)
    (hP : ∀ t k, t.ti n = { x.ti n with st := if r.destroy then 4 else 3, rst := some r, qps := [], cells := k } → P t) : s.Does i P := by
  obtain ⟨k, hk⟩ := ti_startReset (s := x) (n := n) hs
  exact does_of_done he fun y _ _ hp _ => hP y k (.trans (by rw [ti, ti, hp]) hk)

/-! ### TI_DESTROY, TI_RESET and DRAIN_TIMEOUT -/

theorem State.Runs.does_tiDestroy (h : s.Runs l 2 c n) : s.Does (.tiDestroy l) (fun t => (t.ti n).st = 4 ∧ (t.ti n).qps = []) :=
  does_startReset (congrArg (State.done · s) h.admRun) rfl fun t k ht => by
    rw [ht]
    exact ⟨rfl, rfl⟩

/-- The reset that TI_RESET asks for (R160). -/
def State.resetAsked (s : State) (c : AdmCmd) : TiReset :=
  { squash := c.byte 8 % 2 == 1, since := s.mono, limit := s.mono + 1000000 * (if c.num 12 4 = 0 then 100 else c.num 12 4) }

theorem State.Runs.tiReset_eq (h : s.Runs l 3 c n) (hms : c.num 12 4 ≤ 10000) :
    s.tiReset l = (s.admPhase l 0 4 0 0 0).startReset n (s.resetAsked c) := by
  have hle : ¬ 10000 < (if c.num 12 4 = 0 then 100 else c.num 12 4) := by
    split
    · decide
    · exact Nat.not_lt.2 hms
  exact h.admRun.trans (if_neg hle)

theorem State.Runs.does_tiReset_drain (h : s.Runs l 3 c n) (hc : s.Calm) (hms : c.num 12 4 ≤ 10000) (hsq : c.byte 8 % 2 = 0) :
    s.Does (.tiReset l) (fun t => t.ti n = { s.ti n with st := 3, rst := some { s.resetAsked c with squash := false } }) := by
  have hs : s.resetAsked c = { s.resetAsked c with squash := false } := by simp [resetAsked, hsq]
  have hx : s.tiReset l = (s.admPhase l 0 4 0 0 0).setTi n { s.ti n with st := 3, rst := some { s.resetAsked c with squash := false } } := by
    rw [h.tiReset_eq hms, hs, startReset_drain rfl]
    rfl
  exact hc.does (congrArg (State.done · s) hx) (.trans untraced_setAdm untraced_setTi) (ti_setTi ..)

theorem State.Runs.does_tiReset_squash (h : s.Runs l 3 c n) (hms : c.num 12 4 ≤ 10000) (hsq : c.byte 8 % 2 = 1) :
    s.Does (.tiReset l) (fun t => (t.ti n).st = 3 ∧ (t.ti n).qps = [] ∧ (t.ti n).rst = some { s.resetAsked c with squash := true }) := by
  have hs : s.resetAsked c = { s.resetAsked c with squash := true } := by simp [resetAsked, hsq]
  refine does_startReset (congrArg (State.done · s) (h.tiReset_eq hms)) (congrArg TiReset.squash hs) fun t k ht => ?_
  rw [ht, ← hs]
  exact ⟨rfl, rfl, rfl⟩

/-- At its limit a draining reset turns into a squash. -/
theorem State.does_drainTimeout {k : Fin 2048} (hr : (s.ti k).rst = some r) (hsq : r.squash = false) (hlim : r.limit ≤ s.mono) :
    s.Does (.drainTimeout k) (fun t => (t.ti k).rst = some { r with squash := true, turned := true } ∧ (t.ti k).qps = []) := by
  have hx : s.drainTimeout k = s.startReset k { r with squash := true, turned := true } := by
    simp [drainTimeout, hr, hsq, hlim]
  exact does_startReset (congrArg (State.done · s) hx) rfl fun t j ht => by
    rw [ht]
    exact ⟨rfl, rfl⟩

/-! ### Threads that hold a packet of the TI -/

theorem State.sedge_reap : (s.reap f).sedge = s.sedge := by
  unfold reap
  split
  · rfl
  · rfl

/-- A thread that leaves no reservation is FREE at its end. -/
theorem State.st_threadFree (hr : (s.thread k).rsv = []) : ((s.threadFree k reason).thread k).st = 0 := by
  unfold threadFree
  extract_lets y
  have hy : y.rsv = [] := hr
  rw [hy, List.foldl_nil]
  dsimp -zeta only
  extract_lets s1 s2 s3 s4 s5
  have h3 : (s3.thread k).st = 0 := congrArg Thread.st (mapGet_mapSet_self ..)
  have h4 : s4.sedge = s3.sedge := by
    unfold s4
    split
    · exact sedge_reap
    · rfl
  have hend : (s4.thread k).st = 0 := by rw [thread, h4]; exact h3
  split
  · exact hend
  · exact hend

theorem State.does_tiResetThreadTimeout {th : Fin 1024} (hf : (s.thread th).pkt = some f) (hti : (s.frame f).ti = n)
    (hst : (s.thread th).st ≠ 0) (hrsv : (s.thread th).rsv = []) (hr : (s.ti n).rst = some r) (hsq : r.squash = true)
    (hlim : r.since + 100000 ≤ s.mono) : s.Does (.tiResetThreadTimeout th) (fun t => (t.thread th).st = 0) := by
  have hx : s.tiThreadEnd th = s.threadKill th := by simp [tiThreadEnd, hf, hti, hr, hst, hsq, hlim]
  have hfree : ((s.threadKill th).thread th).st = 0 := st_threadFree hrsv
  refine does_of_done (congrArg (State.done · s) hx) fun y hy _ _ _ => ?_
  rw [thread, hy]
  exact hfree

end Sys2Proof.Machine

/-! What comes later: growth at its boundary, and the end of resets and destructions (R157, R161, R162). -/

namespace Sys2Proof.Machine

set_option Elab.async false

variable {s t x : State} {l : Fin 2} {c : AdmCmd} {n : Nat} {r : TiReset} {P : State → Prop}

theorem State.Does.mono {i : Instr} {Q : State → Prop} (h : s.Does i P) (hPQ : ∀ t, P t → Q t) : s.Does i Q := by
  obtain ⟨t, ht, hP⟩ := h
  exact ⟨t, ht, hPQ t hP⟩

/-! ### RESIZE_APPLY (R157) -/

/-- The command in progress waits for a boundary that has come; its TI is `n`. -/
structure State.Due (s : State) (l : Fin 2) (c : AdmCmd) (n : Nat) : Prop where
  prog : (s.adm l).prog = [c]
  waits : c.ph = 1
  due : c.due ≤ s.now
  ti : n = c.num 4 2 % 2048

theorem State.Due.resizeApply (h : s.Due l c n) : s.resizeApply l = (s.applyResize c).admFinish l 0 0 c.result := by
  simp [State.resizeApply, h.prog, h.waits, h.due]

/-- A change of the TI's record takes effect, and the command is answered. -/
theorem State.Due.does_setTi {y : Ti} (h : s.Due l c n) (hc : s.Calm) (hx : s.applyResize c = s.setTi n y) :
    s.Does (.resizeApply l) (fun t => t.ti n = y ∧ s.Answered t l c 0 c.result) :=
  hc.does_answer (x := s.setTi n y) (by rw [← hx, ← h.resizeApply]; rfl) h.prog (fun _ _ _ ha => ⟨s.ti_setTi n y, ha⟩)
    untraced_setTi ringKept_setTi

theorem State.Due.does_qpCount (h : s.Due l c n) (hc : s.Calm) (hop : c.op = 0x10) : s.Does (.resizeApply l) (fun t =>
    ((t.ti n).qpCount = c.arg ∧ ∀ q, c.arg ≤ q → mapGet none (t.ti n).qps q = none) ∧ s.Answered t l c 0 c.result) := by
  refine (h.does_setTi hc (by simp only [applyResize, hop, ← h.ti]; rfl)).mono fun t ht => ?_
  obtain ⟨hti, ha⟩ := ht
  refine ⟨⟨by rw [hti], fun q hq => ?_⟩, ha⟩
  rw [hti, mapGet_mapDrop, if_pos (decide_eq_true hq)]

theorem State.Due.does_ctxQuota (h : s.Due l c n) (hc : s.Calm) (hop : c.op = 0x13) : s.Does (.resizeApply l) (fun t =>
    t.ti n = { s.ti n with ctxQuota := c.arg } ∧ s.Answered t l c 0 c.result) :=
  h.does_setTi hc (by simp only [applyResize, hop, ← h.ti])

theorem State.Due.does_bw (h : s.Due l c n) (hc : s.Calm) (hop : c.op = 0x14) : s.Does (.resizeApply l) (fun t =>
    (t.rd .eth R.SHAPE n = BitVec.ofNat 32 c.arg ∧ (t.shape n).active = BitVec.ofNat 32 c.arg) ∧ s.Answered t l c 0 c.result) := by
  have hn : n < 2048 := h.ti ▸ Nat.mod_lt _ (by decide)
  have hx : s.applyResize c = s.shapeSet n (BitVec.ofNat 32 c.arg) := by simp only [applyResize, hop, ← h.ti]
  exact hc.does_answer (x := s.shapeSet n (BitVec.ofNat 32 c.arg)) (by rw [← hx, ← h.resizeApply]; rfl) h.prog
    (fun _ _ _ ha => ⟨⟨rd_shapeSet .., active_shapeSet ..⟩, ha⟩) (untraced_shapeSet hn) (ringKept_shapeSet hn)

theorem State.Due.does_bufQuota (h : s.Due l c n) (hc : s.Calm) (hop : c.op = 0x15) : s.Does (.resizeApply l) (fun t =>
    t.ti n = { s.ti n with bufQuota := c.arg } ∧ s.Answered t l c 0 c.result) :=
  h.does_setTi hc (by simp only [applyResize, hop, ← h.ti])

theorem State.Due.does_vectors (h : s.Due l c n) (hc : s.Calm) (hop : c.op = 0x16) : s.Does (.resizeApply l) (fun t =>
    ((t.ti n).vecFirst = c.num 8 2 ∧ (t.ti n).vecCount = c.num 10 2) ∧ s.Answered t l c 0 c.result) := by
  refine (h.does_setTi hc (by simp only [applyResize, hop, ← h.ti]; rfl)).mono fun t ht => ?_
  obtain ⟨hti, ha⟩ := ht
  rw [hti]
  exact ⟨⟨rfl, rfl⟩, ha⟩

theorem State.Due.does_telem (h : s.Due l c n) (hc : s.Calm) (hop : c.op = 0x17) : s.Does (.resizeApply l) (fun t =>
    t.ti n = { s.ti n with telem := c.num 16 32 } ∧ s.Answered t l c 0 c.result) :=
  h.does_setTi hc (by simp only [applyResize, hop, ← h.ti])

theorem State.Due.does_fcast (h : s.Due l c n) (hc : s.Calm) (hop : c.op = 0x18) : s.Does (.resizeApply l) (fun t =>
    t.ti n = { s.ti n with fcast := c.num 16 32 } ∧ s.Answered t l c 0 c.result) :=
  h.does_setTi hc (by simp only [applyResize, hop, ← h.ti])

/-! ### The completion that a reset owes (R161, R162) -/

theorem State.resetOwed_one {result : Nat} (hp : (s.adm l).prog = [c]) (hph : c.ph = 4) (hti : c.num 4 2 % 2048 = n)
    (hl : (s.ti n).link = l) : s.resetOwed n result = s.admFinish l 0 0 result := by
  simp [resetOwed, hl, hp, hph, hti]

/-- An answer depends on the rings and on what has been sent. -/
theorem State.Answered.of_rings {y : State} {status result : Nat} (h : s.Answered t l c status result) (hadm : y.pcie.adm = t.pcie.adm)
    (hout : y.out = t.out) : s.Answered y l c status result :=
  have hl : y.adm l = t.adm l := by rw [adm, adm, hadm]
  ⟨hl ▸ h.prog, hl ▸ h.tail, hout ▸ h.entry⟩

/-- `s` with other cached translations. -/
def State.withAtc (s : State) (A : Map (Option Atc)) : State := { s with pcie := { s.pcie with atc := A } }

theorem State.untraced_withAtc {A : Map (Option Atc)} : s.Untraced (s.withAtc A) := {}

theorem State.ringKept_withAtc {A : Map (Option Atc)} : s.RingKept (s.withAtc A) l := {}

/-- The cached translations of every TI but `n`. -/
def State.atcWithout (s : State) (n : Nat) : Map (Option Atc) := s.pcie.atc.filter (fun e => match e.2 with
  | some a => a.ti != n
  | none => false)

/-- `s` with other key slots. -/
def State.withKeys (s : State) (K : Map KeySlot) : State := { s with eth := { s.eth with keys := K } }

theorem State.untraced_withKeys {K : Map KeySlot} : s.Untraced (s.withKeys K) := {}

theorem State.ringKept_withKeys {K : Map KeySlot} : s.RingKept (s.withKeys K) l := {}

section
variable {k : Fin 2048} (hr : (s.ti k).rst = some r) (hp : (s.adm l).prog = [c]) (hph : c.ph = 4) (hti : c.num 4 2 % 2048 = k.val)
  (hl : (s.ti k).link = l) (hq : s.tiQuiet k = true)
include hr hp hph hti hl hq

theorem State.Calm.does_tiResetComplete (hc : s.Calm) (hd : r.destroy = false) : s.Does (.tiResetComplete k) (fun t =>
    t.ti k = { s.ti k with st := if (s.ti k).pasid.isSome then 2 else 1, rst := none, qps := [] } ∧
    s.Answered t l c 0 (if r.turned then 1 else 0)) := by
  generalize hy : { s.ti k with st := if (s.ti k).pasid.isSome then 2 else 1, rst := none, qps := [] } = y
  have hlink : y.link = l := hy ▸ hl
  have hx : s.resetComplete k = ((s.withAtc (s.atcWithout k)).setTi k y).resetOwed k (b2n r.turned) := by
    simp only [resetComplete, hr, hd, hq, Bool.not_false, and_self, if_true, hy]
    rfl
  have howed := resetOwed_one (s := (s.withAtc (s.atcWithout k)).setTi k y) (l := l) (result := b2n r.turned) hp hph hti (by rw [ti_setTi, hlink])
  exact hc.does_answer (congrArg (State.done · s) (hx.trans howed)) hp (fun _ _ _ ha => ⟨ti_setTi _ k y, ha⟩)
    (untraced_withAtc.trans untraced_setTi) (ringKept_withAtc.trans ringKept_setTi)

theorem State.Calm.does_tiDestroyComplete (hc : s.Calm) (hd : r.destroy = true) (ho : r.owed = true) : s.Does (.tiDestroyComplete k) (fun t =>
    t.ti k = { cells := (s.ti k).cells } ∧ t.rd .eth R.SHAPE k = 1 ∧ (∀ e ∈ t.eth.keys, e.2.ti ≠ k.val) ∧ s.Answered t l c 0 0) := by
  generalize hK : s.eth.keys.filter (fun e => e.2.ti != k.val) = K
  have hkeys : ∀ e ∈ K, e.2.ti ≠ k.val := by
    subst hK
    exact fun e he => bne_iff_ne.1 (List.mem_filter.1 he).2
  obtain ⟨A, M, O, hw, ha⟩ := admFinish_answers (status := 0) (result := 0) (ringKept_withKeys (s := s) (K := K) (l := l)) hp
  generalize hz : (s.withKeys K).withRings A M O = z at hw ha
  have hx : s.destroyComplete k = (z.setTi k { cells := (z.ti k).cells }).shapeSet k 1 := by
    have howed : (s.withKeys K).resetOwed k 0 = z := (resetOwed_one (s := s.withKeys K) hp hph hti hl).trans hw
    simp only [destroyComplete, hr, hd, ho, hq, and_self, if_true, hK, ← howed]
    rfl
  have hcells : (z.ti k).cells = (s.ti k).cells := by rw [← hz]; rfl
  rw [hcells] at hx
  have hu : s.Untraced z := hz ▸ untraced_withKeys.trans untraced_withRings
  refine hc.does (congrArg (State.done · s) hx) ((hu.trans untraced_setTi).trans (untraced_shapeSet k.isLt)) ⟨?_, rd_shapeSet .., ?_, ?_⟩
  · exact ti_shapeSet.trans (ti_setTi ..)
  · rw [← hz]
    exact hkeys
  · exact ha.of_rings rfl rfl

end

end Sys2Proof.Machine

/-! The drain of the contexts above a shrinking quota (R159). -/

namespace Sys2Proof.Machine

set_option Elab.async false

variable {s t y : State} {l : Fin 2} {c : AdmCmd} {n a b k i o g q : Nat} {d : List Byte} {w v : Word} {r : Req}

/-! ### Memory outside DRAM -/

/-- Scratch ends below the engine banks in the map (R21). -/
theorem State.lt_of_place_scratch (h : s.place a = .scratch i o) : a < 0xC0E000000 := by
  by_contra hn
  rw [State.place, if_neg (by omega), if_neg hn] at h
  dsimp only at h
  split_ifs at h

/-- Where nothing is written memory reads as before. -/
theorem State.Wrote.bytes_of_apart (h : s.Wrote a d t) (hb : b + k ≤ a ∨ a + d.length ≤ b) : t.bytes b k = s.bytes b k := by
  refine List.map_congr_left fun j hj => h.byte_of_apart ?_
  have := List.mem_range.1 hj
  omega

/-- A granted write of the device to scratch leaves its bytes there, and no register, thread, frame or record of the complex changed. -/
theorem State.ScratchFor.devWrite (h : s.ScratchFor r none a .write) : ∃ t, s.devWrite r a d = (none, t) ∧ s.Wrote a d t ∧ s.Elsewhere t := by
  obtain ⟨⟨i, o, hp⟩, -, hg, hdown⟩ := h
  have hx : s.devWrite r a d = (none, s.memStore r.master.toNat (d.length / 64 + 2) a d false) := by
    simp only [State.devWrite, hp, hg, hdown]
    rfl
  have hy : (s.devWrite r a d).2 = s.memStore r.master.toNat (d.length / 64 + 2) a d false := congrArg Prod.snd hx
  have hlen : d.length ≤ 64 * (d.length / 64 + 2) - a % 64 := by omega
  exact ⟨_, hx, wrote_memStore (le_of_place_scratch hp) hlen, hy ▸ elsewhere_devWrite⟩

/-! ### CONTEXT_DRAIN -/

/-- `s` with other owners of contexts. -/
def State.withCtxo (s : State) (C : Map Word) : State := { s with pcie := { s.pcie with ctxo := C } }

/-- The command in progress drains contexts of TI `n`, the only context recorded being one to drain: `g`, with owner word `w`. -/
structure State.Drains (s : State) (l : Fin 2) (c : AdmCmd) (n g : Nat) (w : Word) : Prop where
  prog : (s.adm l).prog = [c]
  drain : c.ph = 2
  ti : n = c.num 4 2 % 2048
  only : s.pcie.ctxo = [(g, w)]
  valid : w.bit 31 = true
  owner : w.toNat / 65536 % 2048 = n
  above : c.arg ≤ w.toNat % 4096
  loose : (s.ctxWord g 0).bit 30 = false

/-- The owner word with VALID and HELD off. -/
theorem loosened_bits (v : Word) : (v &&& 0x3FFFFFFF).bit 31 = false ∧ (v &&& 0x3FFFFFFF).bit 30 = false := by
  constructor
  · rw [bit_eq_getLsbD, BitVec.getLsbD_and]
    exact Bool.and_false _
  · rw [bit_eq_getLsbD, BitVec.getLsbD_and]
    exact Bool.and_false _

theorem State.Drains.contextDrain (h : s.Drains l c n g w)
    (hy : s.devWrite (s.reqOf (.group (g / 256 / 4))) (s.ovfAddr n (w.toNat % 4096)) (s.bytes (ctxAddr g 0) 512) = (none, y)) (hk : s.Elsewhere y) :
    s.contextDrain l = ((y.setCtxWord g 0 (y.ctxWord g 0 &&& 0x3FFFFFFF)).withCtxo []).admFinish l 0 0 (c.result + 1) := by
  have hslot : natBits w.toNat 11 0 = w.toNat % 4096 := natBits_low ..
  have hti : natBits w.toNat 26 16 = n := by
    rw [natBits, Nat.shiftRight_eq_div_pow]
    exact h.owner
  obtain ⟨M, hM⟩ := y.setCtxWord_eq g 0 (y.ctxWord g 0 &&& 0x3FFFFFFF)
  have hctxo : (y.setCtxWord g 0 (y.ctxWord g 0 &&& 0x3FFFFFFF)).pcie.ctxo = [(g, w)] := by
    rw [hM]
    exact (congrArg PcieSt.ctxo hk.pcie).trans h.only
  have herase : mapSet 0 [(g, w)] g 0 = ([] : Map Word) := by simp [mapSet, mapErase]
  unfold State.contextDrain
  extract_lets p
  generalize hsel : List.findSome? _ _ = sel
  have hsome : sel = some (0, c, g, w) := by
    rw [← hsel]
    simp [p, h.prog, h.drain, h.only, h.valid, hti, ← h.ti, h.above, h.loose]
  rw [hsome]
  dsimp -zeta only
  rw [hslot, ← h.ti]
  extract_lets m u src v
  have hu : u = y.setCtxWord g 0 (y.ctxWord g 0 &&& 0x3FFFFFFF) := by simp only [u, m, hy]
  have hv : v = (y.setCtxWord g 0 (y.ctxWord g 0 &&& 0x3FFFFFFF)).withCtxo [] := by
    simp only [v, src, hu, hctxo, herase]
    rfl
  rw [hv]
  exact if_pos rfl

/-- The context's 512 bytes go to the TI's overflow area, and the context is free. -/
theorem State.Drains.does_contextDrain (h : s.Drains l c n g w) (hc : s.Calm)
    (ho : s.ScratchFor (s.reqOf (.group (g / 256 / 4))) none (s.ovfAddr n (w.toNat % 4096)) .write) : s.Does (.contextDrain l) (fun t =>
      t.bytes (s.ovfAddr n (w.toNat % 4096)) 512 = s.bytes (ctxAddr g 0) 512 ∧ (t.ctxWord g 0).bit 31 = false ∧
      (t.ctxWord g 0).bit 30 = false ∧ t.pcie.ctxo = [] ∧ s.Answered t l c 0 (c.result + 1)) := by
  obtain ⟨y, hy, hw, hk⟩ := ho.devWrite (d := s.bytes (ctxAddr g 0) 512)
  have hx := h.contextDrain hy hk
  obtain ⟨⟨_, _, hp⟩, -, -, -⟩ := ho
  have hlow := lt_of_place_scratch hp
  generalize s.ovfAddr n (w.toNat % 4096) = o at hy hw hlow hx ⊢
  have hlen : (s.bytes (ctxAddr g 0) 512).length = 512 := by simp [State.bytes]
  have hcopied : y.bytes o 512 = s.bytes (ctxAddr g 0) 512 := by
    have := hw.bytes
    rwa [hlen] at this
  have hkept : (y.setCtxWord g 0 (y.ctxWord g 0 &&& 0x3FFFFFFF)).bytes o 512 = y.bytes o 512 :=
    (y.wrote_setBytes _ _).bytes_of_apart (.inl (by simp only [ctxAddr]; omega))
  have hword := y.ctxWord_setCtxWord g 0 (y.ctxWord g 0 &&& 0x3FFFFFFF)
  obtain ⟨M, hM⟩ := y.setCtxWord_eq g 0 (y.ctxWord g 0 &&& 0x3FFFFFFF)
  generalize y.setCtxWord g 0 (y.ctxWord g 0 &&& 0x3FFFFFFF) = z at hx hkept hword hM
  obtain ⟨h31, h30⟩ := loosened_bits (y.ctxWord g 0)
  have hpcie : z.pcie.adm = s.pcie.adm := by rw [hM]; exact congrArg PcieSt.adm hk.pcie
  have hregs : z.regs = s.regs := by rw [hM]; exact hw.regs
  have huz : y.Untraced z := by rw [hM]; exact {}
  have hu : s.Untraced (z.withCtxo []) := (hw.untraced.trans huz).trans {}
  have hadm : (z.withCtxo []).adm l = s.adm l := congrArg (mapGet ({} : Adm) · l) hpcie
  have hring : s.RingKept (z.withCtxo []) l := ⟨congrArg Adm.cqTail hadm, fun u => congrArg (fun R => mapGet _ R _) hregs⟩
  exact hc.does_answer (congrArg (State.done · s) hx) ((congrArg Adm.prog hadm).trans h.prog)
    (fun _ _ _ ha => ⟨hkept.trans hcopied, hword ▸ h31, hword ▸ h30, rfl, ha⟩) hu hring

end Sys2Proof.Machine

/-! The statement on tenant interfaces. -/

namespace Sys2Proof.Machine

set_option Elab.async false

/-- Settles O51: commands that end at once by the answer their end leaves (`does_answer`), over whatever they make of the TI's record;
squashes by what every drop keeps of a TI (`ti_squash`), drained contexts by the write to scratch (`Drains.contextDrain`). -/
theorem tenantInterfaces : Obligations.TenantInterfaces := by
  unfold Obligations.TenantInterfaces
  intro s l n c v hc
  dsimp only
  refine ⟨?rings, ?fetch, ?create, State.Runs.does_tiDestroy, ?reset, ?bind, ?qpCount, ?qpConfig, fun h => h.does_qpConfig_unbound hc, ?qpDisable,
    ?ctxQuota, fun h => h.does_wait hc rfl rfl, fun h => h.does_setBufQuota hc, fun h h256 hrange => h.does_setVectors hc h256 hrange,
    fun h => h.does_wait hc rfl rfl, fun h => h.does_wait hc rfl rfl, ?keys, ?resize, ?drain, ?resets⟩
  case rings =>
    refine fun hup => ⟨fun hin hs4 hs12 hq4 hq12 hsq hcq => ?_, fun hin _ => hc.does_admCqHeadWrite hup hin, hc.does_admCtlWrite hup⟩
    exact hc.does_admSqTailWrite hup hin hs4 hs12 hq4 hq12 hsq hcq
  case fetch => exact fun hen htail hroom hfree hlink htag hpage => hc.does_adminCommandFetch hen htail hroom hfree hlink htag hpage
  case create =>
    exact fun hp hph hw hop hti => ⟨hc.does_tiCreate hp hph hw hop hti, hc.does_tiCreate_elsewhere hp hph hw hop hti,
      hc.does_tiCreate_exists hp hph hw hop hti⟩
  case reset => exact fun h hms => ⟨h.does_tiReset_drain hc hms, h.does_tiReset_squash hms⟩
  case bind => exact fun h => ⟨h.does_unbind hc, h.does_bind hc, h.does_bind_bound hc⟩
  case qpCount => exact fun h => ⟨h.does_setQpCount hc, h.does_setQpCount_range hc⟩
  case qpConfig =>
    rintro _ h hst hnone hq - rfl hs6 hs16 hr6 hr16 hc6 hc16 hvec hmode hsq hrq hcq
    exact h.does_qpConfig hc hst hnone hq ⟨⟨hs6, hs16⟩, ⟨hr6, hr16⟩, ⟨hc6, hc16⟩, hvec, hmode, hsq, hrq, hcq⟩
  case qpDisable => exact fun y h _ hy hpend hbusy => h.does_qpDisable hc hy hpend hbusy
  case ctxQuota => exact fun h hmax hpool => ⟨h.does_setCtxQuota_grow hc hmax hpool, h.does_setCtxQuota_shrink hc hmax hpool⟩
  case keys =>
    exact ⟨fun h hk => h.does_keyWrite hc hk, fun h hk => h.does_keyClear hc hk,
      fun hk => ⟨fun h => h.does_keyWrite_denied hc hk, fun h => h.does_keyClear_denied hc hk⟩⟩
  case resize =>
    intro hp hph hdue hti
    have h : s.Due l c n := ⟨hp, hph, hdue, hti⟩
    exact ⟨h.does_qpCount hc, h.does_ctxQuota hc, h.does_bw hc, h.does_bufQuota hc, h.does_vectors hc, h.does_telem hc, h.does_fcast hc⟩
  case drain =>
    exact fun g w hp hph hti hctxo hbit how harg hheld ho => State.Drains.does_contextDrain ⟨hp, hph, hti, hctxo, hbit, how, harg, hheld⟩ hc ho
  case resets =>
    refine fun k x hr => ⟨State.does_drainTimeout hr, fun th f hf hti hst hrsv hsq hlim => ?_, fun hp hph hti hl hq => ?_⟩
    · exact State.does_tiResetThreadTimeout hf hti hst hrsv hr hsq hlim
    · exact ⟨hc.does_tiResetComplete hr hp hph hti hl hq, hc.does_tiDestroyComplete hr hp hph hti hl hq⟩

end Sys2Proof.Machine
